-- ==== Sys2Proof/Word.lean ====
section
/-! DEFINITION. The word types of the LM9: 64-bit words (R6, R54) and bytes. -/
namespace Sys2Proof

/-- A 64-bit word: a scalar register, a control register, an instruction word (R6, R51). -/
abbrev Word := BitVec 64

/-- One byte of any memory. -/
abbrev Byte := BitVec 8

end Sys2Proof
end

