-- ==== Sys2Proof/Syntax.lean ====
section
/-! DEFINITION. The commands of the block: `Instr` has one constructor per row of spec/opcode_table.json.
An operand that the spec bounds is a `Fin` or a bit vector of the spec's width, so that most ill-formed
commands cannot be written; what remains is checked in WellFormed.lean. A command that an outside party
causes (a peer, a host, the tray, a sensor) carries what that party supplies. -/
namespace Sys2Proof

/-- A logical core, 0 to 799 (R10). -/
abbrev CoreId := Fin 800
/-- A tenant partition's register window, 0 to 7 (R438). -/
abbrev Part := Fin 8
/-- A hardware sequence context, 0 to 16,383 (R139). -/
abbrev CtxId := Fin 16384
/-- A collective group of a job (R209). -/
abbrev Group := Fin 4096
/-- A fabric port. -/
abbrev Port := Fin 32

/-- The 64-byte payload of a journal entry, w8 to w15 of the entry (R382). -/
structure Payload where
  w0 : Word
  w1 : Word
  w2 : Word
  w3 : Word
  w4 : Word
  w5 : Word
  w6 : Word
  w7 : Word
deriving DecidableEq, Repr

/-- A dispatched journal entry: the function and ring that posted it, its JOB field and its payload (R382). -/
structure Post where
  port : Fin 2
  fn : Fin 9
  ring : Fin 8
  job : BitVec 16
  p : Payload
deriving DecidableEq, Repr

/-- Who writes a register: a host function through BAR0, or module firmware (R61, R379, R395). -/
inductive Writer where
  | host (port : Fin 2) (fn : Fin 9)
  | firmware
deriving DecidableEq, Repr

/-- A path over which a management or SPDM message arrives (R427): a PCIe function, or out of band. -/
inductive Path where
  | fn (port : Fin 2) (fn : Fin 9)
  | oob
deriving DecidableEq, Repr

/-- The unit the work scheduler admits: a micro-batch, or one chunk of it (R131). -/
structure MbKey where
  batch : BitVec 32
  mb : BitVec 16
  chunk : Fin 64
deriving DecidableEq, Repr

/-- A KCG descriptor that the work scheduler sets for a unit (R113, R114): core and descriptor, the stream ID, and the tensor:
activations or their gradients from a first token, as many elements to a row, from a first column; or a weight
gradient from a flat index, as many elements to a row as stored. -/
inductive KdTensor where
  | activation (token rowWidth column : Nat)
  | weight (flat rowLen : Nat)
deriving DecidableEq, Repr

/-- One KCG descriptor to set. -/
structure KdSet where
  core : CoreId
  n : Fin 16
  stream : BitVec 32
  tensor : KdTensor
deriving DecidableEq, Repr

/-- The micro-batch header of Table 4-1, with the layer shards that the micro-batch reads: those this module owns and, as
(module, shard), those it gathers from another owner (R125); and the KCG descriptors it needs (R114). -/
structure MbHeader where
  step : BitVec 16
  tokens : BitVec 23
  footMib : BitVec 20
  shards : List (Fin 4096)
  remote : List (BitVec 16 × Fin 4096)
  kds : List KdSet
deriving DecidableEq, Repr

/-- What completes in a forward pass: it begins to write a stash entry (layer, tensor, bytes, format of Table 2-10), it has
completed on a layer, or it has completed (R116, R118). -/
inductive FwdEnd where
  | writes (layer : Fin 4096) (slot : BitVec 8) (bytes : BitVec 40) (fmt : Fin 16)
  | layer (layer : Fin 4096)
  | unit
deriving DecidableEq, Repr

/-- What completes in a backward pass: a chunk's contribution to the K or V gradient entry of an earlier chunk (its layer and
tensor, the first element, the addends as W40, and the KCG stream and index base of their roundings, R132); the pass
through the layer of a shard, gathered from `owner` where that is another module; or the pass. -/
inductive BwdEnd where
  | kvGrad (chunk : Fin 64) (layer : Fin 4096) (slot : BitVec 8) (first : Nat) (vals : List (BitVec 40)) (stream : BitVec 32)
      (base : Nat)
  | layer (shard : Fin 4096) (owner : Option (BitVec 16))
  | unit
deriving DecidableEq, Repr

/-- What a report about a layer shard says (R125): at the owner, a member's admission or backward completion; at a member, that
the owner `owner` has taken its reference. -/
inductive VerReport where
  | admission
  | backward
  | granted (owner : BitVec 16)
deriving DecidableEq, Repr

/-- What waits past TRN.VER_TIMEOUT (R129). -/
inductive VerWait where
  | forward
  | update (shard : Fin 4096)
deriving DecidableEq, Repr

/-- How far a prefill has come (R137): a chunk of `last` + 1 tokens, of which more follow, or the last chunk, whose logits give
the first token. -/
inductive PrefillEnd where
  | chunk (last : Fin 65536)
  | first (logits : List (BitVec 32))
deriving DecidableEq, Repr

/-- How a shipment of KV pages ends (R138): handed over in place, received by the module of the decode pool, or failed; or
the pages of a context of another module (its module and handle there) have come to the decode pool here, or are given
up with that context. -/
inductive ShipEnd where
  | here
  | sent (module : BitVec 16)
  | failed
  | came (p : Part) (module : BitVec 16) (handle : BitVec 32) (pages : List (Byte × Bool))
  | left (p : Part) (module : BitVec 16) (handle : BitVec 32)
deriving DecidableEq, Repr

/-- A member's contribution to the vote of a turn (R186): its code, its digest of DIR, STEP and NAME, its rounds. -/
structure Vote where
  code : BitVec 16
  dir : Bool
  step : BitVec 16
  name : BitVec 48
  rounds : Nat
deriving DecidableEq, Repr

/-- One F4 tensor of a mapping descriptor (R179, R531): where its F8 elements and scale lie in the slot, and
where its F4 elements and E8M0 scales go in the F4 area. -/
structure F4Tensor where
  src : Nat
  scale : Nat
  f8b : Bool
  rows : Nat
  cols : Nat
  dst : Nat
  scales : Nat
deriving DecidableEq, Repr

/-- A stage queue: the boundary between pipeline stages and its direction (R199). -/
structure StageQ where
  boundary : Fin 63
  backward : Bool
deriving DecidableEq, Repr

/-- A gather that a mapping gives this member (R194, R195, R531): the layer, the gather group in rank order, the own piece in the
slot with its FP32 scale, F8B, and where the gathered copy goes and, where it is not widened, the scales. -/
structure GPiece where
  layer : Nat
  members : List (BitVec 16)
  off : Nat
  bytes : Nat
  scale : Nat
  f8b : Bool
  dst : BitVec 48
  dstScales : BitVec 48
deriving DecidableEq, Repr

/-- Where bytes of a tensor of an image lie in this member's slot (R531): so many from the first, at an offset of the slot. -/
structure SlotPlace where
  tensor : BitVec 32
  first : Nat
  bytes : Nat
  slot : Nat
deriving DecidableEq, Repr

/-- What a mapping descriptor gives this member (R531): core programs, KCG descriptors, the pool of each core (prefill or
decode, R137), gathers, its pipeline stage, stage queues with their depths, the layout of its slot, and its F4 tensors. -/
structure Mapping where
  programs : List (CoreId × List Byte)
  kds : List KdSet
  pools : List (CoreId × Bool)
  gathers : List GPiece
  stage : Option (Fin 64)
  queues : List (StageQ × Fin 65)
  layout : List SlotPlace
  f4 : List F4Tensor
deriving DecidableEq, Repr

/-- What the open exchange brings of another member (R202, R203, R220): its module ID, the code it contributes, and for a
WEIGHT_LOAD its source. -/
structure OpenPeer where
  module : BitVec 16
  code : BitVec 16
  src : Fin 4
deriving DecidableEq, Repr

/-- How a segment of an image comes to this member (R202 to R204): read by it as the source, from flash rather than the host,
whether the host read succeeds, and whether the first and the second read are corrupted; received from a source, or only its
header; a fragment of a stripe to keep; or rebuilt from fragments that other members keep. -/
inductive SegFrom where
  | read (flash readOk bad1 bad2 : Bool)
  | received (src : BitVec 16) (hdr : Payload) (data : List Byte)
  | header (src : BitVec 16) (hdr : Payload)
  | fragment (k : Fin 10) (data : List Byte)
  | rebuilt (hdr : Payload) (frags : List (Fin 10 × List Byte))
deriving DecidableEq, Repr

/-- Who posts a collective: a core by a COLL instruction, or the work scheduler with a descriptor of its own, in group 0
(Tables 7-2, 7-3). -/
inductive Poster where
  | core (c : CoreId) (w0 w1 : Word)
  | sched (p : Part) (seq : BitVec 32) (d : Payload)
deriving DecidableEq, Repr

/-- A collective, named by partition, group and sequence (R212). -/
structure CollKey where
  part : Part
  group : Group
  seq : BitVec 32
deriving DecidableEq, Repr

/-- A member's accumulators of R235 for one noise sum: the exact sum in units of 2^−314, and whether it received a NaN or
poisoned element, or an infinite one. -/
structure NoiseSum where
  acc : BitVec 640
  nan : Bool
  inf : Bool
deriving DecidableEq, Repr

/-- What the norm collective brings of another member (R248, R252): the fields whose digest it carries, and its 2 × NLAYERS W40
elements with their poison. -/
structure NormPeer where
  name : BitVec 48
  step : BitVec 16
  nlayers : BitVec 13
  nfskip : Bool
  params : List (BitVec 48)
  ln : List (BitVec 40 × Bool)
deriving DecidableEq, Repr

/-- What a member's probe after the group timeout finds (R239). -/
inductive ProbeFind where
  | notPosted
  | digestDiffers
  | running
  | noAnswer
deriving DecidableEq, Repr

/-- The transport header of Table 13-4 (the fields a receiver reads), with the poison bit 56 of w0 (R451). -/
structure THdr where
  job : BitVec 16
  src : BitVec 16
  dst : BitVec 16
  kind : BitVec 4
  keyIdx : Fin 16
  ctr : Word
  seq : BitVec 32
  group : Group
  chunk : BitVec 24
  level : Fin 4
  addr : BitVec 48
  bytes : BitVec 40
  poisoned : Bool
deriving DecidableEq, Repr

/-- What the payload of a chunk message holds, once decrypted: the partial vector of `n` ranks in normal mode, every
contribution of one rank in exact mode, bytes for the other kinds, a gathered piece with its FP32 scale, and a Carve move's
bytes. Each list of elements carries, element by element, whether it is poisoned (R228, R451). -/
inductive ChunkData where
  | elems (rank n : Nat) (vals : List (Word × Bool))
  | piece (rank : Nat) (scale : BitVec 32) (data : List (Byte × Bool))
  | contribs (rank : Nat) (vals : List (List (Word × Bool)))
  | bytes (rank : Nat) (data : List (Byte × Bool))
  | carve (xid : BitVec 32) (data : List (Byte × Bool))
deriving DecidableEq, Repr

/-- What a small-path token carries (R231, R238, R241). -/
inductive SmallTok where
  | data (rank n : Nat) (vals : List (List (Word × Bool)))
  | closing (code : BitVec 16)
  | abortJob (code : BitVec 16) (origin : BitVec 16)
deriving DecidableEq, Repr

/-- The seven ATOMIC operations (Table 9-2). -/
inductive AOp where
  | add | swap | cas | and | or | umax | umin
deriving DecidableEq, Repr

/-- Which on-chip memory window (Table 10-7): a core's, or the hub's. -/
inductive MWin where
  | core (c : CoreId)
  | hub
deriving DecidableEq, Repr

/-- One failing compare of a march run (Table 10-7, MT_FAIL): the byte address of its word in the memory (Table 10-1), the bit of the
codeword, and the operation. -/
structure MarchFail where
  addr : BitVec 28
  bit : BitVec 9
  op : BitVec 5
deriving DecidableEq, Repr

/-- What the scrubber visits (Table 17-4): a word named by its local address, an instruction-memory or stage-buffer word, or a
word of a control processor's memories (R457). -/
inductive ScrubTarget where
  | word (addr : BitVec 48)
  | imem (c : CoreId) (w : Fin 2048)
  | stage (w : Fin 8388608)
  | cp (p : Fin 18)
deriving DecidableEq, Repr

/-- How a flash page read went (R344). -/
inductive PageRead where
  | hard
  | retry (set : Fin 8)
  | soft
  | failed
deriving DecidableEq, Repr

/-- Why a flash block is moved (R345). -/
inductive MoveWhy where
  | retention
  | disturb
  | wear
deriving DecidableEq, Repr

/-- A probe's payload (Table 13-6). -/
structure ProbeF where
  version : BitVec 16
  ptype : BitVec 2
  module : BitVec 16
  port : BitVec 5
  rack : BitVec 10
  tray : BitVec 3
  slot : BitVec 3
  encap : Bool
  serial : Word
  fabric : BitVec 32
  chal : Word
deriving DecidableEq, Repr

/-- A link-table entry (R363). -/
structure TopoEnt where
  ptype : BitVec 2
  module : BitVec 16
  port : BitVec 5
  state : BitVec 4
deriving DecidableEq, Repr

/-- A topology update (R363). -/
structure TopoUpd where
  module : BitVec 16
  serial : Word
  seq : BitVec 32
  ents : List TopoEnt
  reach : List (Fin 1024 × Word)
deriving DecidableEq, Repr

/-- A flit's header (Table 13-2). -/
structure FlitHdr where
  vc : Fin 4
  seq : BitVec 12
  ack : BitVec 12
  nak : Bool
  crVc : Fin 4
  cred : BitVec 8
  som : Bool
  eom : Bool
  idle : Bool
deriving DecidableEq, Repr

/-- A BAR2 access (R380): a read of so many bytes, or a write of bytes. -/
inductive Bar2Op where
  | read (n : Nat)
  | write (data : List Byte)
deriving DecidableEq, Repr

/-- An entry of the section table of an image copy (R403). -/
structure ImgSection where
  type : BitVec 8
  version : BitVec 16
  offset : BitVec 32
  bytes : BitVec 32
deriving DecidableEq, Repr

/-- An image copy as firmware update writes it (R403, R408): the header fields (Table 15-4), whether every reserved bit is 0,
the section table, and what the read, the hash and the signature steps of R403 find on its bytes (facts about the bytes). -/
structure ImageCopy where
  present : Bool
  readError : Bool
  magic : BitVec 32
  fmt : BitVec 16
  reservedZero : Bool
  sigOff : BitVec 32
  sections : List ImgSection
  stepping : BitVec 8
  keyHashOk : Bool
  keySlot : Fin 4
  ecdsaOk : Bool
  lmsOk : Bool
  svn : BitVec 32
  seq : BitVec 32
  fwVersion : BitVec 32
  digest : BitVec 384
  cfgRecords : List (BitVec 64 × BitVec 64)
deriving DecidableEq, Repr

/-- An owner block copy (R410): MAGIC, NREC, SEQ, records of 16 bytes, the digest, and whether it is that of header and
records. -/
structure OwnerBlock where
  magic : BitVec 32
  nrec : BitVec 13
  digestOk : Bool
  seq : BitVec 32
  records : List (BitVec 64 × BitVec 64)
  digest : BitVec 384
deriving DecidableEq, Repr

/-- A field record (Table 15-9), its words w0 and w1. -/
structure FieldRec where
  w0 : Word
  time : Word
deriving DecidableEq, Repr

/-- The KEY_PUT body of Table 16-4 but for KEY itself, with the outcome of its signature check. -/
structure KeyBody where
  kind : BitVec 8
  flags : BitVec 8
  id : BitVec 32
  notAfter : Word
  reqDigest : BitVec 384
  tagChain : BitVec 384
  nseg : BitVec 32
  sigOk : Bool
  byOwner : Bool
  manifest : List Byte
  key : BitVec 256
deriving DecidableEq, Repr

/-- What rebuilding a house line found (R446). -/
inductive RebuildSrc where
  | object
  | peer
  | none
deriving DecidableEq, Repr

/-- One reading of every thermal sensor (Table 19-3), in °C. -/
structure Temps where
  die : List (BitVec 8)
  hub : BitVec 8
  stack : List (BitVec 8)
  nol : List (BitVec 8)
  dram : List (BitVec 8)
  flash : List (BitVec 8)
deriving DecidableEq, Repr

/-- A part whose sensor fails (Table 19-5). -/
inductive Sensor where
  | die (d : Fin 4)
  | hub
  | stack (s : Fin 8)
  | nol (m : Fin 4)
  | dram (m : Fin 4)
  | flash (m : Fin 4)
deriving DecidableEq, Repr

/-- What becomes of an outstanding transfer. Part of the way: its local source has been read, a remote source's bytes
have arrived (each with its poison mark), or some of its destination's 8-byte words, given as (row, word), are written
(R270, R273). Its end: a local destination written whole, a remote source's bytes arrived and written, every byte
acknowledged, or the remote side lost (R285, R287, R440). -/
inductive XferEnd where
  | sourceRead
  | remoteRead (data : List (Byte × Bool))
  | words (ws : List (Nat × Nat))
  | localDone
  | remoteData (data : List (Byte × Bool))
  | remoteAcked
  | lost
deriving DecidableEq, Repr

/-- The commands of the LM9, one constructor per row of spec/opcode_table.json. -/
inductive Instr where
  -- chapters 01 and 02
  | configRequest (port : Fin 2) (fn : Fin 9) (reg : BitVec 12)
  | arrayOperation (c : CoreId) (w0 w1 w2 w3 : Word)
  | arrayOpStart (c : CoreId) (arr : Fin 3) (cycle : Nat)
  | arrayRampDone (c : CoreId) (arr : Fin 3) (steps : Fin 9) (cycle : Nat)
  | arrayRampDown (c : CoreId) (arr : Fin 3) (cycle : Nat)
  | arrayOpDrain (c : CoreId) (arr : Fin 3) (half : Fin 3) (rows : Option Nat) (stash : Option MbKey) (house : Bool)
  | warm (c : CoreId) (w : Word)
  | warmHoldExpiry (c : CoreId) (arr : Fin 3)
  | reservedInstruction (c : CoreId) (w : Word)
  | nop (c : CoreId) (w : Word) (cell : Option (BitVec 288))
  | halt (c : CoreId) (w : Word)
  | movi (c : CoreId) (w : Word)
  | movhi (c : CoreId) (w : Word)
  | add (c : CoreId) (w : Word)
  | addi (c : CoreId) (w : Word)
  | sub (c : CoreId) (w : Word)
  | and (c : CoreId) (w : Word)
  | or (c : CoreId) (w : Word)
  | xor (c : CoreId) (w : Word)
  | shl (c : CoreId) (w : Word)
  | shr (c : CoreId) (w : Word)
  | mul (c : CoreId) (w : Word)
  | jmp (c : CoreId) (w : Word)
  | bnz (c : CoreId) (w : Word)
  | bz (c : CoreId) (w : Word)
  | blt (c : CoreId) (w : Word)
  | mtcr (c : CoreId) (w : Word)
  | mfcr (c : CoreId) (w : Word)
  | astat (c : CoreId) (w : Word)
  | astatDone (c : CoreId)
  | xfer (c : CoreId) (w0 w1 : Word)
  | xferComplete (c : CoreId) (index : Nat) (how : XferEnd)
  | imemLoadGo (c : CoreId) (value : Word)
  | imemLoadDone (c : CoreId)
  | coreRun (c : CoreId)
  | coreStop (c : CoreId)
  | coreRetirementRequest (c : CoreId)
  -- chapter 03
  | vecCvt (c : CoreId) (w0 w1 : Word)
  | vecAmax (c : CoreId) (w0 w1 : Word)
  | vecScale (c : CoreId) (w0 w1 : Word)
  | vecAdd (c : CoreId) (w0 w1 : Word)
  | vecMul (c : CoreId) (w0 w1 : Word)
  | vecAxpy (c : CoreId) (w0 w1 : Word)
  | vecMax (c : CoreId) (w0 w1 : Word)
  | vecDropout (c : CoreId) (w0 w1 : Word)
  | vecCheck (c : CoreId) (w0 w1 : Word)
  | vecExp (c : CoreId) (w0 w1 : Word)
  | vecLog (c : CoreId) (w0 w1 : Word)
  | vecRsqrt (c : CoreId) (w0 w1 : Word)
  | vecRecip (c : CoreId) (w0 w1 : Word)
  | vecSigm (c : CoreId) (w0 w1 : Word)
  | vecRowsum (c : CoreId) (w0 w1 : Word)
  | vecRowmax (c : CoreId) (w0 w1 : Word)
  | vecComplete (c : CoreId) (rows : Option Nat)
  -- chapter 04
  | mbAdmit (p : Part) (k : MbKey) (h : MbHeader)
  | fwdComplete (p : Part) (k : MbKey) (what : FwdEnd)
  | bwdStart (p : Part) (k : MbKey) (dyArrived : Bool)
  | bwdComplete (p : Part) (k : MbKey) (what : BwdEnd)
  | versionTimeout (p : Part) (what : VerWait)
  | slotClaim (p : Part) (shard : Fin 4096) (step : BitVec 16)
  | trnEnable (p : Part)
  | trnDisable (p : Part)
  -- chapter 05
  | admitSeq (post : Post) (dmaFail : Bool)
  | cancel (post : Post)
  | pause (post : Post)
  | budgetSet (post : Post)
  | budgetAdd (post : Post)
  | adapterLoad (post : Post)
  | adapterLoadDispatch (p : Part)
  | adapterLoadComplete (slot : Fin 1024)
  | adapterUnload (post : Post)
  | prefixCreate (post : Post)
  | prefixRelease (post : Post)
  | stopsetWrite (post : Post) (dmaFail : Bool)
  | contextTake (ctx : CtxId)
  | restoreComplete (ctx : CtxId)
  | prefillComplete (ctx : CtxId) (what : PrefillEnd) (adapterPoison : Bool)
  | shipComplete (ctx : CtxId) (how : ShipEnd)
  | verifyRound (ctx : CtxId) (draft logits : List (List (BitVec 32))) (kvPoison adapterPoison housePoison : Bool)
  | decodeStepBoundary (p : Part)
  | draftReprobe (ctx : CtxId)
  | parkComplete (ctx : CtxId) (far : List (Byte × Bool))
  | contextClose (ctx : CtxId)
  | streamRingRoom (p : Part) (ring : Fin 64)
  | parkExpiry (ticket : BitVec 32)
  | rollEnable (p : Part)
  | rollDisable (p : Part)
  -- chapter 06
  | turnToLearning (post : Post)
  | turnToRollout (post : Post)
  | turnQuiesced (p : Part)
  | turnQuiesceTimeout (p : Part)
  | turnVoteBarrier (p : Part) (votes : List Vote)
  | carveRoundBarrier (p : Part) (status : BitVec 16)
  | carveRoundWritesDone (p : Part)
  | turnInstall (p : Part) (m : Option Mapping)
  | turnFinalBarrier (p : Part) (status : BitVec 16)
  | wptrSet (post : Post)
  | batchClose (post : Post)
  | weightLoad (post : Post) (m : Option Mapping)
  | gondolaSegment (p : Part) (seg : BitVec 32) (how : SegFrom)
  | weightLoadPublish (p : Part) (codes : List (BitVec 16))
  | gatherStart (p : Part) (k : MbKey) (layer tensor computing : Nat) (seq : BitVec 32)
  | stageEntrySend (p : Part) (q : StageQ) (k : MbKey) (waitedUs : BitVec 32)
  | stageCreditReturn (p : Part) (q : StageQ) (starvedUs : BitVec 32)
  -- chapter 07
  | collReady (c : CoreId) (w0 w1 : Word)
  | barrier (by_ : Poster)
  | bcast (by_ : Poster)
  | reduce (by_ : Poster)
  | allreduce (by_ : Poster)
  | reduceScatter (by_ : Poster)
  | allgather (by_ : Poster)
  | snapshot (by_ : Poster)
  | permute (by_ : Poster)
  | collAdmit (k : CollKey)
  | collOpenExchange (k : CollKey) (agree : Bool) (peer : BitVec 16) (peers : List OpenPeer)
  | chunkArrive (port : Port) (h : THdr) (tagOk : Bool) (data : ChunkData)
  | chunkTimeout (k : CollKey) (chunk : BitVec 24) (peer : BitVec 16) (xid : BitVec 32)
  | closingRoundDone (k : CollKey) (codes : List (BitVec 16)) (noise : List (NoiseSum × NoiseSum))
  | collGroupTimeout (k : CollKey) (found : ProbeFind) (peer : BitVec 16)
  | jobReset (job : BitVec 16) (code : BitVec 16) (origin : BitVec 16)
  | jobResetDone (job : BitVec 16)
  | collEnable (p : Part)
  | collDisable (p : Part)
  -- chapter 08
  | update (post : Post)
  | gradLineIntake (p : Part) (addr : BitVec 48) (data : List (Byte × Bool))
  | updPass1Done (p : Part)
  | updNormDone (p : Part) (status : BitVec 16) (peers : List NormPeer)
  | updShardPass2Done (p : Part) (layer : Fin 4096)
  | updAmaxDone (p : Part) (layer : Fin 4096) (amax : List (BitVec 32))
  | updSlotClaim (p : Part) (layer : Fin 4096)
  | updReturnDone (p : Part) (layer : Fin 4096)
  | updNop (p : Part) (entry : Fin 16384) (elem : BitVec 40)
  | updLd (p : Part) (entry : Fin 16384) (elem : BitVec 40)
  | updSt (p : Part) (entry : Fin 16384) (elem : BitVec 40)
  | updAdd (p : Part) (entry : Fin 16384) (elem : BitVec 40)
  | updSub (p : Part) (entry : Fin 16384) (elem : BitVec 40)
  | updMul (p : Part) (entry : Fin 16384) (elem : BitVec 40)
  | updFma (p : Part) (entry : Fin 16384) (elem : BitVec 40)
  | updDiv (p : Part) (entry : Fin 16384) (elem : BitVec 40)
  | updSqrt (p : Part) (entry : Fin 16384) (elem : BitVec 40)
  | updRsqrt (p : Part) (entry : Fin 16384) (elem : BitVec 40)
  | updMax (p : Part) (entry : Fin 16384) (elem : BitVec 40)
  | updMin (p : Part) (entry : Fin 16384) (elem : BitVec 40)
  | updSel (p : Part) (entry : Fin 16384) (elem : BitVec 40)
  | updAbs (p : Part) (entry : Fin 16384) (elem : BitVec 40)
  -- chapter 09
  | fence (c : CoreId) (w : Word)
  | fenceDone (c : CoreId)
  | wait (c : CoreId) (w : Word)
  | waitSatisfied (c : CoreId)
  | syncTimeout (c : CoreId)
  | signal (c : CoreId) (w : Word)
  | atomicAdd (c : CoreId) (w : Word)
  | atomicSwap (c : CoreId) (w : Word)
  | atomicCas (c : CoreId) (w : Word)
  | atomicAnd (c : CoreId) (w : Word)
  | atomicOr (c : CoreId) (w : Word)
  | atomicUmax (c : CoreId) (w : Word)
  | atomicUmin (c : CoreId) (w : Word)
  -- chapter 10
  | segmentPowerRequest (win : MWin) (value : Word)
  | segmentPowerChange (win : MWin) (ab : Bool) (seg : Fin 4)
  | segmentIdleReturn (win : MWin) (ab : Bool) (seg : Fin 4)
  | marchGo (win : MWin) (value : Word)
  | marchAbort (win : MWin)
  | marchDone (win : MWin) (fails : List MarchFail) (cycles : BitVec 32)
  | scrubVisit (target : ScrubTarget) (raw : BitVec 288)
  | scrubPromote (act : Fin 10) (ageMs : Nat)
  | scrubLate (act : Fin 10)
  -- chapter 11
  | hbmTempSample (temps : List (BitVec 8))
  | hbmRetrain (stack : Fin 8) (pc : Fin 64)
  | hbmRetrainDone (stack : Fin 8) (ok : Bool) (holdNs : BitVec 16)
  | hbmRetrainRetry (stack : Fin 8) (pc : Fin 64) (ok : Bool)
  | hbmMigGo (stack : Fin 8) (value : Word)
  | hbmMigSwitch (stack : Fin 8) (ok : Bool)
  | hbmPprDone (stack : Fin 8) (ok : Bool) (pc : Fin 2) (bank : Fin 16) (row : BitVec 18)
  | rprQuery (stack : Fin 8) (value : Word)
  | rprHardRepair (stack : Fin 8) (value : Word)
  | rprNextRow (stack : Fin 8) (value : Word)
  | rprComplete (stack : Fin 8) (ok : Bool)
  | tgWrite (stack : Fin 8) (value : Word)
  | tgReadCheck (stack : Fin 8) (value : Word)
  | tgWriteReadCheck (stack : Fin 8) (value : Word)
  | tgAbort (stack : Fin 8)
  | tgDone (stack : Fin 8) (mismatches : BitVec 32) (line : BitVec 21) (byte : BitVec 9) (mbps : BitVec 16)
  -- chapter 12
  | objPut (post : Post) (dmaFail : Bool)
  | objSealed (handle : BitVec 32)
  | objGet (post : Post)
  | objDelete (post : Post)
  | parkDemote (ticket : BitVec 32)
  | flashPageRead (m : Fin 4) (ch : Fin 8) (block : BitVec 19) (how : PageRead) (park : Option (BitVec 32))
  | flashMove (m : Fin 4) (why : MoveWhy) (block target : BitVec 19) (held : List (BitVec 32))
  | flashBlockFail (m : Fin 4) (block target : BitVec 19)
  | liftFrame (m : Fin 4) (raw : BitVec 288)
  | liftGmac (m : Fin 4) (ok : Bool)
  | liftRecal (m : Fin 4) (ok retrainOk : Bool)
  -- chapter 13
  | flitReceive (port : Port) (h : FlitHdr) (crcOk : Bool)
  | portEnable (port : Port)
  | portDisable (port : Port)
  | signalDetect (port : Port)
  | trainingDone (port : Port)
  | trainingFail (port : Port)
  | probe (port : Port) (f : ProbeF) (tagOk : Bool)
  | probeAck (port : Port) (challenge : Word) (tagOk : Bool)
  | probeTimeout (port : Port)
  | lossOfSignal (port : Port)
  | fecErrorLimit (port : Port) (corrected uncorrectable : BitVec 32)
  | failedHoldoff (port : Port)
  | waxDue (port : Port)
  | waxDone (port : Port) (ok : Bool) (holdNs : BitVec 16)
  | topologyUpdate (port : Port) (u : TopoUpd) (tagOk : Bool)
  | reachAdvert (port : Port) (racks : List (Fin 1024)) (seq : BitVec 32)
  | smallToken (port : Port) (h : THdr) (tagOk : Bool) (tok : SmallTok)
  | chunkRequest (port : Port) (h : THdr) (tagOk : Bool)
  | chunkAck (port : Port) (h : THdr) (tagOk : Bool)
  | remoteStore (port : Port) (h : THdr) (tagOk : Bool) (data : List (Byte × Bool))
  | remoteAtomic (port : Port) (h : THdr) (tagOk : Bool) (op : AOp) (operand expected : Word)
  | storeAck (port : Port) (h : THdr) (tagOk positive : Bool)
  | atomicResult (port : Port) (h : THdr) (tagOk positive : Bool) (old : Word)
  | remoteTimeout (ctr : Word) (key : Fin 16)
  | ethFrame (port : Port) (dstOk etypeOk fcsOk : Bool) (version : BitVec 4) (flits : List (FlitHdr × Bool))
  | pfcPause (port : Port) (pcp : BitVec 8) (quanta : BitVec 16)
  -- chapter 14
  | journalPoll (port : Fin 2) (fn : Fin 9) (ring : Fin 8) (readFail : Bool)
  | jobStart (post : Post) (dmaFail : Bool) (talk : List (List Nat))
  | jobAbort (post : Post)
  | jobEnd (post : Post)
  | jobEndZeroFillDone (p : Part)
  | jobTakeover (post : Post) (dmaFail : Bool)
  | msixHoldoffEnd (port : Fin 2) (fn : Fin 9) (vec : Fin 73)
  | pcieLinkDown (port : Fin 2)
  | orphanTimeout (job : BitVec 16)
  | pcieLinkUp (port : Fin 2)
  | flr (port : Fin 2) (fn : Fin 9)
  | hotReset (port : Fin 2)
  | perst (port : Fin 2)
  | mailboxPoll (port : Fin 2) (fn : Fin 9)
  | bar2Access (port : Fin 2) (fn : Fin 9) (off : BitVec 36) (op : Bar2Op)
  | bar2BaseWrite (port : Fin 2) (fn : Fin 9) (value : Word)
  | bar0Misaligned (port : Fin 2) (fn : Fin 9) (read : Bool)
  | registerWrite (who : Writer) (off : BitVec 28) (value : Word)
  -- chapter 15
  | coldReset
  | warmReset
  | jobReady (ms : BitVec 32)
  | bootWatchdog
  | firmwareUpdate (path : Path) (img : ImageCopy)
  | pldmIdentify (path : Path)
  | fieldRecordAppend (r : FieldRec)
  -- chapter 16
  | ownerWrite (path : Path) (blk : OwnerBlock) (sigOk : Bool)
  | svnCommit (path : Path) (svn : BitVec 32) (sigOk : Bool)
  | revoke (path : Path) (slot : Fin 4) (tokenOk ownerOk : Bool)
  | getVersion (path : Path)
  | getCapabilities (path : Path)
  | negotiateAlgorithms (path : Path) (offered : Bool)
  | getDigests (path : Path)
  | getCertificate (path : Path) (slot : Nat) (offset length : Nat)
  | challenge (path : Path) (slot : Nat) (nonce : BitVec 256)
  | getMeasurements (path : Path) (index : BitVec 8) (nonce : BitVec 256)
  | keyExchange (path : Path) (share : BitVec 768)
  | finish (path : Path) (session : BitVec 32) (verifyOk : Bool)
  | heartbeat (path : Path) (session : BitVec 32)
  | keyUpdate (path : Path) (session : BitVec 32)
  | endSession (path : Path) (session : BitVec 32)
  | chunkSend (path : Path) (seq : BitVec 16) (last : Bool) (data : List Byte)
  | chunkGet (path : Path) (seq : BitVec 16)
  | keyPut (path : Path) (session : BitVec 32) (k : KeyBody)
  | keyDel (path : Path) (session : BitVec 32) (kind : BitVec 8) (id : BitVec 32)
  | keyExpiry (entry : Fin 64)
  | houseLoad (path : Path) (handle : BitVec 32)
  | houseRebuildDone (addr : BitVec 48) (src : RebuildSrc) (data : List Byte)
  -- chapter 17
  | dumpRelease (path : Path)
  | cpMemoryError (cp : Fin 18)
  | cpWatchdog (cp : Fin 18)
  | cpAudit (cp : Fin 18) (mismatch : Bool)
  | cpReloadDone (cp : Fin 18)
  | mpWatchdog
  | dumpWritten (complete : Bool) (bytes : BitVec 32)
  | autoResetTimer
  | telemetrySample (watts : BitVec 16)
  | lifetimeCommit (verified : Bool)
  -- chapter 18
  | aclkTargetWrite (die : Fin 4) (value : Word)
  | aclkSlewStep (die : Fin 4)
  | pllUnlock (pll : Fin 21)
  | pllRelock (pll : Fin 21)
  | setDateTime (path : Path) (time : Word) (force : Bool)
  | ptmExchange (port : Fin 2) (master : Option Word)
  | supercapDepleted
  | vinLow (finished : Bool)
  | auxRailLoss (finished : Bool)
  -- chapter 19
  | powerSample (watts : BitVec 16) (mv : BitVec 16)
  | powerLimitStep (average : BitVec 16)
  | standbyEnter
  | standbyExit
  | droop (die : Fin 4) (mv : BitVec 8)
  | brakePin (ns : Nat)
  | brakeReleaseStep (die : Fin 4)
  | thermalSample (t : Temps)
  | thmSensorFail (sensor : Sensor)
  -- chapter 20
  | auxRailUp
  | mgmtBusSelect (i3c : Bool)
  | setRack (path : Path) (rack : BitVec 10)
  | pwrEnAssert (j1 j2 : Bool)
  | modPwrgd (brakePinLow : Bool)
  | pwrEnDeassert (finished : Bool)
  -- rows added at the table's end
  | objGetComplete (handle : BitVec 32) (failed : List (BitVec 28))
  | objectExpiry (handle : BitVec 32)
  | houseLoadComplete (data : List (Nat × Byte)) (poisoned : Bool)
  | configurationReady (port : Fin 2) (ms : BitVec 16)
  | bootStageComplete (trained : List (Fin 8)) (nolOk : List (Fin 4)) (marchFailed : List CoreId) (strap : BitVec 6)
  | vinRising (j1 j2 : Bool)
  | brakeDeassert
  | flashZqCalibration (m : Fin 4)
  | stageEntryArrive (p : Part) (q : StageQ) (k : MbKey)
  | versionReport (p : Part) (shard : Fin 4096) (step : BitVec 16) (what : VerReport)
deriving DecidableEq, Repr

end Sys2Proof
end

