-- ==== Sys2Proof/Decode.lean ====
section
/-! DEFINITION. The opcode table gives none of its rows any bits: the block takes commands from outside and decodes no
instruction word. -/
namespace Sys2Proof

/-- The command that a word spells by the table's bits: no row gives bits, so that no word spells one. -/
def decodeTableWord (_nbits _w : Nat) : Option Instr := none

end Sys2Proof
end

