-- ==== Sys2Proof/Config.lean ====
section
/-! DEFINITION. What one part fixes and what the spec leaves open. Each constant is opaque: nothing can evaluate it,
so whatever is proved holds for every value. -/
namespace Sys2Proof.Config

/-- A value the spec leaves open: the step that needs one applies this to its counter `State.freeCtr` and advances
the counter. FREE VALUE (log entry 3). -/
opaque freeValue : Nat → BitVec 512

/-- A value that the spec leaves open and that R97, R98 and R258 make a function of what the operation reads: it is applied to
numbers that name the operation and its operands. FREE VALUE (log entry 148). -/
opaque openValue : List Nat → BitVec 512

/-- Whether the part is ordering code LM9-5120-L32; the other code is LM9-5120-L08 (R2, R16). -/
opaque isL32 : Bool

/-- The fused serial number (R519, R526). -/
opaque serial : BitVec 64

/-- The digest (SHA-384) that the module computes over bytes; the spec fixes the function by name only. -/
opaque sha384 : List Byte → BitVec 384

/-- The key derivation of R434, R435 and R424 to R426 (HKDF-SHA-384, HMAC): secret, salt and info to 32 bytes. -/
opaque derive : List Byte → List Byte → List Byte → BitVec 256

/-- HMAC-SHA-384 of R426: key and message. -/
opaque hmac : List Byte → List Byte → BitVec 384

/-- The Alias private key: from the device secret and measurements 1 to 4 (R424, R425). -/
opaque aliasKey : BitVec 256 → List (BitVec 384) → BitVec 384

/-- The signature of an SPDM response (ECDSA P-384, R427): the private key and the bytes signed. -/
opaque sign : BitVec 384 → List Byte → BitVec 768

/-- The fused device secret, from which the DeviceID and Alias keys and the sealing secret derive (R424). -/
opaque deviceSecret : BitVec 256

/-- Repair rows that a bank of an HBM stack has from the factory (R323, R324); the spec gives no number. -/
opaque repairRows : Nat

/-- The bank of a line of a pseudo-channel (R315 gives lines; no rule gives the line's place in the DRAM, log entry 52). -/
opaque bankOf : Nat → BitVec 4

/-- The row of a line of a pseudo-channel (log entry 52). -/
opaque rowOf : Nat → BitVec 18

/-- The SPDM certificate chain of slot 0: root, manufacturing CA, DeviceID and Alias certificates, from the DEVID_CERT bytes and
measurements 1 to 4, which the last certificate follows (R424, R425, R427). -/
opaque certChain : List Byte → List (BitVec 384) → List Byte

/-- The CRC-32 of field records, commit records and the dump (R413, R485, Table 17-8); the spec gives no polynomial. -/
opaque crc32 : List Byte → BitVec 32

/-- The PCI-SIG Vendor ID assigned to Realmand, which the spec does not give (R376). -/
opaque vendorId : BitVec 16

/-- The MAC address of port 0, a value of each module (Table 13-12). -/
opaque macBase : BitVec 48

/-- AES-256-GCM decryption (Table 6-5): key, nonce, associated data, ciphertext and tag to the plaintext; none where the tag fails. -/
opaque gcmOpen : BitVec 256 → List Byte → List Byte → List Byte → List Byte → Option (List Byte)

/-- The hash by which a message chooses among several minimal paths or ports (R367); the spec gives its inputs only. -/
opaque routeHash : List Nat → Nat

/-- Piece `i` of a fabric key wrapped under a sealing secret (R435). -/
opaque wrapKey : BitVec 384 → BitVec 256 → Nat → BitVec 64
/-- The key that the eight pieces of a wrapped fabric key unwrap to under a sealing secret (R435). -/
opaque unwrapKey : BitVec 384 → List (BitVec 64) → BitVec 256
/-- An object key wrapped under a store key (R335); the spec gives no wrapping. -/
opaque wrapStore : BitVec 256 → BitVec 256 → BitVec 384

end Sys2Proof.Config
end

