-- ==== Sys2Proof/Machine/Numerics.lean ====
section
/-! DEFINITION. The formats and the one rounding of chapter 03: exact values, decoding of every format (R67 to R71),
rounding to nearest even and stochastically (R78), overflow and special values (R79, Table 3-3), widening, and the
keyed counter generator (R90). -/
namespace Sys2Proof.Machine

/-! ## Exact values -/

/-- An exact rational value m / d × 2^e, with d positive. -/
structure Q where
  m : Int
  d : Nat
  e : Int
deriving DecidableEq, Repr

/-- The exact value of an integer. -/
def Q.ofInt (i : Int) : Q := ⟨i, 1, 0⟩
/-- Two raised to an integer power. -/
def Q.pow2 (e : Int) : Q := ⟨1, 1, e⟩
/-- The exact zero. -/
def Q.zero : Q := ⟨0, 1, 0⟩

/-- The numerator when the exponent is lowered to `e` (at most the value's own exponent). -/
def Q.mAt (a : Q) (e : Int) : Int := a.m * (2 ^ (a.e - e).toNat : Nat)

/-- The exact sum. -/
def Q.add (a b : Q) : Q :=
  let e := min a.e b.e
  if a.d = b.d then ⟨a.mAt e + b.mAt e, a.d, e⟩
  else ⟨a.mAt e * b.d + b.mAt e * a.d, a.d * b.d, e⟩
/-- The negated value. -/
def Q.neg (a : Q) : Q := ⟨-a.m, a.d, a.e⟩
/-- The exact difference. -/
def Q.sub (a b : Q) : Q := a.add b.neg
/-- The magnitude. -/
def Q.abs (a : Q) : Q := ⟨a.m.natAbs, a.d, a.e⟩
/-- The exact product. -/
def Q.mul (a b : Q) : Q := ⟨a.m * b.m, a.d * b.d, a.e + b.e⟩
/-- The reciprocal of a non-zero value (0 for 0). -/
def Q.inv (a : Q) : Q :=
  if a.m = 0 then Q.zero else ⟨(if a.m < 0 then -1 else 1) * a.d, a.m.natAbs, -a.e⟩
/-- The exact quotient by a non-zero value. -/
def Q.div (a b : Q) : Q := a.mul b.inv
/-- Whether the value is below zero. -/
def Q.isNeg (a : Q) : Bool := decide (a.m < 0)
/-- Strictly less. -/
def Q.lt (a b : Q) : Bool := decide ((a.sub b).m < 0)
/-- Less or equal. -/
def Q.le (a b : Q) : Bool := decide ((a.sub b).m ≤ 0)
/-- Equal as values. -/
def Q.eqv (a b : Q) : Bool := decide ((a.sub b).m = 0)
/-- floor(a / 2^w), as an integer. -/
def Q.floorAt (a : Q) (w : Int) : Int :=
  if a.e ≥ w then (a.mAt w).fdiv a.d else a.m.fdiv (a.d * 2 ^ (w - a.e).toNat : Nat)
/-- Whether the value is an integer multiple of 2^w. -/
def Q.onGrid (a : Q) (w : Int) : Bool :=
  if a.e ≥ w then a.mAt w % a.d == 0 else a.m % (a.d * 2 ^ (w - a.e).toNat : Nat) == 0

/-- floor(log2(n / d)) for positive n and d. -/
def log2Ratio (n d : Nat) : Int :=
  let g : Int := (Nat.log2 n : Int) - (Nat.log2 d : Int)
  let below : Bool := if g ≥ 0 then decide (n < d * 2 ^ g.toNat) else decide (n * 2 ^ (-g).toNat < d)
  if below then g - 1 else g

/-- floor(log2 |a|) of a non-zero value: the exponent of its leading bit (R83, R88). -/
def Q.expo (a : Q) : Int := log2Ratio a.m.natAbs a.d + a.e

/-- An operand or a result: a NaN, an infinity, or a finite value. The sign of a finite value matters for a zero only. -/
inductive Val where
  | nan
  | inf (neg : Bool)
  | fin (neg : Bool) (q : Q)
deriving DecidableEq, Repr

/-- A finite exact value; an exact zero is +0 (R70). -/
def Val.ofQ (q : Q) : Val := .fin q.isNeg q
/-- A zero of the given sign. -/
def Val.zero (neg : Bool) : Val := .fin neg Q.zero

/-! ## Formats -/

/-- The formats of Tables 3-1 and 3-2 that are stored. -/
inductive Fmt where
  | f4 | e3m2 | e2m3 | f8a | f8b | int8 | bf16 | fp16 | fp32 | w40 | int32 | m48
deriving DecidableEq, Repr

/-- The format of a code of Table 2-10 (0x0 to 0xA). -/
def Fmt.ofCode : Nat → Option Fmt
  | 0 => some .f4 | 1 => some .e3m2 | 2 => some .e2m3 | 3 => some .f8a | 4 => some .f8b | 5 => some .int8
  | 6 => some .bf16 | 7 => some .fp16 | 8 => some .fp32 | 9 => some .w40 | 10 => some .int32 | _ => none

/-- Whether the format is an integer format (Table 3-2). -/
def Fmt.isInt : Fmt → Bool
  | .int8 | .int32 => true
  | _ => false
/-- The bits of one element. -/
def Fmt.width : Fmt → Nat
  | .f4 => 4 | .e3m2 => 6 | .e2m3 => 6 | .f8a => 8 | .f8b => 8 | .int8 => 8
  | .bf16 => 16 | .fp16 => 16 | .fp32 => 32 | .w40 => 40 | .int32 => 32 | .m48 => 48
/-- The mantissa bits (Table 3-1). -/
def Fmt.mbits : Fmt → Nat
  | .f4 => 1 | .e3m2 => 2 | .e2m3 => 3 | .f8a => 3 | .f8b => 2 | .bf16 => 7 | .fp16 => 10
  | .fp32 => 23 | .w40 => 31 | .m48 => 39 | .int8 => 0 | .int32 => 0
/-- The exponent bits (Table 3-1). -/
def Fmt.ebits (f : Fmt) : Nat := f.width - 1 - f.mbits
/-- The exponent bias (Table 3-1). -/
def Fmt.bias : Fmt → Nat
  | .f4 => 1 | .e3m2 => 3 | .e2m3 => 1 | .f8a => 7 | .f8b => 15 | .fp16 => 15 | .int8 => 0 | .int32 => 0
  | _ => 127
/-- Whether the format has infinities, and the IEEE encoding of NaNs with them (Table 3-1). -/
def Fmt.hasInf : Fmt → Bool
  | .f8b | .bf16 | .fp16 | .fp32 | .w40 | .m48 => true
  | _ => false
/-- The canonical NaN (R69, Table 3-1); 0 for a format without one. -/
def Fmt.nan : Fmt → Nat
  | .f8a => 0x7f | .f8b => 0x7e | .bf16 => 0x7fc0 | .fp16 => 0x7e00 | .fp32 => 0x7fc00000
  | .w40 => 0x7fc0000000 | .m48 => 0x7fc000000000 | _ => 0
/-- The code of the largest finite magnitude (Table 3-1). -/
def Fmt.maxCode (f : Fmt) : Nat :=
  match f with
  | .f8a => 0x7e
  | .f4 => 7 | .e3m2 => 31 | .e2m3 => 31
  | .int8 => 127 | .int32 => 2147483647
  | _ => (2 ^ f.ebits - 1) * 2 ^ f.mbits - 1
/-- The smallest unbiased exponent of a normal value. -/
def Fmt.emin (f : Fmt) : Int := 1 - (f.bias : Int)

/-- The two's-complement value of the low `w` bits. -/
def toSigned (w n : Nat) : Int := if n % 2 ^ w < 2 ^ (w - 1) then (n % 2 ^ w : Nat) else (n % 2 ^ w : Nat) - (2 ^ w : Nat)

/-- The magnitude that a sign-free floating-point code stands for. -/
def Fmt.magOf (f : Fmt) (code : Nat) : Q :=
  let ex := code / 2 ^ f.mbits
  let mn := code % 2 ^ f.mbits
  if ex = 0 then ⟨mn, 1, f.emin - f.mbits⟩ else ⟨(2 ^ f.mbits + mn : Nat), 1, (ex : Int) - f.bias - f.mbits⟩

/-- The value of an element's bits (R67, R71). -/
def Fmt.decode (f : Fmt) (n : Nat) : Val :=
  if f.isInt then .ofQ (Q.ofInt (toSigned f.width n)) else
  let n := n % 2 ^ f.width
  let neg := decide (n ≥ 2 ^ (f.width - 1))
  let code := n % 2 ^ (f.width - 1)
  if f = .f8a ∧ code = 0x7f then .nan
  else if f.hasInf ∧ code / 2 ^ f.mbits = 2 ^ f.ebits - 1 then (if code % 2 ^ f.mbits = 0 then .inf neg else .nan)
  else
    let m := f.magOf code
    .fin neg (if neg then m.neg else m)

/-- The largest finite magnitude (Table 3-1). -/
def Fmt.maxFin (f : Fmt) : Q := if f.isInt then Q.ofInt f.maxCode else f.magOf f.maxCode

/-! ## Rounding -/

/-- How a rounding is made (R78): to nearest even, with the sticky bit of R85; or stochastically with 16 bits r. -/
inductive Rnd where
  | rne (st : Bool)
  | sr (r : Nat)
deriving DecidableEq, Repr

/-- A rounded result: its bits and what the rounding did, for the flags word of Table 3-9. `blockNan` asks for the
element's E8M0 block scale to become 0xFF (Table 3-3); `unstated` says that the spec gives no element bits. -/
structure Rounded where
  bits : Nat
  overflow : Bool
  inexact : Bool
  underflow : Bool
  isNan : Bool
  blockNan : Bool
  unstated : Bool
deriving DecidableEq, Repr

/-- A result that rounding did not touch. -/
def Rounded.exactly (bits : Nat) (isNan : Bool) : Rounded := ⟨bits, false, false, false, isNan, false, false⟩

/-- How many steps of the lower neighbour's grid to keep: 0 for the lower, 1 for the upper neighbour.
`rem` / `den` is the fraction of a step, in [0, 1); `neg` is the sign of the value and `odd` says that the lower
neighbour's last bit is 1. -/
def roundUp (how : Rnd) (neg odd : Bool) (rem den : Nat) : Nat :=
  if rem = 0 then 0 else
  match how with
  | .rne st =>
    if 2 * rem < den then 0 else if 2 * rem > den then 1
    else if st then (if neg then 0 else 1) else if odd then 1 else 0
  | .sr r => if r < rem * 65536 / den then 1 else 0

/-- The code of a magnitude rounded in `f` without an upper limit of the exponent, the remainder being lost or not,
and whether the result is subnormal or zero. The exponent may exceed the format's range: the code then exceeds
`maxCode`. -/
def Fmt.roundMag (f : Fmt) (how : Rnd) (neg : Bool) (a : Q) : Nat × Bool × Bool :=
  if a.m = 0 then (0, false, false) else
  let e := max f.emin (a.abs.expo)
  let w := e - (f.mbits : Int)
  let num : Nat := if a.e ≥ w then a.m.natAbs * 2 ^ (a.e - w).toNat else a.m.natAbs
  let den : Nat := if a.e ≥ w then a.d else a.d * 2 ^ (w - a.e).toNat
  let lo := num / den
  let rem := num % den
  let n := lo + roundUp how neg (lo % 2 == 1) rem den
  let base := ((e + f.bias - 1) * (2 ^ f.mbits : Nat) : Int).toNat
  (base + n, rem != 0, decide (n < 2 ^ f.mbits ∧ e = f.emin))

/-- The sign bit of a result. -/
def Fmt.signBit (f : Fmt) (neg : Bool) : Nat := if neg then 2 ^ (f.width - 1) else 0

/-- What Table 3-3 gives for a finite overflow. -/
def Fmt.overflowed (f : Fmt) (ovf neg : Bool) : Rounded :=
  if !ovf then ⟨f.signBit neg + f.maxCode, true, true, false, false, false, false⟩
  else if f.nan ≠ 0 then ⟨f.nan, true, true, false, true, false, false⟩
  else ⟨0, true, true, false, true, true, true⟩

/-- A value to an integer format: rounded to an integer and saturated (R79, Table 3-3). For INT8, whose overflow
with OVF = 1, infinities and NaN have no entry in the table, the bits are unstated. -/
def Fmt.roundInt (f : Fmt) (how : Rnd) (ovf : Bool) : Val → Rounded
  | .nan => ⟨0, false, false, false, false, false, f == .int8⟩
  | .inf neg => ⟨if neg then 2 ^ (f.width - 1) else f.maxCode, false, false, false, false, false, f == .int8⟩
  | .fin _ q =>
    let mag := q.abs
    let lo := (mag.floorAt 0).toNat
    let num : Nat := if q.e ≥ 0 then q.m.natAbs * 2 ^ q.e.toNat else q.m.natAbs
    let den : Nat := if q.e ≥ 0 then q.d else q.d * 2 ^ (-q.e).toNat
    let n := lo + roundUp how q.isNeg (lo % 2 == 1) (num % den) den
    let lim := if q.isNeg then 2 ^ (f.width - 1) else f.maxCode
    let ovr := decide (n > lim)
    let n := min n lim
    ⟨if q.isNeg ∧ n ≠ 0 then 2 ^ f.width - n else n, ovr, ovr || num % den != 0,
      decide (num % den ≠ 0 ∧ n = 0), false, false, ovr && ovf && f == .int8⟩

/-- An exact value rounded once to a format (R78, R79, Table 3-3). -/
def Fmt.round (f : Fmt) (how : Rnd) (ovf : Bool) (v : Val) : Rounded :=
  if f.isInt then f.roundInt how ovf v else
  match v with
  | .nan => if f.nan ≠ 0 then .exactly f.nan true else ⟨0, false, false, false, true, true, true⟩
  | .inf neg =>
    if f.hasInf then .exactly (f.signBit neg + (f.maxCode + 1)) false
    else if !ovf then .exactly (f.signBit neg + f.maxCode) false
    else if f.nan ≠ 0 then .exactly f.nan true
    else ⟨0, false, false, false, true, true, true⟩
  | .fin neg q =>
    if q.m = 0 then .exactly (f.signBit neg) false else
    let (code, lost, sub) := f.roundMag how q.isNeg q
    if code > f.maxCode then f.overflowed ovf q.isNeg
    else ⟨f.signBit q.isNeg + code, false, lost, lost && sub, false, false, false⟩

/-- A result known to lie strictly between two exact values (or to be both): rounded when both bounds round alike. -/
def roundBounds (rnd : Q → Rounded) : Nat → (Nat → Q × Q) → Nat → Rounded
  | 0, bounds, p => rnd (bounds p).1
  | fuel + 1, bounds, p =>
    let b := bounds p
    let lo := rnd b.1
    if lo = rnd b.2 then lo else roundBounds rnd fuel bounds (2 * p)

/-! ## Arithmetic on values -/

/-- The sign of a value. -/
def Val.sign : Val → Bool
  | .nan => false
  | .inf n => n
  | .fin n q => if q.m = 0 then n else q.isNeg
/-- Whether the value is a zero. -/
def Val.isZero : Val → Bool
  | .fin _ q => q.m == 0
  | _ => false
/-- Whether the value is a NaN. -/
def Val.isNan : Val → Bool
  | .nan => true
  | _ => false
/-- Whether the value is an infinity. -/
def Val.isInf : Val → Bool
  | .inf _ => true
  | _ => false
/-- The exact sum; +Inf with −Inf is invalid, and an exact zero is +0 (R70, R86). -/
def Val.add : Val → Val → Val
  | .nan, _ => .nan
  | _, .nan => .nan
  | .inf a, .inf b => if a = b then .inf a else .nan
  | .inf a, _ => .inf a
  | _, .inf b => .inf b
  | .fin _ a, .fin _ b => .ofQ (a.add b)
/-- The value with its sign turned. -/
def Val.neg : Val → Val
  | .nan => .nan
  | .inf a => .inf (!a)
  | .fin n q => .fin (!n) q.neg
/-- The exact product; a zero takes the exclusive-or of the signs (R70), Inf × 0 is invalid (R86). -/
def Val.mul : Val → Val → Val
  | .nan, _ => .nan
  | _, .nan => .nan
  | .inf a, y => if y.isZero then .nan else .inf (a != y.sign)
  | x, .inf b => if x.isZero then .nan else .inf (x.sign != b)
  | .fin a p, .fin b q => let r := p.mul q; .fin (if r.m = 0 then a != b else r.isNeg) r
/-- A × B + C as one exact sum; the product's zero sign does not reach the sum (R70). -/
def Val.fma (a b c : Val) : Val :=
  match a.mul b, c with
  | .fin _ p, .fin _ q => .ofQ (p.add q)
  | p, c => p.add c
/-- Whether a finite or infinite value is strictly less than another (NaN: false). -/
def Val.lt : Val → Val → Bool
  | .nan, _ => false
  | _, .nan => false
  | .inf a, .inf b => a && !b
  | .inf a, .fin _ _ => a
  | .fin _ _, .inf b => !b
  | .fin _ a, .fin _ b => a.lt b
/-- The magnitude. -/
def Val.abs : Val → Val
  | .nan => .nan
  | .inf _ => .inf false
  | .fin _ q => .fin false q.abs

/-! ## E8M0 and the scale operations -/

/-- The decode exponent c = 127 − e of an E8M0 scale, none for the NaN code 0xFF (Table 3-2, R80). -/
def e8m0Exp (e : Nat) : Option Int := if e % 256 = 255 then none else some (127 - ((e % 256 : Nat) : Int))

/-- e8m0_scale of R75: the E8M0 exponent for an FP32 amax. -/
def e8m0Scale (amax : Val) (maxfin : Q) : Nat :=
  match amax with
  | .nan => 255
  | .inf _ => 0
  | .fin _ q => if q.m = 0 then 254 else min 254 ((maxfin.div q.abs).expo + 127).toNat

/-- f8_scale of R75: the FP32 scale for an FP32 amax, as FP32 bits. -/
def f8Scale (amax : Val) (maxfin : Q) : Nat :=
  match amax with
  | .nan => Fmt.fp32.nan
  | .inf _ => 0x3f800000
  | .fin _ q => if q.m = 0 then 0x3f800000 else (Fmt.fp32.round (.rne false) false (.ofQ (maxfin.div q.abs))).bits

/-- The cap of R76 over one row of E8M0 exponents. -/
def capRow (es : List Nat) : List Nat :=
  let good := es.filter (· ≠ 255)
  match good with
  | [] => es
  | g :: gs => let lo := gs.foldl min g; es.map (fun e => if e = 255 then 255 else min e (lo + 46))

/-! ## The keyed counter generator (R90) -/

/-- One round of the KCG on (x0, x1, k0, k1). -/
def kcgRound (x : BitVec 64 × BitVec 64 × BitVec 64 × BitVec 64) :
    BitVec 64 × BitVec 64 × BitVec 64 × BitVec 64 :=
  let (x0, x1, k0, k1) := x
  let p0 : BitVec 128 := x0.setWidth 128 * (0xD2E74A913C5FB86B#64).setWidth 128
  let p1 : BitVec 128 := x1.setWidth 128 * (0xC96A0F3D85E217B5#64).setWidth 128
  (p1.extractLsb' 64 64 ^^^ p0.extractLsb' 0 64 ^^^ k0, p0.extractLsb' 64 64 ^^^ p1.extractLsb' 0 64 ^^^ k1,
    k0 + 0x9F1B6C4E2A73D805#64, k1 + 0xB47E3A19C6D25F83#64)

/-- `n` rounds of the KCG. -/
def kcgRounds : Nat → BitVec 64 × BitVec 64 × BitVec 64 × BitVec 64 → BitVec 64 × BitVec 64 × BitVec 64 × BitVec 64
  | 0, x => x
  | n + 1, x => kcgRounds n (kcgRound x)

/-- The 32-bit word of an element: key, stream ID, step and global element index (R90, R91). -/
def kcgWord (key : BitVec 128) (stream step : BitVec 32) (index : BitVec 64) : BitVec 32 :=
  let c1 : BitVec 64 := stream ++ step
  let r := kcgRounds 10 (index >>> 2, c1, key.extractLsb' 0 64, key.extractLsb' 64 64)
  match (index.toNat % 4 : Nat) with
  | 0 => r.1.extractLsb' 0 32
  | 1 => r.1.extractLsb' 32 32
  | 2 => r.2.1.extractLsb' 0 32
  | _ => r.2.1.extractLsb' 32 32

/-- An open pattern of a format's width: one that is a NaN is the canonical NaN, the only one the module produces (R69). -/
def Fmt.openBits (f : Fmt) (n : Nat) : Nat :=
  let b := n % 2 ^ f.width
  if (f.decode b).isNan then f.nan else b
/-- The value of an F8 element under its FP32 scale: the element divided by it, a zero keeping its sign (R70, R77); none where the
scale is zero or infinite, by which the spec states no quotient. -/
def f8Over (f : Fmt) (scale code : Nat) : Option Val :=
  match Fmt.fp32.decode scale, f.decode code with
  | .nan, _ => some .nan
  | _, .nan => some .nan
  | .inf _, _ => none
  | .fin _ q, .fin neg x => if q.m = 0 then none else if x.m = 0 then some (.zero neg) else some (.ofQ (x.div q))
  | .fin _ q, .inf neg => if q.m = 0 then none else some (.inf (neg != q.isNeg))

end Sys2Proof.Machine
end

