-- ==== Sys2Proof/Machine/Reduce.lean ====
section
/-! DEFINITION. The arithmetic of collectives: the W40 tree (R87, R224), exact reduction (R88, R89, R226), MAX and MIN
(R227), and the gradient-noise sums (R235). -/
namespace Sys2Proof.Machine

/-- An exact value rounded to W40 by RNE, overflow giving an infinity (R87). -/
def w40 (v : Val) : Nat :=
  let r := Fmt.w40.round (.rne false) false v
  if r.overflow then Fmt.w40.signBit v.sign + 0x7f80000000 else r.bits
/-- One addition of R87. -/
def addW40 (a b : Nat) : Nat := w40 ((Fmt.w40.decode a).add (Fmt.w40.decode b))
/-- The fixed tree of R224 over a list; `fuel` bounds its depth. -/
def w40Tree : Nat → List Nat → Nat
  | 0, l => l.headD 0
  | fuel + 1, l =>
    if l.length ≤ 1 then l.headD 0 else
    let h := 2 ^ Nat.log2 (l.length - 1)
    addW40 (w40Tree fuel (l.take h)) (w40Tree fuel (l.drop h))
/-- The tree over a list. -/
def tree (l : List Nat) : Nat := w40Tree l.length l

/-- The integer nearest to a value, to even on a tie. -/
def rneInt (q : Q) : Int :=
  let lo := q.floorAt 0
  let d := q.sub (Q.ofInt lo)
  let half : Q := ⟨1, 1, -1⟩
  if d.lt half then lo else if half.lt d then lo + 1 else if lo % 2 = 0 then lo else lo + 1
/-- One exact reduction over every contribution of every member (R88, R89). -/
def exactSum (vs : List Val) : Nat :=
  let fin := vs.filterMap (fun v => match v with | .fin _ q => if q.m = 0 then none else some q | _ => none)
  let pinf := vs.any (fun v => v.isInf && !v.sign)
  let ninf := vs.any (fun v => v.isInf && v.sign)
  if vs.any Val.isNan || (pinf && ninf) then Fmt.w40.nan
  else if pinf then w40 (.inf false) else if ninf then w40 (.inf true)
  else match fin with
    | [] => 0
    | q :: t =>
      let a : Int := t.foldl (fun m x => max m x.expo) q.expo
      let sum := fin.foldl (fun n x => n + rneInt (x.mul (Q.pow2 (100 - a)))) 0
      w40 (.ofQ ((Q.ofInt sum).mul (Q.pow2 (a - 100))))
/-- The exact sum of one member's contributions, rounded once to W40 (R235). -/
def exactPartial (vs : List Val) : Nat := w40 (vs.foldl Val.add (.zero false))

/-- The order of R227 on element bits: −0 below +0. -/
def orderKey (f : Fmt) (bits : Nat) : Int :=
  if f.isInt then toSigned f.width bits
  else
    let m : Nat := bits % 2 ^ (f.width - 1)
    if bits / 2 ^ (f.width - 1) % 2 = 1 then -(m : Int) - 1 else m
/-- MAX or MIN of elements (R227). -/
def extremum (f : Fmt) (isMax : Bool) (l : List Nat) : Nat :=
  if l.any (fun b => (f.decode b).isNan) then f.nan else
  match l with
  | [] => 0
  | x :: t => t.foldl (fun a b =>
      if isMax then (if orderKey f a < orderKey f b then b else a) else (if orderKey f b < orderKey f a then b else a)) x

/-- An empty noise accumulator (R235). -/
def noiseZero : NoiseSum := ⟨0, false, false⟩
/-- A W40 element's square entered in an accumulator; a poisoned element counts as NaN. -/
def noiseEnter (n : NoiseSum) (bits : Nat) (poisoned : Bool) : NoiseSum :=
  match Fmt.w40.decode bits, poisoned with
  | _, true => { n with nan := true }
  | .nan, _ => { n with nan := true }
  | .inf _, _ => { n with inf := true }
  | .fin _ q, _ => { n with acc := n.acc + BitVec.ofInt 640 ((q.mul q).floorAt (-314)) }
/-- Two accumulators joined. -/
def noiseJoin (a b : NoiseSum) : NoiseSum := ⟨a.acc + b.acc, a.nan || b.nan, a.inf || b.inf⟩
/-- The sum rounded once to W40 (R235). -/
def noiseValue (n : NoiseSum) : Nat :=
  if n.nan then Fmt.w40.nan else if n.inf then w40 (.inf false) else w40 (.ofQ ⟨n.acc.toNat, 1, -314⟩)

end Sys2Proof.Machine
end

