-- ==== Sys2Proof/Machine/Tab.lean ====
section
/-! DEFINITION. Sparse tables in one canonical form: keys strictly rising, and no entry equal to what an
unlisted key reads as. Memory, the register file and every large collection of like things use them. -/
namespace Sys2Proof.Machine

/-- A sparse table from keys to values. What an unlisted key reads as is an argument of every operation. -/
abbrev Tab (α : Type) := List (Nat × α)

/-- The value at key `k`; `d` where the key is not listed. -/
def Tab.get {α : Type} (d : α) : Tab α → Nat → α
  | [], _ => d
  | (k, v) :: t, q => if q = k then v else Tab.get d t q

/-- The table without key `q`. -/
def Tab.erase {α : Type} (t : Tab α) (q : Nat) : Tab α := t.filter (fun e => e.1 ≠ q)

/-- The table with `x` at key `q`, listed whatever `x` is. -/
def Tab.insert {α : Type} (x : α) : Tab α → Nat → Tab α
  | [], q => [(q, x)]
  | (k, v) :: t, q =>
    if q < k then (q, x) :: (k, v) :: t else if q = k then (q, x) :: t else (k, v) :: Tab.insert x t q

/-- The table with `x` at key `q`: an entry equal to the default `d` is removed, so that equal contents are
equal tables. -/
def Tab.set {α : Type} [DecidableEq α] (d : α) (t : Tab α) (q : Nat) (x : α) : Tab α :=
  if x = d then t.erase q else t.insert x q

/-- The canonical table that reads as `t` does. -/
def Tab.canon {α : Type} [DecidableEq α] (d : α) (t : Tab α) : Tab α := t.foldr (fun e u => Tab.set d u e.1 e.2) []

/-- Keys strictly rising. -/
def Tab.sorted {α : Type} : Tab α → Bool
  | [] => true
  | [_] => true
  | (a, _) :: (b, y) :: t => decide (a < b) && Tab.sorted ((b, y) :: t)

/-- The canonical form: keys strictly rising, no entry equal to the default. -/
def Tab.wf {α : Type} [DecidableEq α] (d : Nat → α) (t : Tab α) : Bool :=
  t.sorted && t.all (fun e => e.2 ≠ d e.1)

/-- Every listed value changed by `f`, dropping what becomes the default. -/
def Tab.mapVals {α : Type} [DecidableEq α] (d : α) (f : Nat → α → α) : Tab α → Tab α
  | [] => []
  | (k, v) :: t => if f k v = d then (Tab.mapVals d f t).erase k else (k, f k v) :: Tab.mapVals d f t
/-- Every listed value changed by `f`, in a table whose unlisted keys read as `d` of the key. -/
def Tab.mapKeys {α : Type} [DecidableEq α] (d : Nat → α) (f : Nat → α → α) : Tab α → Tab α
  | [] => []
  | (k, v) :: t => if f k v = d k then (Tab.mapKeys d f t).erase k else (k, f k v) :: Tab.mapKeys d f t

end Sys2Proof.Machine
end

