-- ==== Sys2Proof/Machine/State.lean ====
section
/-! DEFINITION. The state of the LM9 as plain data. Every control register of R525 has its home in `State.regs`,
keyed by its control-space offset, unless its value is computed from other state (`regView` in Machine/Views.lean).
What the spec gives the machine beside registers stands in the structures below, one per chapter. -/
namespace Sys2Proof.Machine

/-! ## Register fields -/

/-- The access types of Table 0-2; `rsv` is a reserved field (R8). -/
inductive Access where
  | ro | rw | wo | w1c | rwl | rs | rsv
deriving DecidableEq, Repr

/-- One field of a register map: its bits, access type and Reset entry. -/
structure FieldDef where
  lo : Nat
  w : Nat
  acc : Access
  rst : Nat
deriving DecidableEq, Repr

/-- One register of a register map. -/
structure RegDef where
  off : Nat
  fields : List FieldDef
deriving DecidableEq, Repr

/-- A named field: the control-space offset of its register, its lowest bit and its width. -/
structure Fld where
  reg : Nat
  lo : Nat
  w : Nat
deriving DecidableEq, Repr

/-! ## Chapter 02: cores -/

/-- The registers of a KCG descriptor as an instruction that issued found them (R33, R91, log entry 147). -/
structure KDesc where
  stream : Nat
  step : Nat
  base : Nat
  pitch : Nat
deriving DecidableEq, Repr

/-- An array operation that has issued and not drained (R36, R38). `half` is 0 whole, 1 lower, 2 upper; `seq` is its
place in the core's issue order; `kd` its KCG descriptor; `fed` says that its fill has begun; `dirty` says that a byte of
its operand, scale or mask ranges was written since it issued by what is not ordered before it, so that its output bits
are open (R38); `done` counts the rows of its output that have landed; `kept` marks the half operation that outlives
the stop that its pair's fault brings (R46). -/
structure ArrOp where
  w0 : Word
  w1 : Word
  w2 : Word
  w3 : Word
  pc : Nat
  seq : Nat
  half : Nat
  kd : KDesc
  fed : Bool
  dirty : Bool
  done : Nat
  kept : Bool
deriving DecidableEq, Repr

/-- The activity of an array (R39, R492): cold; cold with a ramp that the governor has not admitted; ramping up or down
with so many of its 8 column groups enabled; warm; warm with a ramp down not admitted. -/
inductive Ramp where
  | cold
  | waitUp
  | up (groups : Nat)
  | warm
  | waitDown
  | down (groups : Nat)
deriving DecidableEq, Repr

/-- One array of a core: its queue of at most 4, what runs on it (one whole operation, or one per half), its ramp,
its WARM hold count, whether it is in half use, and the first fault since its last ASTAT. -/
structure ArrSt where
  queue : List ArrOp
  running : List ArrOp
  ramp : Ramp
  hold : Option Nat
  halves : Bool
  first : Nat
deriving DecidableEq, Repr

/-- A vector operation between issue and completion (R95): its flags, its overflow count, whether it produced a NaN
with TRAP = 1 or consumed poison, where its flags word and destination lie, the ranges of the core's window it reads,
its result row by row, the scale bytes that become 0xFF with it (Table 3-3), and the rows that have landed. -/
structure VecPend where
  pc : Nat
  seq : Nat
  flags : Nat
  ovfCount : Nat
  trap : Bool
  poison : Bool
  flagAddr : Option Nat
  dstAddr : Nat
  rowBytes : Nat
  stride : Nat
  rows : Nat
  reads : List (Nat × Nat)
  data : List (Tab Byte)
  blocks : List Nat
  done : Nat
deriving DecidableEq, Repr

/-- Bytes copied out of a memory: the non-zero ones, and the parts that are poisoned, as (offset, length). -/
structure Piece where
  data : Tab Byte
  pois : List (Nat × Nat)
deriving DecidableEq, Repr

/-- A transfer between issue and completion (R56): its addresses as local or global addresses, its shape, and the
address of its completion word; `srcMod` and `dstMod` name another module where an end is remote; `seq` is its place in
the core's issue order and `daddr` the destination address as the program gave it. `buf` holds its rows once its
source has been read; `landed` lists the 8-byte words of its destination, as (row, word), that it has written already
(R270, R273), and `pois` the 32-byte words those writes poisoned. -/
structure XferPend where
  pc : Nat
  seq : Nat
  src : Nat
  dst : Nat
  srcMod : Option Nat
  dstMod : Option Nat
  rowBytes : Nat
  rows : Nat
  sstride : Nat
  dstride : Nat
  daddr : Nat
  cw : Option Nat
  buf : Option (List Piece)
  landed : List (Nat × Nat)
  pois : List Nat
deriving DecidableEq, Repr

/-- A release store that waits for the accesses before it (R278, R285): its place in the core's issue order, the scope it
releases at, its address, the module it goes to where that is another, and its value. -/
structure Sig where
  seq : Nat
  scope : Nat
  addr : Nat
  mod : Option Nat
  value : Nat
deriving DecidableEq, Repr

/-- What a remote access belongs to: a transfer (its place in the core's issue order), a SIGNAL, or an ATOMIC. -/
inductive RemKind where
  | xfer (seq : Nat)
  | signal
  | atomic (d : Fin 32)
deriving DecidableEq, Repr

/-- A remote store or atomic that awaits its acknowledgement (R360): its key slot and CTR, the core that issued it and
the access's place in that core's issue order, the module it goes to, its address and bytes there, and the times it was
sent again. -/
structure Remote where
  key : Nat
  ctr : Nat
  core : Nat
  seq : Nat
  kind : RemKind
  module : Nat
  addr : Nat
  bytes : Nat
  resends : Nat
deriving DecidableEq, Repr

/-- What holds a core's instruction stream. -/
inductive Stall where
  | none
  | astat (arr : Fin 4) (d : Fin 32)
  | fence (scope : Nat) (seq : Nat)
  | wait (w : Word)
  | atomic (d : Fin 32)
deriving DecidableEq, Repr

/-- One core (Table 2-1): scalar registers, program counter in 8-byte units, arrays, vector and transfer work, release
stores that wait, the first non-array fault since its ASTAT, the stream's hold, and whether it runs, was halted by a
fault, or is offline (R65). `seq` numbers the operations and accesses it has issued. -/
structure CoreSt where
  sregs : Tab Word
  pc : Nat
  running : Bool
  faultHalt : Bool
  stall : Stall
  f : ArrSt
  d : ArrSt
  g : ArrSt
  vecs : List VecPend
  xfers : List XferPend
  sigs : List Sig
  firstOther : Nat
  seq : Nat
  kcgKey : BitVec 128
  physical : Option Nat
  offline : Bool
deriving DecidableEq, Repr

/-- An array right after reset: cold and empty. -/
def ArrSt.reset : ArrSt := ⟨[], [], .cold, none, false, 0⟩
/-- A core right after reset (Tables 2-17, 2-18; scalar registers and KCG key: log entry 2). -/
def CoreSt.reset : CoreSt :=
  ⟨[], 0, false, false, .none, ArrSt.reset, ArrSt.reset, ArrSt.reset, [], [], [], 0, 0, 0, none, false⟩

/-- The ramp governor of a compute die (R492): the die's ACLK cycle, the cycles of the admissions of the last 128, and
the position of its pointer, logical core × 3 + array within the die. -/
structure GovSt where
  cycle : Nat
  grants : List Nat
  ptr : Nat
deriving DecidableEq, Repr

/-! ## Chapter 14: hosts and jobs -/

/-- A completion not yet written (R391, R392). -/
structure Cpl where
  tag : Word
  status : Nat
  opcode : Nat
  job : Nat
  result : Nat
deriving DecidableEq, Repr

/-- One journal ring and its completion ring: entries consumed, completion records written, slots reserved for
commands dispatched and not completed (R385). -/
structure RingSt where
  consumed : Nat
  written : Nat
  reserved : Nat
deriving DecidableEq, Repr

/-- One MSI-X vector: messages sent, whether its hold-off runs, whether records wait for its end (R388). -/
structure Msix where
  sent : Nat
  hold : Bool
  pend : Bool
deriving DecidableEq, Repr

/-- A job on the module (R386): its descriptor's fields, its owner, and how far it is orphaned, reset or ended. -/
structure Job where
  id : Nat
  part : Nat
  port : Nat
  fn : Nat
  seed : BitVec 128
  imageDigest : BitVec 384
  manifests : List (List Byte)
  acctFirst : Nat
  acctN : Nat
  orphaned : Bool
  toRing0 : Bool
  reset : Bool
  resetDone : Bool
  origCode : Nat
  origModule : Nat
  ending : Option Cpl
  endRing : Nat
  held : List Cpl
  keySlot : Option Nat
deriving DecidableEq, Repr

/-- What a command that has not completed waits for. -/
inductive PendKind where
  | boundary (p : Payload) (dmaFail : Bool)
  | adapterWait (id ver src bytes : Nat)
  | adapterLoading (slot src bytes : Nat)
  | turn
  | update
  | weightLoad
  | objPut (handle : Nat)
  | objGet (handle off bytes : Nat) (toHost : Bool) (dst : Nat)
  | objDelete (handle : Nat)
deriving DecidableEq, Repr

/-- A dispatched command that awaits its completion (R532). -/
structure PendCmd where
  port : Nat
  fn : Nat
  ring : Nat
  tag : Word
  opcode : Nat
  job : Nat
  kind : PendKind
deriving DecidableEq, Repr

/-! ## Chapter 16: security -/

/-- A key-table entry (R431); `bind` is a partition 0 to 7, 8 house, 15 module. -/
structure KeyEnt where
  kind : Nat
  bind : Nat
  flags : Nat
  id : Nat
  notAfter : Nat
  reqDigest : BitVec 384
  tagChain : BitVec 384
  nseg : Nat
  manifest : List Byte
  key : BitVec 256
deriving DecidableEq, Repr

/-- A partition of the module (Table 16-5): formed or not, its stack mask, and whether its weight slots are sealed
(R433). -/
structure PartSt where
  valid : Bool
  stackMask : Nat
  sealedW : Bool
deriving DecidableEq, Repr

/-- A secured SPDM session (R427): its path, number and whether FINISH has completed it. -/
structure Session where
  path : Path
  id : Nat
  finished : Bool
  keyEpoch : Nat
deriving DecidableEq, Repr

/-! ## Chapter 10: on-chip memory -/

/-- A power segment (R300): 0 ON, 1 RET, 2 OFF, and whether an access holds a RET segment awake (R301). -/
structure SegSt where
  st : Nat
  awake : Bool
deriving DecidableEq, Repr

/-- A march run in progress (R303 to R305): the MT_CTL value it started with, the segments it tests, and whether ABORT was
written. -/
structure March where
  ctl : Nat
  segs : List Nat
  aborting : Bool
deriving DecidableEq, Repr

/-! ## Chapter 11: HBM stacks -/

/-- A channel migration in progress (Table 11-4): source and spare channel, and the row repair that follows. -/
structure Migration where
  src : Nat
  dst : Nat
deriving DecidableEq, Repr

/-- One HBM stack beside its registers: the pseudo-channel in a retrain hold, pseudo-channels whose first retrain
failed (R319), retrains that are due and wait (R318, R319), the migration in progress, the offline channel under row repair, repaired rows by bank (key
(channel × 2 + pc) × 16 + bank), the next row OP 2 lists, the repair command and generator run in progress, whether the migration in progress goes back,
and the times of corrected errors by row (key ((channel × 2 + pc) × 16 + bank) × 2^18 + row, R320). -/
structure HbmSt where
  holding : Option Nat
  retry : List Nat
  due : List Nat
  mig : Option Migration
  ppr : Option Nat
  repaired : Tab (List Nat)
  listed : Nat
  rpr : Option Nat
  tg : Option Nat
  tgAbort : Bool
  swapped : Bool
  rowErr : Tab (List Nat)
deriving DecidableEq, Repr

/-- A stack right after reset. -/
def HbmSt.reset : HbmSt := ⟨none, [], [], none, none, [], 0, none, none, false, false, []⟩

/-! ## Chapter 12: the slow tier -/

/-- What an object is: a data object, a model image, a park record's KV, or an erasure-coded fragment (Table 12-1). -/
inductive ObjKind where
  | data | image | park | fragment
deriving DecidableEq, Repr

/-- One object of the directory (R336 to R339): its generation, the partition whose region it belongs to, kind, size,
expiry instant (calendar ticks, none without a TTL), whether it is sealed or being deleted, its bytes and its
poisoned 32-byte words. `source` and `srcHost` keep where a copy in progress reads; `wrapped` is its key wrapped under the store key of each
Nolmer that holds a part of it (R335, log entry 178). -/
structure Obj where
  gen : Nat
  part : Nat
  kind : ObjKind
  bytes : Nat
  expiry : Option Nat
  sealedO : Bool
  deleting : Bool
  data : Tab Byte
  poison : List (Nat × Nat)
  source : Nat
  srcHost : Option Nat
  wrapped : List (Nat × BitVec 384)
deriving DecidableEq, Repr

/-- A flash block's metadata (R345): program/erase count, program time (seconds), reads since erase, whether
retired, and whether a retry queued it for a refresh. -/
structure Blk where
  pe : Nat
  progTime : Nat
  reads : Nat
  bad : Bool
  refresh : Bool
deriving DecidableEq, Repr

/-- The keys that boot gives a Nolmer (Table 16-1): of its lift link (R422), its store key (R426) and the XTS keys of its
halves (R334), the low half of each the data key. -/
structure NolKeys where
  lift : BitVec 256
  store : BitVec 256
  half0 : BitVec 512
  half1 : BitVec 512
deriving DecidableEq, Repr

/-- One Nolmer beside its registers: bytes written by hosts and to NAND (FL_CNT, R348), and its keys from its bring-up at boot on. -/
structure NolSt where
  hostBytes : Nat
  nandBytes : Nat
  keys : Option NolKeys
deriving DecidableEq, Repr

/-- The object directory (R336): entries by index, the next generation of an index that was freed, freed indices
least recently freed first, and the first index never used. -/
structure Directory where
  objs : Tab (Option Obj)
  gens : Tab Nat
  freed : List Nat
  fresh : Nat
deriving DecidableEq, Repr
/-! ## Chapter 13: the fabric -/

/-- A fabric key slot (R356): the job it belongs to, its link key, and the sender's next message counter (R355). -/
structure KeySlot where
  job : Nat
  key : BitVec 256
  ctr : Nat
deriving DecidableEq, Repr

/-- What a receiver keeps for a key slot and source (R357): the highest counter delivered and the delivered ones of the
65,536 below it. -/
structure Recv where
  high : Nat
  seen : List Nat
deriving DecidableEq, Repr

/-- A transport message on its way out (R355, R367): its header, and how often it was sent before. -/
structure TxMsg where
  h : THdr
  attempt : Nat
deriving DecidableEq, Repr

/-- A flit in the replay buffer (R351): its SEQ, its message, and whether it is the first or the last of it. -/
structure Flit where
  seq : Nat
  msg : TxMsg
  first : Bool
  last : Bool
deriving DecidableEq, Repr

/-- One fabric port beside its registers (R351, R352, R358): consecutive training failures, probe attempts without a valid
probe, whether the partner's probe and the acknowledgement of the own challenge were valid, the own challenge, the next
flit sequence expected, the last acknowledged, resends of one flit, credits held by virtual channel, the quanta a PFC
pause holds for the port's PCP, messages not yet sent with the flits each still has (R353, R359), the replay buffer, the SEQ of
the next flit, the arbiter's pointer among VC1 to VC3, and the header of the idle flit that it last answered with. -/
structure PortSt where
  fails : Nat
  probes : Nat
  gotProbe : Bool
  gotAck : Bool
  chal : Nat
  rxSeq : Nat
  acked : Nat
  resends : Nat
  credits : Tab Nat
  pause : Nat
  queue : List (TxMsg × Nat)
  replay : List Flit
  txSeq : Nat
  ptr : Nat
  reply : Option FlitHdr
deriving DecidableEq, Repr

/-- A rack member's part of the topology table (R363): its serial number, the sequence of its last update and the 32
entries. -/
structure TopoMod where
  serial : Nat
  seq : Nat
  ents : List TopoEnt
deriving DecidableEq, Repr

/-- A switch's last reach advertisement on a port (R364): its sequence and the racks it reaches. -/
structure Advert where
  seq : Nat
  racks : List Nat
deriving DecidableEq, Repr

/-- The answer last sent to a remote store or atomic (R440, R281): the module asked, its counter, whether positive, the old
value and whether it is poisoned. -/
structure RemAns where
  module : Nat
  ctr : Nat
  positive : Bool
  old : Word
  poisoned : Bool
deriving DecidableEq, Repr

/-- What a remote access asks for. -/
inductive HeldOp where
  | store (data : List (Byte × Bool))
  | atomic (op : AOp) (operand expected : Word)
deriving DecidableEq, Repr

/-- A remote access from another module that waits in the queue of a retraining pseudo-channel (R283, R318): the partition of
its job, its header, and what it asks for. -/
structure HeldMsg where
  part : Nat
  h : THdr
  op : HeldOp
deriving DecidableEq, Repr

/-- The fabric: job key slots, the fabric key's counter, receive windows (slot × 65,536 + source; slot 16 the fabric key),
ports, link table by rack member, reach masks by rack, the last advertisement by port, the own update sequence, and the
answer last sent to a remote access, and remote accesses that wait for a retrain. -/
structure FabSt where
  slots : Tab (Option KeySlot)
  fabCtr : Nat
  recv : Tab Recv
  ports : Tab PortSt
  topo : Tab TopoMod
  reach : Tab Nat
  advert : Tab (Option Advert)
  updSeq : Nat
  lastAns : Option RemAns
  heldMsgs : List HeldMsg
deriving DecidableEq, Repr

/-! ## Chapter 04: training -/

/-- Where a unit of training work stands (R100, R101, R118). -/
inductive MbStage where
  | posted | fwd | fwdDone | bwd | done
deriving DecidableEq, Repr

/-- A stash entry of a unit: its layer, its tensor within the layer, its descriptor's index and its place (R116, R122). -/
structure StashEnt where
  layer : Nat
  slot : Nat
  desc : Nat
  addr : Nat
  bytes : Nat
  fmt : Nat
deriving DecidableEq, Repr

/-- A micro-batch, or one chunk of it (R131): its key, header (Table 4-1), stage, the layer shards it holds references on
here, the gathered shards of other modules (module, shard) that it needs, those asked for and those granted by their owner,
whether its dY has arrived, its stash ranges as (first MiB, MiB) in the HBM and spill regions with the bytes of each that
entries fill, its stash entries, the layers its forward pass has completed, the KCG descriptors it sets, whether it runs
again in a replay and whether it consumed poison, so that it keeps its references to the replay's end (R121), and whether its
stage-queue entries have been sent downstream and upstream (R199). -/
structure MbUnit where
  batch : Nat
  mb : Nat
  chunk : Nat
  step : Nat
  tokens : Nat
  foot : Nat
  shards : List Nat
  remote : List (Nat × Nat)
  kds : List KdSet
  stage : MbStage
  refs : List Nat
  asked : List (Nat × Nat)
  remRefs : List (Nat × Nat)
  dy : Bool
  hres : Option (Nat × Nat)
  sres : Option (Nat × Nat)
  hfill : Nat
  sfill : Nat
  entries : List StashEnt
  layers : List Nat
  replay : Bool
  tainted : Bool
  sentFwd : Bool
  sentBwd : Bool
deriving DecidableEq, Repr

/-- One version slot (Table 4-6): step held, state (0 FREE, 1 LOADING, 2 ACTIVE, 3 PREVIOUS), micro-batch references. -/
structure VSlot where
  step : Nat
  st : Nat
  refs : Nat
deriving DecidableEq, Repr

/-- A layer shard on its owner (R123 to R129): both slots, the newest published step, the steps of updates that wait to
claim in order of arrival, and the stamps of peers' admissions that wait. -/
structure Shard where
  even : VSlot
  odd : VSlot
  newest : Option Nat
  updWait : List Nat
  waits : List Nat
deriving DecidableEq, Repr

/-- A shard of a job that has loaded nothing. -/
def Shard.reset : Shard := ⟨⟨0, 0, 0⟩, ⟨0, 0, 0⟩, none, [], []⟩

/-- A report sent to the owner of a gathered layer shard (R125): the owner, the shard, the stamp, and whether it reports a
backward completion rather than an admission. -/
structure VerMsg where
  module : Nat
  shard : Nat
  step : Nat
  backward : Bool
deriving DecidableEq, Repr

/-- Training state of one partition: units in posting order; the slot state of every shard not listed by itself, and the
shards listed; the shards that other modules own; the reports sent to those; the latched DEADLOCK stage (Table 4-4); the
uptime at which a wait for stash began; the batch in replay. -/
structure TrnSt where
  units : List MbUnit
  base : Shard
  shards : Tab (Option Shard)
  foreign : List Nat
  sent : List VerMsg
  latch : Bool
  stall : Option Nat
  replay : Option Nat
deriving DecidableEq, Repr

/-- A partition without training work. -/
def TrnSt.reset : TrnSt := ⟨[], Shard.reset, [], [], [], false, none, none⟩

/-! ## Chapter 05: rollout -/

/-- What a verify round leaves for the boundary (R155): its draft length, the drafts accepted, and the tokens with their
log-probabilities and SPEC bits. -/
structure Round where
  len : Nat
  acc : Nat
  toks : List (Nat × Nat × Bool)
deriving DecidableEq, Repr

/-- A context (Table 5-1, R139 to R172). `st` is the STATE code; `order` the admission order; `slot` the adapter slot it
pins; `maps` the prefix handles it maps; `pages` its KV pages from position 0; `toks` its tokens from position 0, of which
the last `hist` were emitted without a prompt between; `prompt` new prompt tokens to prefill; `out` tokens emitted;
`runEnd` a run-to-end cancellation and `hold` the TTL of a PAUSE that wait for DECODE; `stopped` a stop met before DECODE;
`reason` and `ticket` those of the final record; `resume` the ticket being restored; `mark` what a turn's CTX_POLICY asks for at the next
boundary (1 PAUSE, 2 CANCEL); `filled` the positions whose KV is written when its prefill goes on (R137); `far` the module of the
decode pool that holds its pages, where that is another one (R138). -/
structure Ctx where
  st : Nat
  gen : Nat
  part : Nat
  job : Nat
  order : Nat
  batch : Nat
  step : Nat
  acct : Nat
  ring : Nat
  stopset : Nat
  adapter : Nat
  aver : Nat
  slot : Option Nat
  maps : List Nat
  pages : List Nat
  toks : List Nat
  hist : Nat
  prompt : Nat
  out : Nat
  maxNew : Nat
  temp : Nat
  salt : Nat
  topk : Nat
  keep : Bool
  ttl : Nat
  lpMode : Bool
  noDraft : Bool
  len : Nat
  offLeft : Nat
  off : Bool
  zeroRun : Nat
  runEnd : Bool
  hold : Option Nat
  stopped : Option Nat
  reason : Nat
  ticket : Nat
  resume : Option Nat
  round : Option Round
  finalSent : Bool
  mark : Nat
  filled : Nat
  far : Option Nat
deriving DecidableEq, Repr

/-- A FREE context of a generation. -/
def Ctx.free (gen : Nat) : Ctx :=
  ⟨0, gen, 0, 0, 0, 0, 0, 0, 0, 0, 0xffff, 0, none, [], [], [], 0, 0, 0, 0, 0, 0, 0, false, 0, false, false, 0, 0, false, 0,
    false, none, none, 0, 0, none, none, false, 0, 0, none⟩

/-- An adapter slot (Table 5-5): 0 FREE, 1 LOADING, 2 CURRENT, 3 OLD; its partition, ID, version, references and bytes. -/
structure AdSlot where
  st : Nat
  part : Nat
  id : Nat
  ver : Nat
  count : Nat
  data : Tab Byte
deriving DecidableEq, Repr

/-- A prefix handle (R145): partition, tokens, pages, weight version, adapter ID and version, being released. -/
structure Pfx where
  part : Nat
  toks : List Nat
  pages : List Nat
  step : Nat
  adapter : Nat
  aver : Nat
  released : Bool
deriving DecidableEq, Repr

/-- A stop set (R157): end tokens and stop sequences. -/
structure StopSet where
  ends : List Nat
  seqs : List (List Nat)
deriving DecidableEq, Repr

/-- A park record (R167, R340): its tokens and their emitted tail, weight version, adapter ID and version, KV pages, ring
number, park instant (calendar ticks), whether its KV is in the park area, held by a resume, or lost. -/
structure Park where
  toks : List Nat
  hist : Nat
  step : Nat
  adapter : Nat
  aver : Nat
  pages : Nat
  ring : Nat
  at_ : Nat
  dram : Bool
  held : Bool
  lost : Bool
deriving DecidableEq, Repr

/-- A stream ring of the job in a partition (Table 14-7, R171, R172): base, log2 of its records, address of the host's tail
word, records written, and records not yet written as (w0 without PHASE, w1). -/
structure StreamRing where
  base : Nat
  log2 : Nat
  tail : Nat
  written : Nat
  queue : List (Nat × Nat)
deriving DecidableEq, Repr

/-- An open rollout batch (R180, R181): its number, whether closed, and its stamp once started. -/
structure Batch where
  num : Nat
  closed : Bool
  stamp : Option Nat
deriving DecidableEq, Repr

/-- The open batches of a partition and the highest closed batch number (R181). -/
structure BatchSt where
  open_ : List Batch
  high : Option Nat
deriving DecidableEq, Repr

/-- KV pages that this module's decode pool holds for a context of another module (R138): the partition, that module, the
context's handle there, and the pages. -/
structure Lodged where
  part : Nat
  src : Nat
  handle : Nat
  pages : List Nat
deriving DecidableEq, Repr

/-- The rollout engine: contexts, account balances, adapter slots, prefix handles, stop sets (partition × 256 + set), park
records by directory index, stream rings (partition × 64 + ring), batches by partition, the next admission's order, and
the uptime since which a full ring holds a context, by partition, the pool of each core (1 prefill, 2 decode; R137), and the
pages held for contexts of other modules. -/
structure RollSt where
  ctxs : Tab Ctx
  accts : Tab Nat
  slots : Tab AdSlot
  pfxs : Tab (Option Pfx)
  stops : Tab StopSet
  parks : Tab (Option Park)
  rings : Tab (Option StreamRing)
  batches : Tab BatchSt
  order : Nat
  stall : Tab (Option Nat)
  pools : Tab Nat
  lodged : List Lodged
deriving DecidableEq, Repr

/-- A module without rollout work. -/
def RollSt.reset : RollSt := ⟨[], [], [], [], [], [], [], [], 0, [], [], []⟩

/-! ## Chapter 07: collectives -/

/-- Where a posted collective stands (Table 7-5); a DONE one leaves the engine. -/
inductive CollStage where
  | held | queued | admitted | running | closing
deriving DecidableEq, Repr

/-- A collective descriptor (Table 7-3); `rsv` collects its reserved bits. -/
structure CollDesc where
  kind : Nat
  op : Nat
  exact_ : Bool
  noise : Bool
  ifmt : Nat
  chunk : Nat
  root : Nat
  contrib : Nat
  src : Nat
  dst : Nat
  elems : Nat
  cstride : Nat
  cw : Nat
  rsv : Nat
deriving DecidableEq, Repr

/-- A gather of the work scheduler (R194, R195): layer, tensor and step, whether elements widen to BF16 on arrival, F8B, the
address of the own piece's FP32 scale and that of the scales of a copy that is not widened, and the gather group in rank
order. -/
structure GatherTag where
  layer : Nat
  tensor : Nat
  step : Nat
  widen : Bool
  f8b : Bool
  scaleAt : Nat
  scalesTo : Nat
  members : List Nat
deriving DecidableEq, Repr

/-- A gathered copy that is resident (R195): partition, layer, tensor and step, and where it lies. -/
structure Resident where
  part : Nat
  layer : Nat
  tensor : Nat
  step : Nat
  addr : Nat
  bytes : Nat
deriving DecidableEq, Repr

/-- What a collective holds of a chunk (R222, R224): the part of `n` ranks from `lo` on, with the FP32 scale that travels with a
gathered piece, and its lists of elements, each with its poison: in exact mode one list for each contribution. -/
structure CollPart where
  chunk : Nat
  lo : Nat
  n : Nat
  scale : Nat
  vals : List (List (Word × Bool))
deriving DecidableEq, Repr

/-- A posted collective (Table 7-5): its name, poster (none: the work scheduler), descriptor, ready chunk ranges, stage,
share in MiB, the code it entered CLOSING with and the member found at fault, the parts of chunks it holds, chunks whose
output is written, failed requests by (move, chunk, module) (R236), whether a timeout passed without progress, the poison and
noise sums of this member (R235), the uptime it was posted, the gather it serves, chunks acknowledged as (chunk, module), and
chunks sent again. `internal` is a TURN, WEIGHT_LOAD or UPDATE of the scheduler. -/
structure Coll where
  part : Nat
  job : Nat
  group : Nat
  seq : Nat
  core : Option Nat
  desc : CollDesc
  internal : Bool
  allReady : Bool
  ready : List (Nat × Nat)
  st : CollStage
  share : Nat
  credit : Bool
  code : Nat
  peer : Option Nat
  got : List CollPart
  out : List Nat
  reqs : Tab Nat
  stale : Bool
  poison : Bool
  small : NoiseSum
  big : NoiseSum
  since : Nat
  gather : Option GatherTag
  acked : List (Nat × Nat)
  resent : Tab Nat
deriving DecidableEq, Repr

/-- A group of a job (R219, R242): the next sequence expected to be posted, the next to be admitted, FAILED. -/
structure GrpSt where
  expect : Nat
  next : Nat
  failed : Bool
deriving DecidableEq, Repr

/-- A request in a core's post queue (R215): a POST with its descriptor's address, or a READY of `count` chunks. -/
structure PostReq where
  ready : Bool
  group : Nat
  seq : Nat
  addr : Nat
  allReady : Bool
  first : Nat
  count : Nat
deriving DecidableEq, Repr

/-- The collective engine: posted collectives, groups (partition × 4,096 + group), early READYs as (partition, group,
sequence, first, count), post queues by core, and resident gathered copies. -/
structure CollEng where
  colls : List Coll
  groups : Tab GrpSt
  early : List (Nat × Nat × Nat × Nat × Nat)
  queues : Tab (List PostReq)
  resident : List Resident
deriving DecidableEq, Repr

/-- An engine without collectives. -/
def CollEng.reset : CollEng := ⟨[], [], [], [], []⟩

/-! ## Chapter 06: turns and weights -/

/-- A Carve move (Table 6-4). -/
structure Move where
  round : Nat
  peer : Nat
  recv : Bool
  off : Nat
  bytes : Nat
  xid : Nat
deriving DecidableEq, Repr

/-- A Carve chunk that waits in the stage buffer: its move, index, bytes, poisoned parts and length. -/
structure HeldChunk where
  xid : Nat
  chunk : Nat
  data : Tab Byte
  pois : List (Nat × Nat)
  len : Nat
deriving DecidableEq, Repr

/-- A turn in progress (R184 to R192): its payload, the phase before it, its own vote (none while it waits), the plan, the
rounds agreed, the round, the data held, chunks written as (xid, chunk), whether the
round's barrier is complete, bytes received, the uptime it began, and whether the Carve runs. -/
structure TurnSt where
  rollout : Bool
  step : Nat
  name : Nat
  map : Nat
  moves : Nat
  prev : Nat
  vote : Option Nat
  plan : List Move
  rounds : Nat
  round : Nat
  held : List HeldChunk
  written : List (Nat × Nat)
  barrier : Bool
  recv : Nat
  start : Nat
  carving : Bool
deriving DecidableEq, Repr

/-- A WEIGHT_LOAD in progress (R201 to R204): image, step, layout, the own source and its address, the code of its start
barrier (none until the barrier), the other members' sources as (module, SRC), where image bytes lie in the slot, segment tags
by index, the plaintext of segments where EC = 1, segments to be rebuilt, and the model key's entry as it stood at the start. -/
structure WLoad where
  image : Nat
  step : Nat
  training : Bool
  name : Nat
  src : Nat
  srcAddr : Nat
  ec : Bool
  vote : Nat
  opened : Bool
  srcs : List (Nat × Nat)
  layout : List SlotPlace
  tags : Tab (List Byte)
  segs : Tab (List Byte)
  lost : List Nat
  key : KeyEnt
deriving DecidableEq, Repr

/-- What the work scheduler keeps of an installed mapping (R531): this module's pipeline stage, its gathers, and its stage queues. -/
structure MapSt where
  stage : Option Nat
  gathers : List GPiece
  queues : List StageQ
deriving DecidableEq, Repr

/-- A stage queue (R199, R200): depth, occupancy, peak, µs of credit stall and starvation, and the entries in it. -/
structure StageSt where
  depth : Nat
  credits : Nat
  peak : Nat
  stallUs : Nat
  starveUs : Nat
  entries : List MbKey
deriving DecidableEq, Repr

/-- The work scheduler's state: turn, weight load and installed mapping by partition, stage queues ((partition × 64 + boundary)
× 2 + direction), and the handles of erasure-coded fragments by (partition × 2^32 + stripe) × 16 + k. -/
structure SchedSt where
  turns : Tab (Option TurnSt)
  loads : Tab (Option WLoad)
  stages : Tab StageSt
  frags : Tab (Option Nat)
  maps : Tab (Option MapSt)
deriving DecidableEq, Repr

/-- A scheduler without work. -/
def SchedSt.reset : SchedSt := ⟨[], [], [], [], []⟩

/-! ## Chapter 08: the parameter update -/

/-- A tensor entry (Table 8-4). -/
structure UpdTens where
  elems : Nat
  ofmt : Nat
  tid : Nat
  toff : Nat
  cols : Nat
  bitmap : Nat
  out : Nat
  scale : Nat
deriving DecidableEq, Repr

/-- A layer-table entry (Table 8-3) with its tensor entries. -/
structure UpdEnt where
  layer : Nat
  nol : Nat
  primary : Bool
  wnorm : Bool
  nmom : Nat
  mfmt : Nat
  ggroup : Nat
  aseq : Nat
  lsc : Nat
  grad : Nat
  master : Nat
  mom0 : Nat
  mom1 : Nat
  elems : Nat
  tens : List UpdTens
deriving DecidableEq, Repr

/-- An element in pass 2 (R255): its next instruction, its vector registers as M48 bits, and those that poison reached. -/
structure UpdLane where
  pc : Nat
  regs : Tab Nat
  bad : List Nat
deriving DecidableEq, Repr

/-- The update of a partition (R248 to R266), kept after its end for its registers: fields of the payload, table, program and
parameters; the state (Table 8-11: 0 IDLE, 1 INTAKE, 2 NORM, 3 RUN, 4 FAILED); lines seen by pass 1 (address / 512); own
partials, layer sums and global sums; the accumulators of N0 by entry, entries with a poisoned gradient and the first entry of
which a line was written twice (R250, R251); elements in pass 2 (entry × 2^40 + element); progress of layers (1 pass 2 done, 2 amax
done, 3 claim made, 4 published); amax and scales by layer × 16 + tensor; the uptimes at which pass 2 began and a claim began
to wait. -/
structure UpdSt where
  step : Nat
  name : Nat
  nlayers : Nat
  nfskip : Bool
  ents : List UpdEnt
  prog : List Nat
  params : List Nat
  stage : Nat
  skipped : Bool
  seen : List Nat
  own : List (Nat × Bool)
  ln : List Nat
  gn0 : Nat
  gn1 : Nat
  sums : Tab NoiseSum
  poisoned : List Nat
  twice : Option Nat
  lanes : Tab UpdLane
  progress : Tab Nat
  amax : Tab Nat
  scale : Tab Nat
  runAt : Nat
  claimAt : Option Nat
deriving DecidableEq, Repr


/-! ## Chapters 14 to 16: management messages -/

/-- What a PCIe port answered last: Configuration Retry Status, a completion with data (byte and EP mark), Unsupported
Request. -/
inductive PcieAns where
  | retry
  | data (bytes : List (Byte × Bool))
  | unsupported
deriving DecidableEq, Repr

/-- The answer to a management or SPDM message (R407, R427 to R431). `status` 0 is success, else a code of Table 21-6;
`refused` is a refusal for which the spec names no code; `error` an SPDM error, which is SessionLimitExceeded or another
one (R427). -/
inductive Answer where
  | status (code : Nat)
  | refused
  | identity (stepping fw svn : Nat)
  | version (vs : List Nat)
  | capabilities
  | algorithms
  | digests (chain : BitVec 384)
  | certificate (bytes : List Byte) (remain : Nat)
  | challengeAuth (sig : BitVec 768)
  | measurements (blocks : List (Nat × List Byte)) (sig : BitVec 768)
  | keyExchangeRsp (session : Nat)
  | finishRsp
  | heartbeatAck
  | keyUpdateAck
  | endSessionAck
  | chunkSendAck (seq : Nat)
  | chunkResponse (seq : Nat)
  | error (sessionLimit : Bool)
deriving DecidableEq, Repr

/-- An answer and the path it left by. -/
structure Reply where
  path : Path
  ans : Answer
deriving DecidableEq, Repr

/-- A large SPDM request being received in pieces (CHUNK_SEND): the path, the next piece and the bytes so far. -/
structure ChunkIn where
  path : Path
  next : Nat
  data : List Byte
deriving DecidableEq, Repr

/-- A function's mailbox (R381): the host-to-module half as the host has written it, and the messages taken from it. -/
structure MailSt where
  inb : Tab Byte
  taken : Nat
deriving DecidableEq, Repr

/-! ## Chapter 15: boot -/

/-- An image copy in the configuration flash, with its attempt count and good mark in the boot state log (R405). -/
structure ImgSlot where
  img : ImageCopy
  tries : Nat
  good : Bool
deriving DecidableEq, Repr

/-- A blank image copy. -/
def ImageCopy.blank : ImageCopy := ⟨false, false, 0, 0, false, 0, [], 0, false, 0, false, false, 0, 0, 0, 0, []⟩
/-- The sections of log entry 50's copies: one entry of each type that must be present, 4 KiB each. -/
def ImgSection.plain : List ImgSection :=
  [⟨1, 0, 0x1000, 0x1000⟩, ⟨2, 0, 0x2000, 0x1000⟩, ⟨3, 0, 0x3000, 0x1000⟩, ⟨4, 0, 0x4000, 0x1000⟩, ⟨5, 0, 0x5000, 0x1000⟩]
/-- An image copy whose every check passes: SEQ 1, SVN 0, no record. -/
def ImageCopy.plain : ImageCopy :=
  ⟨true, false, 0x4c4d3949, 1, true, 0x6000, ImgSection.plain, 0xb0, true, 0, true, true, 0, 1, 0, 0, []⟩
/-- A factory calibration copy whose every check passes: a single section, of no record (R409). -/
def ImageCopy.plainCal : ImageCopy := { ImageCopy.plain with sigOff := 0x2000, sections := [⟨6, 0, 0x1000, 0⟩] }
/-- A blank owner block copy. -/
def OwnerBlock.blank : OwnerBlock := ⟨0, 0, false, 0, [], 0⟩

/-- The configuration flash but for the lifetime log (Table 15-2), the fuses that firmware burns (R430), and what boot has
reached: image copies A and B, the two factory calibration copies (their records in `cfgRecords`), owner block copies A and
B, field records oldest first (none: a slot that fails its CRC in both halves); the copy that runs (false A), whether RWL
fields are locked, whether TRAIN is done, the straps read, and whether a missing rack value keeps every fabric port DISABLED
(R513). -/
structure BootSt where
  imgA : ImgSlot
  imgB : ImgSlot
  cal0 : ImageCopy
  cal1 : ImageCopy
  ownA : OwnerBlock
  ownB : OwnerBlock
  fields : List (Option FieldRec)
  svnMin : Nat
  revoked : Nat
  running : Option Bool
  locked : Bool
  trained : Bool
  strap : BitVec 6
  portsOff : Bool
deriving DecidableEq, Repr

/-- The configuration flash as log entry 50 names it, before any boot. -/
def BootSt.reset : BootSt :=
  ⟨⟨ImageCopy.plain, 0, true⟩, ⟨ImageCopy.blank, 0, false⟩, ImageCopy.plainCal, ImageCopy.plainCal, OwnerBlock.blank,
   OwnerBlock.blank, [], 0, 0, none, false, false, 0, false⟩

/-! ## Chapter 18: time -/

/-- Time beside its registers (R480 to R486): 1/512 µs of UPTIME_US and AON ticks of a second not yet counted, the offset
from PTM master time to UTC, the correction still to be slewed in calendar ticks, and the calendar tick of the last
management setting; lifetime counters in hub RAM and in the newest valid commit record (Table 18-4), that record's
SEQ, whether the hottest die has been above 85 °C since it was last below 45 °C, whether a commit record has been written
for the shutdown in progress, and whether boot has restored the counters since power came up. -/
structure ClkSt where
  usFrac : Nat
  secFrac : Nat
  offset : Option Int
  slew : Int
  mgmtAt : Option Nat
  life : Tab Nat
  saved : Tab Nat
  savedSeq : Nat
  cycleHot : Bool
  shutCommit : Bool
  restored : Bool
deriving DecidableEq, Repr

/-- Clocks and counters of a module whose lifetime log is empty. -/
def ClkSt.reset : ClkSt := ⟨0, 0, none, 0, none, [], [], 0, false, false, false⟩

/-! ## Chapters 19 and 20: power and the module's pins -/

/-- Power and pins (R489 to R494, R505 to R514): 3V3_AUX in range, VIN above the start threshold on J1 and J2, PWR_EN,
converters on, MOD_PWRGD, the management bus mode (true I3C), the rack ID kept in always-on state, BRAKE# and FAULT# low,
and ALERT# low; brake causes now present by die (bit 0 droop, 1 tray, 2 input), release steps done by die, the uptime
since which the input has been below 46 V, ACLK targets that software last set by die (0x42 after reset), the uptime of the
last raise after a hot die by die, dies whose target heat is lowering, and the steps by which heat holds each target down. -/
structure PwrSt where
  aux : Bool
  vin1 : Bool
  vin2 : Bool
  pwrEn : Bool
  started : Bool
  pwrgd : Bool
  i3c : Option Bool
  rack : Option Nat
  brakePin : Bool
  fault : Bool
  alert : Bool
  causes : Tab Nat
  steps : Tab Nat
  lowSince : Option Nat
  want : Tab Nat
  raised : Tab Nat
  lowering : List Nat
  hotCut : Tab Nat
deriving DecidableEq, Repr

/-- The module's power at State.reset: every rail in regulation, MOD_PWRGD asserted, no rack ID (log entry 51). -/
def PwrSt.reset : PwrSt :=
  ⟨true, true, true, true, true, true, none, none, false, false, false, [], [], none, [], [], [], []⟩

/-! ## The state -/

/-- The core and on-chip memories: cores by logical number, instruction memories (core × 65,536 + byte), their poisoned
32-byte words and those that hold a single-symbol error (R59), power segments (window × 8 + 4 for the accumulator
buffer + segment; window 800 is the hub), march runs by window, the stage buffer with its poisoned words, remote
accesses in flight, and the ramp governor of each die. -/
structure ChipSt where
  cores : Tab CoreSt
  imem : List Host.Cell
  imemPoison : List Nat
  imemErr : List Nat
  segs : Tab SegSt
  march : Tab (Option March)
  stage : List Host.Cell
  stagePoison : List Nat
  remotes : List Remote
  gov : Tab GovSt
deriving DecidableEq, Repr

/-- The host side: what the module has written to and can read from the memory of each port's host, links and
configuration-readiness, PERST# asserted, the last answer of each port, writes ignored and logged as (port, function, offset), mailboxes by
function window, rings (function window × 8 + ring), MSI-X vectors (function window × 73 + vector), jobs, and
commands that wait. -/
structure HostSt where
  mem0 : List Host.Cell
  mem1 : List Host.Cell
  link0 : Bool
  link1 : Bool
  cfgReady0 : Bool
  cfgReady1 : Bool
  rings : Tab RingSt
  msix : Tab Msix
  perst0 : Bool
  perst1 : Bool
  ans0 : Option PcieAns
  ans1 : Option PcieAns
  ignored : List (Nat × Nat × Nat)
  mail : Tab MailSt
  jobs : List Job
  waiting : List PendCmd
deriving DecidableEq, Repr

/-- Security state (chapter 16): partitions 0 to 8, the key table, SPDM sessions, the owner key hash in force, the
fabric key provisioned, house lines awaiting rebuild, the manifest and object of the house image, the newest answers to
management messages, and large requests being received. -/
structure SecSt where
  parts : Tab PartSt
  keys : Tab (Option KeyEnt)
  sessions : List Session
  nextSession : Nat
  ownerKey : Option (BitVec 384)
  fabricKey : Option (BitVec 256)
  houseLines : List Nat
  houseManifest : BitVec 384
  houseObj : Nat
  replies : List Reply
  chunks : List ChunkIn
deriving DecidableEq, Repr

/-- Reliability state (chapter 17): the class-0 limiter (code, unit, time of the last record in µs, repeats since),
ages by activity in ms and levels, the uptime of each control processor's last fault (18 + c: of the fault before it), processors halted for reload, the
latched fatal code, and the fatal dump by 64-bit word with the free value its open sections start at. -/
structure RasSt where
  limit : List (Nat × Nat × Nat × Nat)
  ages : Tab Nat
  levels : Tab Nat
  cpFault : Tab (Option Nat)
  cpHalted : List Nat
  fatal : Option Nat
  dump : Tab Word
  dumpFree : Nat
deriving DecidableEq, Repr

/-- The machine. -/
structure State where
  pending : List Instr
  freeCtr : Nat
  regs : Tab Word
  mem : List Host.Cell
  poison : List Nat
  chip : ChipSt
  host : HostSt
  sec : SecSt
  ras : RasSt
  hbm : Tab HbmSt
  dir : Directory
  blks : Tab Blk
  fab : FabSt
  trn : Tab TrnSt
  nol : Tab NolSt
  roll : RollSt
  coll : CollEng
  sched : SchedSt
  upd : Tab (Option UpdSt)
  boot : BootSt
  clk : ClkSt
  pwr : PwrSt
deriving DecidableEq, Repr

/-- Reasons to stop: none, since the spec gives every command of the table an effect in every state. -/
inductive Fault where
deriving DecidableEq, Repr

/-- Refusals. -/
inductive Refusal where
  /-- Raised by `exec` for a command that has no meaning yet, under its mnemonic. SAFE. -/
  | notModelled (mnemonic : String)
deriving DecidableEq, Repr

/-- The state right after reset. Registers read their Reset column (`regReset`); what the spec gives no value
stands at the value the assumption log names (log entries 1, 2). -/
def State.reset : State where
  pending := []
  freeCtr := 0
  regs := []
  mem := []
  poison := []
  chip := { cores := [], imem := [], imemPoison := [], imemErr := [], segs := [], march := [], stage := [], stagePoison := [],
            remotes := [], gov := [] }
  host := { mem0 := [], mem1 := [], link0 := false, link1 := false, cfgReady0 := false, cfgReady1 := false,
            perst0 := true, perst1 := true, ans0 := none, ans1 := none, ignored := [], mail := [],
            rings := [], msix := [], jobs := [], waiting := [] }
  sec := { parts := [(0, ⟨true, 255, false⟩)], keys := [], sessions := [], nextSession := 1, ownerKey := none,
           fabricKey := none, houseLines := [], houseManifest := 0, houseObj := 0, replies := [],
           chunks := [] }
  ras := { limit := [], ages := [], levels := [], cpFault := [], cpHalted := [], fatal := none, dump := [],
           dumpFree := 0 }
  hbm := []
  dir := { objs := [], gens := [], freed := [], fresh := 0 }
  blks := []
  fab := { slots := [], fabCtr := 0, recv := [], ports := [], topo := [], reach := [], advert := [], updSeq := 0,
           lastAns := none, heldMsgs := [] }
  trn := []
  nol := []
  roll := RollSt.reset
  coll := CollEng.reset
  sched := SchedSt.reset
  upd := []
  boot := BootSt.reset
  clk := ClkSt.reset
  pwr := PwrSt.reset

end Sys2Proof.Machine
end

