-- ==== Sys2Proof/Machine/RegMap.lean ====
section
/-! DEFINITION. The control registers (R525): the base of each block, every register's offset, and every field
with its bits, access type (R7) and Reset entry, from the register tables of the chapters (Tables 2-15 to 2-22,
4-9 to 4-11, 5-10 to 5-12, 6-10 to 6-12, 7-12 to 7-14, 8-10, 8-11, 10-7, 11-7 to 11-9, 12-8, 12-9, 13-12 to 13-14,
14-11, 15-12, 16-8, 17-10, 17-11, 18-7, 19-6, 19-7, 21-4). `R.BLOCK.REGISTER.FIELD` names a field; a lower-case
instance letter of the spec is an argument. HOST windows count as port * 9 + fn; UPD windows as 2 * Nolmer + half;
MBIST window 800 stands for the hub. -/
namespace Sys2Proof.Machine

/-- The base of update window `u`, half u % 2 of Nolmer u / 2 (R269, R525). -/
def updBase (u : Nat) : Nat := 0x2000000 + (u / 2) * 0x100000 + 0x80000 + (u % 2) * 0x1000
/-- The base of an MBIST window: core windows, and the hub's at 0x90F_0000 (Table 10-7). -/
def mbistBase (win : Nat) : Nat := if win = 800 then 0x90f0000 else 0x9000000 + win * 0x40

/-- `CORE.ID`, the whole register. -/
def R.CORE.ID.REG (c : Nat) : Fld := ⟨0x8000000 + c * 0x1000, 0, 64⟩
def R.CORE.ID.LOGICAL_ID (c : Nat) : Fld := ⟨0x8000000 + c * 0x1000, 0, 10⟩
def R.CORE.ID.PHYS_ID (c : Nat) : Fld := ⟨0x8000000 + c * 0x1000, 16, 10⟩
def R.CORE.ID.DIE (c : Nat) : Fld := ⟨0x8000000 + c * 0x1000, 32, 2⟩
def R.CORE.ID.STACK (c : Nat) : Fld := ⟨0x8000000 + c * 0x1000, 36, 3⟩
def R.CORE.ID.SPARE (c : Nat) : Fld := ⟨0x8000000 + c * 0x1000, 40, 1⟩
def R.CORE.ID.CROSS_GROUP (c : Nat) : Fld := ⟨0x8000000 + c * 0x1000, 41, 1⟩
/-- `CORE.CTL`, the whole register. -/
def R.CORE.CTL.REG (c : Nat) : Fld := ⟨0x8000008 + c * 0x1000, 0, 64⟩
def R.CORE.CTL.RUN (c : Nat) : Fld := ⟨0x8000008 + c * 0x1000, 0, 1⟩
def R.CORE.CTL.FAULT_ACT (c : Nat) : Fld := ⟨0x8000008 + c * 0x1000, 1, 1⟩
def R.CORE.CTL.ARR_EN (c : Nat) : Fld := ⟨0x8000008 + c * 0x1000, 2, 3⟩
def R.CORE.CTL.COLD_IDLE (c : Nat) : Fld := ⟨0x8000008 + c * 0x1000, 8, 8⟩
/-- `CORE.STATUS`, the whole register. -/
def R.CORE.STATUS.REG (c : Nat) : Fld := ⟨0x8000010 + c * 0x1000, 0, 64⟩
def R.CORE.STATUS.RUNNING (c : Nat) : Fld := ⟨0x8000010 + c * 0x1000, 0, 1⟩
def R.CORE.STATUS.FAULT_HALT (c : Nat) : Fld := ⟨0x8000010 + c * 0x1000, 1, 1⟩
def R.CORE.STATUS.BUSY (c : Nat) : Fld := ⟨0x8000010 + c * 0x1000, 2, 3⟩
def R.CORE.STATUS.WARM (c : Nat) : Fld := ⟨0x8000010 + c * 0x1000, 5, 3⟩
def R.CORE.STATUS.PAIRS (c : Nat) : Fld := ⟨0x8000010 + c * 0x1000, 8, 3⟩
def R.CORE.STATUS.PC (c : Nat) : Fld := ⟨0x8000010 + c * 0x1000, 16, 13⟩
/-- `CORE.AFAULT`, the whole register. -/
def R.CORE.AFAULT.REG (c : Nat) : Fld := ⟨0x8000018 + c * 0x1000, 0, 64⟩
def R.CORE.AFAULT.CODE (c : Nat) : Fld := ⟨0x8000018 + c * 0x1000, 0, 16⟩
def R.CORE.AFAULT.ARRAY (c : Nat) : Fld := ⟨0x8000018 + c * 0x1000, 16, 2⟩
def R.CORE.AFAULT.HALF (c : Nat) : Fld := ⟨0x8000018 + c * 0x1000, 18, 2⟩
def R.CORE.AFAULT.VALID (c : Nat) : Fld := ⟨0x8000018 + c * 0x1000, 20, 1⟩
def R.CORE.AFAULT.OVERRUN (c : Nat) : Fld := ⟨0x8000018 + c * 0x1000, 21, 1⟩
def R.CORE.AFAULT.PC (c : Nat) : Fld := ⟨0x8000018 + c * 0x1000, 32, 13⟩
/-- `CORE.IMEM_SRC`, the whole register. -/
def R.CORE.IMEM_SRC.REG (c : Nat) : Fld := ⟨0x8000020 + c * 0x1000, 0, 64⟩
def R.CORE.IMEM_SRC.SRC (c : Nat) : Fld := ⟨0x8000020 + c * 0x1000, 9, 39⟩
/-- `CORE.IMEM_CMD`, the whole register. -/
def R.CORE.IMEM_CMD.REG (c : Nat) : Fld := ⟨0x8000028 + c * 0x1000, 0, 64⟩
def R.CORE.IMEM_CMD.LINES (c : Nat) : Fld := ⟨0x8000028 + c * 0x1000, 0, 7⟩
def R.CORE.IMEM_CMD.GO (c : Nat) : Fld := ⟨0x8000028 + c * 0x1000, 8, 1⟩
def R.CORE.IMEM_CMD.BUSY (c : Nat) : Fld := ⟨0x8000028 + c * 0x1000, 9, 1⟩
def R.CORE.IMEM_CMD.ERR (c : Nat) : Fld := ⟨0x8000028 + c * 0x1000, 10, 1⟩
/-- `CORE.START_PC`, the whole register. -/
def R.CORE.START_PC.REG (c : Nat) : Fld := ⟨0x8000030 + c * 0x1000, 0, 64⟩
def R.CORE.START_PC.PC (c : Nat) : Fld := ⟨0x8000030 + c * 0x1000, 0, 13⟩
/-- `CORE.ASTALL_F`, the whole register. -/
def R.CORE.ASTALL_F.REG (c : Nat) : Fld := ⟨0x8000038 + c * 0x1000, 0, 64⟩
def R.CORE.ASTALL_F.FEED (c : Nat) : Fld := ⟨0x8000038 + c * 0x1000, 0, 32⟩
def R.CORE.ASTALL_F.DRAIN (c : Nat) : Fld := ⟨0x8000038 + c * 0x1000, 32, 32⟩
/-- `CORE.ASTALL_D`, the whole register. -/
def R.CORE.ASTALL_D.REG (c : Nat) : Fld := ⟨0x8000040 + c * 0x1000, 0, 64⟩
def R.CORE.ASTALL_D.FEED (c : Nat) : Fld := ⟨0x8000040 + c * 0x1000, 0, 32⟩
def R.CORE.ASTALL_D.DRAIN (c : Nat) : Fld := ⟨0x8000040 + c * 0x1000, 32, 32⟩
/-- `CORE.ASTALL_G`, the whole register. -/
def R.CORE.ASTALL_G.REG (c : Nat) : Fld := ⟨0x8000048 + c * 0x1000, 0, 64⟩
def R.CORE.ASTALL_G.FEED (c : Nat) : Fld := ⟨0x8000048 + c * 0x1000, 0, 32⟩
def R.CORE.ASTALL_G.DRAIN (c : Nat) : Fld := ⟨0x8000048 + c * 0x1000, 32, 32⟩
/-- `CORE.KDESC_ID`, the whole register. -/
def R.CORE.KDESC_ID.REG (c n : Nat) : Fld := ⟨0x8000100 + c * 0x1000 + n * 0x20, 0, 64⟩
def R.CORE.KDESC_ID.STREAM (c n : Nat) : Fld := ⟨0x8000100 + c * 0x1000 + n * 0x20, 0, 32⟩
def R.CORE.KDESC_ID.STEP (c n : Nat) : Fld := ⟨0x8000100 + c * 0x1000 + n * 0x20, 32, 32⟩
/-- `CORE.KDESC_BASE`, the whole register. -/
def R.CORE.KDESC_BASE.REG (c n : Nat) : Fld := ⟨0x8000108 + c * 0x1000 + n * 0x20, 0, 64⟩
def R.CORE.KDESC_BASE.BASE (c n : Nat) : Fld := ⟨0x8000108 + c * 0x1000 + n * 0x20, 0, 64⟩
/-- `CORE.KDESC_PITCH`, the whole register. -/
def R.CORE.KDESC_PITCH.REG (c n : Nat) : Fld := ⟨0x8000110 + c * 0x1000 + n * 0x20, 0, 64⟩
def R.CORE.KDESC_PITCH.PITCH (c n : Nat) : Fld := ⟨0x8000110 + c * 0x1000 + n * 0x20, 0, 40⟩
/-- `TRN.CTL`, the whole register. -/
def R.TRN.CTL.REG (p : Nat) : Fld := ⟨0x7000000 + p * 0x1000, 0, 64⟩
def R.TRN.CTL.EN (p : Nat) : Fld := ⟨0x7000000 + p * 0x1000, 0, 1⟩
def R.TRN.CTL.SPILL_EN (p : Nat) : Fld := ⟨0x7000000 + p * 0x1000, 1, 1⟩
/-- `TRN.STASH_BASE`, the whole register. -/
def R.TRN.STASH_BASE.REG (p : Nat) : Fld := ⟨0x7000010 + p * 0x1000, 0, 64⟩
def R.TRN.STASH_BASE.BASE (p : Nat) : Fld := ⟨0x7000010 + p * 0x1000, 20, 28⟩
/-- `TRN.STASH_SIZE`, the whole register. -/
def R.TRN.STASH_SIZE.REG (p : Nat) : Fld := ⟨0x7000018 + p * 0x1000, 0, 64⟩
def R.TRN.STASH_SIZE.MIB (p : Nat) : Fld := ⟨0x7000018 + p * 0x1000, 0, 20⟩
/-- `TRN.SPILL_BASE`, the whole register. -/
def R.TRN.SPILL_BASE.REG (p : Nat) : Fld := ⟨0x7000020 + p * 0x1000, 0, 64⟩
def R.TRN.SPILL_BASE.BASE (p : Nat) : Fld := ⟨0x7000020 + p * 0x1000, 20, 28⟩
/-- `TRN.SPILL_SIZE`, the whole register. -/
def R.TRN.SPILL_SIZE.REG (p : Nat) : Fld := ⟨0x7000028 + p * 0x1000, 0, 64⟩
def R.TRN.SPILL_SIZE.MIB (p : Nat) : Fld := ⟨0x7000028 + p * 0x1000, 0, 20⟩
/-- `TRN.STASH_WM`, the whole register. -/
def R.TRN.STASH_WM.REG (p : Nat) : Fld := ⟨0x7000030 + p * 0x1000, 0, 64⟩
def R.TRN.STASH_WM.HBM_MIB (p : Nat) : Fld := ⟨0x7000030 + p * 0x1000, 0, 20⟩
def R.TRN.STASH_WM.SPILL_MIB (p : Nat) : Fld := ⟨0x7000030 + p * 0x1000, 32, 20⟩
/-- `TRN.VER_SEL`, the whole register. -/
def R.TRN.VER_SEL.REG (p : Nat) : Fld := ⟨0x7000050 + p * 0x1000, 0, 64⟩
def R.TRN.VER_SEL.SHARD (p : Nat) : Fld := ⟨0x7000050 + p * 0x1000, 0, 12⟩
/-- `TRN.VER_TIMEOUT`, the whole register. -/
def R.TRN.VER_TIMEOUT.REG (p : Nat) : Fld := ⟨0x7000068 + p * 0x1000, 0, 64⟩
def R.TRN.VER_TIMEOUT.MS (p : Nat) : Fld := ⟨0x7000068 + p * 0x1000, 0, 32⟩
/-- `TRN.STASH_STAT`, the whole register. -/
def R.TRN.STASH_STAT.REG (p : Nat) : Fld := ⟨0x7000038 + p * 0x1000, 0, 64⟩
def R.TRN.STASH_STAT.STAGE (p : Nat) : Fld := ⟨0x7000038 + p * 0x1000, 0, 2⟩
def R.TRN.STASH_STAT.HBM_USED (p : Nat) : Fld := ⟨0x7000038 + p * 0x1000, 16, 20⟩
def R.TRN.STASH_STAT.SPILL_USED (p : Nat) : Fld := ⟨0x7000038 + p * 0x1000, 36, 20⟩
/-- `TRN.MB_STAT`, the whole register. -/
def R.TRN.MB_STAT.REG (p : Nat) : Fld := ⟨0x7000040 + p * 0x1000, 0, 64⟩
def R.TRN.MB_STAT.FWD_ACTIVE (p : Nat) : Fld := ⟨0x7000040 + p * 0x1000, 0, 16⟩
def R.TRN.MB_STAT.BWD_PENDING (p : Nat) : Fld := ⟨0x7000040 + p * 0x1000, 16, 16⟩
def R.TRN.MB_STAT.FWD_WAITING (p : Nat) : Fld := ⟨0x7000040 + p * 0x1000, 32, 16⟩
/-- `TRN.STASH_CNT`, the whole register. -/
def R.TRN.STASH_CNT.REG (p : Nat) : Fld := ⟨0x7000048 + p * 0x1000, 0, 64⟩
def R.TRN.STASH_CNT.STALL_US (p : Nat) : Fld := ⟨0x7000048 + p * 0x1000, 0, 32⟩
def R.TRN.STASH_CNT.SPILL_MIB (p : Nat) : Fld := ⟨0x7000048 + p * 0x1000, 32, 32⟩
/-- `TRN.VER_STAT`, the whole register. -/
def R.TRN.VER_STAT.REG (p : Nat) : Fld := ⟨0x7000058 + p * 0x1000, 0, 64⟩
def R.TRN.VER_STAT.EVEN_STEP (p : Nat) : Fld := ⟨0x7000058 + p * 0x1000, 0, 16⟩
def R.TRN.VER_STAT.ODD_STEP (p : Nat) : Fld := ⟨0x7000058 + p * 0x1000, 16, 16⟩
def R.TRN.VER_STAT.EVEN_STATE (p : Nat) : Fld := ⟨0x7000058 + p * 0x1000, 32, 3⟩
def R.TRN.VER_STAT.ODD_STATE (p : Nat) : Fld := ⟨0x7000058 + p * 0x1000, 35, 3⟩
def R.TRN.VER_STAT.UPD_WAIT (p : Nat) : Fld := ⟨0x7000058 + p * 0x1000, 38, 1⟩
/-- `TRN.VER_REFS`, the whole register. -/
def R.TRN.VER_REFS.REG (p : Nat) : Fld := ⟨0x7000060 + p * 0x1000, 0, 64⟩
def R.TRN.VER_REFS.EVEN_REFS (p : Nat) : Fld := ⟨0x7000060 + p * 0x1000, 0, 16⟩
def R.TRN.VER_REFS.ODD_REFS (p : Nat) : Fld := ⟨0x7000060 + p * 0x1000, 16, 16⟩
/-- `TRN.ERR`, the whole register. -/
def R.TRN.ERR.REG (p : Nat) : Fld := ⟨0x7000070 + p * 0x1000, 0, 64⟩
def R.TRN.ERR.CODE (p : Nat) : Fld := ⟨0x7000070 + p * 0x1000, 0, 16⟩
def R.TRN.ERR.LAYER (p : Nat) : Fld := ⟨0x7000070 + p * 0x1000, 16, 12⟩
def R.TRN.ERR.MB_ID (p : Nat) : Fld := ⟨0x7000070 + p * 0x1000, 32, 16⟩
def R.TRN.ERR.VALID (p : Nat) : Fld := ⟨0x7000070 + p * 0x1000, 48, 1⟩
def R.TRN.ERR.OVERRUN (p : Nat) : Fld := ⟨0x7000070 + p * 0x1000, 49, 1⟩
/-- `ROLL.CTL`, the whole register. -/
def R.ROLL.CTL.REG (p : Nat) : Fld := ⟨0x6000000 + p * 0x1000, 0, 64⟩
def R.ROLL.CTL.EN (p : Nat) : Fld := ⟨0x6000000 + p * 0x1000, 0, 1⟩
def R.ROLL.CTL.RUN_TO_END (p : Nat) : Fld := ⟨0x6000000 + p * 0x1000, 1, 1⟩
def R.ROLL.CTL.SPEC_EN (p : Nat) : Fld := ⟨0x6000000 + p * 0x1000, 2, 1⟩
def R.ROLL.CTL.DRAFT_MAX (p : Nat) : Fld := ⟨0x6000000 + p * 0x1000, 4, 4⟩
def R.ROLL.CTL.DRAFT_INIT (p : Nat) : Fld := ⟨0x6000000 + p * 0x1000, 8, 4⟩
def R.ROLL.CTL.PREFILL_W (p : Nat) : Fld := ⟨0x6000000 + p * 0x1000, 12, 5⟩
/-- `ROLL.QUOTA`, the whole register. -/
def R.ROLL.QUOTA.REG (p : Nat) : Fld := ⟨0x6000008 + p * 0x1000, 0, 64⟩
def R.ROLL.QUOTA.CTX (p : Nat) : Fld := ⟨0x6000008 + p * 0x1000, 0, 15⟩
def R.ROLL.QUOTA.ADAPTERS (p : Nat) : Fld := ⟨0x6000008 + p * 0x1000, 16, 11⟩
def R.ROLL.QUOTA.PREFIXES (p : Nat) : Fld := ⟨0x6000008 + p * 0x1000, 28, 15⟩
/-- `ROLL.KV_BASE`, the whole register. -/
def R.ROLL.KV_BASE.REG (p : Nat) : Fld := ⟨0x6000010 + p * 0x1000, 0, 64⟩
def R.ROLL.KV_BASE.BASE (p : Nat) : Fld := ⟨0x6000010 + p * 0x1000, 20, 28⟩
/-- `ROLL.KV_SIZE`, the whole register. -/
def R.ROLL.KV_SIZE.REG (p : Nat) : Fld := ⟨0x6000018 + p * 0x1000, 0, 64⟩
def R.ROLL.KV_SIZE.MIB (p : Nat) : Fld := ⟨0x6000018 + p * 0x1000, 0, 20⟩
/-- `ROLL.PAGE_CFG`, the whole register. -/
def R.ROLL.PAGE_CFG.REG (p : Nat) : Fld := ⟨0x6000020 + p * 0x1000, 0, 64⟩
def R.ROLL.PAGE_CFG.TOK (p : Nat) : Fld := ⟨0x6000020 + p * 0x1000, 0, 2⟩
def R.ROLL.PAGE_CFG.LINES (p : Nat) : Fld := ⟨0x6000020 + p * 0x1000, 32, 24⟩
/-- `ROLL.CTX_SEL`, the whole register. -/
def R.ROLL.CTX_SEL.REG (p : Nat) : Fld := ⟨0x6000028 + p * 0x1000, 0, 64⟩
def R.ROLL.CTX_SEL.CTX (p : Nat) : Fld := ⟨0x6000028 + p * 0x1000, 0, 14⟩
/-- `ROLL.ACCT_SEL`, the whole register. -/
def R.ROLL.ACCT_SEL.REG (p : Nat) : Fld := ⟨0x6000040 + p * 0x1000, 0, 64⟩
def R.ROLL.ACCT_SEL.ACCT (p : Nat) : Fld := ⟨0x6000040 + p * 0x1000, 0, 12⟩
/-- `ROLL.CTX_CTL`, the whole register. -/
def R.ROLL.CTX_CTL.REG (p : Nat) : Fld := ⟨0x6000030 + p * 0x1000, 0, 64⟩
def R.ROLL.CTX_CTL.STATE (p : Nat) : Fld := ⟨0x6000030 + p * 0x1000, 0, 4⟩
def R.ROLL.CTX_CTL.GEN (p : Nat) : Fld := ⟨0x6000030 + p * 0x1000, 4, 18⟩
def R.ROLL.CTX_CTL.DRAFT_LEN (p : Nat) : Fld := ⟨0x6000030 + p * 0x1000, 22, 4⟩
def R.ROLL.CTX_CTL.OFF_LEFT (p : Nat) : Fld := ⟨0x6000030 + p * 0x1000, 26, 7⟩
def R.ROLL.CTX_CTL.ZERO_RUN (p : Nat) : Fld := ⟨0x6000030 + p * 0x1000, 33, 3⟩
def R.ROLL.CTX_CTL.ACCOUNT (p : Nat) : Fld := ⟨0x6000030 + p * 0x1000, 36, 12⟩
def R.ROLL.CTX_CTL.ADAPTER (p : Nat) : Fld := ⟨0x6000030 + p * 0x1000, 48, 16⟩
/-- `ROLL.CTX_POS`, the whole register. -/
def R.ROLL.CTX_POS.REG (p : Nat) : Fld := ⟨0x6000038 + p * 0x1000, 0, 64⟩
def R.ROLL.CTX_POS.POS (p : Nat) : Fld := ⟨0x6000038 + p * 0x1000, 0, 22⟩
def R.ROLL.CTX_POS.TOKENS_OUT (p : Nat) : Fld := ⟨0x6000038 + p * 0x1000, 24, 22⟩
/-- `ROLL.ACCT_BAL`, the whole register. -/
def R.ROLL.ACCT_BAL.REG (p : Nat) : Fld := ⟨0x6000048 + p * 0x1000, 0, 64⟩
def R.ROLL.ACCT_BAL.BAL (p : Nat) : Fld := ⟨0x6000048 + p * 0x1000, 0, 48⟩
def R.ROLL.ACCT_BAL.LIVE (p : Nat) : Fld := ⟨0x6000048 + p * 0x1000, 48, 16⟩
/-- `ROLL.SPEC_CNT`, the whole register. -/
def R.ROLL.SPEC_CNT.REG (p : Nat) : Fld := ⟨0x6000050 + p * 0x1000, 0, 64⟩
def R.ROLL.SPEC_CNT.DRAFTED (p : Nat) : Fld := ⟨0x6000050 + p * 0x1000, 0, 32⟩
def R.ROLL.SPEC_CNT.ACCEPTED (p : Nat) : Fld := ⟨0x6000050 + p * 0x1000, 32, 32⟩
/-- `ROLL.STREAM_STALL`, the whole register. -/
def R.ROLL.STREAM_STALL.REG (p : Nat) : Fld := ⟨0x6000058 + p * 0x1000, 0, 64⟩
def R.ROLL.STREAM_STALL.US (p : Nat) : Fld := ⟨0x6000058 + p * 0x1000, 0, 32⟩
/-- `ROLL.CTX_CNT`, the whole register. -/
def R.ROLL.CTX_CNT.REG (p : Nat) : Fld := ⟨0x6000060 + p * 0x1000, 0, 64⟩
def R.ROLL.CTX_CNT.LIVE (p : Nat) : Fld := ⟨0x6000060 + p * 0x1000, 0, 15⟩
def R.ROLL.CTX_CNT.DECODE (p : Nat) : Fld := ⟨0x6000060 + p * 0x1000, 16, 15⟩
def R.ROLL.CTX_CNT.QUEUED (p : Nat) : Fld := ⟨0x6000060 + p * 0x1000, 32, 15⟩
/-- `ROLL.ERR`, the whole register. -/
def R.ROLL.ERR.REG (p : Nat) : Fld := ⟨0x6000068 + p * 0x1000, 0, 64⟩
def R.ROLL.ERR.CODE (p : Nat) : Fld := ⟨0x6000068 + p * 0x1000, 0, 16⟩
def R.ROLL.ERR.CTX (p : Nat) : Fld := ⟨0x6000068 + p * 0x1000, 16, 14⟩
def R.ROLL.ERR.ADAPTER (p : Nat) : Fld := ⟨0x6000068 + p * 0x1000, 32, 16⟩
def R.ROLL.ERR.VALID (p : Nat) : Fld := ⟨0x6000068 + p * 0x1000, 48, 1⟩
def R.ROLL.ERR.OVERRUN (p : Nat) : Fld := ⟨0x6000068 + p * 0x1000, 49, 1⟩
/-- `SCHED.TURN_CTL`, the whole register. -/
def R.SCHED.TURN_CTL.REG (p : Nat) : Fld := ⟨0x5000000 + p * 0x1000, 0, 64⟩
def R.SCHED.TURN_CTL.CTX_POLICY (p : Nat) : Fld := ⟨0x5000000 + p * 0x1000, 0, 2⟩
def R.SCHED.TURN_CTL.PARK_TTL (p : Nat) : Fld := ⟨0x5000000 + p * 0x1000, 2, 24⟩
def R.SCHED.TURN_CTL.TIMEOUT_MS (p : Nat) : Fld := ⟨0x5000000 + p * 0x1000, 32, 16⟩
/-- `SCHED.WSLOT_BASE`, the whole register. -/
def R.SCHED.WSLOT_BASE.REG (p : Nat) : Fld := ⟨0x5000020 + p * 0x1000, 0, 64⟩
def R.SCHED.WSLOT_BASE.BASE (p : Nat) : Fld := ⟨0x5000020 + p * 0x1000, 20, 28⟩
/-- `SCHED.WSLOT_SIZE`, the whole register. -/
def R.SCHED.WSLOT_SIZE.REG (p : Nat) : Fld := ⟨0x5000028 + p * 0x1000, 0, 64⟩
def R.SCHED.WSLOT_SIZE.MIB (p : Nat) : Fld := ⟨0x5000028 + p * 0x1000, 0, 20⟩
/-- `SCHED.CARVE_CFG`, the whole register. -/
def R.SCHED.CARVE_CFG.REG (p : Nat) : Fld := ⟨0x5000030 + p * 0x1000, 0, 64⟩
def R.SCHED.CARVE_CFG.STAGE_MIB (p : Nat) : Fld := ⟨0x5000030 + p * 0x1000, 0, 8⟩
/-- `SCHED.GATHER_CFG`, the whole register. -/
def R.SCHED.GATHER_CFG.REG (p : Nat) : Fld := ⟨0x5000040 + p * 0x1000, 0, 64⟩
def R.SCHED.GATHER_CFG.DEPTH (p : Nat) : Fld := ⟨0x5000040 + p * 0x1000, 0, 3⟩
def R.SCHED.GATHER_CFG.WIDEN (p : Nat) : Fld := ⟨0x5000040 + p * 0x1000, 3, 1⟩
/-- `SCHED.PLACE_CFG`, the whole register. -/
def R.SCHED.PLACE_CFG.REG (p : Nat) : Fld := ⟨0x5000048 + p * 0x1000, 0, 64⟩
def R.SCHED.PLACE_CFG.MODE (p : Nat) : Fld := ⟨0x5000048 + p * 0x1000, 0, 1⟩
def R.SCHED.PLACE_CFG.ACTIVE (p : Nat) : Fld := ⟨0x5000048 + p * 0x1000, 1, 1⟩
def R.SCHED.PLACE_CFG.MIN_PORTS (p : Nat) : Fld := ⟨0x5000048 + p * 0x1000, 2, 6⟩
/-- `SCHED.STAGE_SEL`, the whole register. -/
def R.SCHED.STAGE_SEL.REG (p : Nat) : Fld := ⟨0x5000050 + p * 0x1000, 0, 64⟩
def R.SCHED.STAGE_SEL.BOUNDARY (p : Nat) : Fld := ⟨0x5000050 + p * 0x1000, 0, 6⟩
def R.SCHED.STAGE_SEL.DIR (p : Nat) : Fld := ⟨0x5000050 + p * 0x1000, 6, 1⟩
/-- `SCHED.TURN_STAT`, the whole register. -/
def R.SCHED.TURN_STAT.REG (p : Nat) : Fld := ⟨0x5000008 + p * 0x1000, 0, 64⟩
def R.SCHED.TURN_STAT.PHASE (p : Nat) : Fld := ⟨0x5000008 + p * 0x1000, 0, 3⟩
def R.SCHED.TURN_STAT.STEP_NO (p : Nat) : Fld := ⟨0x5000008 + p * 0x1000, 3, 3⟩
def R.SCHED.TURN_STAT.LAST_US (p : Nat) : Fld := ⟨0x5000008 + p * 0x1000, 8, 24⟩
def R.SCHED.TURN_STAT.TURNS (p : Nat) : Fld := ⟨0x5000008 + p * 0x1000, 32, 32⟩
/-- `SCHED.WPTR`, the whole register. -/
def R.SCHED.WPTR.REG (p : Nat) : Fld := ⟨0x5000010 + p * 0x1000, 0, 64⟩
def R.SCHED.WPTR.STEP (p : Nat) : Fld := ⟨0x5000010 + p * 0x1000, 0, 16⟩
def R.SCHED.WPTR.VALID (p : Nat) : Fld := ⟨0x5000010 + p * 0x1000, 16, 1⟩
def R.SCHED.WPTR.F4 (p : Nat) : Fld := ⟨0x5000010 + p * 0x1000, 17, 1⟩
def R.SCHED.WPTR.EVEN_LAY (p : Nat) : Fld := ⟨0x5000010 + p * 0x1000, 18, 1⟩
def R.SCHED.WPTR.ODD_LAY (p : Nat) : Fld := ⟨0x5000010 + p * 0x1000, 19, 1⟩
/-- `SCHED.RB_STAT`, the whole register. -/
def R.SCHED.RB_STAT.REG (p : Nat) : Fld := ⟨0x5000018 + p * 0x1000, 0, 64⟩
def R.SCHED.RB_STAT.OPEN (p : Nat) : Fld := ⟨0x5000018 + p * 0x1000, 0, 5⟩
def R.SCHED.RB_STAT.STARTED (p : Nat) : Fld := ⟨0x5000018 + p * 0x1000, 5, 5⟩
def R.SCHED.RB_STAT.EVEN_RB (p : Nat) : Fld := ⟨0x5000018 + p * 0x1000, 16, 5⟩
def R.SCHED.RB_STAT.ODD_RB (p : Nat) : Fld := ⟨0x5000018 + p * 0x1000, 24, 5⟩
/-- `SCHED.CARVE_STAT`, the whole register. -/
def R.SCHED.CARVE_STAT.REG (p : Nat) : Fld := ⟨0x5000038 + p * 0x1000, 0, 64⟩
def R.SCHED.CARVE_STAT.ROUND (p : Nat) : Fld := ⟨0x5000038 + p * 0x1000, 0, 16⟩
def R.SCHED.CARVE_STAT.ROUNDS (p : Nat) : Fld := ⟨0x5000038 + p * 0x1000, 16, 16⟩
def R.SCHED.CARVE_STAT.MIB_RECV (p : Nat) : Fld := ⟨0x5000038 + p * 0x1000, 32, 32⟩
/-- `SCHED.STAGE_CNT`, the whole register. -/
def R.SCHED.STAGE_CNT.REG (p : Nat) : Fld := ⟨0x5000058 + p * 0x1000, 0, 64⟩
def R.SCHED.STAGE_CNT.CREDIT_STALL_US (p : Nat) : Fld := ⟨0x5000058 + p * 0x1000, 0, 32⟩
def R.SCHED.STAGE_CNT.STARVE_US (p : Nat) : Fld := ⟨0x5000058 + p * 0x1000, 32, 32⟩
/-- `SCHED.STAGE_OCC`, the whole register. -/
def R.SCHED.STAGE_OCC.REG (p : Nat) : Fld := ⟨0x5000060 + p * 0x1000, 0, 64⟩
def R.SCHED.STAGE_OCC.DEPTH (p : Nat) : Fld := ⟨0x5000060 + p * 0x1000, 0, 7⟩
def R.SCHED.STAGE_OCC.OCC (p : Nat) : Fld := ⟨0x5000060 + p * 0x1000, 8, 7⟩
def R.SCHED.STAGE_OCC.PEAK (p : Nat) : Fld := ⟨0x5000060 + p * 0x1000, 16, 7⟩
/-- `SCHED.ERR`, the whole register. -/
def R.SCHED.ERR.REG (p : Nat) : Fld := ⟨0x5000068 + p * 0x1000, 0, 64⟩
def R.SCHED.ERR.CODE (p : Nat) : Fld := ⟨0x5000068 + p * 0x1000, 0, 16⟩
def R.SCHED.ERR.ROUND (p : Nat) : Fld := ⟨0x5000068 + p * 0x1000, 16, 16⟩
def R.SCHED.ERR.PEER (p : Nat) : Fld := ⟨0x5000068 + p * 0x1000, 32, 16⟩
def R.SCHED.ERR.VALID (p : Nat) : Fld := ⟨0x5000068 + p * 0x1000, 48, 1⟩
def R.SCHED.ERR.OVERRUN (p : Nat) : Fld := ⟨0x5000068 + p * 0x1000, 49, 1⟩
/-- `COLL.CTL`, the whole register. -/
def R.COLL.CTL.REG (p : Nat) : Fld := ⟨0x4000000 + p * 0x1000, 0, 64⟩
def R.COLL.CTL.EN (p : Nat) : Fld := ⟨0x4000000 + p * 0x1000, 0, 1⟩
/-- `COLL.GTAB`, the whole register. -/
def R.COLL.GTAB.REG (p : Nat) : Fld := ⟨0x4000008 + p * 0x1000, 0, 64⟩
def R.COLL.GTAB.BASE (p : Nat) : Fld := ⟨0x4000008 + p * 0x1000, 12, 36⟩
/-- `COLL.TMO`, the whole register. -/
def R.COLL.TMO.REG (p : Nat) : Fld := ⟨0x4000010 + p * 0x1000, 0, 64⟩
def R.COLL.TMO.TRAY_US (p : Nat) : Fld := ⟨0x4000010 + p * 0x1000, 0, 16⟩
def R.COLL.TMO.RACK_US (p : Nat) : Fld := ⟨0x4000010 + p * 0x1000, 16, 16⟩
def R.COLL.TMO.SYS_US (p : Nat) : Fld := ⟨0x4000010 + p * 0x1000, 32, 16⟩
/-- `COLL.GRP_SEL`, the whole register. -/
def R.COLL.GRP_SEL.REG (p : Nat) : Fld := ⟨0x4000018 + p * 0x1000, 0, 64⟩
def R.COLL.GRP_SEL.GROUP (p : Nat) : Fld := ⟨0x4000018 + p * 0x1000, 0, 12⟩
/-- `COLL.GRP_STAT`, the whole register. -/
def R.COLL.GRP_STAT.REG (p : Nat) : Fld := ⟨0x4000020 + p * 0x1000, 0, 64⟩
def R.COLL.GRP_STAT.NEXT (p : Nat) : Fld := ⟨0x4000020 + p * 0x1000, 0, 32⟩
def R.COLL.GRP_STAT.ADMITTED (p : Nat) : Fld := ⟨0x4000020 + p * 0x1000, 32, 5⟩
def R.COLL.GRP_STAT.HELD (p : Nat) : Fld := ⟨0x4000020 + p * 0x1000, 37, 9⟩
def R.COLL.GRP_STAT.STATE (p : Nat) : Fld := ⟨0x4000020 + p * 0x1000, 46, 2⟩
/-- `COLL.CNT`, the whole register. -/
def R.COLL.CNT.REG (p : Nat) : Fld := ⟨0x4000028 + p * 0x1000, 0, 64⟩
def R.COLL.CNT.DONE (p : Nat) : Fld := ⟨0x4000028 + p * 0x1000, 0, 32⟩
def R.COLL.CNT.ABORTED (p : Nat) : Fld := ⟨0x4000028 + p * 0x1000, 32, 32⟩
/-- `COLL.RETRY`, the whole register. -/
def R.COLL.RETRY.REG (p : Nat) : Fld := ⟨0x4000030 + p * 0x1000, 0, 64⟩
def R.COLL.RETRY.REQUESTS (p : Nat) : Fld := ⟨0x4000030 + p * 0x1000, 0, 32⟩
def R.COLL.RETRY.LOST (p : Nat) : Fld := ⟨0x4000030 + p * 0x1000, 32, 32⟩
/-- `COLL.ERR`, the whole register. -/
def R.COLL.ERR.REG (p : Nat) : Fld := ⟨0x4000038 + p * 0x1000, 0, 64⟩
def R.COLL.ERR.CODE (p : Nat) : Fld := ⟨0x4000038 + p * 0x1000, 0, 16⟩
def R.COLL.ERR.GROUP (p : Nat) : Fld := ⟨0x4000038 + p * 0x1000, 16, 12⟩
def R.COLL.ERR.VALID (p : Nat) : Fld := ⟨0x4000038 + p * 0x1000, 28, 1⟩
def R.COLL.ERR.OVERRUN (p : Nat) : Fld := ⟨0x4000038 + p * 0x1000, 29, 1⟩
def R.COLL.ERR.SEQ (p : Nat) : Fld := ⟨0x4000038 + p * 0x1000, 32, 32⟩
/-- `COLL.ERR_PEER`, the whole register. -/
def R.COLL.ERR_PEER.REG (p : Nat) : Fld := ⟨0x4000040 + p * 0x1000, 0, 64⟩
def R.COLL.ERR_PEER.PEER (p : Nat) : Fld := ⟨0x4000040 + p * 0x1000, 0, 16⟩
def R.COLL.ERR_PEER.LEVEL (p : Nat) : Fld := ⟨0x4000040 + p * 0x1000, 16, 2⟩
/-- `COLL.BAR_LAST`, the whole register. -/
def R.COLL.BAR_LAST.REG (p : Nat) : Fld := ⟨0x4000048 + p * 0x1000, 0, 64⟩
def R.COLL.BAR_LAST.NS (p : Nat) : Fld := ⟨0x4000048 + p * 0x1000, 0, 32⟩
/-- `COLLM.ENG_STAT`, the whole register. -/
def R.COLLM.ENG_STAT.REG : Fld := ⟨0x4008000, 0, 64⟩
def R.COLLM.ENG_STAT.ADMITTED : Fld := ⟨0x4008000, 0, 7⟩
def R.COLLM.ENG_STAT.HELD : Fld := ⟨0x4008000, 8, 9⟩
def R.COLLM.ENG_STAT.SBUF_MIB : Fld := ⟨0x4008000, 24, 9⟩
/-- `UPD.UPD_STAT`, the whole register. -/
def R.UPD.UPD_STAT.REG (u : Nat) : Fld := ⟨updBase u + 0x0, 0, 64⟩
def R.UPD.UPD_STAT.STATE (u : Nat) : Fld := ⟨updBase u + 0x0, 0, 3⟩
def R.UPD.UPD_STAT.SKIPPED (u : Nat) : Fld := ⟨updBase u + 0x0, 3, 1⟩
def R.UPD.UPD_STAT.CLAIM_WAIT (u : Nat) : Fld := ⟨updBase u + 0x0, 4, 1⟩
def R.UPD.UPD_STAT.STEP (u : Nat) : Fld := ⟨updBase u + 0x0, 16, 16⟩
def R.UPD.UPD_STAT.LAYER (u : Nat) : Fld := ⟨updBase u + 0x0, 32, 12⟩
def R.UPD.UPD_STAT.PUBLISHED (u : Nat) : Fld := ⟨updBase u + 0x0, 48, 13⟩
/-- `UPD.UPD_INTAKE`, the whole register. -/
def R.UPD.UPD_INTAKE.REG (u : Nat) : Fld := ⟨updBase u + 0x8, 0, 64⟩
def R.UPD.UPD_INTAKE.LINES (u : Nat) : Fld := ⟨updBase u + 0x8, 0, 40⟩
/-- `UPD.UPD_CNT`, the whole register. -/
def R.UPD.UPD_CNT.REG (u : Nat) : Fld := ⟨updBase u + 0x10, 0, 64⟩
def R.UPD.UPD_CNT.RUN_US (u : Nat) : Fld := ⟨updBase u + 0x10, 0, 32⟩
def R.UPD.UPD_CNT.CLAIM_US (u : Nat) : Fld := ⟨updBase u + 0x10, 32, 32⟩
/-- `UPD.UPD_SEL`, the whole register. -/
def R.UPD.UPD_SEL.REG (u : Nat) : Fld := ⟨updBase u + 0x18, 0, 64⟩
def R.UPD.UPD_SEL.ENTRY (u : Nat) : Fld := ⟨updBase u + 0x18, 0, 14⟩
def R.UPD.UPD_SEL.TID (u : Nat) : Fld := ⟨updBase u + 0x18, 14, 4⟩
def R.UPD.UPD_SEL.SUM (u : Nat) : Fld := ⟨updBase u + 0x18, 18, 1⟩
/-- `UPD.UPD_NORM`, the whole register. -/
def R.UPD.UPD_NORM.REG (u : Nat) : Fld := ⟨updBase u + 0x20, 0, 64⟩
def R.UPD.UPD_NORM.LN (u : Nat) : Fld := ⟨updBase u + 0x20, 0, 40⟩
/-- `UPD.UPD_AMAX`, the whole register. -/
def R.UPD.UPD_AMAX.REG (u : Nat) : Fld := ⟨updBase u + 0x28, 0, 64⟩
def R.UPD.UPD_AMAX.AMAX (u : Nat) : Fld := ⟨updBase u + 0x28, 0, 32⟩
def R.UPD.UPD_AMAX.SCALE (u : Nat) : Fld := ⟨updBase u + 0x28, 32, 32⟩
/-- `UPD.UPD_ERR`, the whole register. -/
def R.UPD.UPD_ERR.REG (u : Nat) : Fld := ⟨updBase u + 0x30, 0, 64⟩
def R.UPD.UPD_ERR.CODE (u : Nat) : Fld := ⟨updBase u + 0x30, 0, 16⟩
def R.UPD.UPD_ERR.LAYER (u : Nat) : Fld := ⟨updBase u + 0x30, 16, 12⟩
def R.UPD.UPD_ERR.ENTRY (u : Nat) : Fld := ⟨updBase u + 0x30, 32, 14⟩
def R.UPD.UPD_ERR.VALID (u : Nat) : Fld := ⟨updBase u + 0x30, 48, 1⟩
def R.UPD.UPD_ERR.OVERRUN (u : Nat) : Fld := ⟨updBase u + 0x30, 49, 1⟩
/-- `HBM.CTL`, the whole register. -/
def R.HBM.CTL.REG (s : Nat) : Fld := ⟨0x1000000 + s * 0x100000, 0, 64⟩
def R.HBM.CTL.RETRAIN_MS (s : Nat) : Fld := ⟨0x1000000 + s * 0x100000, 0, 8⟩
def R.HBM.CTL.SWAPBACK (s : Nat) : Fld := ⟨0x1000000 + s * 0x100000, 8, 1⟩
def R.HBM.CTL.MIG_MBS (s : Nat) : Fld := ⟨0x1000000 + s * 0x100000, 16, 16⟩
def R.HBM.CTL.REPAIR_THR (s : Nat) : Fld := ⟨0x1000000 + s * 0x100000, 32, 16⟩
/-- `HBM.STAT`, the whole register. -/
def R.HBM.STAT.REG (s : Nat) : Fld := ⟨0x1000008 + s * 0x100000, 0, 64⟩
def R.HBM.STAT.SPARE_CH (s : Nat) : Fld := ⟨0x1000008 + s * 0x100000, 0, 5⟩
def R.HBM.STAT.SPARE_FREE (s : Nat) : Fld := ⟨0x1000008 + s * 0x100000, 5, 1⟩
def R.HBM.STAT.ACTIVE_PC (s : Nat) : Fld := ⟨0x1000008 + s * 0x100000, 6, 7⟩
def R.HBM.STAT.TEMP_C (s : Nat) : Fld := ⟨0x1000008 + s * 0x100000, 16, 8⟩
def R.HBM.STAT.HOT (s : Nat) : Fld := ⟨0x1000008 + s * 0x100000, 24, 1⟩
/-- `HBM.CH_STATE0`, the whole register. -/
def R.HBM.CH_STATE0.REG (s : Nat) : Fld := ⟨0x1000010 + s * 0x100000, 0, 64⟩
def R.HBM.CH_STATE0.CH0 (s : Nat) : Fld := ⟨0x1000010 + s * 0x100000, 0, 4⟩
def R.HBM.CH_STATE0.CH1 (s : Nat) : Fld := ⟨0x1000010 + s * 0x100000, 4, 4⟩
def R.HBM.CH_STATE0.CH2 (s : Nat) : Fld := ⟨0x1000010 + s * 0x100000, 8, 4⟩
def R.HBM.CH_STATE0.CH3 (s : Nat) : Fld := ⟨0x1000010 + s * 0x100000, 12, 4⟩
def R.HBM.CH_STATE0.CH4 (s : Nat) : Fld := ⟨0x1000010 + s * 0x100000, 16, 4⟩
def R.HBM.CH_STATE0.CH5 (s : Nat) : Fld := ⟨0x1000010 + s * 0x100000, 20, 4⟩
def R.HBM.CH_STATE0.CH6 (s : Nat) : Fld := ⟨0x1000010 + s * 0x100000, 24, 4⟩
def R.HBM.CH_STATE0.CH7 (s : Nat) : Fld := ⟨0x1000010 + s * 0x100000, 28, 4⟩
def R.HBM.CH_STATE0.CH8 (s : Nat) : Fld := ⟨0x1000010 + s * 0x100000, 32, 4⟩
def R.HBM.CH_STATE0.CH9 (s : Nat) : Fld := ⟨0x1000010 + s * 0x100000, 36, 4⟩
def R.HBM.CH_STATE0.CH10 (s : Nat) : Fld := ⟨0x1000010 + s * 0x100000, 40, 4⟩
def R.HBM.CH_STATE0.CH11 (s : Nat) : Fld := ⟨0x1000010 + s * 0x100000, 44, 4⟩
def R.HBM.CH_STATE0.CH12 (s : Nat) : Fld := ⟨0x1000010 + s * 0x100000, 48, 4⟩
def R.HBM.CH_STATE0.CH13 (s : Nat) : Fld := ⟨0x1000010 + s * 0x100000, 52, 4⟩
def R.HBM.CH_STATE0.CH14 (s : Nat) : Fld := ⟨0x1000010 + s * 0x100000, 56, 4⟩
def R.HBM.CH_STATE0.CH15 (s : Nat) : Fld := ⟨0x1000010 + s * 0x100000, 60, 4⟩
/-- `HBM.CH_STATE1`, the whole register. -/
def R.HBM.CH_STATE1.REG (s : Nat) : Fld := ⟨0x1000018 + s * 0x100000, 0, 64⟩
def R.HBM.CH_STATE1.CH16 (s : Nat) : Fld := ⟨0x1000018 + s * 0x100000, 0, 4⟩
def R.HBM.CH_STATE1.CH17 (s : Nat) : Fld := ⟨0x1000018 + s * 0x100000, 4, 4⟩
def R.HBM.CH_STATE1.CH18 (s : Nat) : Fld := ⟨0x1000018 + s * 0x100000, 8, 4⟩
def R.HBM.CH_STATE1.CH19 (s : Nat) : Fld := ⟨0x1000018 + s * 0x100000, 12, 4⟩
def R.HBM.CH_STATE1.CH20 (s : Nat) : Fld := ⟨0x1000018 + s * 0x100000, 16, 4⟩
def R.HBM.CH_STATE1.CH21 (s : Nat) : Fld := ⟨0x1000018 + s * 0x100000, 20, 4⟩
def R.HBM.CH_STATE1.CH22 (s : Nat) : Fld := ⟨0x1000018 + s * 0x100000, 24, 4⟩
def R.HBM.CH_STATE1.CH23 (s : Nat) : Fld := ⟨0x1000018 + s * 0x100000, 28, 4⟩
def R.HBM.CH_STATE1.CH24 (s : Nat) : Fld := ⟨0x1000018 + s * 0x100000, 32, 4⟩
def R.HBM.CH_STATE1.CH25 (s : Nat) : Fld := ⟨0x1000018 + s * 0x100000, 36, 4⟩
def R.HBM.CH_STATE1.CH26 (s : Nat) : Fld := ⟨0x1000018 + s * 0x100000, 40, 4⟩
def R.HBM.CH_STATE1.CH27 (s : Nat) : Fld := ⟨0x1000018 + s * 0x100000, 44, 4⟩
def R.HBM.CH_STATE1.CH28 (s : Nat) : Fld := ⟨0x1000018 + s * 0x100000, 48, 4⟩
def R.HBM.CH_STATE1.CH29 (s : Nat) : Fld := ⟨0x1000018 + s * 0x100000, 52, 4⟩
def R.HBM.CH_STATE1.CH30 (s : Nat) : Fld := ⟨0x1000018 + s * 0x100000, 56, 4⟩
def R.HBM.CH_STATE1.CH31 (s : Nat) : Fld := ⟨0x1000018 + s * 0x100000, 60, 4⟩
/-- `HBM.ERRCNT`, the whole register. -/
def R.HBM.ERRCNT.REG (s : Nat) : Fld := ⟨0x1000020 + s * 0x100000, 0, 64⟩
def R.HBM.ERRCNT.CORR (s : Nat) : Fld := ⟨0x1000020 + s * 0x100000, 0, 32⟩
def R.HBM.ERRCNT.UNCORR (s : Nat) : Fld := ⟨0x1000020 + s * 0x100000, 32, 32⟩
/-- `HBM.ERR`, the whole register. -/
def R.HBM.ERR.REG (s : Nat) : Fld := ⟨0x1000028 + s * 0x100000, 0, 64⟩
def R.HBM.ERR.CODE (s : Nat) : Fld := ⟨0x1000028 + s * 0x100000, 0, 16⟩
def R.HBM.ERR.CH (s : Nat) : Fld := ⟨0x1000028 + s * 0x100000, 16, 5⟩
def R.HBM.ERR.PC (s : Nat) : Fld := ⟨0x1000028 + s * 0x100000, 21, 1⟩
def R.HBM.ERR.BANK (s : Nat) : Fld := ⟨0x1000028 + s * 0x100000, 22, 4⟩
def R.HBM.ERR.ROW (s : Nat) : Fld := ⟨0x1000028 + s * 0x100000, 26, 18⟩
def R.HBM.ERR.VALID (s : Nat) : Fld := ⟨0x1000028 + s * 0x100000, 48, 1⟩
def R.HBM.ERR.OVERRUN (s : Nat) : Fld := ⟨0x1000028 + s * 0x100000, 49, 1⟩
/-- `HBM.RETRAIN`, the whole register. -/
def R.HBM.RETRAIN.REG (s : Nat) : Fld := ⟨0x1000030 + s * 0x100000, 0, 64⟩
def R.HBM.RETRAIN.COUNT (s : Nat) : Fld := ⟨0x1000030 + s * 0x100000, 0, 32⟩
def R.HBM.RETRAIN.LAST_NS (s : Nat) : Fld := ⟨0x1000030 + s * 0x100000, 32, 16⟩
def R.HBM.RETRAIN.FAILS (s : Nat) : Fld := ⟨0x1000030 + s * 0x100000, 48, 16⟩
/-- `HBM.MIG`, the whole register. -/
def R.HBM.MIG.REG (s : Nat) : Fld := ⟨0x1000038 + s * 0x100000, 0, 64⟩
def R.HBM.MIG.SRC (s : Nat) : Fld := ⟨0x1000038 + s * 0x100000, 0, 5⟩
def R.HBM.MIG.DST (s : Nat) : Fld := ⟨0x1000038 + s * 0x100000, 5, 5⟩
def R.HBM.MIG.GO (s : Nat) : Fld := ⟨0x1000038 + s * 0x100000, 10, 1⟩
def R.HBM.MIG.BUSY (s : Nat) : Fld := ⟨0x1000038 + s * 0x100000, 11, 1⟩
def R.HBM.MIG.DONE (s : Nat) : Fld := ⟨0x1000038 + s * 0x100000, 12, 1⟩
def R.HBM.MIG.ERR (s : Nat) : Fld := ⟨0x1000038 + s * 0x100000, 13, 1⟩
def R.HBM.MIG.MIB_DONE (s : Nat) : Fld := ⟨0x1000038 + s * 0x100000, 16, 32⟩
/-- `HBM.RPR_CMD`, the whole register. -/
def R.HBM.RPR_CMD.REG (s : Nat) : Fld := ⟨0x1000040 + s * 0x100000, 0, 64⟩
def R.HBM.RPR_CMD.CH (s : Nat) : Fld := ⟨0x1000040 + s * 0x100000, 0, 5⟩
def R.HBM.RPR_CMD.PC (s : Nat) : Fld := ⟨0x1000040 + s * 0x100000, 5, 1⟩
def R.HBM.RPR_CMD.BANK (s : Nat) : Fld := ⟨0x1000040 + s * 0x100000, 6, 4⟩
def R.HBM.RPR_CMD.ROW (s : Nat) : Fld := ⟨0x1000040 + s * 0x100000, 10, 18⟩
def R.HBM.RPR_CMD.OP (s : Nat) : Fld := ⟨0x1000040 + s * 0x100000, 28, 2⟩
def R.HBM.RPR_CMD.GO (s : Nat) : Fld := ⟨0x1000040 + s * 0x100000, 30, 1⟩
/-- `HBM.RPR_STAT`, the whole register. -/
def R.HBM.RPR_STAT.REG (s : Nat) : Fld := ⟨0x1000048 + s * 0x100000, 0, 64⟩
def R.HBM.RPR_STAT.BUSY (s : Nat) : Fld := ⟨0x1000048 + s * 0x100000, 0, 1⟩
def R.HBM.RPR_STAT.DONE (s : Nat) : Fld := ⟨0x1000048 + s * 0x100000, 1, 1⟩
def R.HBM.RPR_STAT.REFUSED (s : Nat) : Fld := ⟨0x1000048 + s * 0x100000, 2, 1⟩
def R.HBM.RPR_STAT.FAIL (s : Nat) : Fld := ⟨0x1000048 + s * 0x100000, 3, 1⟩
def R.HBM.RPR_STAT.FREE (s : Nat) : Fld := ⟨0x1000048 + s * 0x100000, 8, 8⟩
def R.HBM.RPR_STAT.ROW (s : Nat) : Fld := ⟨0x1000048 + s * 0x100000, 16, 18⟩
def R.HBM.RPR_STAT.MORE (s : Nat) : Fld := ⟨0x1000048 + s * 0x100000, 34, 1⟩
/-- `HBM.TG_CTL`, the whole register. -/
def R.HBM.TG_CTL.REG (s : Nat) : Fld := ⟨0x1000050 + s * 0x100000, 0, 64⟩
def R.HBM.TG_CTL.PCSEL (s : Nat) : Fld := ⟨0x1000050 + s * 0x100000, 0, 1⟩
def R.HBM.TG_CTL.GO (s : Nat) : Fld := ⟨0x1000050 + s * 0x100000, 1, 1⟩
def R.HBM.TG_CTL.ABORT (s : Nat) : Fld := ⟨0x1000050 + s * 0x100000, 2, 1⟩
def R.HBM.TG_CTL.OP (s : Nat) : Fld := ⟨0x1000050 + s * 0x100000, 3, 2⟩
def R.HBM.TG_CTL.PAT (s : Nat) : Fld := ⟨0x1000050 + s * 0x100000, 5, 2⟩
def R.HBM.TG_CTL.RAND (s : Nat) : Fld := ⟨0x1000050 + s * 0x100000, 7, 1⟩
def R.HBM.TG_CTL.BURST (s : Nat) : Fld := ⟨0x1000050 + s * 0x100000, 8, 4⟩
/-- `HBM.TG_RANGE`, the whole register. -/
def R.HBM.TG_RANGE.REG (s : Nat) : Fld := ⟨0x1000058 + s * 0x100000, 0, 64⟩
def R.HBM.TG_RANGE.START (s : Nat) : Fld := ⟨0x1000058 + s * 0x100000, 0, 21⟩
def R.HBM.TG_RANGE.LINES (s : Nat) : Fld := ⟨0x1000058 + s * 0x100000, 21, 21⟩
def R.HBM.TG_RANGE.PASSES (s : Nat) : Fld := ⟨0x1000058 + s * 0x100000, 42, 16⟩
/-- `HBM.TG_SEED`, the whole register. -/
def R.HBM.TG_SEED.REG (s : Nat) : Fld := ⟨0x1000060 + s * 0x100000, 0, 64⟩
def R.HBM.TG_SEED.SEED (s : Nat) : Fld := ⟨0x1000060 + s * 0x100000, 0, 64⟩
/-- `HBM.TG_STAT`, the whole register. -/
def R.HBM.TG_STAT.REG (s : Nat) : Fld := ⟨0x1000068 + s * 0x100000, 0, 64⟩
def R.HBM.TG_STAT.BUSY (s : Nat) : Fld := ⟨0x1000068 + s * 0x100000, 0, 1⟩
def R.HBM.TG_STAT.DONE (s : Nat) : Fld := ⟨0x1000068 + s * 0x100000, 1, 1⟩
def R.HBM.TG_STAT.REFUSED (s : Nat) : Fld := ⟨0x1000068 + s * 0x100000, 2, 1⟩
def R.HBM.TG_STAT.MISMATCH (s : Nat) : Fld := ⟨0x1000068 + s * 0x100000, 16, 32⟩
def R.HBM.TG_STAT.MBPS (s : Nat) : Fld := ⟨0x1000068 + s * 0x100000, 48, 16⟩
/-- `HBM.TG_FAIL`, the whole register. -/
def R.HBM.TG_FAIL.REG (s : Nat) : Fld := ⟨0x1000070 + s * 0x100000, 0, 64⟩
def R.HBM.TG_FAIL.LINE (s : Nat) : Fld := ⟨0x1000070 + s * 0x100000, 0, 21⟩
def R.HBM.TG_FAIL.BYTE (s : Nat) : Fld := ⟨0x1000070 + s * 0x100000, 21, 9⟩
/-- `HBM0.REGION`, the whole register. -/
def R.HBM0.REGION.REG (r : Nat) : Fld := ⟨0x1080000 + r * 0x8, 0, 64⟩
def R.HBM0.REGION.BASE_GIB (r : Nat) : Fld := ⟨0x1080000 + r * 0x8, 0, 9⟩
def R.HBM0.REGION.NLOG (r : Nat) : Fld := ⟨0x1080000 + r * 0x8, 9, 9⟩
def R.HBM0.REGION.FIRST (r : Nat) : Fld := ⟨0x1080000 + r * 0x8, 18, 9⟩
def R.HBM0.REGION.STACKS (r : Nat) : Fld := ⟨0x1080000 + r * 0x8, 27, 8⟩
def R.HBM0.REGION.VALID (r : Nat) : Fld := ⟨0x1080000 + r * 0x8, 35, 1⟩
/-- `HBM0.CMAP`, the whole register. -/
def R.HBM0.CMAP.REG (k : Nat) : Fld := ⟨0x1081000 + k * 0x8, 0, 64⟩
def R.HBM0.CMAP.PPC (k : Nat) : Fld := ⟨0x1081000 + k * 0x8, 0, 9⟩
/-- `NOL.MEM_CFG`, the whole register. -/
def R.NOL.MEM_CFG.REG (m : Nat) : Fld := ⟨0x2000000 + m * 0x100000, 0, 64⟩
def R.NOL.MEM_CFG.SPLIT (m : Nat) : Fld := ⟨0x2000000 + m * 0x100000, 0, 1⟩
def R.NOL.MEM_CFG.LIFT_RECAL_MS (m : Nat) : Fld := ⟨0x2000000 + m * 0x100000, 16, 16⟩
/-- `NOL.MEM_STAT`, the whole register. -/
def R.NOL.MEM_STAT.REG (m : Nat) : Fld := ⟨0x2000008 + m * 0x100000, 0, 64⟩
def R.NOL.MEM_STAT.LINK_UP (m : Nat) : Fld := ⟨0x2000008 + m * 0x100000, 0, 1⟩
def R.NOL.MEM_STAT.OFFLINE (m : Nat) : Fld := ⟨0x2000008 + m * 0x100000, 1, 1⟩
def R.NOL.MEM_STAT.TEMP_C (m : Nat) : Fld := ⟨0x2000008 + m * 0x100000, 8, 8⟩
def R.NOL.MEM_STAT.DRAM_C (m : Nat) : Fld := ⟨0x2000008 + m * 0x100000, 16, 8⟩
def R.NOL.MEM_STAT.FLASH_C (m : Nat) : Fld := ⟨0x2000008 + m * 0x100000, 24, 8⟩
def R.NOL.MEM_STAT.REPLAYS (m : Nat) : Fld := ⟨0x2000008 + m * 0x100000, 32, 32⟩
/-- `NOL.ERRCNT`, the whole register. -/
def R.NOL.ERRCNT.REG (m : Nat) : Fld := ⟨0x2000010 + m * 0x100000, 0, 64⟩
def R.NOL.ERRCNT.CORR (m : Nat) : Fld := ⟨0x2000010 + m * 0x100000, 0, 32⟩
def R.NOL.ERRCNT.UNCORR (m : Nat) : Fld := ⟨0x2000010 + m * 0x100000, 32, 32⟩
/-- `NOL.ERR`, the whole register. -/
def R.NOL.ERR.REG (m : Nat) : Fld := ⟨0x2000018 + m * 0x100000, 0, 64⟩
def R.NOL.ERR.CODE (m : Nat) : Fld := ⟨0x2000018 + m * 0x100000, 0, 16⟩
def R.NOL.ERR.CH (m : Nat) : Fld := ⟨0x2000018 + m * 0x100000, 16, 5⟩
def R.NOL.ERR.FLASH (m : Nat) : Fld := ⟨0x2000018 + m * 0x100000, 21, 1⟩
def R.NOL.ERR.VALID (m : Nat) : Fld := ⟨0x2000018 + m * 0x100000, 48, 1⟩
def R.NOL.ERR.OVERRUN (m : Nat) : Fld := ⟨0x2000018 + m * 0x100000, 49, 1⟩
/-- `NOL.PARK_CFG`, the whole register. -/
def R.NOL.PARK_CFG.REG (m : Nat) : Fld := ⟨0x2000020 + m * 0x100000, 0, 64⟩
def R.NOL.PARK_CFG.MIB0 (m : Nat) : Fld := ⟨0x2000020 + m * 0x100000, 0, 16⟩
def R.NOL.PARK_CFG.MIB1 (m : Nat) : Fld := ⟨0x2000020 + m * 0x100000, 16, 16⟩
def R.NOL.PARK_CFG.DEMOTE_S (m : Nat) : Fld := ⟨0x2000020 + m * 0x100000, 32, 20⟩
/-- `NOL.PARK_STAT`, the whole register. -/
def R.NOL.PARK_STAT.REG (m : Nat) : Fld := ⟨0x2000028 + m * 0x100000, 0, 64⟩
def R.NOL.PARK_STAT.RECORDS (m : Nat) : Fld := ⟨0x2000028 + m * 0x100000, 0, 21⟩
def R.NOL.PARK_STAT.DRAM_MIB (m : Nat) : Fld := ⟨0x2000028 + m * 0x100000, 21, 20⟩
def R.NOL.PARK_STAT.FLASH_GIB (m : Nat) : Fld := ⟨0x2000028 + m * 0x100000, 41, 23⟩
/-- `NOL.FL_STAT`, the whole register. -/
def R.NOL.FL_STAT.REG (m : Nat) : Fld := ⟨0x2000030 + m * 0x100000, 0, 64⟩
def R.NOL.FL_STAT.MODE (m : Nat) : Fld := ⟨0x2000030 + m * 0x100000, 0, 2⟩
def R.NOL.FL_STAT.RESERVE (m : Nat) : Fld := ⟨0x2000030 + m * 0x100000, 16, 16⟩
def R.NOL.FL_STAT.GROWN_BAD (m : Nat) : Fld := ⟨0x2000030 + m * 0x100000, 32, 16⟩
def R.NOL.FL_STAT.FACTORY_BAD (m : Nat) : Fld := ⟨0x2000030 + m * 0x100000, 48, 16⟩
/-- `NOL.FL_WEAR`, the whole register. -/
def R.NOL.FL_WEAR.REG (m : Nat) : Fld := ⟨0x2000038 + m * 0x100000, 0, 64⟩
def R.NOL.FL_WEAR.PE_MAX (m : Nat) : Fld := ⟨0x2000038 + m * 0x100000, 0, 16⟩
def R.NOL.FL_WEAR.PE_MIN (m : Nat) : Fld := ⟨0x2000038 + m * 0x100000, 16, 16⟩
def R.NOL.FL_WEAR.PE_AVG (m : Nat) : Fld := ⟨0x2000038 + m * 0x100000, 32, 16⟩
/-- `NOL.FL_CNT`, the whole register. -/
def R.NOL.FL_CNT.REG (m : Nat) : Fld := ⟨0x2000040 + m * 0x100000, 0, 64⟩
def R.NOL.FL_CNT.HOST_GIB (m : Nat) : Fld := ⟨0x2000040 + m * 0x100000, 0, 32⟩
def R.NOL.FL_CNT.NAND_GIB (m : Nat) : Fld := ⟨0x2000040 + m * 0x100000, 32, 32⟩
/-- `NOL.FL_RELOC`, the whole register. -/
def R.NOL.FL_RELOC.REG (m : Nat) : Fld := ⟨0x2000048 + m * 0x100000, 0, 64⟩
def R.NOL.FL_RELOC.REFRESH (m : Nat) : Fld := ⟨0x2000048 + m * 0x100000, 0, 32⟩
def R.NOL.FL_RELOC.DISTURB (m : Nat) : Fld := ⟨0x2000048 + m * 0x100000, 32, 32⟩
/-- `NOL.FL_POLICY`, the whole register. -/
def R.NOL.FL_POLICY.REG (m : Nat) : Fld := ⟨0x2000050 + m * 0x100000, 0, 64⟩
def R.NOL.FL_POLICY.REFRESH_D (m : Nat) : Fld := ⟨0x2000050 + m * 0x100000, 0, 8⟩
def R.NOL.FL_POLICY.RETRY_LVL (m : Nat) : Fld := ⟨0x2000050 + m * 0x100000, 8, 3⟩
def R.NOL.FL_POLICY.DISTURB_K (m : Nat) : Fld := ⟨0x2000050 + m * 0x100000, 16, 16⟩
def R.NOL.FL_POLICY.WL_DELTA (m : Nat) : Fld := ⟨0x2000050 + m * 0x100000, 32, 16⟩
/-- `FAB.CTL`, the whole register. -/
def R.FAB.CTL.REG (p : Nat) : Fld := ⟨0x3000000 + p * 0x10000, 0, 64⟩
def R.FAB.CTL.EN (p : Nat) : Fld := ⟨0x3000000 + p * 0x10000, 0, 1⟩
def R.FAB.CTL.ENCAP (p : Nat) : Fld := ⟨0x3000000 + p * 0x10000, 1, 1⟩
def R.FAB.CTL.WAX_EN (p : Nat) : Fld := ⟨0x3000000 + p * 0x10000, 2, 1⟩
def R.FAB.CTL.FLITS (p : Nat) : Fld := ⟨0x3000000 + p * 0x10000, 4, 4⟩
def R.FAB.CTL.UNCORR_MAX (p : Nat) : Fld := ⟨0x3000000 + p * 0x10000, 8, 16⟩
/-- `FAB.STAT`, the whole register. -/
def R.FAB.STAT.REG (p : Nat) : Fld := ⟨0x3000008 + p * 0x10000, 0, 64⟩
def R.FAB.STAT.STATE (p : Nat) : Fld := ⟨0x3000008 + p * 0x10000, 0, 4⟩
def R.FAB.STAT.LEVEL (p : Nat) : Fld := ⟨0x3000008 + p * 0x10000, 4, 2⟩
def R.FAB.STAT.PTYPE (p : Nat) : Fld := ⟨0x3000008 + p * 0x10000, 6, 2⟩
def R.FAB.STAT.QREASON (p : Nat) : Fld := ⟨0x3000008 + p * 0x10000, 8, 3⟩
/-- `FAB.PARTNER`, the whole register. -/
def R.FAB.PARTNER.REG (p : Nat) : Fld := ⟨0x3000010 + p * 0x10000, 0, 64⟩
def R.FAB.PARTNER.MODULE (p : Nat) : Fld := ⟨0x3000010 + p * 0x10000, 0, 16⟩
def R.FAB.PARTNER.PORT (p : Nat) : Fld := ⟨0x3000010 + p * 0x10000, 16, 5⟩
def R.FAB.PARTNER.RACK (p : Nat) : Fld := ⟨0x3000010 + p * 0x10000, 21, 10⟩
def R.FAB.PARTNER.TRAY (p : Nat) : Fld := ⟨0x3000010 + p * 0x10000, 31, 3⟩
def R.FAB.PARTNER.SLOT (p : Nat) : Fld := ⟨0x3000010 + p * 0x10000, 34, 3⟩
/-- `FAB.FEC_CNT`, the whole register. -/
def R.FAB.FEC_CNT.REG (p : Nat) : Fld := ⟨0x3000018 + p * 0x10000, 0, 64⟩
def R.FAB.FEC_CNT.CORR_CW (p : Nat) : Fld := ⟨0x3000018 + p * 0x10000, 0, 32⟩
def R.FAB.FEC_CNT.UNCORR_CW (p : Nat) : Fld := ⟨0x3000018 + p * 0x10000, 32, 32⟩
/-- `FAB.LL_CNT`, the whole register. -/
def R.FAB.LL_CNT.REG (p : Nat) : Fld := ⟨0x3000020 + p * 0x10000, 0, 64⟩
def R.FAB.LL_CNT.REPLAYS (p : Nat) : Fld := ⟨0x3000020 + p * 0x10000, 0, 32⟩
def R.FAB.LL_CNT.RETRAINS (p : Nat) : Fld := ⟨0x3000020 + p * 0x10000, 32, 16⟩
def R.FAB.LL_CNT.DOWNS (p : Nat) : Fld := ⟨0x3000020 + p * 0x10000, 48, 16⟩
/-- `FAB.WAX`, the whole register. -/
def R.FAB.WAX.REG (p : Nat) : Fld := ⟨0x3000028 + p * 0x10000, 0, 64⟩
def R.FAB.WAX.COUNT (p : Nat) : Fld := ⟨0x3000028 + p * 0x10000, 0, 32⟩
def R.FAB.WAX.LAST_NS (p : Nat) : Fld := ⟨0x3000028 + p * 0x10000, 32, 16⟩
def R.FAB.WAX.FAILS (p : Nat) : Fld := ⟨0x3000028 + p * 0x10000, 48, 16⟩
/-- `FAB.ERR`, the whole register. -/
def R.FAB.ERR.REG (p : Nat) : Fld := ⟨0x3000030 + p * 0x10000, 0, 64⟩
def R.FAB.ERR.CODE (p : Nat) : Fld := ⟨0x3000030 + p * 0x10000, 0, 16⟩
def R.FAB.ERR.VALID (p : Nat) : Fld := ⟨0x3000030 + p * 0x10000, 48, 1⟩
def R.FAB.ERR.OVERRUN (p : Nat) : Fld := ⟨0x3000030 + p * 0x10000, 49, 1⟩
/-- `FAB.ETH_DST`, the whole register. -/
def R.FAB.ETH_DST.REG (p : Nat) : Fld := ⟨0x3000038 + p * 0x10000, 0, 64⟩
def R.FAB.ETH_DST.MAC (p : Nat) : Fld := ⟨0x3000038 + p * 0x10000, 0, 48⟩
/-- `FAB.ETH_CFG`, the whole register. -/
def R.FAB.ETH_CFG.REG (p : Nat) : Fld := ⟨0x3000040 + p * 0x10000, 0, 64⟩
def R.FAB.ETH_CFG.ETYPE (p : Nat) : Fld := ⟨0x3000040 + p * 0x10000, 0, 16⟩
def R.FAB.ETH_CFG.VID (p : Nat) : Fld := ⟨0x3000040 + p * 0x10000, 16, 12⟩
def R.FAB.ETH_CFG.PCP (p : Nat) : Fld := ⟨0x3000040 + p * 0x10000, 28, 3⟩
def R.FAB.ETH_CFG.VLAN (p : Nat) : Fld := ⟨0x3000040 + p * 0x10000, 31, 1⟩
/-- `MBIST.PWR`, the whole register. -/
def R.MBIST.PWR.REG (win : Nat) : Fld := ⟨mbistBase win + 0x0, 0, 64⟩
def R.MBIST.PWR.SP_REQ (win : Nat) : Fld := ⟨mbistBase win + 0x0, 0, 8⟩
def R.MBIST.PWR.AB_REQ (win : Nat) : Fld := ⟨mbistBase win + 0x0, 8, 8⟩
def R.MBIST.PWR.SP_CUR (win : Nat) : Fld := ⟨mbistBase win + 0x0, 16, 8⟩
def R.MBIST.PWR.AB_CUR (win : Nat) : Fld := ⟨mbistBase win + 0x0, 24, 8⟩
def R.MBIST.PWR.ERR (win : Nat) : Fld := ⟨mbistBase win + 0x0, 32, 1⟩
/-- `MBIST.MT_CTL`, the whole register. -/
def R.MBIST.MT_CTL.REG (win : Nat) : Fld := ⟨mbistBase win + 0x8, 0, 64⟩
def R.MBIST.MT_CTL.GO (win : Nat) : Fld := ⟨mbistBase win + 0x8, 0, 1⟩
def R.MBIST.MT_CTL.ABORT (win : Nat) : Fld := ⟨mbistBase win + 0x8, 1, 1⟩
def R.MBIST.MT_CTL.TARGET (win : Nat) : Fld := ⟨mbistBase win + 0x8, 2, 1⟩
def R.MBIST.MT_CTL.MODE (win : Nat) : Fld := ⟨mbistBase win + 0x8, 3, 1⟩
def R.MBIST.MT_CTL.ALG (win : Nat) : Fld := ⟨mbistBase win + 0x8, 4, 1⟩
def R.MBIST.MT_CTL.BG (win : Nat) : Fld := ⟨mbistBase win + 0x8, 5, 1⟩
def R.MBIST.MT_CTL.STOP (win : Nat) : Fld := ⟨mbistBase win + 0x8, 6, 1⟩
def R.MBIST.MT_CTL.SEGS (win : Nat) : Fld := ⟨mbistBase win + 0x8, 7, 4⟩
/-- `MBIST.MT_STAT`, the whole register. -/
def R.MBIST.MT_STAT.REG (win : Nat) : Fld := ⟨mbistBase win + 0x10, 0, 64⟩
def R.MBIST.MT_STAT.BUSY (win : Nat) : Fld := ⟨mbistBase win + 0x10, 0, 1⟩
def R.MBIST.MT_STAT.DONE (win : Nat) : Fld := ⟨mbistBase win + 0x10, 1, 1⟩
def R.MBIST.MT_STAT.REFUSED (win : Nat) : Fld := ⟨mbistBase win + 0x10, 2, 1⟩
def R.MBIST.MT_STAT.FAILS (win : Nat) : Fld := ⟨mbistBase win + 0x10, 16, 16⟩
def R.MBIST.MT_STAT.CYCLES (win : Nat) : Fld := ⟨mbistBase win + 0x10, 32, 32⟩
/-- `MBIST.MT_FAIL`, the whole register. -/
def R.MBIST.MT_FAIL.REG (win : Nat) : Fld := ⟨mbistBase win + 0x18, 0, 64⟩
def R.MBIST.MT_FAIL.BANK (win : Nat) : Fld := ⟨mbistBase win + 0x18, 0, 7⟩
def R.MBIST.MT_FAIL.WORD (win : Nat) : Fld := ⟨mbistBase win + 0x18, 7, 16⟩
def R.MBIST.MT_FAIL.BIT (win : Nat) : Fld := ⟨mbistBase win + 0x18, 23, 9⟩
def R.MBIST.MT_FAIL.OP (win : Nat) : Fld := ⟨mbistBase win + 0x18, 32, 5⟩
def R.MBIST.MT_FAIL.EXPECT (win : Nat) : Fld := ⟨mbistBase win + 0x18, 37, 1⟩
/-- `FABG.ID`, the whole register. -/
def R.FABG.ID.REG : Fld := ⟨0x3200000, 0, 64⟩
def R.FABG.ID.MODULE : Fld := ⟨0x3200000, 0, 16⟩
def R.FABG.ID.RACK : Fld := ⟨0x3200000, 16, 10⟩
def R.FABG.ID.TRAY : Fld := ⟨0x3200000, 26, 3⟩
def R.FABG.ID.SLOT : Fld := ⟨0x3200000, 29, 3⟩
def R.FABG.ID.FABRIC : Fld := ⟨0x3200000, 32, 32⟩
/-- `FABG.CTL`, the whole register. -/
def R.FABG.CTL.REG : Fld := ⟨0x3200008, 0, 64⟩
def R.FABG.CTL.WAX_MS : Fld := ⟨0x3200008, 0, 16⟩
/-- `FABG.MAC`, the whole register. -/
def R.FABG.MAC.REG : Fld := ⟨0x3200010, 0, 64⟩
def R.FABG.MAC.BASE : Fld := ⟨0x3200010, 0, 48⟩
/-- `FABG.TOPO_STAT`, the whole register. -/
def R.FABG.TOPO_STAT.REG : Fld := ⟨0x3200018, 0, 64⟩
def R.FABG.TOPO_STAT.GEN : Fld := ⟨0x3200018, 0, 32⟩
def R.FABG.TOPO_STAT.LAST_US : Fld := ⟨0x3200018, 32, 16⟩
def R.FABG.TOPO_STAT.RACK_MODS : Fld := ⟨0x3200018, 48, 7⟩
/-- `FABG.TOPO_SEL`, the whole register. -/
def R.FABG.TOPO_SEL.REG : Fld := ⟨0x3200020, 0, 64⟩
def R.FABG.TOPO_SEL.MODULE : Fld := ⟨0x3200020, 0, 6⟩
def R.FABG.TOPO_SEL.PORT : Fld := ⟨0x3200020, 6, 5⟩
def R.FABG.TOPO_SEL.RACK : Fld := ⟨0x3200020, 11, 10⟩
/-- `FABG.TOPO_ENT`, the whole register. -/
def R.FABG.TOPO_ENT.REG : Fld := ⟨0x3200028, 0, 64⟩
def R.FABG.TOPO_ENT.PMODULE : Fld := ⟨0x3200028, 0, 16⟩
def R.FABG.TOPO_ENT.PPORT : Fld := ⟨0x3200028, 16, 5⟩
def R.FABG.TOPO_ENT.STATE : Fld := ⟨0x3200028, 21, 4⟩
def R.FABG.TOPO_ENT.PPTYPE : Fld := ⟨0x3200028, 25, 2⟩
/-- `FABG.REACH`, the whole register. -/
def R.FABG.REACH.REG : Fld := ⟨0x3200030, 0, 64⟩
def R.FABG.REACH.MASK : Fld := ⟨0x3200030, 0, 64⟩
/-- `FABG.ERR`, the whole register. -/
def R.FABG.ERR.REG : Fld := ⟨0x3200038, 0, 64⟩
def R.FABG.ERR.CODE : Fld := ⟨0x3200038, 0, 16⟩
def R.FABG.ERR.MODULE : Fld := ⟨0x3200038, 16, 16⟩
def R.FABG.ERR.VALID : Fld := ⟨0x3200038, 48, 1⟩
def R.FABG.ERR.OVERRUN : Fld := ⟨0x3200038, 49, 1⟩
/-- `FABG.DROP`, the whole register. -/
def R.FABG.DROP.REG : Fld := ⟨0x3200040, 0, 64⟩
def R.FABG.DROP.TAG_FAIL : Fld := ⟨0x3200040, 0, 32⟩
def R.FABG.DROP.DUP : Fld := ⟨0x3200040, 32, 32⟩
/-- `BOOT.STAT`, the whole register. -/
def R.BOOT.STAT.REG : Fld := ⟨0x100000, 0, 64⟩
def R.BOOT.STAT.STAGE : Fld := ⟨0x100000, 0, 4⟩
def R.BOOT.STAT.READY : Fld := ⟨0x100000, 4, 1⟩
def R.BOOT.STAT.READY_MS : Fld := ⟨0x100000, 32, 32⟩
/-- `BOOT.IMG`, the whole register. -/
def R.BOOT.IMG.REG : Fld := ⟨0x100008, 0, 64⟩
def R.BOOT.IMG.FW_VERSION : Fld := ⟨0x100008, 0, 32⟩
def R.BOOT.IMG.SVN : Fld := ⟨0x100008, 32, 32⟩
/-- `BOOT.IMG_STAT`, the whole register. -/
def R.BOOT.IMG_STAT.REG : Fld := ⟨0x100010, 0, 64⟩
def R.BOOT.IMG_STAT.COPY : Fld := ⟨0x100010, 0, 1⟩
def R.BOOT.IMG_STAT.TRIAL : Fld := ⟨0x100010, 1, 1⟩
def R.BOOT.IMG_STAT.A_REASON : Fld := ⟨0x100010, 2, 4⟩
def R.BOOT.IMG_STAT.B_REASON : Fld := ⟨0x100010, 6, 4⟩
def R.BOOT.IMG_STAT.A_TRIES : Fld := ⟨0x100010, 10, 2⟩
def R.BOOT.IMG_STAT.B_TRIES : Fld := ⟨0x100010, 12, 2⟩
def R.BOOT.IMG_STAT.SEQ : Fld := ⟨0x100010, 32, 32⟩
/-- `BOOT.CAL`, the whole register. -/
def R.BOOT.CAL.REG : Fld := ⟨0x100018, 0, 64⟩
def R.BOOT.CAL.FCOPY : Fld := ⟨0x100018, 0, 1⟩
def R.BOOT.CAL.OWNER : Fld := ⟨0x100018, 1, 2⟩
def R.BOOT.CAL.OVL_APPLIED : Fld := ⟨0x100018, 3, 1⟩
def R.BOOT.CAL.OVL_RECS : Fld := ⟨0x100018, 16, 13⟩
def R.BOOT.CAL.CFG_RECS : Fld := ⟨0x100018, 32, 13⟩
/-- `BOOT.CORES`, the whole register. -/
def R.BOOT.CORES.REG : Fld := ⟨0x100020, 0, 64⟩
def R.BOOT.CORES.ENABLED : Fld := ⟨0x100020, 0, 32⟩
def R.BOOT.CORES.RETIRED : Fld := ⟨0x100020, 32, 20⟩
/-- `BOOT.PCIE`, the whole register. -/
def R.BOOT.PCIE.REG : Fld := ⟨0x100028, 0, 64⟩
def R.BOOT.PCIE.P0_CFG_MS : Fld := ⟨0x100028, 0, 16⟩
def R.BOOT.PCIE.P1_CFG_MS : Fld := ⟨0x100028, 16, 16⟩
/-- `BOOT.ERR`, the whole register. -/
def R.BOOT.ERR.REG : Fld := ⟨0x100030, 0, 64⟩
def R.BOOT.ERR.CODE : Fld := ⟨0x100030, 0, 16⟩
def R.BOOT.ERR.DETAIL : Fld := ⟨0x100030, 16, 8⟩
def R.BOOT.ERR.VALID : Fld := ⟨0x100030, 48, 1⟩
def R.BOOT.ERR.OVERRUN : Fld := ⟨0x100030, 49, 1⟩
/-- `BOOT.SVN_MIN`, the whole register. -/
def R.BOOT.SVN_MIN.REG : Fld := ⟨0x100038, 0, 64⟩
def R.BOOT.SVN_MIN.SVN_MIN : Fld := ⟨0x100038, 0, 32⟩
/-- `BOOT.MEAS`, the whole register. -/
def R.BOOT.MEAS.REG (i : Nat) : Fld := ⟨0x100100 + i * 0x8, 0, 64⟩
def R.BOOT.MEAS.DIGEST (i : Nat) : Fld := ⟨0x100100 + i * 0x8, 0, 64⟩
/-- `SEC.STAT`, the whole register. -/
def R.SEC.STAT.REG : Fld := ⟨0x700000, 0, 64⟩
def R.SEC.STAT.OWNED : Fld := ⟨0x700000, 0, 1⟩
def R.SEC.STAT.FKEY : Fld := ⟨0x700000, 1, 1⟩
def R.SEC.STAT.PARTITIONED : Fld := ⟨0x700000, 2, 1⟩
def R.SEC.STAT.HOUSE : Fld := ⟨0x700000, 3, 1⟩
def R.SEC.STAT.DEBUG_LOCKED : Fld := ⟨0x700000, 4, 1⟩
def R.SEC.STAT.KEYS : Fld := ⟨0x700000, 8, 7⟩
/-- `SEC.PART_SEL`, the whole register. -/
def R.SEC.PART_SEL.REG : Fld := ⟨0x700008, 0, 64⟩
def R.SEC.PART_SEL.PART : Fld := ⟨0x700008, 0, 4⟩
/-- `SEC.PART`, the whole register. -/
def R.SEC.PART.REG : Fld := ⟨0x700010, 0, 64⟩
def R.SEC.PART.STACKS : Fld := ⟨0x700010, 0, 8⟩
def R.SEC.PART.VALID : Fld := ⟨0x700010, 8, 1⟩
def R.SEC.PART.JOB : Fld := ⟨0x700010, 9, 1⟩
def R.SEC.PART.JOB_ID : Fld := ⟨0x700010, 10, 16⟩
def R.SEC.PART.SEALED : Fld := ⟨0x700010, 26, 1⟩
/-- `SEC.KEY_SEL`, the whole register. -/
def R.SEC.KEY_SEL.REG : Fld := ⟨0x700018, 0, 64⟩
def R.SEC.KEY_SEL.ENTRY : Fld := ⟨0x700018, 0, 6⟩
/-- `SEC.KEY_ENT`, the whole register. -/
def R.SEC.KEY_ENT.REG : Fld := ⟨0x700020, 0, 64⟩
def R.SEC.KEY_ENT.KIND : Fld := ⟨0x700020, 0, 2⟩
def R.SEC.KEY_ENT.BIND : Fld := ⟨0x700020, 2, 4⟩
def R.SEC.KEY_ENT.SEALED : Fld := ⟨0x700020, 6, 1⟩
def R.SEC.KEY_ENT.ID : Fld := ⟨0x700020, 32, 32⟩
/-- `SEC.HOUSE_CTL`, the whole register. -/
def R.SEC.HOUSE_CTL.REG : Fld := ⟨0x700028, 0, 64⟩
def R.SEC.HOUSE_CTL.IMAGE : Fld := ⟨0x700028, 0, 32⟩
def R.SEC.HOUSE_CTL.READ : Fld := ⟨0x700028, 32, 8⟩
def R.SEC.HOUSE_CTL.NSLOTS : Fld := ⟨0x700028, 40, 4⟩
/-- `SEC.HOUSE_SLOT`, the whole register. -/
def R.SEC.HOUSE_SLOT.REG : Fld := ⟨0x700030, 0, 64⟩
def R.SEC.HOUSE_SLOT.SLOT0 : Fld := ⟨0x700030, 0, 4⟩
def R.SEC.HOUSE_SLOT.SLOT1 : Fld := ⟨0x700030, 4, 4⟩
def R.SEC.HOUSE_SLOT.SLOT2 : Fld := ⟨0x700030, 8, 4⟩
def R.SEC.HOUSE_SLOT.SLOT3 : Fld := ⟨0x700030, 12, 4⟩
def R.SEC.HOUSE_SLOT.SLOT4 : Fld := ⟨0x700030, 16, 4⟩
def R.SEC.HOUSE_SLOT.SLOT5 : Fld := ⟨0x700030, 20, 4⟩
def R.SEC.HOUSE_SLOT.SLOT6 : Fld := ⟨0x700030, 24, 4⟩
def R.SEC.HOUSE_SLOT.SLOT7 : Fld := ⟨0x700030, 28, 4⟩
def R.SEC.HOUSE_SLOT.SLOT8 : Fld := ⟨0x700030, 32, 4⟩
def R.SEC.HOUSE_SLOT.SLOT9 : Fld := ⟨0x700030, 36, 4⟩
def R.SEC.HOUSE_SLOT.SLOT10 : Fld := ⟨0x700030, 40, 4⟩
def R.SEC.HOUSE_SLOT.SLOT11 : Fld := ⟨0x700030, 44, 4⟩
def R.SEC.HOUSE_SLOT.SLOT12 : Fld := ⟨0x700030, 48, 4⟩
def R.SEC.HOUSE_SLOT.SLOT13 : Fld := ⟨0x700030, 52, 4⟩
def R.SEC.HOUSE_SLOT.SLOT14 : Fld := ⟨0x700030, 56, 4⟩
def R.SEC.HOUSE_SLOT.SLOT15 : Fld := ⟨0x700030, 60, 4⟩
/-- `SEC.HOUSE_STAT`, the whole register. -/
def R.SEC.HOUSE_STAT.REG : Fld := ⟨0x700038, 0, 64⟩
def R.SEC.HOUSE_STAT.STATE : Fld := ⟨0x700038, 0, 3⟩
def R.SEC.HOUSE_STAT.PAUSED : Fld := ⟨0x700038, 8, 8⟩
def R.SEC.HOUSE_STAT.PENDING : Fld := ⟨0x700038, 16, 16⟩
def R.SEC.HOUSE_STAT.REBUILDS : Fld := ⟨0x700038, 32, 32⟩
/-- `SEC.SPDM_STAT`, the whole register. -/
def R.SEC.SPDM_STAT.REG : Fld := ⟨0x700040, 0, 64⟩
def R.SEC.SPDM_STAT.SESSIONS : Fld := ⟨0x700040, 0, 5⟩
def R.SEC.SPDM_STAT.ERRORS : Fld := ⟨0x700040, 32, 32⟩
/-- `SEC.ERR`, the whole register. -/
def R.SEC.ERR.REG : Fld := ⟨0x700048, 0, 64⟩
def R.SEC.ERR.CODE : Fld := ⟨0x700048, 0, 16⟩
def R.SEC.ERR.PART : Fld := ⟨0x700048, 16, 4⟩
def R.SEC.ERR.VALID : Fld := ⟨0x700048, 48, 1⟩
def R.SEC.ERR.OVERRUN : Fld := ⟨0x700048, 49, 1⟩
/-- `SEC.REVOKE`, the whole register. -/
def R.SEC.REVOKE.REG : Fld := ⟨0x700050, 0, 64⟩
def R.SEC.REVOKE.IMG_SLOTS : Fld := ⟨0x700050, 0, 4⟩
/-- `RAS.CTL`, the whole register. -/
def R.RAS.CTL.REG : Fld := ⟨0x500000, 0, 64⟩
def R.RAS.CTL.CORR_GAP_S : Fld := ⟨0x500000, 0, 8⟩
def R.RAS.CTL.CP_WDT_MS : Fld := ⟨0x500000, 8, 8⟩
def R.RAS.CTL.AUDIT_MS : Fld := ⟨0x500000, 16, 8⟩
def R.RAS.CTL.AUTO_RESET : Fld := ⟨0x500000, 24, 1⟩
def R.RAS.CTL.HOLD_S : Fld := ⟨0x500000, 32, 8⟩
/-- `RAS.STAT`, the whole register. -/
def R.RAS.STAT.REG : Fld := ⟨0x500008, 0, 64⟩
def R.RAS.STAT.CP_DOWN : Fld := ⟨0x500008, 0, 18⟩
def R.RAS.STAT.STATE : Fld := ⟨0x500008, 18, 2⟩
/-- `RAS.SCRUB_CFG`, the whole register. -/
def R.RAS.SCRUB_CFG.REG : Fld := ⟨0x500010, 0, 64⟩
def R.RAS.SCRUB_CFG.HBM_H : Fld := ⟨0x500010, 0, 5⟩
def R.RAS.SCRUB_CFG.LP_H : Fld := ⟨0x500010, 5, 5⟩
def R.RAS.SCRUB_CFG.SRAM_MIN : Fld := ⟨0x500010, 10, 6⟩
/-- `RAS.SCRUB_STAT`, the whole register. -/
def R.RAS.SCRUB_STAT.REG : Fld := ⟨0x500018, 0, 64⟩
def R.RAS.SCRUB_STAT.HBM_LVL : Fld := ⟨0x500018, 0, 2⟩
def R.RAS.SCRUB_STAT.LP_LVL : Fld := ⟨0x500018, 2, 2⟩
def R.RAS.SCRUB_STAT.SRAM_LVL : Fld := ⟨0x500018, 4, 2⟩
def R.RAS.SCRUB_STAT.LATE : Fld := ⟨0x500018, 16, 16⟩
def R.RAS.SCRUB_STAT.PROMOTIONS : Fld := ⟨0x500018, 32, 32⟩
/-- `RAS.SCRUB_CNT`, the whole register. -/
def R.RAS.SCRUB_CNT.REG : Fld := ⟨0x500020, 0, 64⟩
def R.RAS.SCRUB_CNT.CORR : Fld := ⟨0x500020, 0, 32⟩
def R.RAS.SCRUB_CNT.UNCORR : Fld := ⟨0x500020, 32, 32⟩
/-- `RAS.BG_SEL`, the whole register. -/
def R.RAS.BG_SEL.REG : Fld := ⟨0x500028, 0, 64⟩
def R.RAS.BG_SEL.ACT : Fld := ⟨0x500028, 0, 4⟩
/-- `RAS.BG_STAT`, the whole register. -/
def R.RAS.BG_STAT.REG : Fld := ⟨0x500030, 0, 64⟩
def R.RAS.BG_STAT.LVL : Fld := ⟨0x500030, 0, 2⟩
def R.RAS.BG_STAT.AGE_MS : Fld := ⟨0x500030, 8, 32⟩
/-- `RAS.CP_CNT`, the whole register. -/
def R.RAS.CP_CNT.REG : Fld := ⟨0x500038, 0, 64⟩
def R.RAS.CP_CNT.RELOADS : Fld := ⟨0x500038, 0, 16⟩
def R.RAS.CP_CNT.WDT : Fld := ⟨0x500038, 16, 16⟩
def R.RAS.CP_CNT.AUDIT : Fld := ⟨0x500038, 32, 16⟩
def R.RAS.CP_CNT.CORR : Fld := ⟨0x500038, 48, 16⟩
/-- `RAS.ERR`, the whole register. -/
def R.RAS.ERR.REG : Fld := ⟨0x500040, 0, 64⟩
def R.RAS.ERR.CODE : Fld := ⟨0x500040, 0, 16⟩
def R.RAS.ERR.UNIT : Fld := ⟨0x500040, 16, 16⟩
def R.RAS.ERR.VALID : Fld := ⟨0x500040, 48, 1⟩
def R.RAS.ERR.OVERRUN : Fld := ⟨0x500040, 49, 1⟩
/-- `RAS.DUMP`, the whole register. -/
def R.RAS.DUMP.REG : Fld := ⟨0x500048, 0, 64⟩
def R.RAS.DUMP.STATE : Fld := ⟨0x500048, 0, 2⟩
def R.RAS.DUMP.SECOND : Fld := ⟨0x500048, 2, 1⟩
def R.RAS.DUMP.CAUSE : Fld := ⟨0x500048, 16, 16⟩
def R.RAS.DUMP.BYTES : Fld := ⟨0x500048, 32, 32⟩
/-- `TEL.CTL`, the whole register. -/
def R.TEL.CTL.REG : Fld := ⟨0x600000, 0, 64⟩
def R.TEL.CTL.SAMPLE_MS : Fld := ⟨0x600000, 0, 8⟩
/-- `TEL.EVT_HEAD`, the whole register. -/
def R.TEL.EVT_HEAD.REG : Fld := ⟨0x600008, 0, 64⟩
def R.TEL.EVT_HEAD.SEQ : Fld := ⟨0x600008, 0, 32⟩
def R.TEL.EVT_HEAD.LOST : Fld := ⟨0x600008, 32, 32⟩
/-- `TEL.SNAP`, the whole register. -/
def R.TEL.SNAP.REG : Fld := ⟨0x600010, 0, 64⟩
def R.TEL.SNAP.POWER_W : Fld := ⟨0x600010, 0, 16⟩
def R.TEL.SNAP.DIE_C : Fld := ⟨0x600010, 16, 8⟩
def R.TEL.SNAP.HBM_C : Fld := ⟨0x600010, 24, 8⟩
def R.TEL.SNAP.NOL_C : Fld := ⟨0x600010, 32, 8⟩
def R.TEL.SNAP.SAMPLES : Fld := ⟨0x600010, 40, 24⟩
/-- `TEL.EVT`, the whole register. -/
def R.TEL.EVT.REG (n w : Nat) : Fld := ⟨0x620000 + n * 0x20 + w * 0x8, 0, 64⟩
def R.TEL.EVT.WORD (n w : Nat) : Fld := ⟨0x620000 + n * 0x20 + w * 0x8, 0, 64⟩
/-- `CLK.ACLK_CTL`, the whole register. -/
def R.CLK.ACLK_CTL.REG (n : Nat) : Fld := ⟨0x200000 + n * 0x8, 0, 64⟩
def R.CLK.ACLK_CTL.TARGET (n : Nat) : Fld := ⟨0x200000 + n * 0x8, 0, 7⟩
def R.CLK.ACLK_CTL.CUR (n : Nat) : Fld := ⟨0x200000 + n * 0x8, 8, 7⟩
def R.CLK.ACLK_CTL.SLEWING (n : Nat) : Fld := ⟨0x200000 + n * 0x8, 15, 1⟩
/-- `CLK.LOCK`, the whole register. -/
def R.CLK.LOCK.REG : Fld := ⟨0x200020, 0, 64⟩
def R.CLK.LOCK.PLL : Fld := ⟨0x200020, 0, 21⟩
/-- `CLK.CAL`, the whole register. -/
def R.CLK.CAL.REG : Fld := ⟨0x200028, 0, 64⟩
def R.CLK.CAL.TIME : Fld := ⟨0x200028, 0, 64⟩
/-- `CLK.CAL_STAT`, the whole register. -/
def R.CLK.CAL_STAT.REG : Fld := ⟨0x200030, 0, 64⟩
def R.CLK.CAL_STAT.VALID : Fld := ⟨0x200030, 0, 1⟩
def R.CLK.CAL_STAT.SRC : Fld := ⟨0x200030, 1, 2⟩
def R.CLK.CAL_STAT.SLEWING : Fld := ⟨0x200030, 3, 1⟩
def R.CLK.CAL_STAT.CAP_MV : Fld := ⟨0x200030, 16, 16⟩
def R.CLK.CAL_STAT.LAST_CORR_US : Fld := ⟨0x200030, 32, 32⟩
/-- `CLK.PTM_CFG`, the whole register. -/
def R.CLK.PTM_CFG.REG : Fld := ⟨0x200038, 0, 64⟩
def R.CLK.PTM_CFG.EN : Fld := ⟨0x200038, 0, 1⟩
def R.CLK.PTM_CFG.INT_MS : Fld := ⟨0x200038, 16, 16⟩
/-- `CLK.PTM_STAT`, the whole register. -/
def R.CLK.PTM_STAT.REG : Fld := ⟨0x200040, 0, 64⟩
def R.CLK.PTM_STAT.EXCH : Fld := ⟨0x200040, 0, 32⟩
def R.CLK.PTM_STAT.FAILS : Fld := ⟨0x200040, 32, 32⟩
/-- `CLK.UPTIME_US`, the whole register. -/
def R.CLK.UPTIME_US.REG : Fld := ⟨0x200048, 0, 64⟩
def R.CLK.UPTIME_US.US : Fld := ⟨0x200048, 0, 64⟩
/-- `CLK.LIFE_SEL`, the whole register. -/
def R.CLK.LIFE_SEL.REG : Fld := ⟨0x200050, 0, 64⟩
def R.CLK.LIFE_SEL.INDEX : Fld := ⟨0x200050, 0, 6⟩
/-- `CLK.LIFE_VAL`, the whole register. -/
def R.CLK.LIFE_VAL.REG : Fld := ⟨0x200058, 0, 64⟩
def R.CLK.LIFE_VAL.VALUE : Fld := ⟨0x200058, 0, 48⟩
/-- `CLK.LIFE_STAT`, the whole register. -/
def R.CLK.LIFE_STAT.REG : Fld := ⟨0x200060, 0, 64⟩
def R.CLK.LIFE_STAT.SEQ : Fld := ⟨0x200060, 0, 32⟩
def R.CLK.LIFE_STAT.FAILS : Fld := ⟨0x200060, 32, 16⟩
/-- `CLK.ERR`, the whole register. -/
def R.CLK.ERR.REG : Fld := ⟨0x200068, 0, 64⟩
def R.CLK.ERR.CODE : Fld := ⟨0x200068, 0, 16⟩
def R.CLK.ERR.UNIT : Fld := ⟨0x200068, 16, 5⟩
def R.CLK.ERR.VALID : Fld := ⟨0x200068, 48, 1⟩
def R.CLK.ERR.OVERRUN : Fld := ⟨0x200068, 49, 1⟩
/-- `PWR.CTL`, the whole register. -/
def R.PWR.CTL.REG : Fld := ⟨0x300000, 0, 64⟩
def R.PWR.CTL.LIMIT_W : Fld := ⟨0x300000, 0, 12⟩
def R.PWR.CTL.RAMP_ARR : Fld := ⟨0x300000, 12, 8⟩
def R.PWR.CTL.BRAKE_SRC : Fld := ⟨0x300000, 20, 3⟩
/-- `PWR.BRAKE_CFG`, the whole register. -/
def R.PWR.BRAKE_CFG.REG : Fld := ⟨0x300008, 0, 64⟩
def R.PWR.BRAKE_CFG.DROOP_MV : Fld := ⟨0x300008, 0, 8⟩
def R.PWR.BRAKE_CFG.HOLD_US : Fld := ⟨0x300008, 8, 16⟩
/-- `PWR.STAT`, the whole register. -/
def R.PWR.STAT.REG : Fld := ⟨0x300010, 0, 64⟩
def R.PWR.STAT.STATE : Fld := ⟨0x300010, 0, 2⟩
def R.PWR.STAT.BRAKED : Fld := ⟨0x300010, 2, 4⟩
def R.PWR.STAT.CAUSE : Fld := ⟨0x300010, 6, 3⟩
def R.PWR.STAT.INPUT_W : Fld := ⟨0x300010, 16, 16⟩
def R.PWR.STAT.INPUT_MV : Fld := ⟨0x300010, 32, 16⟩
/-- `PWR.STATE_REQ`, the whole register. -/
def R.PWR.STATE_REQ.REG : Fld := ⟨0x300018, 0, 64⟩
def R.PWR.STATE_REQ.REQ : Fld := ⟨0x300018, 0, 2⟩
/-- `PWR.CNT`, the whole register. -/
def R.PWR.CNT.REG : Fld := ⟨0x300020, 0, 64⟩
def R.PWR.CNT.BRAKES : Fld := ⟨0x300020, 0, 32⟩
def R.PWR.CNT.BRAKE_US : Fld := ⟨0x300020, 32, 32⟩
/-- `PWR.ERR`, the whole register. -/
def R.PWR.ERR.REG : Fld := ⟨0x300028, 0, 64⟩
def R.PWR.ERR.CODE : Fld := ⟨0x300028, 0, 16⟩
def R.PWR.ERR.UNIT : Fld := ⟨0x300028, 16, 4⟩
def R.PWR.ERR.VALID : Fld := ⟨0x300028, 48, 1⟩
def R.PWR.ERR.OVERRUN : Fld := ⟨0x300028, 49, 1⟩
/-- `THM.CTL`, the whole register. -/
def R.THM.CTL.REG : Fld := ⟨0x400000, 0, 64⟩
def R.THM.CTL.DIE_HOT_C : Fld := ⟨0x400000, 0, 8⟩
def R.THM.CTL.HYST_C : Fld := ⟨0x400000, 8, 8⟩
/-- `THM.STACK_THR`, the whole register. -/
def R.THM.STACK_THR.REG : Fld := ⟨0x400008, 0, 64⟩
def R.THM.STACK_THR.THR0 : Fld := ⟨0x400008, 0, 8⟩
def R.THM.STACK_THR.THR1 : Fld := ⟨0x400008, 8, 8⟩
def R.THM.STACK_THR.THR2 : Fld := ⟨0x400008, 16, 8⟩
def R.THM.STACK_THR.THR3 : Fld := ⟨0x400008, 24, 8⟩
def R.THM.STACK_THR.THR4 : Fld := ⟨0x400008, 32, 8⟩
def R.THM.STACK_THR.THR5 : Fld := ⟨0x400008, 40, 8⟩
def R.THM.STACK_THR.THR6 : Fld := ⟨0x400008, 48, 8⟩
def R.THM.STACK_THR.THR7 : Fld := ⟨0x400008, 56, 8⟩
/-- `THM.STAT`, the whole register. -/
def R.THM.STAT.REG : Fld := ⟨0x400010, 0, 64⟩
def R.THM.STAT.LEVEL : Fld := ⟨0x400010, 0, 16⟩
def R.THM.STAT.DIE_HOT : Fld := ⟨0x400010, 16, 4⟩
def R.THM.STAT.HUB_HOT : Fld := ⟨0x400010, 20, 1⟩
/-- `THM.DIE_C`, the whole register. -/
def R.THM.DIE_C.REG : Fld := ⟨0x400018, 0, 64⟩
def R.THM.DIE_C.TEMP : Fld := ⟨0x400018, 0, 40⟩
/-- `THM.ERR`, the whole register. -/
def R.THM.ERR.REG : Fld := ⟨0x400020, 0, 64⟩
def R.THM.ERR.CODE : Fld := ⟨0x400020, 0, 16⟩
def R.THM.ERR.UNIT : Fld := ⟨0x400020, 16, 4⟩
def R.THM.ERR.VALID : Fld := ⟨0x400020, 48, 1⟩
def R.THM.ERR.OVERRUN : Fld := ⟨0x400020, 49, 1⟩
/-- `THM.THR_CNT`, the whole register. -/
def R.THM.THR_CNT.REG (s : Nat) : Fld := ⟨0x400040 + s * 0x8, 0, 64⟩
def R.THM.THR_CNT.MS (s : Nat) : Fld := ⟨0x400040 + s * 0x8, 0, 32⟩
def R.THM.THR_CNT.EVENTS (s : Nat) : Fld := ⟨0x400040 + s * 0x8, 32, 32⟩
/-- `GLB.ID`, the whole register. -/
def R.GLB.ID.REG : Fld := ⟨0x0, 0, 64⟩
def R.GLB.ID.PART : Fld := ⟨0x0, 0, 16⟩
def R.GLB.ID.STEPPING : Fld := ⟨0x0, 16, 8⟩
def R.GLB.ID.FLASH_TIB : Fld := ⟨0x0, 24, 8⟩
def R.GLB.ID.MODULE : Fld := ⟨0x0, 32, 16⟩
/-- `GLB.SERIAL`, the whole register. -/
def R.GLB.SERIAL.REG : Fld := ⟨0x8, 0, 64⟩
def R.GLB.SERIAL.SERIAL : Fld := ⟨0x8, 0, 64⟩
/-- `GLB.STATUS`, the whole register. -/
def R.GLB.STATUS.REG : Fld := ⟨0x10, 0, 64⟩
def R.GLB.STATUS.STAGE : Fld := ⟨0x10, 0, 4⟩
def R.GLB.STATUS.READY : Fld := ⟨0x10, 4, 1⟩
def R.GLB.STATUS.RAS_STATE : Fld := ⟨0x10, 5, 2⟩
def R.GLB.STATUS.PARTITIONED : Fld := ⟨0x10, 7, 1⟩
def R.GLB.STATUS.CORES : Fld := ⟨0x10, 8, 10⟩
def R.GLB.STATUS.HBM_GIB : Fld := ⟨0x10, 18, 10⟩
/-- `GLB.FW`, the whole register. -/
def R.GLB.FW.REG : Fld := ⟨0x18, 0, 64⟩
def R.GLB.FW.FW_VERSION : Fld := ⟨0x18, 0, 32⟩
def R.GLB.FW.SVN : Fld := ⟨0x18, 32, 32⟩
/-- `HOST.FCTL`, the whole register. -/
def R.HOST.FCTL.REG (w : Nat) : Fld := ⟨0x800000 + w * 0x1000, 0, 64⟩
def R.HOST.FCTL.HOLDOFF_US (w : Nat) : Fld := ⟨0x800000 + w * 0x1000, 0, 8⟩
def R.HOST.FCTL.ORPHAN_MS (w : Nat) : Fld := ⟨0x800000 + w * 0x1000, 8, 16⟩
/-- `HOST.FSTAT`, the whole register. -/
def R.HOST.FSTAT.REG (w : Nat) : Fld := ⟨0x800008 + w * 0x1000, 0, 64⟩
def R.HOST.FSTAT.BOUND (w : Nat) : Fld := ⟨0x800008 + w * 0x1000, 0, 1⟩
def R.HOST.FSTAT.PART (w : Nat) : Fld := ⟨0x800008 + w * 0x1000, 1, 3⟩
def R.HOST.FSTAT.LINK_UP (w : Nat) : Fld := ⟨0x800008 + w * 0x1000, 4, 1⟩
def R.HOST.FSTAT.JOBS (w : Nat) : Fld := ⟨0x800008 + w * 0x1000, 8, 8⟩
/-- `HOST.BAR2_BASE`, the whole register. -/
def R.HOST.BAR2_BASE.REG (w : Nat) : Fld := ⟨0x800010 + w * 0x1000, 0, 64⟩
def R.HOST.BAR2_BASE.BASE (w : Nat) : Fld := ⟨0x800010 + w * 0x1000, 30, 18⟩
/-- `HOST.ERR`, the whole register. -/
def R.HOST.ERR.REG (w : Nat) : Fld := ⟨0x800018 + w * 0x1000, 0, 64⟩
def R.HOST.ERR.CODE (w : Nat) : Fld := ⟨0x800018 + w * 0x1000, 0, 16⟩
def R.HOST.ERR.JOB (w : Nat) : Fld := ⟨0x800018 + w * 0x1000, 16, 16⟩
def R.HOST.ERR.VALID (w : Nat) : Fld := ⟨0x800018 + w * 0x1000, 48, 1⟩
def R.HOST.ERR.OVERRUN (w : Nat) : Fld := ⟨0x800018 + w * 0x1000, 49, 1⟩
/-- `HOST.JR_BASE`, the whole register. -/
def R.HOST.JR_BASE.REG (w j : Nat) : Fld := ⟨0x800100 + w * 0x1000 + j * 0x40, 0, 64⟩
def R.HOST.JR_BASE.BASE (w j : Nat) : Fld := ⟨0x800100 + w * 0x1000 + j * 0x40, 0, 64⟩
/-- `HOST.JR_CFG`, the whole register. -/
def R.HOST.JR_CFG.REG (w j : Nat) : Fld := ⟨0x800108 + w * 0x1000 + j * 0x40, 0, 64⟩
def R.HOST.JR_CFG.EN (w j : Nat) : Fld := ⟨0x800108 + w * 0x1000 + j * 0x40, 0, 1⟩
def R.HOST.JR_CFG.LOG2 (w j : Nat) : Fld := ⟨0x800108 + w * 0x1000 + j * 0x40, 8, 5⟩
def R.HOST.JR_CFG.POLL_US (w j : Nat) : Fld := ⟨0x800108 + w * 0x1000 + j * 0x40, 16, 7⟩
/-- `HOST.JR_HEADW`, the whole register. -/
def R.HOST.JR_HEADW.REG (w j : Nat) : Fld := ⟨0x800110 + w * 0x1000 + j * 0x40, 0, 64⟩
def R.HOST.JR_HEADW.ADDR (w j : Nat) : Fld := ⟨0x800110 + w * 0x1000 + j * 0x40, 0, 64⟩
/-- `HOST.CR_BASE`, the whole register. -/
def R.HOST.CR_BASE.REG (w j : Nat) : Fld := ⟨0x800118 + w * 0x1000 + j * 0x40, 0, 64⟩
def R.HOST.CR_BASE.BASE (w j : Nat) : Fld := ⟨0x800118 + w * 0x1000 + j * 0x40, 0, 64⟩
/-- `HOST.CR_TAILW`, the whole register. -/
def R.HOST.CR_TAILW.REG (w j : Nat) : Fld := ⟨0x800120 + w * 0x1000 + j * 0x40, 0, 64⟩
def R.HOST.CR_TAILW.ADDR (w j : Nat) : Fld := ⟨0x800120 + w * 0x1000 + j * 0x40, 0, 64⟩
/-- `HOST.JR_STAT`, the whole register. -/
def R.HOST.JR_STAT.REG (w j : Nat) : Fld := ⟨0x800128 + w * 0x1000 + j * 0x40, 0, 64⟩
def R.HOST.JR_STAT.CONSUMED (w j : Nat) : Fld := ⟨0x800128 + w * 0x1000 + j * 0x40, 0, 32⟩
def R.HOST.JR_STAT.CR_STALL_US (w j : Nat) : Fld := ⟨0x800128 + w * 0x1000 + j * 0x40, 32, 31⟩
def R.HOST.JR_STAT.ERR (w j : Nat) : Fld := ⟨0x800128 + w * 0x1000 + j * 0x40, 63, 1⟩
/-- The registers of block CORE by offset (an instance register stands once, at its first instance). -/
def coreRegs : List RegDef := [
  ⟨0x0, [⟨0, 10, .ro, 0⟩, ⟨10, 6, .rsv, 0⟩, ⟨16, 10, .ro, 0⟩, ⟨26, 6, .rsv, 0⟩, ⟨32, 2, .ro, 0⟩, ⟨34, 2, .rsv, 0⟩, ⟨36, 3, .ro, 0⟩, ⟨39, 1, .rsv, 0⟩, ⟨40, 1, .ro, 0⟩, ⟨41, 1, .ro, 0⟩, ⟨42, 22, .rsv, 0⟩]⟩,
  ⟨0x8, [⟨0, 1, .rw, 0⟩, ⟨1, 1, .rw, 0⟩, ⟨2, 3, .rw, 0x7⟩, ⟨5, 3, .rsv, 0⟩, ⟨8, 8, .rw, 0x8⟩, ⟨16, 48, .rsv, 0⟩]⟩,
  ⟨0x10, [⟨0, 1, .ro, 0⟩, ⟨1, 1, .ro, 0⟩, ⟨2, 3, .ro, 0⟩, ⟨5, 3, .ro, 0⟩, ⟨8, 3, .ro, 0⟩, ⟨11, 5, .rsv, 0⟩, ⟨16, 13, .ro, 0⟩, ⟨29, 35, .rsv, 0⟩]⟩,
  ⟨0x18, [⟨0, 16, .ro, 0⟩, ⟨16, 2, .ro, 0⟩, ⟨18, 2, .ro, 0⟩, ⟨20, 1, .w1c, 0⟩, ⟨21, 1, .w1c, 0⟩, ⟨22, 10, .rsv, 0⟩, ⟨32, 13, .ro, 0⟩, ⟨45, 19, .rsv, 0⟩]⟩,
  ⟨0x20, [⟨0, 9, .rsv, 0⟩, ⟨9, 39, .rw, 0⟩, ⟨48, 16, .rsv, 0⟩]⟩,
  ⟨0x28, [⟨0, 7, .rw, 0⟩, ⟨7, 1, .rsv, 0⟩, ⟨8, 1, .wo, 0⟩, ⟨9, 1, .ro, 0⟩, ⟨10, 1, .w1c, 0⟩, ⟨11, 53, .rsv, 0⟩]⟩,
  ⟨0x30, [⟨0, 13, .rw, 0⟩, ⟨13, 51, .rsv, 0⟩]⟩,
  ⟨0x38, [⟨0, 32, .rw, 0⟩, ⟨32, 32, .rw, 0⟩]⟩,
  ⟨0x40, [⟨0, 32, .rw, 0⟩, ⟨32, 32, .rw, 0⟩]⟩,
  ⟨0x48, [⟨0, 32, .rw, 0⟩, ⟨32, 32, .rw, 0⟩]⟩,
  ⟨0x100, [⟨0, 32, .rw, 0⟩, ⟨32, 32, .rw, 0⟩]⟩,
  ⟨0x108, [⟨0, 64, .rw, 0⟩]⟩,
  ⟨0x110, [⟨0, 40, .rw, 0⟩, ⟨40, 24, .rsv, 0⟩]⟩]
/-- The registers of block TRN by offset (an instance register stands once, at its first instance). -/
def trnRegs : List RegDef := [
  ⟨0x0, [⟨0, 1, .rw, 0⟩, ⟨1, 1, .rw, 0⟩, ⟨2, 62, .rsv, 0⟩]⟩,
  ⟨0x10, [⟨0, 20, .rsv, 0⟩, ⟨20, 28, .rw, 0⟩, ⟨48, 16, .rsv, 0⟩]⟩,
  ⟨0x18, [⟨0, 20, .rw, 0⟩, ⟨20, 44, .rsv, 0⟩]⟩,
  ⟨0x20, [⟨0, 20, .rsv, 0⟩, ⟨20, 28, .rw, 0⟩, ⟨48, 16, .rsv, 0⟩]⟩,
  ⟨0x28, [⟨0, 20, .rw, 0⟩, ⟨20, 44, .rsv, 0⟩]⟩,
  ⟨0x30, [⟨0, 20, .rw, 0⟩, ⟨20, 12, .rsv, 0⟩, ⟨32, 20, .rw, 0⟩, ⟨52, 12, .rsv, 0⟩]⟩,
  ⟨0x50, [⟨0, 12, .rw, 0⟩, ⟨12, 52, .rsv, 0⟩]⟩,
  ⟨0x68, [⟨0, 32, .rw, 0x2710⟩, ⟨32, 32, .rsv, 0⟩]⟩,
  ⟨0x38, [⟨0, 2, .ro, 0⟩, ⟨2, 14, .rsv, 0⟩, ⟨16, 20, .ro, 0⟩, ⟨36, 20, .ro, 0⟩, ⟨56, 8, .rsv, 0⟩]⟩,
  ⟨0x40, [⟨0, 16, .ro, 0⟩, ⟨16, 16, .ro, 0⟩, ⟨32, 16, .ro, 0⟩, ⟨48, 16, .rsv, 0⟩]⟩,
  ⟨0x48, [⟨0, 32, .rw, 0⟩, ⟨32, 32, .rw, 0⟩]⟩,
  ⟨0x58, [⟨0, 16, .ro, 0⟩, ⟨16, 16, .ro, 0⟩, ⟨32, 3, .ro, 0⟩, ⟨35, 3, .ro, 0⟩, ⟨38, 1, .ro, 0⟩, ⟨39, 25, .rsv, 0⟩]⟩,
  ⟨0x60, [⟨0, 16, .ro, 0⟩, ⟨16, 16, .ro, 0⟩, ⟨32, 32, .rsv, 0⟩]⟩,
  ⟨0x70, [⟨0, 16, .ro, 0⟩, ⟨16, 12, .ro, 0⟩, ⟨28, 4, .rsv, 0⟩, ⟨32, 16, .ro, 0⟩, ⟨48, 1, .w1c, 0⟩, ⟨49, 1, .w1c, 0⟩, ⟨50, 14, .rsv, 0⟩]⟩]
/-- The registers of block ROLL by offset (an instance register stands once, at its first instance). -/
def rollRegs : List RegDef := [
  ⟨0x0, [⟨0, 1, .rw, 0⟩, ⟨1, 1, .rw, 0⟩, ⟨2, 1, .rw, 0x1⟩, ⟨3, 1, .rsv, 0⟩, ⟨4, 4, .rw, 0x8⟩, ⟨8, 4, .rw, 0x4⟩, ⟨12, 5, .rw, 0x10⟩, ⟨17, 47, .rsv, 0⟩]⟩,
  ⟨0x8, [⟨0, 15, .rw, 0⟩, ⟨15, 1, .rsv, 0⟩, ⟨16, 11, .rw, 0⟩, ⟨27, 1, .rsv, 0⟩, ⟨28, 15, .rw, 0⟩, ⟨43, 21, .rsv, 0⟩]⟩,
  ⟨0x10, [⟨0, 20, .rsv, 0⟩, ⟨20, 28, .rw, 0⟩, ⟨48, 16, .rsv, 0⟩]⟩,
  ⟨0x18, [⟨0, 20, .rw, 0⟩, ⟨20, 44, .rsv, 0⟩]⟩,
  ⟨0x20, [⟨0, 2, .rw, 0⟩, ⟨2, 30, .rsv, 0⟩, ⟨32, 24, .rw, 0⟩, ⟨56, 8, .rsv, 0⟩]⟩,
  ⟨0x28, [⟨0, 14, .rw, 0⟩, ⟨14, 50, .rsv, 0⟩]⟩,
  ⟨0x40, [⟨0, 12, .rw, 0⟩, ⟨12, 52, .rsv, 0⟩]⟩,
  ⟨0x30, [⟨0, 4, .ro, 0⟩, ⟨4, 18, .ro, 0⟩, ⟨22, 4, .ro, 0⟩, ⟨26, 7, .ro, 0⟩, ⟨33, 3, .ro, 0⟩, ⟨36, 12, .ro, 0⟩, ⟨48, 16, .ro, 0xffff⟩]⟩,
  ⟨0x38, [⟨0, 22, .ro, 0⟩, ⟨22, 2, .rsv, 0⟩, ⟨24, 22, .ro, 0⟩, ⟨46, 18, .rsv, 0⟩]⟩,
  ⟨0x48, [⟨0, 48, .ro, 0⟩, ⟨48, 16, .ro, 0⟩]⟩,
  ⟨0x50, [⟨0, 32, .rw, 0⟩, ⟨32, 32, .rw, 0⟩]⟩,
  ⟨0x58, [⟨0, 32, .rw, 0⟩, ⟨32, 32, .rsv, 0⟩]⟩,
  ⟨0x60, [⟨0, 15, .ro, 0⟩, ⟨15, 1, .rsv, 0⟩, ⟨16, 15, .ro, 0⟩, ⟨31, 1, .rsv, 0⟩, ⟨32, 15, .ro, 0⟩, ⟨47, 17, .rsv, 0⟩]⟩,
  ⟨0x68, [⟨0, 16, .ro, 0⟩, ⟨16, 14, .ro, 0⟩, ⟨30, 2, .rsv, 0⟩, ⟨32, 16, .ro, 0⟩, ⟨48, 1, .w1c, 0⟩, ⟨49, 1, .w1c, 0⟩, ⟨50, 14, .rsv, 0⟩]⟩]
/-- The registers of block SCHED by offset (an instance register stands once, at its first instance). -/
def schedRegs : List RegDef := [
  ⟨0x0, [⟨0, 2, .rw, 0⟩, ⟨2, 24, .rw, 0xe10⟩, ⟨26, 6, .rsv, 0⟩, ⟨32, 16, .rw, 0x3e8⟩, ⟨48, 16, .rsv, 0⟩]⟩,
  ⟨0x20, [⟨0, 20, .rsv, 0⟩, ⟨20, 28, .rw, 0⟩, ⟨48, 16, .rsv, 0⟩]⟩,
  ⟨0x28, [⟨0, 20, .rw, 0⟩, ⟨20, 44, .rsv, 0⟩]⟩,
  ⟨0x30, [⟨0, 8, .rw, 0xc0⟩, ⟨8, 56, .rsv, 0⟩]⟩,
  ⟨0x40, [⟨0, 3, .rw, 0x2⟩, ⟨3, 1, .rw, 0x1⟩, ⟨4, 60, .rsv, 0⟩]⟩,
  ⟨0x48, [⟨0, 1, .rw, 0⟩, ⟨1, 1, .ro, 0⟩, ⟨2, 6, .rw, 0x1c⟩, ⟨8, 56, .rsv, 0⟩]⟩,
  ⟨0x50, [⟨0, 6, .rw, 0⟩, ⟨6, 1, .rw, 0⟩, ⟨7, 57, .rsv, 0⟩]⟩,
  ⟨0x8, [⟨0, 3, .ro, 0⟩, ⟨3, 3, .ro, 0⟩, ⟨6, 2, .rsv, 0⟩, ⟨8, 24, .ro, 0⟩, ⟨32, 32, .ro, 0⟩]⟩,
  ⟨0x10, [⟨0, 16, .ro, 0⟩, ⟨16, 1, .ro, 0⟩, ⟨17, 1, .ro, 0⟩, ⟨18, 1, .ro, 0⟩, ⟨19, 1, .ro, 0⟩, ⟨20, 44, .rsv, 0⟩]⟩,
  ⟨0x18, [⟨0, 5, .ro, 0⟩, ⟨5, 5, .ro, 0⟩, ⟨10, 6, .rsv, 0⟩, ⟨16, 5, .ro, 0⟩, ⟨21, 3, .rsv, 0⟩, ⟨24, 5, .ro, 0⟩, ⟨29, 35, .rsv, 0⟩]⟩,
  ⟨0x38, [⟨0, 16, .ro, 0⟩, ⟨16, 16, .ro, 0⟩, ⟨32, 32, .ro, 0⟩]⟩,
  ⟨0x58, [⟨0, 32, .rw, 0⟩, ⟨32, 32, .rw, 0⟩]⟩,
  ⟨0x60, [⟨0, 7, .ro, 0⟩, ⟨7, 1, .rsv, 0⟩, ⟨8, 7, .ro, 0⟩, ⟨15, 1, .rsv, 0⟩, ⟨16, 7, .rw, 0⟩, ⟨23, 41, .rsv, 0⟩]⟩,
  ⟨0x68, [⟨0, 16, .ro, 0⟩, ⟨16, 16, .ro, 0⟩, ⟨32, 16, .ro, 0⟩, ⟨48, 1, .w1c, 0⟩, ⟨49, 1, .w1c, 0⟩, ⟨50, 14, .rsv, 0⟩]⟩]
/-- The registers of block COLL by offset (an instance register stands once, at its first instance). -/
def collRegs : List RegDef := [
  ⟨0x0, [⟨0, 1, .rw, 0⟩, ⟨1, 63, .rsv, 0⟩]⟩,
  ⟨0x8, [⟨0, 12, .rsv, 0⟩, ⟨12, 36, .rw, 0⟩, ⟨48, 16, .rsv, 0⟩]⟩,
  ⟨0x10, [⟨0, 16, .rw, 0x14⟩, ⟨16, 16, .rw, 0x28⟩, ⟨32, 16, .rw, 0x64⟩, ⟨48, 16, .rsv, 0⟩]⟩,
  ⟨0x18, [⟨0, 12, .rw, 0⟩, ⟨12, 52, .rsv, 0⟩]⟩,
  ⟨0x20, [⟨0, 32, .ro, 0⟩, ⟨32, 5, .ro, 0⟩, ⟨37, 9, .ro, 0⟩, ⟨46, 2, .ro, 0⟩, ⟨48, 16, .rsv, 0⟩]⟩,
  ⟨0x28, [⟨0, 32, .rw, 0⟩, ⟨32, 32, .rw, 0⟩]⟩,
  ⟨0x30, [⟨0, 32, .rw, 0⟩, ⟨32, 32, .rw, 0⟩]⟩,
  ⟨0x38, [⟨0, 16, .ro, 0⟩, ⟨16, 12, .ro, 0⟩, ⟨28, 1, .w1c, 0⟩, ⟨29, 1, .w1c, 0⟩, ⟨30, 2, .rsv, 0⟩, ⟨32, 32, .ro, 0⟩]⟩,
  ⟨0x40, [⟨0, 16, .ro, 0⟩, ⟨16, 2, .ro, 0⟩, ⟨18, 46, .rsv, 0⟩]⟩,
  ⟨0x48, [⟨0, 32, .ro, 0⟩, ⟨32, 32, .rsv, 0⟩]⟩]
/-- The registers of block COLLM by offset (an instance register stands once, at its first instance). -/
def collmRegs : List RegDef := [
  ⟨0x8000, [⟨0, 7, .ro, 0⟩, ⟨7, 1, .rsv, 0⟩, ⟨8, 9, .ro, 0⟩, ⟨17, 7, .rsv, 0⟩, ⟨24, 9, .ro, 0⟩, ⟨33, 31, .rsv, 0⟩]⟩]
/-- The registers of block UPD by offset (an instance register stands once, at its first instance). -/
def updRegs : List RegDef := [
  ⟨0x0, [⟨0, 3, .ro, 0⟩, ⟨3, 1, .ro, 0⟩, ⟨4, 1, .ro, 0⟩, ⟨5, 11, .rsv, 0⟩, ⟨16, 16, .ro, 0⟩, ⟨32, 12, .ro, 0⟩, ⟨44, 4, .rsv, 0⟩, ⟨48, 13, .ro, 0⟩, ⟨61, 3, .rsv, 0⟩]⟩,
  ⟨0x8, [⟨0, 40, .ro, 0⟩, ⟨40, 24, .rsv, 0⟩]⟩,
  ⟨0x10, [⟨0, 32, .rw, 0⟩, ⟨32, 32, .rw, 0⟩]⟩,
  ⟨0x18, [⟨0, 14, .rw, 0⟩, ⟨14, 4, .rw, 0⟩, ⟨18, 1, .rw, 0⟩, ⟨19, 45, .rsv, 0⟩]⟩,
  ⟨0x20, [⟨0, 40, .ro, 0⟩, ⟨40, 24, .rsv, 0⟩]⟩,
  ⟨0x28, [⟨0, 32, .ro, 0⟩, ⟨32, 32, .ro, 0⟩]⟩,
  ⟨0x30, [⟨0, 16, .ro, 0⟩, ⟨16, 12, .ro, 0⟩, ⟨28, 4, .rsv, 0⟩, ⟨32, 14, .ro, 0⟩, ⟨46, 2, .rsv, 0⟩, ⟨48, 1, .w1c, 0⟩, ⟨49, 1, .w1c, 0⟩, ⟨50, 14, .rsv, 0⟩]⟩]
/-- The registers of block HBM by offset (an instance register stands once, at its first instance). -/
def hbmRegs : List RegDef := [
  ⟨0x0, [⟨0, 8, .rw, 0x64⟩, ⟨8, 1, .rw, 0⟩, ⟨9, 7, .rsv, 0⟩, ⟨16, 16, .rw, 0x4e20⟩, ⟨32, 16, .rw, 0x10⟩, ⟨48, 16, .rsv, 0⟩]⟩,
  ⟨0x8, [⟨0, 5, .ro, 0x1f⟩, ⟨5, 1, .ro, 0x1⟩, ⟨6, 7, .ro, 0x3e⟩, ⟨13, 3, .rsv, 0⟩, ⟨16, 8, .ro, 0⟩, ⟨24, 1, .ro, 0⟩, ⟨25, 39, .rsv, 0⟩]⟩,
  ⟨0x10, [⟨0, 4, .ro, 0⟩, ⟨4, 4, .ro, 0⟩, ⟨8, 4, .ro, 0⟩, ⟨12, 4, .ro, 0⟩, ⟨16, 4, .ro, 0⟩, ⟨20, 4, .ro, 0⟩, ⟨24, 4, .ro, 0⟩, ⟨28, 4, .ro, 0⟩, ⟨32, 4, .ro, 0⟩, ⟨36, 4, .ro, 0⟩, ⟨40, 4, .ro, 0⟩, ⟨44, 4, .ro, 0⟩, ⟨48, 4, .ro, 0⟩, ⟨52, 4, .ro, 0⟩, ⟨56, 4, .ro, 0⟩, ⟨60, 4, .ro, 0⟩]⟩,
  ⟨0x18, [⟨0, 4, .ro, 0⟩, ⟨4, 4, .ro, 0⟩, ⟨8, 4, .ro, 0⟩, ⟨12, 4, .ro, 0⟩, ⟨16, 4, .ro, 0⟩, ⟨20, 4, .ro, 0⟩, ⟨24, 4, .ro, 0⟩, ⟨28, 4, .ro, 0⟩, ⟨32, 4, .ro, 0⟩, ⟨36, 4, .ro, 0⟩, ⟨40, 4, .ro, 0⟩, ⟨44, 4, .ro, 0⟩, ⟨48, 4, .ro, 0⟩, ⟨52, 4, .ro, 0⟩, ⟨56, 4, .ro, 0⟩, ⟨60, 4, .ro, 0x1⟩]⟩,
  ⟨0x20, [⟨0, 32, .rw, 0⟩, ⟨32, 32, .rw, 0⟩]⟩,
  ⟨0x28, [⟨0, 16, .ro, 0⟩, ⟨16, 5, .ro, 0⟩, ⟨21, 1, .ro, 0⟩, ⟨22, 4, .ro, 0⟩, ⟨26, 18, .ro, 0⟩, ⟨44, 4, .rsv, 0⟩, ⟨48, 1, .w1c, 0⟩, ⟨49, 1, .w1c, 0⟩, ⟨50, 14, .rsv, 0⟩]⟩,
  ⟨0x30, [⟨0, 32, .rw, 0⟩, ⟨32, 16, .ro, 0⟩, ⟨48, 16, .rw, 0⟩]⟩,
  ⟨0x38, [⟨0, 5, .rw, 0⟩, ⟨5, 5, .ro, 0⟩, ⟨10, 1, .wo, 0⟩, ⟨11, 1, .ro, 0⟩, ⟨12, 1, .w1c, 0⟩, ⟨13, 1, .w1c, 0⟩, ⟨14, 2, .rsv, 0⟩, ⟨16, 32, .ro, 0⟩, ⟨48, 16, .rsv, 0⟩]⟩,
  ⟨0x40, [⟨0, 5, .rw, 0⟩, ⟨5, 1, .rw, 0⟩, ⟨6, 4, .rw, 0⟩, ⟨10, 18, .rw, 0⟩, ⟨28, 2, .rw, 0⟩, ⟨30, 1, .wo, 0⟩, ⟨31, 33, .rsv, 0⟩]⟩,
  ⟨0x48, [⟨0, 1, .ro, 0⟩, ⟨1, 1, .w1c, 0⟩, ⟨2, 1, .w1c, 0⟩, ⟨3, 1, .w1c, 0⟩, ⟨4, 4, .rsv, 0⟩, ⟨8, 8, .ro, 0⟩, ⟨16, 18, .ro, 0⟩, ⟨34, 1, .ro, 0⟩, ⟨35, 29, .rsv, 0⟩]⟩,
  ⟨0x50, [⟨0, 1, .rw, 0⟩, ⟨1, 1, .wo, 0⟩, ⟨2, 1, .wo, 0⟩, ⟨3, 2, .rw, 0⟩, ⟨5, 2, .rw, 0⟩, ⟨7, 1, .rw, 0⟩, ⟨8, 4, .rw, 0⟩, ⟨12, 52, .rsv, 0⟩]⟩,
  ⟨0x58, [⟨0, 21, .rw, 0⟩, ⟨21, 21, .rw, 0⟩, ⟨42, 16, .rw, 0⟩, ⟨58, 6, .rsv, 0⟩]⟩,
  ⟨0x60, [⟨0, 64, .rw, 0⟩]⟩,
  ⟨0x68, [⟨0, 1, .ro, 0⟩, ⟨1, 1, .w1c, 0⟩, ⟨2, 1, .w1c, 0⟩, ⟨3, 13, .rsv, 0⟩, ⟨16, 32, .ro, 0⟩, ⟨48, 16, .ro, 0⟩]⟩,
  ⟨0x70, [⟨0, 21, .ro, 0⟩, ⟨21, 9, .ro, 0⟩, ⟨30, 34, .rsv, 0⟩]⟩]
/-- The registers of block HBM0 by offset (an instance register stands once, at its first instance). -/
def hbm0Regs : List RegDef := [
  ⟨0x80000, [⟨0, 9, .rw, 0⟩, ⟨9, 9, .rw, 0⟩, ⟨18, 9, .rw, 0⟩, ⟨27, 8, .rw, 0⟩, ⟨35, 1, .rw, 0⟩, ⟨36, 28, .rsv, 0⟩]⟩,
  ⟨0x81000, [⟨0, 9, .rw, 0⟩, ⟨9, 55, .rsv, 0⟩]⟩]
/-- The registers of block NOL by offset (an instance register stands once, at its first instance). -/
def nolRegs : List RegDef := [
  ⟨0x0, [⟨0, 1, .rw, 0⟩, ⟨1, 15, .rsv, 0⟩, ⟨16, 16, .rw, 0x64⟩, ⟨32, 32, .rsv, 0⟩]⟩,
  ⟨0x8, [⟨0, 1, .ro, 0⟩, ⟨1, 1, .ro, 0⟩, ⟨2, 6, .rsv, 0⟩, ⟨8, 8, .ro, 0⟩, ⟨16, 8, .ro, 0⟩, ⟨24, 8, .ro, 0⟩, ⟨32, 32, .rw, 0⟩]⟩,
  ⟨0x10, [⟨0, 32, .rw, 0⟩, ⟨32, 32, .rw, 0⟩]⟩,
  ⟨0x18, [⟨0, 16, .ro, 0⟩, ⟨16, 5, .ro, 0⟩, ⟨21, 1, .ro, 0⟩, ⟨22, 26, .rsv, 0⟩, ⟨48, 1, .w1c, 0⟩, ⟨49, 1, .w1c, 0⟩, ⟨50, 14, .rsv, 0⟩]⟩,
  ⟨0x20, [⟨0, 16, .rw, 0x1000⟩, ⟨16, 16, .rw, 0x1000⟩, ⟨32, 20, .rw, 0x12c⟩, ⟨52, 12, .rsv, 0⟩]⟩,
  ⟨0x28, [⟨0, 21, .ro, 0⟩, ⟨21, 20, .ro, 0⟩, ⟨41, 23, .ro, 0⟩]⟩,
  ⟨0x30, [⟨0, 2, .ro, 0⟩, ⟨2, 14, .rsv, 0⟩, ⟨16, 16, .ro, 0⟩, ⟨32, 16, .ro, 0⟩, ⟨48, 16, .ro, 0⟩]⟩,
  ⟨0x38, [⟨0, 16, .ro, 0⟩, ⟨16, 16, .ro, 0⟩, ⟨32, 16, .ro, 0⟩, ⟨48, 16, .rsv, 0⟩]⟩,
  ⟨0x40, [⟨0, 32, .ro, 0⟩, ⟨32, 32, .ro, 0⟩]⟩,
  ⟨0x48, [⟨0, 32, .rw, 0⟩, ⟨32, 32, .rw, 0⟩]⟩,
  ⟨0x50, [⟨0, 8, .rw, 0x5a⟩, ⟨8, 3, .rw, 0x3⟩, ⟨11, 5, .rsv, 0⟩, ⟨16, 16, .rw, 0x64⟩, ⟨32, 16, .rw, 0xc8⟩, ⟨48, 16, .rsv, 0⟩]⟩]
/-- The registers of block FAB by offset (an instance register stands once, at its first instance). -/
def fabRegs : List RegDef := [
  ⟨0x0, [⟨0, 1, .rw, 0⟩, ⟨1, 1, .rw, 0⟩, ⟨2, 1, .rw, 0x1⟩, ⟨3, 1, .rsv, 0⟩, ⟨4, 4, .rw, 0xf⟩, ⟨8, 16, .rw, 0x10⟩, ⟨24, 40, .rsv, 0⟩]⟩,
  ⟨0x8, [⟨0, 4, .ro, 0⟩, ⟨4, 2, .ro, 0⟩, ⟨6, 2, .ro, 0⟩, ⟨8, 3, .ro, 0⟩, ⟨11, 53, .rsv, 0⟩]⟩,
  ⟨0x10, [⟨0, 16, .ro, 0⟩, ⟨16, 5, .ro, 0⟩, ⟨21, 10, .ro, 0⟩, ⟨31, 3, .ro, 0⟩, ⟨34, 3, .ro, 0⟩, ⟨37, 27, .rsv, 0⟩]⟩,
  ⟨0x18, [⟨0, 32, .rw, 0⟩, ⟨32, 32, .rw, 0⟩]⟩,
  ⟨0x20, [⟨0, 32, .rw, 0⟩, ⟨32, 16, .rw, 0⟩, ⟨48, 16, .rw, 0⟩]⟩,
  ⟨0x28, [⟨0, 32, .rw, 0⟩, ⟨32, 16, .ro, 0⟩, ⟨48, 16, .rw, 0⟩]⟩,
  ⟨0x30, [⟨0, 16, .ro, 0⟩, ⟨16, 32, .rsv, 0⟩, ⟨48, 1, .w1c, 0⟩, ⟨49, 1, .w1c, 0⟩, ⟨50, 14, .rsv, 0⟩]⟩,
  ⟨0x38, [⟨0, 48, .rw, 0⟩, ⟨48, 16, .rsv, 0⟩]⟩,
  ⟨0x40, [⟨0, 16, .rw, 0x88b5⟩, ⟨16, 12, .rw, 0⟩, ⟨28, 3, .rw, 0⟩, ⟨31, 1, .rw, 0⟩, ⟨32, 32, .rsv, 0⟩]⟩]
/-- The registers of block MBIST by offset (an instance register stands once, at its first instance). -/
def mbistRegs : List RegDef := [
  ⟨0x0, [⟨0, 8, .rw, 0⟩, ⟨8, 8, .rw, 0⟩, ⟨16, 8, .ro, 0⟩, ⟨24, 8, .ro, 0⟩, ⟨32, 1, .w1c, 0⟩, ⟨33, 31, .rsv, 0⟩]⟩,
  ⟨0x8, [⟨0, 1, .wo, 0⟩, ⟨1, 1, .wo, 0⟩, ⟨2, 1, .rw, 0⟩, ⟨3, 1, .rw, 0⟩, ⟨4, 1, .rw, 0⟩, ⟨5, 1, .rw, 0⟩, ⟨6, 1, .rw, 0⟩, ⟨7, 4, .rw, 0xf⟩, ⟨11, 53, .rsv, 0⟩]⟩,
  ⟨0x10, [⟨0, 1, .ro, 0⟩, ⟨1, 1, .w1c, 0⟩, ⟨2, 1, .w1c, 0⟩, ⟨3, 13, .rsv, 0⟩, ⟨16, 16, .ro, 0⟩, ⟨32, 32, .ro, 0⟩]⟩,
  ⟨0x18, [⟨0, 7, .ro, 0⟩, ⟨7, 16, .ro, 0⟩, ⟨23, 9, .ro, 0⟩, ⟨32, 5, .ro, 0⟩, ⟨37, 1, .ro, 0⟩, ⟨38, 26, .rsv, 0⟩]⟩]
/-- The registers of block FABG by offset (an instance register stands once, at its first instance). -/
def fabgRegs : List RegDef := [
  ⟨0x0, [⟨0, 16, .ro, 0⟩, ⟨16, 10, .rwl, 0⟩, ⟨26, 3, .rwl, 0⟩, ⟨29, 3, .rwl, 0⟩, ⟨32, 32, .rwl, 0⟩]⟩,
  ⟨0x8, [⟨0, 16, .rw, 0x64⟩, ⟨16, 48, .rsv, 0⟩]⟩,
  ⟨0x10, [⟨0, 48, .rwl, 0⟩, ⟨48, 16, .rsv, 0⟩]⟩,
  ⟨0x18, [⟨0, 32, .ro, 0⟩, ⟨32, 16, .ro, 0⟩, ⟨48, 7, .ro, 0⟩, ⟨55, 9, .rsv, 0⟩]⟩,
  ⟨0x20, [⟨0, 6, .rw, 0⟩, ⟨6, 5, .rw, 0⟩, ⟨11, 10, .rw, 0⟩, ⟨21, 43, .rsv, 0⟩]⟩,
  ⟨0x28, [⟨0, 16, .ro, 0⟩, ⟨16, 5, .ro, 0⟩, ⟨21, 4, .ro, 0⟩, ⟨25, 2, .ro, 0⟩, ⟨27, 37, .rsv, 0⟩]⟩,
  ⟨0x30, [⟨0, 64, .ro, 0⟩]⟩,
  ⟨0x38, [⟨0, 16, .ro, 0⟩, ⟨16, 16, .ro, 0⟩, ⟨32, 16, .rsv, 0⟩, ⟨48, 1, .w1c, 0⟩, ⟨49, 1, .w1c, 0⟩, ⟨50, 14, .rsv, 0⟩]⟩,
  ⟨0x40, [⟨0, 32, .rw, 0⟩, ⟨32, 32, .rw, 0⟩]⟩]
/-- The registers of block BOOT by offset (an instance register stands once, at its first instance). -/
def bootRegs : List RegDef := [
  ⟨0x0, [⟨0, 4, .ro, 0⟩, ⟨4, 1, .ro, 0⟩, ⟨5, 27, .rsv, 0⟩, ⟨32, 32, .ro, 0⟩]⟩,
  ⟨0x8, [⟨0, 32, .ro, 0⟩, ⟨32, 32, .ro, 0⟩]⟩,
  ⟨0x10, [⟨0, 1, .ro, 0⟩, ⟨1, 1, .ro, 0⟩, ⟨2, 4, .ro, 0⟩, ⟨6, 4, .ro, 0⟩, ⟨10, 2, .ro, 0⟩, ⟨12, 2, .ro, 0⟩, ⟨14, 18, .rsv, 0⟩, ⟨32, 32, .ro, 0⟩]⟩,
  ⟨0x18, [⟨0, 1, .ro, 0⟩, ⟨1, 2, .ro, 0⟩, ⟨3, 1, .ro, 0⟩, ⟨4, 12, .rsv, 0⟩, ⟨16, 13, .ro, 0⟩, ⟨29, 3, .rsv, 0⟩, ⟨32, 13, .ro, 0⟩, ⟨45, 19, .rsv, 0⟩]⟩,
  ⟨0x20, [⟨0, 32, .ro, 0⟩, ⟨32, 20, .ro, 0⟩, ⟨52, 12, .rsv, 0⟩]⟩,
  ⟨0x28, [⟨0, 16, .ro, 0⟩, ⟨16, 16, .ro, 0⟩, ⟨32, 32, .rsv, 0⟩]⟩,
  ⟨0x30, [⟨0, 16, .ro, 0⟩, ⟨16, 8, .ro, 0⟩, ⟨24, 24, .rsv, 0⟩, ⟨48, 1, .w1c, 0⟩, ⟨49, 1, .w1c, 0⟩, ⟨50, 14, .rsv, 0⟩]⟩,
  ⟨0x38, [⟨0, 32, .ro, 0⟩, ⟨32, 32, .rsv, 0⟩]⟩,
  ⟨0x100, [⟨0, 64, .ro, 0⟩]⟩]
/-- The registers of block SEC by offset (an instance register stands once, at its first instance). -/
def secRegs : List RegDef := [
  ⟨0x0, [⟨0, 1, .ro, 0⟩, ⟨1, 1, .ro, 0⟩, ⟨2, 1, .ro, 0⟩, ⟨3, 1, .ro, 0⟩, ⟨4, 1, .ro, 0x1⟩, ⟨5, 3, .rsv, 0⟩, ⟨8, 7, .ro, 0⟩, ⟨15, 49, .rsv, 0⟩]⟩,
  ⟨0x8, [⟨0, 4, .rw, 0⟩, ⟨4, 60, .rsv, 0⟩]⟩,
  ⟨0x10, [⟨0, 8, .ro, 0⟩, ⟨8, 1, .ro, 0⟩, ⟨9, 1, .ro, 0⟩, ⟨10, 16, .ro, 0⟩, ⟨26, 1, .ro, 0⟩, ⟨27, 37, .rsv, 0⟩]⟩,
  ⟨0x18, [⟨0, 6, .rw, 0⟩, ⟨6, 58, .rsv, 0⟩]⟩,
  ⟨0x20, [⟨0, 2, .ro, 0⟩, ⟨2, 4, .ro, 0⟩, ⟨6, 1, .ro, 0⟩, ⟨7, 25, .rsv, 0⟩, ⟨32, 32, .ro, 0⟩]⟩,
  ⟨0x28, [⟨0, 32, .rw, 0⟩, ⟨32, 8, .rw, 0⟩, ⟨40, 4, .rw, 0⟩, ⟨44, 20, .rsv, 0⟩]⟩,
  ⟨0x30, [⟨0, 4, .rw, 0x8⟩, ⟨4, 4, .rw, 0x8⟩, ⟨8, 4, .rw, 0x8⟩, ⟨12, 4, .rw, 0x8⟩, ⟨16, 4, .rw, 0x8⟩, ⟨20, 4, .rw, 0x8⟩, ⟨24, 4, .rw, 0x8⟩, ⟨28, 4, .rw, 0x8⟩, ⟨32, 4, .rw, 0x8⟩, ⟨36, 4, .rw, 0x8⟩, ⟨40, 4, .rw, 0x8⟩, ⟨44, 4, .rw, 0x8⟩, ⟨48, 4, .rw, 0x8⟩, ⟨52, 4, .rw, 0x8⟩, ⟨56, 4, .rw, 0x8⟩, ⟨60, 4, .rw, 0x8⟩]⟩,
  ⟨0x38, [⟨0, 3, .ro, 0⟩, ⟨3, 5, .rsv, 0⟩, ⟨8, 8, .ro, 0⟩, ⟨16, 16, .ro, 0⟩, ⟨32, 32, .rw, 0⟩]⟩,
  ⟨0x40, [⟨0, 5, .ro, 0⟩, ⟨5, 27, .rsv, 0⟩, ⟨32, 32, .rw, 0⟩]⟩,
  ⟨0x48, [⟨0, 16, .ro, 0⟩, ⟨16, 4, .ro, 0⟩, ⟨20, 28, .rsv, 0⟩, ⟨48, 1, .w1c, 0⟩, ⟨49, 1, .w1c, 0⟩, ⟨50, 14, .rsv, 0⟩]⟩,
  ⟨0x50, [⟨0, 4, .ro, 0⟩, ⟨4, 60, .rsv, 0⟩]⟩]
/-- The registers of block RAS by offset (an instance register stands once, at its first instance). -/
def rasRegs : List RegDef := [
  ⟨0x0, [⟨0, 8, .rw, 0x3c⟩, ⟨8, 8, .rw, 0xa⟩, ⟨16, 8, .rw, 0xa⟩, ⟨24, 1, .rw, 0⟩, ⟨25, 7, .rsv, 0⟩, ⟨32, 8, .rw, 0x1e⟩, ⟨40, 24, .rsv, 0⟩]⟩,
  ⟨0x8, [⟨0, 18, .rs, 0⟩, ⟨18, 2, .rs, 0⟩, ⟨20, 44, .rsv, 0⟩]⟩,
  ⟨0x10, [⟨0, 5, .rw, 0x8⟩, ⟨5, 5, .rw, 0x10⟩, ⟨10, 6, .rw, 0x28⟩, ⟨16, 48, .rsv, 0⟩]⟩,
  ⟨0x18, [⟨0, 2, .ro, 0⟩, ⟨2, 2, .ro, 0⟩, ⟨4, 2, .ro, 0⟩, ⟨6, 10, .rsv, 0⟩, ⟨16, 16, .rw, 0⟩, ⟨32, 32, .rw, 0⟩]⟩,
  ⟨0x20, [⟨0, 32, .rw, 0⟩, ⟨32, 32, .rw, 0⟩]⟩,
  ⟨0x28, [⟨0, 4, .rw, 0⟩, ⟨4, 60, .rsv, 0⟩]⟩,
  ⟨0x30, [⟨0, 2, .ro, 0⟩, ⟨2, 6, .rsv, 0⟩, ⟨8, 32, .ro, 0⟩, ⟨40, 24, .rsv, 0⟩]⟩,
  ⟨0x38, [⟨0, 16, .rs, 0⟩, ⟨16, 16, .rs, 0⟩, ⟨32, 16, .rs, 0⟩, ⟨48, 16, .rs, 0⟩]⟩,
  ⟨0x40, [⟨0, 16, .ro, 0⟩, ⟨16, 16, .ro, 0⟩, ⟨32, 16, .rsv, 0⟩, ⟨48, 1, .w1c, 0⟩, ⟨49, 1, .w1c, 0⟩, ⟨50, 14, .rsv, 0⟩]⟩,
  ⟨0x48, [⟨0, 2, .rs, 0⟩, ⟨2, 1, .rs, 0⟩, ⟨3, 13, .rsv, 0⟩, ⟨16, 16, .rs, 0⟩, ⟨32, 32, .rs, 0⟩]⟩]
/-- The registers of block TEL by offset (an instance register stands once, at its first instance). -/
def telRegs : List RegDef := [
  ⟨0x0, [⟨0, 8, .rw, 0xa⟩, ⟨8, 56, .rsv, 0⟩]⟩,
  ⟨0x8, [⟨0, 32, .ro, 0⟩, ⟨32, 32, .ro, 0⟩]⟩,
  ⟨0x10, [⟨0, 16, .ro, 0⟩, ⟨16, 8, .ro, 0⟩, ⟨24, 8, .ro, 0⟩, ⟨32, 8, .ro, 0⟩, ⟨40, 24, .ro, 0⟩]⟩,
  ⟨0x20000, [⟨0, 64, .ro, 0⟩]⟩]
/-- The registers of block CLK by offset (an instance register stands once, at its first instance). -/
def clkRegs : List RegDef := [
  ⟨0x0, [⟨0, 7, .rw, 0x42⟩, ⟨7, 1, .rsv, 0⟩, ⟨8, 7, .ro, 0x42⟩, ⟨15, 1, .ro, 0⟩, ⟨16, 48, .rsv, 0⟩]⟩,
  ⟨0x20, [⟨0, 21, .ro, 0⟩, ⟨21, 43, .rsv, 0⟩]⟩,
  ⟨0x28, [⟨0, 64, .ro, 0⟩]⟩,
  ⟨0x30, [⟨0, 1, .ro, 0⟩, ⟨1, 2, .ro, 0⟩, ⟨3, 1, .ro, 0⟩, ⟨4, 12, .rsv, 0⟩, ⟨16, 16, .ro, 0⟩, ⟨32, 32, .ro, 0⟩]⟩,
  ⟨0x38, [⟨0, 1, .rw, 0x1⟩, ⟨1, 15, .rsv, 0⟩, ⟨16, 16, .rw, 0x3e8⟩, ⟨32, 32, .rsv, 0⟩]⟩,
  ⟨0x40, [⟨0, 32, .rw, 0⟩, ⟨32, 32, .rw, 0⟩]⟩,
  ⟨0x48, [⟨0, 64, .ro, 0⟩]⟩,
  ⟨0x50, [⟨0, 6, .rw, 0⟩, ⟨6, 58, .rsv, 0⟩]⟩,
  ⟨0x58, [⟨0, 48, .ro, 0⟩, ⟨48, 16, .rsv, 0⟩]⟩,
  ⟨0x60, [⟨0, 32, .ro, 0⟩, ⟨32, 16, .rs, 0⟩, ⟨48, 16, .rsv, 0⟩]⟩,
  ⟨0x68, [⟨0, 16, .ro, 0⟩, ⟨16, 5, .ro, 0⟩, ⟨21, 27, .rsv, 0⟩, ⟨48, 1, .w1c, 0⟩, ⟨49, 1, .w1c, 0⟩, ⟨50, 14, .rsv, 0⟩]⟩]
/-- The registers of block PWR by offset (an instance register stands once, at its first instance). -/
def pwrRegs : List RegDef := [
  ⟨0x0, [⟨0, 12, .rw, 0xc80⟩, ⟨12, 8, .rw, 0x40⟩, ⟨20, 3, .rw, 0x7⟩, ⟨23, 41, .rsv, 0⟩]⟩,
  ⟨0x8, [⟨0, 8, .rw, 0x1e⟩, ⟨8, 16, .rw, 0xa⟩, ⟨24, 40, .rsv, 0⟩]⟩,
  ⟨0x10, [⟨0, 2, .ro, 0⟩, ⟨2, 4, .ro, 0⟩, ⟨6, 3, .ro, 0⟩, ⟨9, 7, .rsv, 0⟩, ⟨16, 16, .ro, 0⟩, ⟨32, 16, .ro, 0⟩, ⟨48, 16, .rsv, 0⟩]⟩,
  ⟨0x18, [⟨0, 2, .rw, 0⟩, ⟨2, 62, .rsv, 0⟩]⟩,
  ⟨0x20, [⟨0, 32, .rw, 0⟩, ⟨32, 32, .rw, 0⟩]⟩,
  ⟨0x28, [⟨0, 16, .ro, 0⟩, ⟨16, 4, .ro, 0⟩, ⟨20, 28, .rsv, 0⟩, ⟨48, 1, .w1c, 0⟩, ⟨49, 1, .w1c, 0⟩, ⟨50, 14, .rsv, 0⟩]⟩]
/-- The registers of block THM by offset (an instance register stands once, at its first instance). -/
def thmRegs : List RegDef := [
  ⟨0x0, [⟨0, 8, .rw, 0x5f⟩, ⟨8, 8, .rw, 0x2⟩, ⟨16, 48, .rsv, 0⟩]⟩,
  ⟨0x8, [⟨0, 8, .ro, 0⟩, ⟨8, 8, .ro, 0⟩, ⟨16, 8, .ro, 0⟩, ⟨24, 8, .ro, 0⟩, ⟨32, 8, .ro, 0⟩, ⟨40, 8, .ro, 0⟩, ⟨48, 8, .ro, 0⟩, ⟨56, 8, .ro, 0⟩]⟩,
  ⟨0x10, [⟨0, 16, .ro, 0⟩, ⟨16, 4, .ro, 0⟩, ⟨20, 1, .ro, 0⟩, ⟨21, 43, .rsv, 0⟩]⟩,
  ⟨0x18, [⟨0, 40, .ro, 0⟩, ⟨40, 24, .rsv, 0⟩]⟩,
  ⟨0x20, [⟨0, 16, .ro, 0⟩, ⟨16, 4, .ro, 0⟩, ⟨20, 28, .rsv, 0⟩, ⟨48, 1, .w1c, 0⟩, ⟨49, 1, .w1c, 0⟩, ⟨50, 14, .rsv, 0⟩]⟩,
  ⟨0x40, [⟨0, 32, .rw, 0⟩, ⟨32, 32, .rw, 0⟩]⟩]
/-- The registers of block GLB by offset (an instance register stands once, at its first instance). -/
def glbRegs : List RegDef := [
  ⟨0x0, [⟨0, 16, .ro, 0x900⟩, ⟨16, 8, .ro, 0⟩, ⟨24, 8, .ro, 0⟩, ⟨32, 16, .ro, 0⟩, ⟨48, 16, .rsv, 0⟩]⟩,
  ⟨0x8, [⟨0, 64, .ro, 0⟩]⟩,
  ⟨0x10, [⟨0, 4, .ro, 0⟩, ⟨4, 1, .ro, 0⟩, ⟨5, 2, .ro, 0⟩, ⟨7, 1, .ro, 0⟩, ⟨8, 10, .ro, 0⟩, ⟨18, 10, .ro, 0⟩, ⟨28, 36, .rsv, 0⟩]⟩,
  ⟨0x18, [⟨0, 32, .ro, 0⟩, ⟨32, 32, .ro, 0⟩]⟩]
/-- The registers of block HOST by offset (an instance register stands once, at its first instance). -/
def hostRegs : List RegDef := [
  ⟨0x0, [⟨0, 8, .rw, 0⟩, ⟨8, 16, .rw, 0x2710⟩, ⟨24, 40, .rsv, 0⟩]⟩,
  ⟨0x8, [⟨0, 1, .ro, 0⟩, ⟨1, 3, .ro, 0⟩, ⟨4, 1, .ro, 0⟩, ⟨5, 3, .rsv, 0⟩, ⟨8, 8, .ro, 0⟩, ⟨16, 48, .rsv, 0⟩]⟩,
  ⟨0x10, [⟨0, 30, .rsv, 0⟩, ⟨30, 18, .rw, 0⟩, ⟨48, 16, .rsv, 0⟩]⟩,
  ⟨0x18, [⟨0, 16, .ro, 0⟩, ⟨16, 16, .ro, 0⟩, ⟨32, 16, .rsv, 0⟩, ⟨48, 1, .w1c, 0⟩, ⟨49, 1, .w1c, 0⟩, ⟨50, 14, .rsv, 0⟩]⟩,
  ⟨0x100, [⟨0, 64, .rw, 0⟩]⟩,
  ⟨0x108, [⟨0, 1, .rw, 0⟩, ⟨1, 7, .rsv, 0⟩, ⟨8, 5, .rw, 0⟩, ⟨13, 3, .rsv, 0⟩, ⟨16, 7, .rw, 0x4⟩, ⟨23, 41, .rsv, 0⟩]⟩,
  ⟨0x110, [⟨0, 64, .rw, 0⟩]⟩,
  ⟨0x118, [⟨0, 64, .rw, 0⟩]⟩,
  ⟨0x120, [⟨0, 64, .rw, 0⟩]⟩,
  ⟨0x128, [⟨0, 32, .ro, 0⟩, ⟨32, 31, .rw, 0⟩, ⟨63, 1, .w1c, 0⟩]⟩]

/-- The register at a control-space offset (R525, R379: none where the offset is reserved). An instance
register answers with the definition of its first instance. -/
def regDef (off : Nat) : Option RegDef :=
  let find (t : List RegDef) (o : Nat) : Option RegDef := t.find? (fun r => r.off == o)
  if off % 8 ≠ 0 then none
  else if off < 0x100000 then find glbRegs off
  else if off < 0x200000 then
    let o := off - 0x100000
    if 0x100 ≤ o ∧ o < 0x1c0 then find bootRegs 0x100 else find bootRegs o
  else if off < 0x300000 then
    let o := off - 0x200000
    if o < 0x20 then find clkRegs 0 else find clkRegs o
  else if off < 0x400000 then find pwrRegs (off - 0x300000)
  else if off < 0x500000 then
    let o := off - 0x400000
    if 0x40 ≤ o ∧ o < 0x80 then find thmRegs 0x40 else find thmRegs o
  else if off < 0x600000 then find rasRegs (off - 0x500000)
  else if off < 0x700000 then
    let o := off - 0x600000
    if 0x20000 ≤ o ∧ o < 0x40000 then find telRegs 0x20000 else find telRegs o
  else if off < 0x800000 then find secRegs (off - 0x700000)
  else if off < 0x812000 then
    let o := (off - 0x800000) % 0x1000
    if 0x100 ≤ o ∧ o < 0x300 then find hostRegs (0x100 + o % 0x40) else find hostRegs o
  else if 0x1000000 ≤ off ∧ off < 0x1800000 then
    let o := (off - 0x1000000) % 0x100000
    if off < 0x1100000 ∧ 0x80000 ≤ o ∧ o < 0x80040 then find hbm0Regs 0x80000
    else if off < 0x1100000 ∧ 0x81000 ≤ o ∧ o < 0x82000 then find hbm0Regs 0x81000
    else find hbmRegs o
  else if 0x2000000 ≤ off ∧ off < 0x2400000 then
    let o := (off - 0x2000000) % 0x100000
    if 0x80000 ≤ o ∧ o < 0x82000 then find updRegs ((o - 0x80000) % 0x1000) else find nolRegs o
  else if 0x3000000 ≤ off ∧ off < 0x3200000 then find fabRegs ((off - 0x3000000) % 0x10000)
  else if 0x3200000 ≤ off ∧ off < 0x3210000 then find fabgRegs (off - 0x3200000)
  else if 0x4000000 ≤ off ∧ off < 0x4008000 then find collRegs ((off - 0x4000000) % 0x1000)
  else if off = 0x4008000 then find collmRegs 0x8000
  else if 0x5000000 ≤ off ∧ off < 0x5008000 then find schedRegs ((off - 0x5000000) % 0x1000)
  else if 0x6000000 ≤ off ∧ off < 0x6008000 then find rollRegs ((off - 0x6000000) % 0x1000)
  else if 0x7000000 ≤ off ∧ off < 0x7008000 then find trnRegs ((off - 0x7000000) % 0x1000)
  else if 0x8000000 ≤ off ∧ off < 0x8320000 then
    let o := (off - 0x8000000) % 0x1000
    if 0x100 ≤ o ∧ o < 0x300 then find coreRegs (0x100 + o % 0x20) else find coreRegs o
  else if 0x9000000 ≤ off ∧ off < 0x900c800 then find mbistRegs ((off - 0x9000000) % 0x40)
  else if 0x90f0000 ≤ off ∧ off < 0x90f0040 then find mbistRegs (off - 0x90f0000)
  else none

end Sys2Proof.Machine
end

