-- ==== Sys2Proof/Machine/Regs.lean ====
section
/-! DEFINITION. Reading and writing the register file: whole registers, named fields, saturating counters (R6, R7, R528),
and what a register reads as before anything wrote it (the Reset column, R527). -/
namespace Sys2Proof.Machine

/-- The sum of a register's Reset entries. -/
def RegDef.reset (d : RegDef) : Nat := d.fields.foldl (fun n f => n + f.rst * 2 ^ f.lo) 0

/-- The value after cold reset of the register at an offset. A "Per module" reserve count, a calibrated throttle
threshold and a calendar have no constant: they stand at the values log entry 2 names. -/
def regReset (off : Nat) : Word :=
  if off = 0x2000030 ∨ off = 0x2100030 ∨ off = 0x2200030 ∨ off = 0x2300030 then 0x80000000#64
  else if off = 0x400008 then 0x5F5F5F5F5F5F5F5F#64
  else match regDef off with
    | some d => BitVec.ofNat 64 d.reset
    | none => 0

/-- The stored value of the register at a control-space offset. -/
def State.rdW (s : State) (off : Nat) : Word := Tab.get (regReset off) s.regs off
/-- The state with a register's stored value replaced. -/
def State.wrW (s : State) (off : Nat) (v : Word) : State := { s with regs := Tab.set (regReset off) s.regs off v }

/-- The bits of a field in a word. -/
def Fld.get (f : Fld) (w : Word) : Nat := w.toNat / 2 ^ f.lo % 2 ^ f.w
/-- A word with a field replaced by the low bits of `v`. -/
def Fld.put (f : Fld) (w : Word) (v : Nat) : Word :=
  BitVec.ofNat 64 (w.toNat - f.get w * 2 ^ f.lo + v % 2 ^ f.w * 2 ^ f.lo)

/-- The value of a field. -/
def State.rd (s : State) (f : Fld) : Nat := f.get (s.rdW f.reg)
/-- The state with a field set to the low bits of `v`. -/
def State.wr (s : State) (f : Fld) (v : Nat) : State := s.wrW f.reg (f.put (s.rdW f.reg) v)
/-- Whether a one-bit field is 1. -/
def State.on (s : State) (f : Fld) : Bool := s.rd f == 1
/-- Several fields set in order. -/
def State.wrs (s : State) : List (Fld × Nat) → State
  | [] => s
  | (f, v) :: t => (s.wr f v).wrs t
/-- A counter field advanced by `n`, saturating at its largest value. -/
def State.count (s : State) (f : Fld) (n : Nat) : State := s.wr f (min (s.rd f + n) (2 ^ f.w - 1))

/-- A field of a word written by software (Table 0-2): RO, WO and reserved bits keep their value, a 1 clears W1C bits, RWL
is written until boot locks it, and RS is written as RW (log entry 5). -/
def FieldDef.write (locked : Bool) (d : FieldDef) (old v : Word) : Nat :=
  let o := old.toNat / 2 ^ d.lo % 2 ^ d.w
  let n := v.toNat / 2 ^ d.lo % 2 ^ d.w
  match d.acc with
  | .rw => n
  | .rs => n
  | .rwl => if locked then o else n
  | .w1c => o - (o &&& n)
  | _ => o
/-- A software write of the register at an offset; a reserved offset takes nothing (R8, R379). -/
def State.regPut (s : State) (locked : Bool) (off : Nat) (v : Word) : State :=
  match regDef off with
  | none => s
  | some d =>
    let old := s.rdW off
    s.wrW off (BitVec.ofNat 64 (d.fields.foldl (fun n f => n + f.write locked old v * 2 ^ f.lo) 0))

/-- An ERR record (R528): the first error is kept with VALID; a further one while VALID = 1 sets OVERRUN. -/
def State.recErr (s : State) (valid overrun : Fld) (fields : List (Fld × Nat)) : State :=
  if s.on valid then s.wr overrun 1 else (s.wrs fields).wr valid 1

end Sys2Proof.Machine
end

