-- ==== Sys2Proof/Machine/Operands.lean ====
section
/-! DEFINITION. The operand forms: fields of the core instructions (Tables 2-8, 2-9, 2-12, 2-13, 3-5, 3-6, 9-2), the ranges
an array operation names, element placement (R530), and the address map with its routing (R294, R314 to R316, R328 to
R330, R439, R520 to R522). -/
namespace Sys2Proof.Machine

/-- Bits [lo + w − 1 : lo] of a word. -/
def fieldOf (x : Word) (lo w : Nat) : Nat := x.toNat / 2 ^ lo % 2 ^ w

/-! ## The array operation -/

/-- The fields of an array operation (Tables 2-8 and 2-9). -/
structure ArrF where
  cls : Nat
  len : Nat
  arr : Nat
  half : Nat
  stat : Nat
  afmt : Nat
  bfmt : Nat
  ofmt : Nat
  atrn : Bool
  btrn : Bool
  acc : Bool
  drain : Bool
  grad : Bool
  ovf : Bool
  trap : Bool
  mask : Bool
  x : Nat
  k : Nat
  kdesc : Nat
  abase : Nat
  astride : Nat
  ascale : Nat
  as128 : Bool
  bbase : Nat
  bstride : Nat
  bscale : Nat
  bs128 : Bool
  obase : Nat
  ostride : Nat
  y : Nat
  maskw : Nat
  rsv : Nat
deriving DecidableEq, Repr

/-- The fields of the four words of an array operation; `x`, `k` and `y` are the extents, one more than XCNT, KCNT
and YCNT. -/
def arrFields (w0 w1 w2 w3 : Word) : ArrF where
  cls := fieldOf w0 0 4
  len := fieldOf w0 4 2
  arr := fieldOf w0 6 2
  half := fieldOf w0 8 2
  stat := fieldOf w0 10 2
  afmt := fieldOf w0 12 4
  bfmt := fieldOf w0 16 4
  ofmt := fieldOf w0 20 4
  atrn := fieldOf w0 24 1 == 1
  btrn := fieldOf w0 25 1 == 1
  acc := fieldOf w0 26 1 == 1
  drain := fieldOf w0 27 1 == 1
  grad := fieldOf w0 28 1 == 1
  ovf := fieldOf w0 29 1 == 1
  trap := fieldOf w0 30 1 == 1
  mask := fieldOf w0 31 1 == 1
  x := fieldOf w0 32 12 + 1
  k := fieldOf w0 44 16 + 1
  kdesc := fieldOf w0 60 4
  abase := fieldOf w1 0 21
  astride := fieldOf w1 21 21
  ascale := fieldOf w1 42 21
  as128 := fieldOf w1 63 1 == 1
  bbase := fieldOf w2 0 21
  bstride := fieldOf w2 21 21
  bscale := fieldOf w2 42 21
  bs128 := fieldOf w2 63 1 == 1
  obase := fieldOf w3 0 21
  ostride := fieldOf w3 21 21
  y := fieldOf w3 42 6 + 1
  maskw := fieldOf w3 48 15
  rsv := fieldOf w3 63 1

/-- The fields of an operation in flight. -/
def ArrOp.fields (o : ArrOp) : ArrF := arrFields o.w0 o.w1 o.w2 o.w3

/-- M of an operation: the streamed extent in WS and OS, the tile width in IS (Table 2-4). -/
def ArrF.m (f : ArrF) : Nat := if f.stat = 2 then f.y else f.x
/-- N of an operation (Table 2-4). -/
def ArrF.n (f : ArrF) : Nat := if f.stat = 2 then f.x else f.y

/-- F4, F6 and F8 codes of Table 2-10. -/
def isNarrowFp (c : Nat) : Bool := decide (c ≤ 4)
/-- Whether the format carries E8M0 block scales (F4, F6). -/
def isBlockScaled (c : Nat) : Bool := decide (c ≤ 2)
/-- Whether the format is F8A or F8B. -/
def isF8 (c : Nat) : Bool := c == 3 || c == 4

/-- R24: the legal pairings of A and B. -/
def ArrF.pairOk (f : ArrF) : Bool :=
  (isNarrowFp f.afmt && isNarrowFp f.bfmt) || (f.afmt == f.bfmt && decide (5 ≤ f.afmt) && decide (f.afmt ≤ 8))
/-- R30: the output format fits the operation and the destination. -/
def ArrF.outOk (f : ArrF) : Bool :=
  (if f.afmt == 5 then f.ofmt == 10 else decide (6 ≤ f.ofmt) && decide (f.ofmt ≤ 9)) &&
  (f.drain || f.ofmt == 8 || f.ofmt == 9 || f.ofmt == 10)
/-- The column limit of Table 2-2. -/
def ArrF.colLimit (f : ArrF) : Nat :=
  (if f.afmt ≤ 5 then 64 else 32) / (if f.half = 0 then 1 else 2)
/-- The K-depth per pass of Table 2-2. -/
def ArrF.kDepth (f : ArrF) : Nat := if f.afmt = 0 ∧ f.bfmt = 0 then 64 else 32
/-- The alignment of an operand base: one element, or a byte for F4 and F6. -/
def elemAlign (c : Nat) : Nat := if c = 6 ∨ c = 7 then 2 else if c = 8 then 4 else 1
/-- Bytes of a row of `n` elements as stored (R530): a row of F4 ends on a byte, of F6 on a group of 3 bytes; W40
takes 8-byte slots (R216, log entry 6). -/
def rowBytes (c n : Nat) : Nat :=
  match c with
  | 0 => (n + 1) / 2
  | 1 => (n + 3) / 4 * 3
  | 2 => (n + 3) / 4 * 3
  | 6 => 2 * n
  | 7 => 2 * n
  | 8 => 4 * n
  | 9 => 8 * n
  | 10 => 4 * n
  | _ => n

/-- Rows and columns of A as stored. -/
def ArrF.aShape (f : ArrF) : Nat × Nat := if f.atrn then (f.k, f.m) else (f.m, f.k)
/-- Rows and columns of B as stored. -/
def ArrF.bShape (f : ArrF) : Nat × Nat := if f.btrn then (f.n, f.k) else (f.k, f.n)
/-- Bytes of one output element: an 8-byte slot of the accumulator buffer, or the format's in the scratchpad. -/
def ArrF.outElem (f : ArrF) : Nat := if f.drain then rowBytes f.ofmt 1 else 8

/-- Bytes of the scales an operand reads: outer extent `o`, format `c`. -/
def scaleBytes (c o k : Nat) (s128 : Bool) : Nat :=
  if isBlockScaled c then o * ((k + 31) / 32)
  else if isF8 c then (if s128 then 4 * ((o + 127) / 128) else 4)
  else 0

/-- A byte range: start and length. -/
abbrev Rng := Nat × Nat
/-- Whether two ranges share a byte. -/
def Rng.overlaps (a b : Rng) : Bool :=
  decide (a.2 ≠ 0) && decide (b.2 ≠ 0) && decide (a.1 < b.1 + b.2) && decide (b.1 < a.1 + a.2)
/-- The range of `rows` rows of `len` bytes, `stride` apart. -/
def rowsRange (base rows len stride : Nat) : Rng := (base, (rows - 1) * stride + len)

/-- The scratchpad ranges an operation reads: operands, scales, mask (R47). -/
def ArrF.reads (f : ArrF) : List Rng :=
  [rowsRange f.abase f.aShape.1 (rowBytes f.afmt f.aShape.2) f.astride,
   rowsRange f.bbase f.bShape.1 (rowBytes f.bfmt f.bShape.2) f.bstride,
   (f.ascale, scaleBytes f.afmt f.m f.k f.as128), (f.bscale, scaleBytes f.bfmt f.n f.k f.bs128),
   (f.maskw * 64, if f.mask then (f.m + 7) / 8 else 0)]
/-- The output range of an operation, in its own memory. -/
def ArrF.outRange (f : ArrF) : Rng := rowsRange f.obase f.m (f.n * f.outElem) f.ostride

/-- The core-window offset of the accumulator buffer (R294). -/
def abOff : Nat := 0x180000
/-- The output range as a range of the core's window. -/
def ArrF.outWindow (f : ArrF) : Rng := (f.outRange.1 + (if f.drain then 0 else abOff), f.outRange.2)

/-- Every field rule of R47: R24, R30, R53, Tables 2-4, 2-8, 2-9 and 2-11. Reserved bits must be 0 (log entry 7). -/
def ArrF.fieldsOk (f : ArrF) : Bool :=
  decide (f.half < 3) && decide (f.stat < 3) && decide (f.afmt ≤ 8) && decide (f.bfmt ≤ 8) &&
  f.pairOk && f.outOk && decide (f.y ≤ f.colLimit) && (f.stat == 1 || decide (f.k ≤ f.kDepth)) &&
  f.abase % elemAlign f.afmt == 0 && f.bbase % elemAlign f.bfmt == 0 &&
  f.ascale % 4 == 0 && f.bscale % 4 == 0 && (f.drain || f.obase % 8 == 0) &&
  (isF8 f.afmt || !f.as128) && (isF8 f.bfmt || !f.bs128) &&
  (decide (f.afmt ≤ 4) || f.ascale == 0) && (decide (f.bfmt ≤ 4) || f.bscale == 0) &&
  (f.astride != 0 || f.aShape.1 == 1) && (f.bstride != 0 || f.bShape.1 == 1) && (f.ostride != 0 || f.m == 1) &&
  f.rsv == 0

/-- The scratchpad's size (Table 2-1). -/
def spBytes : Nat := 0x180000
/-- The accumulator buffer's size (Table 2-1). -/
def abBytes : Nat := 0x60000

/-- R47: every range lies wholly inside its memory. -/
def ArrF.rangesOk (f : ArrF) : Bool :=
  f.reads.all (fun r => r.2 == 0 || decide (r.1 + r.2 ≤ spBytes)) &&
  decide (f.outRange.1 + f.outRange.2 ≤ (if f.drain then spBytes else abBytes))

/-! ## The address map -/

/-- Where a local address lies (Table 21-1). -/
inductive Place where
  | hbm
  | slow (m half : Nat)
  | window (c off : Nat)
  | control
  | nowhere
deriving DecidableEq, Repr

/-- Base of the slow tier, the scratchpad windows and control space (R520). -/
def slowBase : Nat := 0x010000000000
/-- Base of the scratchpad windows (R520). -/
def winBase : Nat := 0x020000000000
/-- Base of control space (R520). -/
def ctrlBase : Nat := 0x030000000000
/-- The local address of window offset `off` of core `c`. -/
def winAddr (c off : Nat) : Nat := winBase + c * 0x200000 + off

/-- Where a local address lies. -/
def placeOf (a : Nat) : Place :=
  if a < 0x8000000000 then .hbm
  else if slowBase ≤ a ∧ a < slowBase + 0x8000000000 then
    .slow ((a - slowBase) / 0x2000000000) ((a - slowBase) / 0x1000000000 % 2)
  else if winBase ≤ a ∧ a < winBase + 800 * 0x200000 then .window ((a - winBase) / 0x200000) ((a - winBase) % 0x200000)
  else if ctrlBase ≤ a ∧ a < ctrlBase + 0x10000000 then .control
  else .nowhere

/-- The valid HBM region that holds an address (R314, R315). -/
def State.regionOf (s : State) (a : Nat) : Option Nat :=
  (List.range 8).find? (fun r =>
    s.on (R.HBM0.REGION.VALID r) && decide (s.rd (R.HBM0.REGION.BASE_GIB r) * 2 ^ 30 ≤ a) &&
    decide (a < (s.rd (R.HBM0.REGION.BASE_GIB r) + s.rd (R.HBM0.REGION.NLOG r)) * 2 ^ 30))

/-- hbm_route of R315 within region `r`: the physical pseudo-channel and the line. -/
def State.hbmRoute (s : State) (r a : Nat) : Nat × Nat :=
  let off := a - s.rd (R.HBM0.REGION.BASE_GIB r) * 2 ^ 30
  let part (lo : Nat) : BitVec 12 := BitVec.ofNat 12 (off / 2 ^ lo)
  let b := (part 9 ^^^ part 21 ^^^ part 33 ^^^ BitVec.ofNat 12 (off / 2 ^ 45 % 8)).toNat
  let t := off / 2 ^ 21 % 2 ^ 18 * 4096 + b
  let nlog := s.rd (R.HBM0.REGION.NLOG r)
  (s.rd (R.HBM0.CMAP.PPC (s.rd (R.HBM0.REGION.FIRST r) + t % nlog)), t / nlog)

/-- Whether PLL `b` of `CLK.LOCK` is locked (R476). -/
def State.pllLocked (s : State) (b : Nat) : Bool := s.rd R.CLK.LOCK.PLL / 2 ^ b % 2 == 1
/-- Whether the line at `a` waits: its pseudo-channel is in a retrain hold (R318), or the MCLK PLL of its stack or the TCLK PLL of
its lift link relocks (R476, log entry 179). -/
def State.heldLine (s : State) (a : Nat) : Bool :=
  match placeOf a, s.regionOf a with
  | .hbm, some r =>
    let q := (s.hbmRoute r a).1
    (Tab.get HbmSt.reset s.hbm (q / 64)).holding == some (q % 64) || !s.pllLocked (5 + q / 64)
  | .slow m _, _ => !s.pllLocked (16 + m)
  | _, _ => false
/-- The MCLK and TCLK PLLs in `CLK.LOCK`. -/
def memoryPlls : Nat := 0xf1fe0
/-- Whether an access to `n` bytes at local address `a` waits for its memory (R270, R318, R476). -/
def State.held (s : State) (a n : Nat) : Bool :=
  (s.hbm.any (fun e => e.2.holding.isSome) || s.rd R.CLK.LOCK.PLL &&& memoryPlls != memoryPlls) &&
  (List.range ((a % 512 + n + 511) / 512)).any (fun i => s.heldLine ((a / 512 + i) * 512))

/-- slow_route of R329: Nolmer, channel and line. -/
def State.slowRoute (s : State) (a : Nat) : Nat × Nat × Nat :=
  let o := a - slowBase
  let nol := o / 2 ^ 37 % 4
  let n := o % 2 ^ 37
  if s.rd (R.NOL.MEM_CFG.SPLIT nol) = 0 then
    (nol, (BitVec.ofNat 4 (n / 2 ^ 9) ^^^ BitVec.ofNat 4 (n / 2 ^ 13)).toNat, n / 2 ^ 13)
  else (nol, 8 * (n / 2 ^ 36) + (BitVec.ofNat 3 (n / 2 ^ 9) ^^^ BitVec.ofNat 3 (n / 2 ^ 12)).toNat,
        n % 2 ^ 36 / 2 ^ 12)

/-- A partition's record; index 8 is the house partition. -/
def State.part (s : State) (p : Nat) : PartSt := Tab.get ⟨false, 0, false⟩ s.sec.parts p
/-- Whether a stack mask holds stack `k`. -/
def hasStack (mask k : Nat) : Bool := mask / 2 ^ k % 2 == 1
/-- The stack a logical core belongs to (R63). -/
def coreStack (c : Nat) : Nat := c / 100
/-- The tenant partition that holds a stack (R438). -/
def State.partOfStack (s : State) (k : Nat) : Option Nat :=
  (List.range 8).find? (fun p => (s.part p).valid && hasStack (s.part p).stackMask k)
/-- The partition of a core (R439). -/
def State.partOfCore (s : State) (c : Nat) : Option Nat := s.partOfStack (coreStack c)
/-- A core's state. -/
def State.core (s : State) (c : Nat) : CoreSt := Tab.get CoreSt.reset s.chip.cores c
/-- The state with a core's state replaced. -/
def State.setCore (s : State) (c : Nat) (x : CoreSt) : State :=
  { s with chip := { s.chip with cores := Tab.set CoreSt.reset s.chip.cores c x } }

/-- The first address of the park area of half `h` of Nolmer `m`, as an offset in the Nolmer; none where the half has
no park area (R330). -/
def State.parkStart (s : State) (m h : Nat) : Option Nat :=
  if s.rd (R.NOL.MEM_CFG.SPLIT m) = 0 then
    if h = 1 then some (0x2000000000 - s.rd (R.NOL.PARK_CFG.MIB0 m) * 2 ^ 20) else none
  else some ((h + 1) * 0x1000000000 -
    (if h = 0 then s.rd (R.NOL.PARK_CFG.MIB0 m) else s.rd (R.NOL.PARK_CFG.MIB1 m)) * 2 ^ 20)

/-- Whether a Nolmer-relative range touches a park area of Nolmer `m`. -/
def State.inPark (s : State) (m : Nat) (r : Rng) : Bool :=
  [0, 1].any (fun h => match s.parkStart m h with
    | some b => Rng.overlaps r (b, (h + 1) * 0x1000000000 - b)
    | none => false)

/-- The power state in force of a segment: ON while an access holds it awake (R301). -/
def State.seg (s : State) (i : Nat) : SegSt := Tab.get ⟨0, false⟩ s.chip.segs i
/-- The segment index of a core-window offset (R300). -/
def segIndex (c off : Nat) : Nat := if off < abOff then c * 8 + off / 0x80000 else c * 8 + 4 + (off - abOff) / 0x20000

/-- Why an access is refused, or that it may go on. -/
inductive Reach where
  | ok
  | unmapped
  | unbacked
  | foreign
  | slowRange
  | hole
  | off (seg : Nat)
deriving DecidableEq, Repr

/-- Whether an access goes on: one to an OFF window does, its reads being poison and its writes discarded (R301). -/
def Reach.passes : Reach → Bool
  | .ok => true
  | .off _ => true
  | .unmapped => false
  | .unbacked => false
  | .foreign => false
  | .slowRange => false
  | .hole => false
/-- The HBM check of R314, R316 and R439: the range lies in one valid region, and partition `p` reaches it; house
lines are reached by reads while the partition's house read is enabled (R443). -/
def State.reachHbm (s : State) (p : Option Nat) (a n : Nat) (write : Bool) : Reach :=
  match s.regionOf a, s.regionOf (a + n - 1) with
  | some r, some r' =>
    let mask := s.rd (R.HBM0.REGION.STACKS r)
    if r ≠ r' then .unbacked
    else match p with
      | none => .ok
      | some p =>
        if (s.part p).valid && (s.part p).stackMask == mask then .ok
        else if (s.part 8).valid && (s.part 8).stackMask == mask && !write &&
          s.rd R.SEC.HOUSE_CTL.READ / 2 ^ p % 2 == 1 then .ok
        else .foreign
  | _, _ => .unbacked

/-- The slow-tier check of R328 to R330, R333 and R439 for a range inside Nolmer `m`, `lo` bytes from its base: own
halves only, no park area, the Nolmer online. -/
def State.reachNol (s : State) (p : Option Nat) (m lo n : Nat) : Reach :=
  if s.inPark m (lo, n) ∨ s.on (R.NOL.MEM_STAT.OFFLINE m) then .slowRange
  else match p with
    | none => .ok
    | some p =>
      if (s.part p).valid && hasStack (s.part p).stackMask (2 * m + lo / 0x1000000000) &&
        hasStack (s.part p).stackMask (2 * m + (lo + n - 1) / 0x1000000000) then .ok else .slowRange
/-- The first refusal of a list of checks. -/
def firstReach : List Reach → Reach
  | [] => .ok
  | r :: t => if r = .ok then firstReach t else r
/-- The slow-tier check of a range, Nolmer by Nolmer (R328). -/
def State.reachSlow (s : State) (p : Option Nat) (a n : Nat) : Reach :=
  let lo := a - slowBase
  if lo + n > 0x8000000000 then .unmapped else
  firstReach ((List.range 4).map (fun m =>
    let b := max lo (m * 0x2000000000)
    let e := min (lo + n) ((m + 1) * 0x2000000000)
    if b < e then s.reachNol p m (b - m * 0x2000000000) (e - b) else .ok))

/-- The first segment that is OFF among those a core-window range touches. -/
def State.offSeg (s : State) (c off n : Nat) : Option Nat :=
  (List.range' (segIndex c off) (segIndex c (off + n - 1) + 1 - segIndex c off)).find? (fun i => (s.seg i).st == 2)

/-- The OFF segment of a core's memories that a local range touches (R301). -/
def State.offAt (s : State) (a n : Nat) : Option Nat :=
  match placeOf a with
  | .window c off => if n = 0 then none else s.offSeg c off n
  | _ => none

/-- The window check of R294, R301, R439 and R521. -/
def State.reachWin (s : State) (p : Option Nat) (a n : Nat) : Reach :=
  let c := (a - winBase) / 0x200000
  let off := (a - winBase) % 0x200000
  if (s.core c).offline then .unmapped
  else if off + n > 0x1e0000 then .hole
  else if p.isSome && s.partOfCore c != p then .foreign
  else match s.offSeg c off n with
    | some i => .off i
    | none => .ok

/-- Whether a requester of partition `p` (none: an agent that no partition binds) may access `n` bytes at local
address `a`. Control space is none of these requesters' (R523). -/
def State.reach (s : State) (p : Option Nat) (a n : Nat) (write : Bool) : Reach :=
  match placeOf a with
  | .hbm => s.reachHbm p a n write
  | .slow _ _ => s.reachSlow p a n
  | .window _ _ => s.reachWin p a n
  | .control => .unmapped
  | .nowhere => .unmapped

end Sys2Proof.Machine
end

