-- ==== Sys2Proof/Machine/Intake.lean ====
section
/-! DEFINITION. Gradient intake (R250, R251, R289): each 512-byte line written into an armed gradient range is fed to pass 1 of the
update as it is written, whoever writes it. -/
namespace Sys2Proof.Machine

/-- A sorted list of numbers with `w` in it. -/
def addWord : List Nat → Nat → List Nat
  | [], w => [w]
  | x :: t, w => if w < x then w :: x :: t else if w = x then x :: t else x :: addWord t w

/-- Whether an update is in flight. -/
def UpdSt.live (u : UpdSt) : Bool := decide (1 ≤ u.stage ∧ u.stage ≤ 3)
/-- The gradient lines of an entry: the first address over 512, and how many. -/
def UpdEnt.lines (e : UpdEnt) : Nat × Nat := (e.grad / 512, (e.elems * 8 + 511) / 512)
/-- Whether an entry's gradient range holds a line. -/
def UpdEnt.hasLine (l : Nat) (e : UpdEnt) : Bool := decide (e.lines.1 ≤ l ∧ l < e.lines.1 + e.lines.2)
/-- The tensor of an element of an entry, and the element's index in that tensor. -/
def tensorOf : List UpdTens → Nat → Option (UpdTens × Nat)
  | [], _ => none
  | t :: ts, i => if i < t.elems then some (t, t.toff + i) else tensorOf ts (i - t.elems)
/-- Whether an element of an entry lies in a trained row (R108, Table 8-4). -/
def State.trained (s : State) (e : UpdEnt) (i : Nat) : Bool :=
  match tensorOf e.tens i with
  | some (t, k) =>
    let row := k / t.cols
    t.bitmap == 0 || (Tab.get 0 s.mem (t.bitmap + row / 8)).toNat / 2 ^ (row % 8) % 2 == 1
  | none => false
/-- The little-endian value of `n` bytes of a table from `lo` on (R530). -/
def tabLE (m : Tab Byte) (lo : Nat) : Nat → Nat
  | 0 => 0
  | n + 1 => (Tab.get 0 m lo).toNat + 256 * tabLE m (lo + 1) n
/-- The accumulator of an entry's N0 (R251). -/
def UpdSt.sum (u : UpdSt) (i : Nat) : NoiseSum := Tab.get noiseZero u.sums i
/-- Line `l` of entry `i` enters pass 1: its elements of trained rows are squared into the entry's sum, and their poison poisons it
(R251, R253). A second write of the line is noted (R250). -/
def State.takeLine (s : State) (e : UpdEnt) (u : UpdSt) (i l : Nat) : UpdSt :=
  if u.seen.contains l then { u with twice := if u.twice.isNone then some i else u.twice } else
  let es := (List.range' (l * 64 - e.grad / 8) 64).filter (fun k => decide (k < e.elems) && s.trained e k)
  let bad (k : Nat) : Bool := s.poison.contains ((e.grad + 8 * k) / 32)
  { u with seen := addWord u.seen l,
           sums := Tab.set noiseZero u.sums i (es.foldl (fun a k => noiseEnter a (tabLE s.mem (e.grad + 8 * k) 5) false) (u.sum i)),
           poisoned := if es.any bad then addWord u.poisoned i else u.poisoned }
/-- The lines of the armed ranges of an update that a write of `n` bytes at `a` touches. -/
def State.takeLines (s : State) (u : UpdSt) (a n : Nat) : UpdSt :=
  if !u.live || n == 0 then u else
  u.ents.zipIdx.foldl (fun u e =>
    let lo := max (a / 512) e.1.lines.1
    let hi := min ((a + n - 1) / 512 + 1) (e.1.lines.1 + e.1.lines.2)
    (List.range' lo (hi - lo)).foldl (fun u l => s.takeLine e.1 u e.2 l) u) u
/-- The intake of a write of `n` bytes at `a` that has been made. -/
def State.intake (s : State) (a n : Nat) : State :=
  if s.upd.isEmpty then s
  else { s with upd := s.upd.map (fun e => (e.1, e.2.map (fun u => s.takeLines u a n))) }

end Sys2Proof.Machine
end

