-- ==== Sys2Proof/Machine/Ops.lean ====
section
/-! DEFINITION. The named operations that the meanings share: memory pieces with their poison (R456), free values, event
records (R466), MSI-X (R388), host memory, completions (R384, R385, R391), contained errors and the start of a job
reset (R241, R454). -/
namespace Sys2Proof.Machine

/-! ## Free values -/

/-- `n` fresh free values have been used. -/
def State.used (s : State) (n : Nat) : State := { s with freeCtr := s.freeCtr + n }
/-- The free value a step uses next, cut to `w` bits (log entry 3). -/
def State.free (s : State) (w : Nat) : Nat := (Config.freeValue s.freeCtr).toNat % 2 ^ w

/-- `n` fresh free bytes. -/
def State.freeBytes (s : State) (n : Nat) : List Byte :=
  (List.range n).map (fun i => BitVec.ofNat 8 ((Config.freeValue (s.freeCtr + i / 64)).toNat / 2 ^ (8 * (i % 64))))

/-! ## Byte pieces -/

/-- `n` bytes at `lo`, renumbered from 0. -/
def cutTab {α : Type} (m : Tab α) (lo n : Nat) : Tab α :=
  (m.filter (fun e => decide (lo ≤ e.1) && decide (e.1 < lo + n))).map (fun e => (e.1 - lo, e.2))
/-- The table with the `n` keys at `lo` replaced by the piece `d` (keys from 0), which goes in in canonical form. -/
def pasteTab (m : Tab Byte) (lo n : Nat) (d : Tab Byte) : Tab Byte :=
  m.filter (fun e => decide (e.1 < lo)) ++
  ((Tab.canon 0 d).filter (fun e => decide (e.1 < n))).map (fun e => (e.1 + lo, e.2)) ++
  m.filter (fun e => decide (lo + n ≤ e.1))

/-- The bytes of a text of ASCII characters. -/
def ascii (t : String) : List Byte := t.toList.map (fun c => BitVec.ofNat 8 c.toNat)

/-- The non-zero bytes of a list, numbered from `i`. -/
def bytesTab : List Byte → Nat → Tab Byte
  | [], _ => []
  | b :: t, i => if b = 0 then bytesTab t (i + 1) else (i, b) :: bytesTab t (i + 1)
/-- `n` bytes of a table from `lo` on, as a list. -/
def tabBytes (m : Tab Byte) (lo n : Nat) : List Byte := (List.range n).map (fun i => Tab.get 0 m (lo + i))
/-- The `n` little-endian bytes of a value (R530). -/
def leBytes : Nat → Nat → List Byte
  | 0, _ => []
  | n + 1, v => BitVec.ofNat 8 v :: leBytes n (v / 256)

/-- The 32-byte words that a range touches. -/
def wordsOf (lo n : Nat) : List Nat := if n = 0 then [] else List.range' (lo / 32) ((lo + n - 1) / 32 + 1 - lo / 32)
/-- The poisoned words with every word that a range touches. -/
def poisonWords (p : List Nat) (lo n : Nat) : List Nat := (wordsOf lo n).foldl addWord p
/-- The poisoned words without those that a write of the range covers whole (R456). -/
def coverWords (p : List Nat) (lo n : Nat) : List Nat :=
  p.filter (fun w => !(decide (lo ≤ 32 * w) && decide (32 * w + 32 ≤ lo + n)))
/-- Whether a range touches a poisoned word. -/
def touchesPoison (p : List Nat) (lo n : Nat) : Bool :=
  p.any (fun w => decide (n ≠ 0) && decide (lo < 32 * w + 32) && decide (32 * w < lo + n))
/-- The poisoned parts of a range, as (offset, length) from its start. -/
def poisonParts (p : List Nat) (lo n : Nat) : List Rng :=
  (p.filter (fun w => touchesPoison [w] lo n)).map
    (fun w => (max (32 * w) lo - lo, min (32 * w + 32) (lo + n) - max (32 * w) lo))

/-- A piece of plain bytes. -/
def Piece.ofBytes (bs : List Byte) : Piece := ⟨bytesTab bs 0, []⟩
/-- A piece of bytes that each carry a poison mark. -/
def Piece.ofMarked (bs : List (Byte × Bool)) : Piece :=
  ⟨bytesTab (bs.map (·.1)) 0, ((List.range bs.length).filter (fun i => (bs.getD i (0, false)).2)).map (fun i => (i, 1))⟩

/-! ## Local memory -/

/-- The byte at a local address; what nothing has written reads as 0 (log entry 1). -/
def State.byte (s : State) (a : Nat) : Byte := Tab.get 0 s.mem a
/-- The little-endian value of `n` bytes at a local address. -/
def State.le (s : State) (a n : Nat) : Nat := tabLE s.mem a n
/-- Whether a local range touches a poisoned word. -/
def State.poisoned (s : State) (a n : Nat) : Bool := touchesPoison s.poison a n
/-- `n` bytes at a local address with their poison. -/
def State.cut (s : State) (a n : Nat) : Piece := ⟨cutTab s.mem a n, poisonParts s.poison a n⟩

/-- An agent's place in the issue order of its core, which orders what it writes before that core's later operations:
the core and the place; none for a writer outside the core (R38, R271). -/
abbrev OwnWriter := Option (Nat × Nat)

/-- An operation whose operand, scale or mask bytes a write touches before it has drained (R38). A write of the core's own
that issued before the operation is ordered before it (R271): `before` is that write's place in the issue order. -/
def ArrOp.touched (r : Rng) (before : Option Nat) (o : ArrOp) : ArrOp :=
  if (match before with | some q => decide (q < o.seq) | none => false) then o
  else if o.fields.reads.any (fun q => Rng.overlaps q r) then { o with dirty := true } else o
/-- An array whose operations in flight have seen a write of a scratchpad range. -/
def ArrSt.touched (r : Rng) (before : Option Nat) (a : ArrSt) : ArrSt :=
  { a with queue := a.queue.map (ArrOp.touched r before), running := a.running.map (ArrOp.touched r before) }
/-- A core whose scratchpad range `r` is written (R38). -/
def CoreSt.touched (r : Rng) (before : Option Nat) (c : CoreSt) : CoreSt :=
  { c with f := c.f.touched r before, d := c.d.touched r before, g := c.g.touched r before }
/-- Marks the operations in flight of the core whose scratchpad a local range lies in. -/
def State.touchOps (s : State) (w : OwnWriter) (a n : Nat) : State :=
  match placeOf a with
  | .window c off =>
    let before := match w with | some (c', q) => if c' = c then some q else none | none => none
    if off < abOff then s.setCore c ((s.core c).touched (off, n) before) else s
  | _ => s
/-- A RET segment that an access touches wakes (R301). -/
def State.wakeSeg (s : State) (i : Nat) : State :=
  if (s.seg i).st = 1 then { s with chip := { s.chip with segs := Tab.set ⟨0, false⟩ s.chip.segs i ⟨1, true⟩ } } else s
/-- An access to a range of a core's window wakes every RET segment it touches (R301). -/
def State.wakeWin (s : State) (c : Nat) (r : Rng) : State :=
  if r.2 = 0 then s else
  (List.range' (segIndex c r.1) (segIndex c (r.1 + r.2 - 1) + 1 - segIndex c r.1)).foldl State.wakeSeg s
/-- An access wakes the RET segments it touches (R301). -/
def State.wake (s : State) (a n : Nat) : State :=
  match placeOf a with
  | .window c off => s.wakeWin c (off, n)
  | _ => s

/-- `n` bytes at local address `a` replaced by a piece by the writer `w`: words covered whole lose their poison, a word
written in part keeps it, and words that take poisoned bytes become poisoned (R299, R313, R334, R456). -/
def State.landBy (s : State) (w : OwnWriter) (a n : Nat) (d : Piece) : State :=
  let s := (s.touchOps w a n).wake a n
  { s with mem := pasteTab s.mem a n d.data,
           poison := (d.pois.filter (fun r => decide (r.1 < n))).foldl
             (fun p r => poisonWords p (a + r.1) (min r.2 (n - r.1))) (coverWords s.poison a n) }
/-- The same of any local memory: gradient lines it writes are taken in (R250, R289). -/
def State.pasteBy (s : State) (w : OwnWriter) (a n : Nat) (d : Piece) : State := (s.landBy w a n d).intake a n
/-- `n` bytes at local address `a` replaced by a piece. -/
def State.paste (s : State) (a n : Nat) (d : Piece) : State := s.pasteBy none a n d
/-- Bytes stored at a local address. -/
def State.store (s : State) (a : Nat) (bs : List Byte) : State := s.paste a bs.length (.ofBytes bs)
/-- A little-endian value of `n` bytes stored at a local address. -/
def State.storeLE (s : State) (a n v : Nat) : State := s.store a (leBytes n v)
/-- The words that a local range touches poisoned in place; their bytes keep their values. -/
def State.poisonRange (s : State) (a n : Nat) : State := { s with poison := poisonWords s.poison a n }

/-- `rows` rows of `n` bytes copied, row by row: source `a` and destination `b` step by their strides. -/
def State.copyRows (s : State) (a b n : Nat) (sa sb : Nat) : Nat → State
  | 0 => s
  | r + 1 => ((s.paste b n (s.cut a n)).copyRows (a + sa) (b + sb) n sa sb r)

/-! ## Partitions, jobs and functions -/

/-- The job in a partition. -/
def State.jobOf (s : State) (p : Nat) : Option Job := s.host.jobs.find? (fun j => j.part == p)
/-- The job with a job number. -/
def State.job (s : State) (id : Nat) : Option Job := s.host.jobs.find? (fun j => j.id == id)
/-- The job number in a partition, 0xFFFF where it holds none (Table 17-5). -/
def State.jobId (s : State) (p : Nat) : Nat := match s.jobOf p with | some j => j.id | none => 0xffff
/-- The job number of a core's partition. -/
def State.jobOfCore (s : State) (c : Nat) : Nat := match s.partOfCore c with | some p => s.jobId p | none => 0xffff
/-- Every job passed through `f`. -/
def State.mapJobs (s : State) (f : Job → Job) : State := { s with host := { s.host with jobs := s.host.jobs.map f } }
/-- One job passed through `f`. -/
def State.modJob (s : State) (id : Nat) (f : Job → Job) : State := s.mapJobs (fun j => if j.id = id then f j else j)

/-- Whether the module is partitioned. -/
def State.partitioned (s : State) : Bool := s.on R.SEC.STAT.PARTITIONED
/-- The partition a function is bound to (R377): VF n to partition n − 1 where it exists, the PF to partition 0 while
the module is unpartitioned. -/
def State.fnPart (s : State) (fn : Nat) : Option Nat :=
  if fn = 0 then (if s.partitioned then none else some 0)
  else if (s.part (fn - 1)).valid then some (fn - 1) else none
/-- The HOST window of a function (R525). -/
def hostWin (port fn : Nat) : Nat := port * 9 + fn
/-- Whether a port's data link is up. -/
def State.linkUp (s : State) (port : Nat) : Bool := if port = 0 then s.host.link0 else s.host.link1

/-! ## Calendar, events and MSI-X -/

/-- The calendar in ticks of 1/32,768 s (R480). -/
def State.now (s : State) : Nat := s.rd R.CLK.CAL.TIME
/-- Microseconds since cold reset or power-up. -/
def State.uptime (s : State) : Nat := s.rd R.CLK.UPTIME_US.US

/-- Records have been written that vector `v` of a function covers (R388): one message, or one when the hold-off ends;
none while the port's link is down (R391). -/
def State.signal (s : State) (port fn v : Nat) : State :=
  if !s.linkUp port then s else
  let i := hostWin port fn * 73 + v
  let m := Tab.get (⟨0, false, false⟩ : Msix) s.host.msix i
  let m' : Msix := if m.hold then { m with pend := true }
    else { m with sent := m.sent + 1, hold := s.rd (R.HOST.FCTL.HOLDOFF_US (hostWin port fn)) != 0 }
  { s with host := { s.host with msix := Tab.set ⟨0, false, false⟩ s.host.msix i m' } }

/-- The event-log word `w` of slot `n`. -/
def evtFld (n w : Nat) : Fld := R.TEL.EVT.WORD n w

/-- An event record (Table 17-5, R466): written to slot SEQ mod 4,096, the overwritten record counted in LOST, and
vector 0 signalled (R468). A record of class 1 or higher asserts ALERT# (Table 20-6). -/
def State.putEvent (s : State) (code cls part job unit detail rep : Nat) : State :=
  let seq := s.rd R.TEL.EVT_HEAD.SEQ
  let n := seq % 4096
  let s := if s.rd (evtFld n 0) ≠ 0 then s.count R.TEL.EVT_HEAD.LOST 1 else s
  let w0 := code % 65536 + cls % 8 * 2 ^ 16 + part % 16 * 2 ^ 19 + job % 65536 * 2 ^ 24 + unit % 65536 * 2 ^ 40
  let s := s.wrs [(evtFld n 0, w0), (evtFld n 1, s.now), (evtFld n 2, detail),
                  (evtFld n 3, seq + min rep 0xffff * 2 ^ 32), (R.TEL.EVT_HEAD.SEQ, seq + 1)]
  let s := (s.signal 0 0 0).signal 1 0 0
  let s := if cls = 0 then s else { s with pwr := { s.pwr with alert := true } }
  if (cls = 2 ∨ cls = 3) ∧ part < 8 then (s.signal 0 (part + 1) 0).signal 1 (part + 1) 0 else s

/-- The class-0 limiter's entry for a code and unit. -/
def State.limitOf (s : State) (code unit : Nat) : Option (Nat × Nat × Nat × Nat) :=
  s.ras.limit.find? (fun e => e.1 == code && e.2.1 == unit)
/-- The limiter with the entry of a code and unit replaced. -/
def State.setLimit (s : State) (code unit last reps : Nat) : State :=
  let rest := s.ras.limit.filter (fun e => !(e.1 == code && e.2.1 == unit))
  { s with ras := { s.ras with limit := (code, unit, last, reps) :: rest } }

/-- A code raised as an event (R466): class 0 at most once per CORR_GAP_S seconds for its code and unit, repeats counted
in the next record. A DETAIL that no rule names is a free value (R533, log entry 4). -/
def State.event (s : State) (code cls part job unit : Nat) (detail : Option Nat) : State :=
  let d := match detail with | some d => d | none => s.free 64
  let s := if detail = none then s.used 1 else s
  if cls = 0 then
    match s.limitOf code unit with
    | some (_, _, last, reps) =>
      if s.uptime < last + s.rd R.RAS.CTL.CORR_GAP_S * 1000000 then s.setLimit code unit last (reps + 1)
      else (s.putEvent code 0 part job unit d reps).setLimit code unit s.uptime 0
    | none => (s.putEvent code 0 part job unit d 0).setLimit code unit s.uptime 0
  else s.putEvent code cls part job unit d 0

/-! ## Host memory and completions -/

/-- The memory of a port's host. -/
def State.hostMem (s : State) (port : Nat) : Tab Byte := if port = 0 then s.host.mem0 else s.host.mem1
/-- The little-endian value of `n` bytes of host memory. -/
def State.hostLE (s : State) (port a n : Nat) : Nat := tabLE (s.hostMem port) a n
/-- A piece written to the memory of a port's host. -/
def State.hostPaste (s : State) (port a n : Nat) (d : Tab Byte) : State :=
  if port = 0 then { s with host := { s.host with mem0 := pasteTab s.host.mem0 a n d } }
  else { s with host := { s.host with mem1 := pasteTab s.host.mem1 a n d } }
/-- Little-endian 64-bit words written to host memory in order. -/
def State.hostWords (s : State) (port a : Nat) (ws : List Nat) : State :=
  let bs := ws.flatMap (leBytes 8)
  s.hostPaste port a bs.length (bytesTab bs 0)

/-- The state of journal ring `j` of a function. -/
def State.ring (s : State) (w j : Nat) : RingSt := Tab.get ⟨0, 0, 0⟩ s.host.rings (w * 8 + j)
/-- The state with a ring's state replaced. -/
def State.setRing (s : State) (w j : Nat) (r : RingSt) : State :=
  { s with host := { s.host with rings := Tab.set ⟨0, 0, 0⟩ s.host.rings (w * 8 + j) r } }

/-- The completion slot that a dispatched command reserved is free again, used or not (R385). -/
def State.unreserve (s : State) (port fn j : Nat) : State :=
  let w := hostWin port fn
  let r := s.ring w j
  s.setRing w j { r with reserved := r.reserved - 1 }
/-- A completion record (Table 14-6) written to a function's completion ring `j`, then its vector signalled (R290). A
record for a disabled ring, or on a port whose link is down, is not written (R389, R391, log entry 8). -/
def State.putCpl (s : State) (port fn j : Nat) (c : Cpl) : State :=
  let w := hostWin port fn
  let r := s.ring w j
  if !s.linkUp port || !s.on (R.HOST.JR_CFG.EN w j) then s else
  let size := 2 ^ s.rd (R.HOST.JR_CFG.LOG2 w j)
  let phase := if r.written / size % 2 = 0 then 1 else 0
  let w1 := c.status % 65536 + c.opcode % 256 * 2 ^ 16 + c.job % 65536 * 2 ^ 24 + phase * 2 ^ 63
  let s := s.hostWords port (s.rd (R.HOST.CR_BASE.BASE w j) + r.written % size * 32) [c.tag.toNat, w1, c.result, 0]
  (s.setRing w j { r with written := r.written + 1 }).signal port fn (1 + j)

/-- A completion of a command of a job (R384): held while the job is orphaned (R391), written to the owner's ring 0 after a
takeover (R392), else to the ring paired with the command's. -/
def State.complete (s : State) (port fn j : Nat) (c : Cpl) : State :=
  let s := s.unreserve port fn j
  match s.job c.job with
  | some job =>
    if job.orphaned then s.modJob c.job (fun x => { x with held := x.held ++ [c] })
    else if job.toRing0 then s.putCpl job.port job.fn 0 c
    else s.putCpl port fn j c
  | none => s.putCpl port fn j c
/-- The completion of a posted command. -/
def State.done (s : State) (p : Post) (opcode status result : Nat) : State :=
  s.complete p.port p.fn p.ring ⟨p.p.w0, status, opcode, p.job.toNat, result⟩
/-- The completion of an entry that does not act for its job: it goes to the poster, or after a takeover to the owner's
ring 0 where the owner posted it (R387, R392). -/
def State.reply (s : State) (p : Post) (opcode status : Nat) : State :=
  let c : Cpl := ⟨p.p.w0, status, opcode, p.job.toNat, 0⟩
  let s := s.unreserve p.port p.fn p.ring
  match s.job p.job.toNat with
  | some j => s.putCpl p.port p.fn (if j.toRing0 && j.port == p.port.val && j.fn == p.fn.val then 0 else p.ring) c
  | none => s.putCpl p.port p.fn p.ring c
/-- A posted command that has not completed (R532). -/
def State.await (s : State) (p : Post) (opcode : Nat) (k : PendKind) : State :=
  { s with host := { s.host with waiting := s.host.waiting ++
      [⟨p.port, p.fn, p.ring, p.p.w0, opcode, p.job.toNat, k⟩] } }
/-- The waiting commands that satisfy `f` complete with a status and result. -/
def State.finish (s : State) (f : PendCmd → Bool) (status result : Nat) : State :=
  let hit := s.host.waiting.filter f
  let s := { s with host := { s.host with waiting := s.host.waiting.filter (fun c => !f c) } }
  hit.foldl (fun s c => s.complete c.port c.fn c.ring ⟨c.tag, status, c.opcode, c.job, result⟩) s

/-! ## Contained errors -/

/-- An array emptied by a stop, but for the half operation that completes when its pair's other half has faulted (R46); its
ramp and first-fault code stay. -/
def ArrSt.stop (a : ArrSt) : ArrSt :=
  let run := a.running.filter (·.kept)
  { a with queue := [], running := run, halves := a.halves && !run.isEmpty }
/-- A core stopped with its job (R241): its stream, queued work and transfers end. -/
def CoreSt.stop (c : CoreSt) : CoreSt :=
  { c with running := false, stall := .none, f := c.f.stop, d := c.d.stop, g := c.g.stop, vecs := [], xfers := [],
           sigs := [] }
/-- The cores that satisfy `f` stopped. -/
def State.stopCores (s : State) (f : Nat → Bool) : State :=
  { s with chip := { s.chip with
      cores := Tab.mapVals CoreSt.reset (fun c x => if f c then x.stop else x) s.chip.cores,
      remotes := s.chip.remotes.filter (fun r => !f r.core) } }

/-- The first pass of a job reset reaches this member (R241): the job is marked with the first originating code and
module, and its cores stop. `JOB_RESET_DONE` ends the reset. -/
def State.abortJob (s : State) (id code module : Nat) : State :=
  match s.job id with
  | none => s
  | some j =>
    if j.reset then s else
    (s.modJob id (fun x => { x with reset := true, origCode := code, origModule := module })).stopCores
      (fun c => s.partOfCore c == some j.part)
/-- A module's own number. -/
def State.moduleId (s : State) : Nat :=
  s.rd R.FABG.ID.RACK * 64 + s.rd R.FABG.ID.TRAY * 8 + s.rd R.FABG.ID.SLOT
/-- The jobs a contained error resets (R454): the named one, all of the named partition, or all of the module. -/
def State.resetScope (s : State) (code part job : Nat) : State :=
  (s.host.jobs.filter (fun j => if job ≠ 0xffff then j.id == job else part ≥ 8 || j.part == part)).foldl
    (fun s j => s.abortJob j.id code s.moduleId) s
/-- A contained error: its record, and the reset of its scope (R453, R454). -/
def State.contained (s : State) (code part job unit : Nat) (detail : Option Nat) : State :=
  (s.event code 3 part job unit detail).resetScope code part job
/-- A contained error against the job of a partition; the ERR record is the caller's. -/
def State.containedPart (s : State) (code p : Nat) : State := s.contained code p (s.jobId p) 0xffff none

/-- The ERR record of a function's HOST window (Table 14-11). -/
def State.hostErr (s : State) (w code job : Nat) : State :=
  s.recErr (R.HOST.ERR.VALID w) (R.HOST.ERR.OVERRUN w) [(R.HOST.ERR.CODE w, code), (R.HOST.ERR.JOB w, job)]
/-- A contained host code against a job, recorded in its owner's window (R390, R391, R393, R387). -/
def State.hostContained (s : State) (code : Nat) (j : Job) : State :=
  (s.hostErr (hostWin j.port j.fn) code j.id).contained code j.part j.id 0xffff none

/-- Table 17-2: poison read by a control path of partition `p` is POISON_CONTROL against its job. -/
def State.poisonControl (s : State) (p : Nat) : State :=
  (s.recErr R.RAS.ERR.VALID R.RAS.ERR.OVERRUN [(R.RAS.ERR.CODE, 0x2091), (R.RAS.ERR.UNIT, 0xffff)]).containedPart 0x2091 p

/-- A refused hub or firmware access of partition `p`: ADDR_UNMAPPED (R521), HBM_UNBACKED (R316), SLOW_RANGE (R330) or
SEC_PART_ACCESS (R439), against the owning job; a segment that is OFF discards and raises SRAM_OFF_ACCESS (R301).
The ERR record is the block's that the code's nibble names. -/
def State.refuseHub (s : State) (p a : Nat) (r : Reach) : State :=
  match r with
  | .ok => s
  | .unmapped => s.containedPart 0x2008 p
  | .hole => s.event 0x1002 3 p (s.jobId p) ((a - winBase) / 0x200000) none |>.resetScope 0x1002 p (s.jobId p)
  | .unbacked => s.containedPart 0x2003 p
  | .foreign => (s.recErr R.SEC.ERR.VALID R.SEC.ERR.OVERRUN
      [(R.SEC.ERR.CODE, 0x7003), (R.SEC.ERR.PART, p)]).containedPart 0x7003 p
  | .slowRange =>
    let m := (a - slowBase) / 0x2000000000
    let ch := (s.slowRoute a).2.1
    ((s.recErr (R.NOL.ERR.VALID m) (R.NOL.ERR.OVERRUN m) [(R.NOL.ERR.CODE m, 0x900d), (R.NOL.ERR.CH m, ch),
      (R.NOL.ERR.FLASH m, 0)]).contained 0x900d p (s.jobId p) m (some ch))
  | .off i => s.event 0x2082 2 p (s.jobId p) (i / 8) none
/-- Bytes written to local memory by a hub engine of partition `p`: an OFF window discards them and raises SRAM_OFF_ACCESS
(R301). -/
def State.hubPaste (s : State) (p a n : Nat) (d : Piece) : State :=
  match s.offAt a n with
  | some i => s.refuseHub p a (.off i)
  | none => s.paste a n d
/-- A read of local memory by a hub engine of partition `p`: it wakes RET segments, and raises SRAM_OFF_ACCESS on an OFF window
(R301). -/
def State.hubTouch (s : State) (p : Nat) (r : Rng) : State :=
  match s.offAt r.1 r.2 with
  | some i => s.refuseHub p r.1 (.off i)
  | none => s.wake r.1 r.2
/-- `n` bytes read so: those of an OFF window are poison. -/
def State.hubCut (s : State) (a n : Nat) : Piece := if (s.offAt a n).isSome then ⟨[], [(0, n)]⟩ else s.cut a n
/-- Whether such a read returns poison (R301, R451). -/
def State.hubBad (s : State) (a n : Nat) : Bool := (s.offAt a n).isSome || s.poisoned a n

end Sys2Proof.Machine
end

