-- ==== Sys2Proof/Machine/Flags.lean ====
section
/-! DEFINITION. The flag computations: the flags word of a VEC operation (Table 3-9), what each rounding and each operand
adds to it, and the packing of the word (R95). -/
namespace Sys2Proof.Machine

/-- The flags a VEC operation gathers (Table 3-9) and its overflow count; `nan` says that a NaN was produced (R96). -/
structure VFlags where
  invalid : Bool
  nanIn : Bool
  overflow : Bool
  infIn : Bool
  underflow : Bool
  inexact : Bool
  poison : Bool
  count : Nat
  nan : Bool
deriving DecidableEq, Repr

/-- No flag. -/
def VFlags.none : VFlags := ⟨false, false, false, false, false, false, false, 0, false⟩
/-- Flags of two elements together. -/
def VFlags.or (a b : VFlags) : VFlags :=
  ⟨a.invalid || b.invalid, a.nanIn || b.nanIn, a.overflow || b.overflow, a.infIn || b.infIn,
   a.underflow || b.underflow, a.inexact || b.inexact, a.poison || b.poison, a.count + b.count, a.nan || b.nan⟩
/-- What a source operand sets: NAN_IN and INF_IN. -/
def VFlags.ofOperand (v : Val) : VFlags := { VFlags.none with nanIn := v.isNan, infIn := v.isInf }
/-- What a result sets, given the exact value and its rounding: INVALID when a NaN arose from operands that were none,
OVERFLOW, UNDERFLOW and INEXACT; a NaN that OVF = 1 makes of an overflow or an infinity is no INVALID (Table 3-9). -/
def VFlags.ofResult (exact : Val) (nanIn : Bool) (r : Rounded) : VFlags :=
  { VFlags.none with
    invalid := exact.isNan && !nanIn
    overflow := r.overflow
    underflow := r.underflow
    inexact := r.inexact
    count := if r.overflow then 1 else 0
    nan := r.isNan }
/-- The flag bits [6:0] of Table 3-9. -/
def VFlags.bits (f : VFlags) : Nat :=
  let b (x : Bool) (k : Nat) := if x then 2 ^ k else 0
  b f.invalid 0 + b f.nanIn 1 + b f.overflow 2 + b f.infIn 3 + b f.underflow 4 + b f.inexact 5 + b f.poison 6
/-- The flags word with an operation's flags ORed in and its count added with saturation; bits [31:7] are written 0
(R95). -/
def flagsWord (old flags count : Nat) : Nat :=
  Nat.lor (old % 128) (flags % 128) + min (old / 2 ^ 32 % 2 ^ 32 + count) 0xffffffff * 2 ^ 32

end Sys2Proof.Machine
end

