-- ==== Sys2Proof/Machine/CoreOps.lean ====
section
/-! DEFINITION. What the meanings of the core's commands share: the fault record of R50, the issue of one instruction
(R51, R58, R59), scalar registers (Table 2-1), the range scoreboard (R38). -/
namespace Sys2Proof.Machine

/-- A core changed by `f`. -/
def State.modCore (s : State) (c : Nat) (f : CoreSt → CoreSt) : State := s.setCore c (f (s.core c))

/-- A scalar register; s0 reads as zero (Table 2-1). -/
def CoreSt.s (c : CoreSt) (r : Nat) : Word := if r = 0 then 0 else Tab.get 0 c.sregs r
/-- A write of a scalar register; a write to s0 is discarded (Table 2-1). -/
def CoreSt.setS (c : CoreSt) (r : Nat) (v : Word) : CoreSt :=
  if r = 0 then c else { c with sregs := Tab.set 0 c.sregs r v }
/-- A scalar register of a core. -/
def State.sreg (s : State) (c r : Nat) : Word := (s.core c).s r
/-- A scalar register of a core written. -/
def State.setSreg (s : State) (c r : Nat) (v : Word) : State := s.modCore c (fun x => x.setS r v)

/-- One of the three arrays of a core. -/
def CoreSt.arr (c : CoreSt) (i : Nat) : ArrSt := if i = 0 then c.f else if i = 1 then c.d else c.g
/-- A core with one of its arrays replaced. -/
def CoreSt.setArr (c : CoreSt) (i : Nat) (a : ArrSt) : CoreSt :=
  if i = 0 then { c with f := a } else if i = 1 then { c with d := a } else { c with g := a }
/-- Whether an array has no operation queued, running or draining. -/
def ArrSt.idle (a : ArrSt) : Bool := a.queue.isEmpty && a.running.isEmpty
/-- Every array operation in flight. -/
def CoreSt.inFlight (c : CoreSt) : List ArrOp :=
  c.f.queue ++ c.f.running ++ c.d.queue ++ c.d.running ++ c.g.queue ++ c.g.running
/-- Whether every array operation has drained. -/
def CoreSt.drained (c : CoreSt) : Bool := c.f.idle && c.d.idle && c.g.idle
/-- `CORE.STATUS.RUNNING`: the stream is active or array operations drain (Table 2-18). -/
def CoreSt.runningBit (c : CoreSt) : Bool := c.running || !c.drained

/-- The first fault code kept for ASTAT: per array, or for work that is no array's (Table 2-12). -/
def CoreSt.noteFault (c : CoreSt) (arr code : Nat) : CoreSt :=
  if arr = 3 then (if c.firstOther = 0 then { c with firstOther := code } else c)
  else if (c.arr arr).first = 0 then c.setArr arr { c.arr arr with first := code } else c

/-- R50: a fault fills CORE.AFAULT (the first while VALID = 0, else OVERRUN), raises its event with CLASS 3 or 2, and
halts the core with a contained error against its job, or lets it go on with FAULT_ACT = 1. `force` marks the three
faults that halt whatever FAULT_ACT holds. `arr` is 3 for a fault that is no array's. -/
def State.coreFault (s : State) (c code arr half pc : Nat) (force : Bool) : State :=
  let goesOn := s.on (R.CORE.CTL.FAULT_ACT c) && !force
  let p := match s.partOfCore c with | some p => p | none => 15
  let s := s.recErr (R.CORE.AFAULT.VALID c) (R.CORE.AFAULT.OVERRUN c)
    [(R.CORE.AFAULT.CODE c, code), (R.CORE.AFAULT.ARRAY c, arr), (R.CORE.AFAULT.HALF c, half), (R.CORE.AFAULT.PC c, pc)]
  let s := s.modCore c (fun x => x.noteFault arr code)
  let job := s.jobOfCore c
  if goesOn then s.event code 2 p job c none
  else
    let s := s.event code 3 p job c none
    let s := s.modCore c (fun x => { x with running := false, faultHalt := true, stall := .none })
    if job = 0xffff then s else s.resetScope code p job

/-- ILLEGAL_INSTR of the instruction at `pc`, no array's fault. -/
def State.illegal (s : State) (c pc : Nat) : State := s.coreFault c 0x1001 3 0 pc false
/-- ARR_ADDR of the instruction at `pc`, no array's fault. -/
def State.addrFault (s : State) (c pc : Nat) : State := s.coreFault c 0x1002 3 0 pc false

/-- The 32-byte words of instruction memory that `len` 8-byte units at `pc` touch, as keys of the module's table. -/
def imemWords (c pc len : Nat) : List Nat := (wordsOf (pc * 8) (len * 8)).map (fun w => c * 2048 + w)

/-- Whether a core takes its next instruction: its stream is active and nothing holds it, its die's ACLK PLL is locked
(R476), and the module is not stopped by a fatal error (R469). -/
def State.issues (s : State) (c : Nat) : Bool :=
  (s.core c).running && (s.core c).stall == .none && !(s.core c).offline &&
  s.rd R.CLK.LOCK.PLL / 2 ^ (c / 200) % 2 == 1 && s.rd R.RAS.STAT.STATE == 0

/-- A single-symbol error of instruction memory is corrected on fetch and counted (R59): SRAM_CORR of the core. -/
def State.fetchCorr (s : State) (c : Nat) (ws : List Nat) : State :=
  (ws.filter (fun w => s.chip.imemErr.contains w)).foldl
    (fun s _ => s.event 0x2080 0 ((s.partOfCore c).getD 15) (s.jobOfCore c) c none) s

/-- One instruction of `len` 8-byte units issues (R51, R58, R59): a program counter that passes the end of instruction
memory raises IMEM_RANGE, a poisoned word IMEM_UNCORR, both halting; else single-symbol errors are corrected, the counter
moves on and `k` runs with the instruction's own address. A core that takes no instruction now is left as it is (log
entry 9). -/
def State.issue (s : State) (c len : Nat) (k : State → Nat → State) : State :=
  if !s.issues c then s else
  let pc := (s.core c).pc
  if pc + len > 8192 then s.coreFault c 0x1006 3 0 pc true
  else if (imemWords c pc len).any (fun w => s.chip.imemPoison.contains w) then s.coreFault c 0x1005 3 0 pc true
  else k ((s.fetchCorr c (imemWords c pc len)).modCore c (fun x => { x with pc := pc + len })) pc

/-- The registers of KCG descriptor `i` of a core (Table 2-22). -/
def State.kdesc (s : State) (c i : Nat) : KDesc :=
  ⟨s.rd (R.CORE.KDESC_ID.STREAM c i), s.rd (R.CORE.KDESC_ID.STEP c i), s.rd (R.CORE.KDESC_BASE.BASE c i),
   s.rd (R.CORE.KDESC_PITCH.PITCH c i)⟩
/-- The random word of element (row, column) under a captured descriptor (R33, R91). -/
def State.kcgAt (s : State) (c : Nat) (k : KDesc) (r q : Nat) : BitVec 32 :=
  kcgWord (s.core c).kcgKey (BitVec.ofNat 32 k.stream) (BitVec.ofNat 32 k.step)
    (BitVec.ofNat 64 (k.base + r * k.pitch + q))

/-! ## Accesses in flight -/

/-- Local byte ranges that an operation or access reads or writes. -/
abbrev Touch := List Rng
/-- A range of core `c`'s window as a local range. -/
def winRng (c : Nat) (r : Rng) : Rng := (winAddr c r.1, r.2)

/-- The ranges of the core's window that a vector operation in flight writes: destination, flags word (R95), scale
bytes. -/
def VecPend.writes (v : VecPend) : List Rng :=
  (if v.rows = 0 then [] else [rowsRange v.dstAddr v.rows v.rowBytes v.stride]) ++
  (match v.flagAddr with | some a => [(a, 8)] | none => []) ++ v.blocks.map (fun b => (b, 1))
/-- The local range that a transfer in flight has still to read. -/
def XferPend.reads (x : XferPend) : Touch :=
  if x.srcMod.isSome || x.buf.isSome then [] else [rowsRange x.src x.rows x.rowBytes x.sstride]
/-- The local range that a transfer in flight writes. -/
def XferPend.writes (x : XferPend) : Touch :=
  if x.dstMod.isSome then [] else [rowsRange x.dst x.rows x.rowBytes x.dstride]
/-- The local range that a release store in flight writes. -/
def Sig.writes (g : Sig) : Touch := if g.mod.isSome then [] else [(g.addr, 8)]

/-- The local ranges that accesses in flight before place `q` of core `c`'s issue order write (R38, R95, R271). -/
def CoreSt.writesBefore (k : CoreSt) (c q : Nat) : Touch :=
  (k.inFlight.filter (fun o => o.seq < q)).map (fun o => winRng c o.fields.outWindow) ++
  ((k.vecs.filter (fun v => v.seq < q)).flatMap VecPend.writes).map (winRng c) ++
  (k.xfers.filter (fun x => x.seq < q)).flatMap XferPend.writes ++
  (k.sigs.filter (fun g => g.seq < q)).flatMap Sig.writes
/-- The local ranges that vector operations and transfers in flight before place `q` read (R271); operand ranges of array
operations are not tracked (R38). -/
def CoreSt.readsBefore (k : CoreSt) (c q : Nat) : Touch :=
  ((k.vecs.filter (fun v => v.seq < q)).flatMap (·.reads)).map (winRng c) ++
  (k.xfers.filter (fun x => x.seq < q)).flatMap XferPend.reads
/-- Whether an access of core `c` that reads `rd` and writes `wr` waits for one in flight before place `q` of the issue order:
their ranges overlap and one of them writes. In the core's own memories that is R38 and R271; elsewhere it keeps
accesses of one agent to one location in order, which R270 does not free (log entry 158). -/
def CoreSt.conflicts (k : CoreSt) (c q : Nat) (rd wr : Touch) : Bool :=
  (k.writesBefore c q).any (fun e => (rd ++ wr).any (fun r => Rng.overlaps r e)) ||
  (k.readsBefore c q).any (fun e => wr.any (fun r => Rng.overlaps r e))
/-- Whether an access the core would issue now must wait (R38, R271). -/
def State.mustWait (s : State) (c : Nat) (rd wr : Touch) : Bool := (s.core c).conflicts c (s.core c).seq rd wr

/-- The transactions of the module in flight (Table 1-2): transfers of all cores and remote accesses of no transfer. -/
def State.transactions (s : State) : Nat :=
  s.chip.cores.foldl (fun n e => n + e.2.xfers.length) 0 +
  (s.chip.remotes.filter (fun r => match r.kind with | .xfer _ => false | _ => true)).length
/-- Whether one more transaction may start: at most 65,536 are in flight (Table 1-2). -/
def State.mayTransact (s : State) : Bool := decide (s.transactions < 65536)

/-- Whether a core-window range touches a segment that is OFF (R301). -/
def State.segOff (s : State) (c : Nat) (r : Rng) : Bool :=
  r.2 != 0 && (s.offSeg c r.1 r.2).isSome

end Sys2Proof.Machine
end

