-- ==== Sys2Proof/Machine/ArrayUnit.lean ====
section
/-! DEFINITION. The three arrays of a core: issue and checks (R36, R37, R47), starts, ramps and WARM (R36, R39 to R41), the
exact accumulation (R80 to R86) and the drain (R29 to R33, R42 to R50). -/
namespace Sys2Proof.Machine

/-! ## Issue -/

/-- Operations on an array not yet drained (R37). -/
def ArrSt.load (a : ArrSt) : Nat := a.queue.length + a.running.length
/-- Whether array `i` is enabled. -/
def State.arrOn (s : State) (c i : Nat) : Bool := s.rd (R.CORE.CTL.ARR_EN c) / 2 ^ i % 2 == 1
/-- R37: the enabled array with the fewest operations not drained, ties to F, then D, then G. -/
def State.chooseArr (s : State) (c : Nat) : Option Nat :=
  ([0, 1, 2].filter (fun i => s.arrOn c i)).foldl (fun best i => match best with
    | none => some i
    | some b => if ((s.core c).arr i).load < ((s.core c).arr b).load then some i else some b) none
/-- The array an operation goes to: the one it names, or the sequencer's choice; none when it is disabled. -/
def State.targetArr (s : State) (c : Nat) (f : ArrF) : Option Nat :=
  if f.arr = 3 then s.chooseArr c else if s.arrOn c f.arr then some f.arr else none

/-- ARRAY_OPERATION: class and length (R51), fields before ranges (R47), then a place in the queue and the scoreboard
(R36, R38); with the queue or the scoreboard full the stream stalls and nothing happens. A fault of an ARRAY = 3 operation
while no array is enabled records ARRAY = 3, and one of a reserved HALF records HALF = 0 (log entry 149). -/
def State.arrayOperation (s : State) (c : Nat) (w0 w1 w2 w3 : Word) : State :=
  let f := arrFields w0 w1 w2 w3
  if !s.issues c then s
  else if f.cls ≠ 3 ∨ f.len ≠ 2 then s.issue c 1 (fun s pc => (s.coreFault c 0x1001 3 0 pc true))
  else
    let named := if f.arr = 3 then (match s.chooseArr c with | some i => i | none => 3) else f.arr
    if !f.fieldsOk then s.issue c 4 (fun s pc => s.coreFault c 0x1001 named (f.half % 3) pc false)
    else match s.targetArr c f with
      | none => s.issue c 4 (fun s pc => s.coreFault c 0x1001 named f.half pc false)
      | some i =>
        if !f.rangesOk || f.reads.any (fun r => s.segOff c r) || s.segOff c f.outWindow then
          s.issue c 4 (fun s pc => s.coreFault c 0x1002 i f.half pc false)
        else if ((s.core c).arr i).queue.length ≥ 4 ∨ (s.core c).inFlight.length ≥ 16 then s
        else s.issue c 4 (fun s pc => s.modCore c (fun x =>
          let a := x.arr i
          ({ x with seq := x.seq + 1 } : CoreSt).setArr i
            { a with queue := a.queue ++ [⟨w0, w1, w2, w3, pc, x.seq, f.half, s.kdesc c f.kdesc, false, false, 0, false⟩] }))

/-! ## The ramp governor -/

/-- The governor of die `d`. -/
def State.gov (s : State) (d : Nat) : GovSt := Tab.get ⟨0, [], 0⟩ s.chip.gov d
/-- The governor of die `d` replaced. -/
def State.setGov (s : State) (d : Nat) (g : GovSt) : State :=
  { s with chip := { s.chip with gov := Tab.set ⟨0, [], 0⟩ s.chip.gov d g } }
/-- Whether a ramp waits for admission. -/
def Ramp.waits : Ramp → Bool
  | .waitUp => true
  | .waitDown => true
  | _ => false
/-- A waiting ramp admitted. -/
def Ramp.admitted : Ramp → Ramp
  | .waitUp => .up 0
  | .waitDown => .down 8
  | r => r
/-- A ramp that an operation or a WARM reaches: a cold array asks for a ramp up, a ramp down reverses from its current step,
one not yet admitted is given up (R39). -/
def Ramp.reached : Ramp → Ramp
  | .cold => .waitUp
  | .waitDown => .warm
  | .down g => if g ≥ 8 then .warm else .up g
  | r => r
/-- The ramp state of array `i` of a core replaced. -/
def State.setRamp (s : State) (c i : Nat) (r : Ramp) : State :=
  s.modCore c (fun x => x.setArr i { x.arr i with ramp := r })
/-- The arrays of die `d` whose ramps wait, as logical core × 3 + array within the die. -/
def State.rampWaiters (s : State) (d : Nat) : List Nat :=
  s.chip.cores.flatMap (fun e =>
    if e.1 / 200 = d then ([0, 1, 2].filter (fun i => (e.2.arr i).ramp.waits)).map (fun i => e.1 % 200 * 3 + i) else [])
/-- The first position at or after the pointer, round the 600 arrays of a die. -/
def nextPos (ptr : Nat) (ws : List Nat) : Option Nat :=
  ws.foldl (fun b w => match b with
    | none => some w
    | some v => if (w + 600 - ptr) % 600 < (v + 600 - ptr) % 600 then some w else some v) none
/-- Waiting ramps of die `d` admitted in the pointer's order while the window has room (R492). -/
def State.grantRamps (s : State) (d : Nat) : Nat → State
  | 0 => s
  | n + 1 =>
    let g := s.gov d
    if g.grants.length ≥ s.rd R.PWR.CTL.RAMP_ARR then s else
    match nextPos g.ptr (s.rampWaiters d) with
    | none => s
    | some w =>
      let c := d * 200 + w / 3
      ((s.setRamp c (w % 3) ((s.core c).arr (w % 3)).ramp.admitted).setGov d
        { g with grants := g.grants ++ [g.cycle], ptr := (w + 1) % 600 }).grantRamps d n
/-- The governor of die `d` at work: at most RAMP_ARR ramps in any window of 128 ACLK cycles (R492). -/
def State.govern (s : State) (d : Nat) : State := s.grantRamps d (s.rampWaiters d).length
/-- ACLK cycle `cycle` of die `d` reached: admissions of 128 cycles ago leave the window (R492, log entry 150). -/
def State.govTime (s : State) (d cycle : Nat) : State :=
  let g := s.gov d
  let n := max g.cycle cycle
  (s.setGov d { g with cycle := n, grants := g.grants.filter (fun k => n < k + 128) }).govern d

/-! ## Starts and ramps -/

/-- Whether the operation at a queue's head of core `c` may start: its whole array or half is free and in its kind of use
(R36, R45), and no earlier access in flight conflicts with the ranges it reads and writes (R38, R95, R271). -/
def CoreSt.canStart (k : CoreSt) (c : Nat) (a : ArrSt) (o : ArrOp) : Bool :=
  (if o.half = 0 then a.running.isEmpty else (a.running.isEmpty || a.halves) && a.running.all (fun r => r.half ≠ o.half)) &&
  !k.conflicts c o.seq (o.fields.reads.map (winRng c)) [winRng c o.fields.outWindow]

/-- ARRAY_OP_START at ACLK cycle `cycle`: the head of an enabled array's queue leaves the queue; on a warm array its fill
begins, else when the ramp has ended (R36, R39, R41). Its reads wake RET segments (R301). -/
def State.arrayOpStart (s : State) (c i cycle : Nat) : State :=
  let s := s.govTime (c / 200) cycle
  let a := (s.core c).arr i
  match a.queue with
  | [] => s
  | o :: rest =>
    if !s.arrOn c i || !(s.core c).canStart c a o then s else
    let r := a.ramp.reached
    let s := o.fields.reads.foldl (fun s r => s.wakeWin c r) s
    (s.modCore c (fun x => x.setArr i { a with
      queue := rest, running := a.running ++ [{ o with fed := r == .warm }], ramp := r,
      hold := none, halves := o.half != 0 })).govern (c / 200)
/-- ARRAY_RAMP_DONE: the array's ramp has made `steps` of its steps of 4 cycles more. With all 8 column groups enabled it is
warm and waiting operations begin their fill; with none it is cold (R39). -/
def State.arrayRampDone (s : State) (c i steps cycle : Nat) : State :=
  let s := s.govTime (c / 200) cycle
  let a := (s.core c).arr i
  match a.ramp with
  | .up g =>
    if g + steps ≥ 8 then s.modCore c (fun x => x.setArr i
      { a with ramp := .warm, running := a.running.map (fun o => { o with fed := true }) })
    else s.setRamp c i (.up (g + steps))
  | .down g => s.setRamp c i (if g ≤ steps then .cold else .down (g - steps))
  | _ => s
/-- ARRAY_RAMP_DOWN: a warm array that has been idle for its idle time, and is not held warm or is disabled, asks the governor
for a ramp down (R39, R40, R41, R492). -/
def State.arrayRampDown (s : State) (c i cycle : Nat) : State :=
  let s := s.govTime (c / 200) cycle
  let a := (s.core c).arr i
  if a.ramp == .warm && a.idle && (a.hold.isNone || !s.arrOn c i) then (s.setRamp c i .waitDown).govern (c / 200) else s
/-- Array `i` of a core has been disabled: idle, it goes cold (R41). -/
def State.disableArr (s : State) (c i : Nat) : State :=
  let a := (s.core c).arr i
  let r : Ramp := if !a.idle then a.ramp else match a.ramp with
    | .warm => .waitDown
    | .waitUp => .cold
    | .up g => .down g
    | r => r
  (s.modCore c (fun x => x.setArr i { a with ramp := r, hold := none })).govern (c / 200)
/-- WARM on one array (R40, R41): a disabled array ignores it; a cold one asks for a ramp, one ramping down reverses; the hold
count restarts. -/
def State.warmArr (s : State) (c n i : Nat) : State :=
  let a := (s.core c).arr i
  if !s.arrOn c i then s else
  (s.modCore c (fun x => x.setArr i { a with ramp := a.ramp.reached, hold := some n })).govern (c / 200)
/-- WARM (R40, R57): bits [8:6] the arrays, [31:16] the hold count; the other bits are reserved. -/
def State.warm (s : State) (c : Nat) (w : Word) : State :=
  if fieldOf w 0 4 ≠ 2 ∨ fieldOf w 4 2 ≠ 0 then s.issue c 1 (fun s pc => s.coreFault c 0x1001 3 0 pc true)
  else s.issue c 1 (fun s pc =>
    if fieldOf w 9 7 ≠ 0 ∨ fieldOf w 32 32 ≠ 0 then s.illegal c pc
    else ([0, 1, 2].filter (fun i => fieldOf w (6 + i) 1 == 1)).foldl (fun s i => s.warmArr c (fieldOf w 16 16) i) s)
/-- WARM_HOLD_EXPIRY: the hold ends; the idle timer starts (R40). -/
def State.warmHoldExpiry (s : State) (c i : Nat) : State :=
  s.modCore c (fun x => x.setArr i { x.arr i with hold := none })

/-! ## Exact accumulation -/

/-- An element's bits: element `i` of a row at scratchpad byte `row`, read through `rd` (R530). -/
def elemBits (rd : Nat → Nat) (c row i : Nat) : Nat :=
  match c with
  | 0 => rd (row + i / 2) / (if i % 2 = 0 then 1 else 16) % 16
  | 1 | 2 =>
    let g := row + i / 4 * 3
    (rd g + 256 * rd (g + 1) + 65536 * rd (g + 2)) / 2 ^ (6 * (i % 4)) % 64
  | 6 | 7 => rd (row + 2 * i) + 256 * rd (row + 2 * i + 1)
  | 8 | 10 => rd (row + 4 * i) + 256 * rd (row + 4 * i + 1) + 65536 * rd (row + 4 * i + 2) + 16777216 * rd (row + 4 * i + 3)
  | 9 => (List.range 5).foldr (fun k n => rd (row + 8 * i + k) + 256 * n) 0
  | _ => rd (row + i)
/-- The bytes an element occupies: first byte and count. -/
def elemSpan (c row i : Nat) : Rng :=
  match c with
  | 0 => (row + i / 2, 1)
  | 1 | 2 => (row + i / 4 * 3, 3)
  | 6 | 7 => (row + 2 * i, 2)
  | 8 | 10 => (row + 4 * i, 4)
  | 9 => (row + 8 * i, 8)
  | _ => (row + i, 1)

/-- A format of Table 2-10; BF16 stands in for a reserved code, which no caller passes. -/
def fmtOf (c : Nat) : Fmt := (Fmt.ofCode c).getD .bf16

/-- The state of an accumulation: the lanes, the anchor, the sticky bit. -/
structure Acc where
  acc : Int
  hi : Option Int
  st : Bool
deriving DecidableEq, Repr

/-- The anchor raised to `c`: the lanes shift right and the sticky bit takes what is lost (R80, R83). -/
def Acc.raise (a : Acc) (c : Int) : Acc :=
  match a.hi with
  | none => { a with hi := some c }
  | some h => if c > h then
      let m : Int := (2 ^ (c - h).toNat : Nat)
      ⟨a.acc.fdiv m, some c, a.st || a.acc.fmod m != 0⟩
    else a
/-- One exact product added at weight 2^w: its floor enters the lanes, the rest the sticky bit (R80, R83). -/
def Acc.addProd (w : Int) (a : Acc) (p : Q) : Acc :=
  { a with acc := a.acc + p.floorAt w, st := a.st || !p.onGrid w }

/-- T of R80 for a pair of formats. -/
def laneT (fa fb : Fmt) : Int :=
  let mx (f : Fmt) : Q := if f = .int8 then Q.ofInt 128 else f.maxFin
  ((mx fa).mul (mx fb)).expo + 17

/-- The blocks of R80: `n` blocks of `len` products from block `b` on. `cexp b` is the sum of the two decode exponents,
`prod k` the product of the two element values. -/
def accNarrow (t : Int) (len k : Nat) (cexp : Nat → Int) (prod : Nat → Q) : Nat → Nat → Acc → Acc
  | 0, _, a => a
  | n + 1, b, a =>
    let a := a.raise (cexp b)
    let w := (a.hi.getD 0) + t - 127
    let a := ((List.range' (b * len) (min len (k - b * len))).map (fun i => (prod i).mul (Q.pow2 (cexp b)))).foldl
      (Acc.addProd w) a
    accNarrow t len k cexp prod n (b + 1) a

/-- The pass blocks of R83: 32 products each, anchored at the largest sum of operand exponents among finite non-zero
products (`ex`). -/
def accWide (k : Nat) (prod : Nat → Q) (ex : Nat → Option Int) : Nat → Nat → Acc → Acc
  | 0, _, a => a
  | n + 1, b, a =>
    let is := List.range' (b * 32) (min 32 (k - b * 32))
    let a := match is.filterMap ex with
      | [] => a
      | e :: t =>
        let a := a.raise (t.foldl max e)
        (is.map prod).foldl (Acc.addProd ((a.hi.getD 0) - 53)) a
    accWide k prod ex n (b + 1) a

/-- What special operands make of a sum (R86): NaN from a NaN product or from infinities of both signs, else an
infinity, else nothing. -/
def specialSum (ps : List Val) : Option Val :=
  if ps.any Val.isNan then some .nan
  else match (ps.any (fun p => p == .inf false)), (ps.any (fun p => p == .inf true)) with
    | true, true => some .nan
    | true, false => some (.inf false)
    | false, true => some (.inf true)
    | false, false => none

/-- One output element before the drain: X with its sticky bit, or a special value (R80, R83, R86). `a k` and `b k` are
operand values, `ca` and `cb` the decode exponents of a block (none: scale 0xFF). -/
def accumulate (fa fb : Nat) (k : Nat) (a b : Nat → Val) (ca cb : Nat → Option Int) : Val × Bool :=
  let blocks := (k + 31) / 32
  let ps := (List.range k).map (fun i => (a i).mul (b i))
  let badScale := (List.range blocks).any (fun i => (ca i).isNone || (cb i).isNone)
  if badScale then (.nan, false) else
  match specialSum ps with
  | some v => (v, false)
  | none =>
    let prod (i : Nat) : Q := match (a i).mul (b i) with | .fin _ q => q | _ => Q.zero
    if fa ≤ 5 then
      let t := laneT (fmtOf fa) (fmtOf fb)
      let one := !(isBlockScaled fa || isBlockScaled fb)
      let cexp (i : Nat) : Int := if one then 0 else (ca i).getD 0 + (cb i).getD 0
      let r := accNarrow t (if one then k else 32) k cexp prod (if one then 1 else blocks) 0 ⟨0, none, false⟩
      (.ofQ ⟨r.acc, 1, (r.hi.getD 0) + t - 127⟩, r.st)
    else
      let ex (i : Nat) : Option Int := match a i, b i with
        | .fin _ p, .fin _ q => if p.m = 0 ∨ q.m = 0 then none else some (p.expo + q.expo)
        | _, _ => none
      let r := accWide k prod ex blocks 0 ⟨0, none, false⟩
      (.ofQ ⟨r.acc, 1, (r.hi.getD 0) - 53⟩, r.st)

/-- The FP32 scales of an element applied at the drain (R85): V = X / (sa × sb). A NaN in X or in a scale gives NaN, and an
infinite X is the result whatever the scales (R86); for a finite X and an infinite or zero scale the spec states no value
(none). -/
def applyScales (x : Val) (sa sb : Option Val) : Option Val :=
  let one (v : Option Val) : Val := match v with | some v => v | none => .ofQ (Q.ofInt 1)
  match x, one sa, one sb with
  | .nan, _, _ => some .nan
  | _, .nan, _ => some .nan
  | _, _, .nan => some .nan
  | .inf n, _, _ => some (.inf n)
  | _, .inf _, _ => none
  | _, _, .inf _ => none
  | .fin _ v, .fin _ p, .fin _ q => if p.m = 0 ∨ q.m = 0 then none else some (.ofQ (v.div (p.mul q)))

/-! ## The drain -/

/-- A byte of a core's window, as a number. -/
def State.winByte (s : State) (c off : Nat) : Nat := (s.byte (winAddr c off)).toNat
/-- Whether a range of a core's window touches poison. -/
def State.winPoison (s : State) (c : Nat) (r : Rng) : Bool := s.poisoned (winAddr c r.1) r.2

/-- Whether row `m` is masked (R42). -/
def State.rowMasked (s : State) (c : Nat) (f : ArrF) (m : Nat) : Bool :=
  f.mask && s.winByte c (f.maskw * 64 + m / 8) / 2 ^ (m % 8) % 2 == 1
/-- Whether every row of the granule of 8 that holds row `m` is masked (R43). -/
def State.granuleMasked (s : State) (c : Nat) (f : ArrF) (m : Nat) : Bool :=
  f.mask && (List.range' (m / 8 * 8) 8).all (fun i => decide (i ≥ f.m) || s.rowMasked c f i)
/-- The rows that are fed (R43). -/
def State.fedRows (s : State) (c : Nat) (f : ArrF) : List Nat :=
  (List.range f.m).filter (fun m => !s.granuleMasked c f m)

/-- Row and element of A[m, k] as stored, and of B[k, n] (R25). -/
def ArrF.aAt (f : ArrF) (m k : Nat) : Nat × Nat := if f.atrn then (f.abase + k * f.astride, m) else (f.abase + m * f.astride, k)
/-- Row and element of B[k, n] as stored (R25). -/
def ArrF.bAt (f : ArrF) (k n : Nat) : Nat × Nat := if f.btrn then (f.bbase + n * f.bstride, k) else (f.bbase + k * f.bstride, n)
/-- The byte range of the scale that outer index `o` and block `b` read (R72, R73). -/
def scaleSpan (c base s128 o b k : Nat) : Rng :=
  if isBlockScaled c then (base + o * ((k + 31) / 32) + b, 1)
  else if isF8 c then (base + (if s128 = 1 then o / 128 * 4 else 0), 4) else (base, 0)

/-- The ranges that the fed rows read (R43, R44): their A elements and A scales, and all of B with its scales when any row
is fed. -/
def ArrF.consumed (f : ArrF) (fed : List Nat) : List Rng :=
  let blocks := List.range ((f.k + 31) / 32)
  if fed.isEmpty then [] else
  fed.flatMap (fun m =>
    (List.range f.k).map (fun k => elemSpan f.afmt (f.aAt m k).1 (f.aAt m k).2) ++
    blocks.map (fun b => scaleSpan f.afmt f.ascale (if f.as128 then 1 else 0) m b f.k)) ++
  (List.range f.n).flatMap (fun n =>
    (List.range f.k).map (fun k => elemSpan f.bfmt (f.bAt k n).1 (f.bAt k n).2) ++
    blocks.map (fun b => scaleSpan f.bfmt f.bscale (if f.bs128 then 1 else 0) n b f.k))

/-- An FP32 scale at a byte of the scratchpad. -/
def State.scaleVal (s : State) (c off : Nat) : Val := Fmt.fp32.decode (s.le (winAddr c off) 4)
/-- The decode exponent of an operand's block scale (R80): 0 for a format without block scales. -/
def State.blockExp (s : State) (c fmt base o b k : Nat) : Option Int :=
  if isBlockScaled fmt then e8m0Exp (s.winByte c (base + o * ((k + 31) / 32) + b)) else some 0
/-- The FP32 scale of an F8 operand for outer index `o` (R73); none for other formats. -/
def State.f8ScaleOf (s : State) (c fmt base : Nat) (s128 : Bool) (o : Nat) : Option Val :=
  if isF8 fmt then some (s.scaleVal c (base + (if s128 then o / 128 * 4 else 0))) else none

/-- The window offset of output element (m, n) (R31). -/
def ArrF.outAt (f : ArrF) (m n : Nat) : Nat := f.obase + m * f.ostride + n * f.outElem + (if f.drain then 0 else abOff)

/-- The exact V of output element (m, n) (R85), none where a scale leaves it unstated; with its sticky bit. -/
def State.exactV (s : State) (c : Nat) (f : ArrF) (m n : Nat) : Option Val × Bool :=
  let a (k : Nat) : Val := (fmtOf f.afmt).decode (elemBits (s.winByte c) f.afmt (f.aAt m k).1 (f.aAt m k).2)
  let b (k : Nat) : Val := (fmtOf f.bfmt).decode (elemBits (s.winByte c) f.bfmt (f.bAt k n).1 (f.bAt k n).2)
  let (x, st) := accumulate f.afmt f.bfmt f.k a b (fun i => s.blockExp c f.afmt f.ascale m i f.k)
    (fun i => s.blockExp c f.bfmt f.bscale n i f.k)
  let v := applyScales x (s.f8ScaleOf c f.afmt f.ascale f.as128 m) (s.f8ScaleOf c f.bfmt f.bscale f.bs128 n)
  let prior := (fmtOf f.ofmt).decode (s.le (winAddr c (f.outAt m n)) (rowBytes f.ofmt 1))
  (v.map (fun v => if f.acc then v.add prior else v), st)

/-- The rounding of element (m, n) (R32, R33, R85): nearest even with the sticky bit, or stochastic with the random bits
of the operation's KCG descriptor. -/
def State.drainRnd (s : State) (c : Nat) (o : ArrOp) (f : ArrF) (m n : Nat) (st : Bool) : Rnd :=
  if !f.grad then .rne st else .sr ((s.kcgAt c o.kd m n).toNat / 65536)

/-- What element (m, n) is computed from, as numbers: formats, operand bits, scales and prior value (R22). -/
def State.elemInputs (s : State) (c : Nat) (f : ArrF) (m n : Nat) : List Nat :=
  let w := s.winByte c
  [f.afmt, f.bfmt, f.ofmt, if f.ovf then 1 else 0] ++
  (List.range f.k).flatMap (fun k => [elemBits w f.afmt (f.aAt m k).1 (f.aAt m k).2, elemBits w f.bfmt (f.bAt k n).1 (f.bAt k n).2]) ++
  [s.le (winAddr c (f.ascale + (if f.as128 then m / 128 * 4 else 0))) 4,
   s.le (winAddr c (f.bscale + (if f.bs128 then n / 128 * 4 else 0))) 4,
   if f.acc then s.le (winAddr c (f.outAt m n)) (rowBytes f.ofmt 1) else 0]

/-- The rounded bits of element (m, n), and whether they are a NaN. `i` numbers the element for a free value: the bits are
open for a dirty operation (R38). Where a scale leaves V unstated they are an open function of what the element is
computed from (R22, R97). -/
def State.drainElem (s : State) (c : Nat) (o : ArrOp) (f : ArrF) (m n i : Nat) : Nat × Bool :=
  let fmt := fmtOf f.ofmt
  let freed (x : Nat) : Nat × Bool := (fmt.openBits x, (fmt.decode (fmt.openBits x)).isNan)
  if o.dirty then freed (Config.freeValue (s.freeCtr + i)).toNat else
  let (v, st) := s.exactV c f m n
  match v with
  | none => freed (Config.openValue (s.elemInputs c f m n)).toNat
  | some v => let r := fmt.round (s.drainRnd c o f m n st) f.ovf v; (r.bits, r.isNan)

/-- The output elements written, in row order: those of unmasked rows (R43). -/
def State.outElems (s : State) (c : Nat) (f : ArrF) : List (Nat × Nat) :=
  ((List.range f.m).filter (fun m => !s.rowMasked c f m)).flatMap (fun m => (List.range f.n).map (fun n => (m, n)))

/-- How an array operation's drain ended. -/
inductive Drained where
  | clean
  | nanTrap
  | poison
deriving DecidableEq, Repr

/-- Whether the operation consumes poison in rows `lo` to `hi` − 1: in what its fed rows read, or in a prior value it
accumulates onto (R44, R49). -/
def State.consumesPoison (s : State) (c : Nat) (f : ArrF) (lo hi : Nat) : Bool :=
  let now (m : Nat) : Bool := decide (lo ≤ m) && decide (m < hi)
  (f.consumed ((s.fedRows c f).filter now)).any (fun r => r.2 != 0 && s.winPoison c r) ||
  (f.acc && (s.outElems c f).any (fun e => now e.1 && s.winPoison c (f.outAt e.1 e.2, f.outElem)))
/-- Whether the row-mask bitmap is poisoned (R44). -/
def State.maskPoison (s : State) (c : Nat) (f : ArrF) : Bool := f.mask && s.winPoison c (f.maskw * 64, (f.m + 7) / 8)

/-- The drained operation leaves its array; the array leaves half use when it is empty (R45). -/
def ArrSt.retire (a : ArrSt) (o : ArrOp) : ArrSt :=
  let run := a.running.filter (fun x => x.seq ≠ o.seq)
  { a with running := run, halves := a.halves && !run.isEmpty }

/-- The bytes of an output element: a slot of the accumulator buffer reads 0 above the value (R31). -/
def ArrF.outBytes (f : ArrF) (bits : Nat) : List Byte := leBytes f.outElem bits

/-- A row of an operation written whole with its elements' rounded bits (R273, R299). -/
def State.writeOut (s : State) (c : Nat) (o : ArrOp) (f : ArrF) (m : Nat) (bits : List Nat) : State :=
  let bs := bits.flatMap f.outBytes
  s.landBy (some (c, o.seq)) (winAddr c (f.outAt m 0)) bs.length (.ofBytes bs)
/-- The elements of an operation poisoned (R49). -/
def State.poisonElems (s : State) (c : Nat) (f : ArrF) (es : List (Nat × Nat)) : State :=
  es.foldl (fun s e => s.poisonRange (winAddr c (f.outAt e.1 e.2)) f.outElem) s

/-- An operation ends in a fault (R46 to R50): it leaves its array, its pair's other half runs on to its end, its output is
poisoned over `es`, and the core records the fault. -/
def State.arrayAbort (s : State) (c i : Nat) (o : ArrOp) (es : List (Nat × Nat)) (code : Nat) : State :=
  let s := s.modCore c (fun x =>
    let a := (x.arr i).retire o
    x.setArr i { a with running := a.running.map (fun r => { r with kept := true }) })
  (s.poisonElems c o.fields es).coreFault c code i o.half o.pc false

/-- ARRAY_OP_DRAIN of the operation running on array `i` (whole, or in the given half): with `upto` only its rows below that
number land now (R270, R273), else the rest and the operation ends. Results are rounded once and written, or poison over
its output on a NaN trap or consumed poison, with the fault of that operation alone (R46 to R50). -/
def State.arrayDrain (s : State) (c i half : Nat) (upto : Option Nat) : State × Option (ArrOp × Drained) :=
  let a := (s.core c).arr i
  match a.running.find? (fun o => o.half == half) with
  | none => (s, none)
  | some o =>
    if !o.fed then (s, none) else
    let f := o.fields
    let hi := match upto with | none => f.m | some k => min (max k o.done) f.m
    let es := s.outElems c f
    if s.maskPoison c f then
      let all := (List.range f.m).flatMap (fun m => (List.range f.n).map (fun n => (m, n)))
      (s.arrayAbort c i o all 0x1004, some (o, .poison))
    else if s.consumesPoison c f o.done hi then (s.arrayAbort c i o es 0x1004, some (o, .poison))
    else
      let rows := (List.range' o.done (hi - o.done)).filter (fun m => !s.rowMasked c f m)
      let rs := rows.map (fun m => (m, (List.range f.n).map (fun n => s.drainElem c o f m n (m * f.n + n))))
      if f.trap ∧ rs.any (fun r => r.2.any (·.2)) then (s.arrayAbort c i o es 0x1003, some (o, .nanTrap))
      else
        let s := rs.foldl (fun s r => s.writeOut c o f r.1 (r.2.map (·.1))) s
        let s := if o.dirty ∧ upto.isNone then s.used (f.m * f.n) else s
        match upto with
        | none => (s.modCore c (fun x => x.setArr i ((x.arr i).retire o)), some (o, .clean))
        | some _ => (s.modCore c (fun x => x.setArr i { x.arr i with
            running := (x.arr i).running.map (fun r => if r.seq = o.seq then { r with done := hi } else r) }), none)

end Sys2Proof.Machine
end

