-- ==== Sys2Proof/Machine/Lc288.lean ====
section
/-! DEFINITION. The LC-288 code (R449 to R452): arithmetic of its field, the encoder, the decoder, poison. -/
namespace Sys2Proof.Machine

/-- Multiplication by x in GF(2^8) with 0x11D (R449). -/
def gfX (a : Nat) : Nat := if a < 128 then 2 * a else (2 * a) ^^^ 0x11d
/-- The product of `a` and the low `k` bits of `b` in GF(2^8). -/
def gfMulN (a b : Nat) : Nat → Nat
  | 0 => 0
  | k + 1 => (if b % 2 = 1 then a else 0) ^^^ gfMulN (gfX a) (b / 2) k
/-- The product in GF(2^8). -/
def gfMul (a b : Nat) : Nat := gfMulN a b 8
/-- α to the power `k` (R449). -/
def gfPow : Nat → Nat
  | 0 => 1
  | k + 1 => gfX (gfPow k)

/-- The inverse in GF(2^8): the power 254. -/
def gfInv (a : Nat) : Nat := (List.range 254).foldl (fun x _ => gfMul x a) 1

/-- Byte `i` of a codeword: symbol c[i] of R452. -/
def lcSym (w : BitVec 288) (i : Nat) : Nat := w.toNat / 2 ^ (8 * i) % 256
/-- Syndrome `k` of a codeword (R452). -/
def lcSyn (c : List Nat) (k : Nat) : Nat :=
  (List.range 36).foldl (fun s i => s ^^^ gfMul (c.getD i 0) (gfPow (k * (35 - i) % 255))) 0
/-- The syndromes of a codeword. -/
def lcSyns (c : List Nat) : List Nat := (List.range 4).map (lcSyn c)
/-- The poison syndrome SP: check symbols each XORed with 0x5A (R451). -/
def lcPoison : List Nat := lcSyns (List.replicate 32 0 ++ List.replicate 4 0x5a)
/-- The discrete logarithm e with a = b · α^e, for e up to 35; none where it is larger (R452). -/
def lcLog (a b : Nat) : Option Nat := (List.range 36).find? (fun e => gfMul b (gfPow e) == a)

/-- lc288_decode (R452): the 32 data bytes, and 0 clean, 1 corrected, 2 poison, 3 uncorrectable. -/
def lcDecode (c : List Nat) : List Nat × Nat :=
  let s := lcSyns c
  let s0 := s.getD 0 0
  let s1 := s.getD 1 0
  let s2 := s.getD 2 0
  let s3 := s.getD 3 0
  if s = [0, 0, 0, 0] then (c.take 32, 0)
  else if s = lcPoison then (c.take 32, 2)
  else if s0 ≠ 0 ∧ s1 ≠ 0 ∧ gfMul s1 s1 = gfMul s0 s2 ∧ gfMul s2 s2 = gfMul s1 s3 then
    match lcLog s1 s0 with
    | some e => ((c.set (35 - e) (c.getD (35 - e) 0 ^^^ s0)).take 32, 1)
    | none => (c.take 32, 3)
  else (c.take 32, 3)
/-- The 36 symbols of a 288-bit codeword, data bytes first (R450). -/
def lcSyms (w : BitVec 288) : List Nat := (List.range 36).map (lcSym w)

/-- One step of the division by the generator polynomial (R449): the remainder takes data byte `d`. -/
def lcStep (r : List Nat) (d : Nat) : List Nat :=
  let f := r.getD 0 0 ^^^ d
  [r.getD 1 0 ^^^ gfMul f 0x0f, r.getD 2 0 ^^^ gfMul f 0x36, r.getD 3 0 ^^^ gfMul f 0x78, gfMul f 0x40]
/-- The check symbols of 32 data bytes (R450). -/
def lcCheck (d : List Nat) : List Nat := d.foldl lcStep [0, 0, 0, 0]

end Sys2Proof.Machine
end

