-- ==== Sys2Proof/Machine/CoreCtl.lean ====
section
/-! DEFINITION. The control instructions (Table 2-12, R54, R55), register views of a core, instruction-memory loads (R58),
start and stop (R62), retirement requests (R64, R65) and reserved instructions (R51). -/
namespace Sys2Proof.Machine

/-- The fields of a CTL instruction (R54): class, length, OP, destination, sources, reserved bits and immediate. -/
structure CtlF where
  cls : Nat
  len : Nat
  op : Nat
  d : Nat
  a : Nat
  b : Nat
  rsv : Nat
  imm : BitVec 32
deriving DecidableEq, Repr

/-- The fields of a CTL word. -/
def ctlFields (w : Word) : CtlF where
  cls := fieldOf w 0 4
  len := fieldOf w 4 2
  op := fieldOf w 6 6
  d := fieldOf w 12 5
  a := fieldOf w 17 5
  b := fieldOf w 22 5
  rsv := fieldOf w 27 5
  imm := BitVec.ofNat 32 (fieldOf w 32 32)
/-- Whether an OP value is in Table 2-12. -/
def ctlOp (op : Nat) : Bool := decide (op ≤ 0xc) || (decide (0x10 ≤ op) && decide (op ≤ 0x13)) || (decide (0x18 ≤ op) && decide (op ≤ 0x1a))

/-- The CTL instruction with operation `op` in word `w`: another class or length is R51's, an OP outside Table 2-12 and
reserved bits [31:27] that are not 0 (log entry 7) are illegal, and a word with another OP of the table is not this
command's; else `k` runs with the fields and the instruction's address. -/
def State.ctl (s : State) (c op : Nat) (w : Word) (k : CtlF → State → Nat → State) : State :=
  let f := ctlFields w
  if f.cls ≠ 0 ∨ f.len ≠ 0 then s.issue c 1 (fun s pc => s.coreFault c 0x1001 3 0 pc true)
  else if !ctlOp f.op then s.issue c 1 (fun s pc => s.illegal c pc)
  else if f.op ≠ op then s
  else s.issue c 1 (fun s pc => if f.rsv ≠ 0 then s.illegal c pc else k f s pc)
/-- A CTL instruction that writes `s[d]` from `s[a]`, `s[b]` and the immediate. -/
def State.alu (s : State) (c op : Nat) (w : Word) (g : Word → Word → BitVec 32 → Word) : State :=
  s.ctl c op w (fun f s _ => s.setSreg c f.d (g (s.sreg c f.a) (s.sreg c f.b) f.imm))
/-- A CTL branch to imm[12:0], in 8-byte units, when `cond` holds of `s[a]` and `s[b]`. -/
def State.branch (s : State) (c op : Nat) (w : Word) (cond : Word → Word → Bool) : State :=
  s.ctl c op w (fun f s _ => if cond (s.sreg c f.a) (s.sreg c f.b)
    then s.modCore c (fun x => { x with pc := f.imm.toNat % 8192 }) else s)
/-- What the fetch of the next instruction's first word finds in instruction memory (R59): a word with a single-symbol
error, or one that LC-288 cannot correct or that is poisoned. -/
def State.fetchCell (s : State) (c : Nat) (cell : Option (BitVec 288)) : State :=
  match cell with
  | none => s
  | some raw =>
    let w := c * 2048 + (s.core c).pc / 4
    let st := (lcDecode (lcSyms raw)).2
    if (s.core c).pc ≥ 8192 ∨ st = 0 then s
    else if st = 1 then { s with chip := { s.chip with imemErr := addWord s.chip.imemErr w } }
    else { s with chip := { s.chip with imemPoison := addWord s.chip.imemPoison w } }
/-- NOP; `cell` is the codeword that its fetch reads, where that is not clean (R54, R59). -/
def State.nop (s : State) (c : Nat) (w : Word) (cell : Option (BitVec 288)) : State :=
  if !s.issues c then s else (s.fetchCell c cell).ctl c 0 w (fun _ s _ => s)

/-- `CORE.STATUS` (Table 2-18). -/
def State.coreStatus (s : State) (c : Nat) : Word :=
  let x := s.core c
  let b (p : Bool) (k : Nat) : Nat := if p then 2 ^ k else 0
  BitVec.ofNat 64 (b x.runningBit 0 + b x.faultHalt 1 + b (!x.f.idle) 2 + b (!x.d.idle) 3 + b (!x.g.idle) 4 +
    b (x.f.ramp == .warm) 5 + b (x.d.ramp == .warm) 6 + b (x.g.ramp == .warm) 7 +
    b x.f.halves 8 + b x.d.halves 9 + b x.g.halves 10 + x.pc % 8192 * 2 ^ 16)
/-- The physical core that carries a logical core: the fuse map's (log entry 2) or the spare it was moved to (R64). -/
def State.physOf (s : State) (c : Nat) : Nat :=
  match (s.core c).physical with
  | some p => p
  | none => c / 200 * 216 + c % 200 / 100 * 108 + c % 100
/-- `CORE.ID` (Table 2-16). -/
def State.coreId (s : State) (c : Nat) : Word :=
  let ph := s.physOf c
  let spare : Nat := if (s.core c).physical.isSome then 1 else 0
  let cross : Nat := if ph / 108 = coreStack c then 0 else 1
  BitVec.ofNat 64 (c + ph * 2 ^ 16 + c / 200 * 2 ^ 32 + coreStack c * 2 ^ 36 + spare * 2 ^ 40 + cross * 2 ^ 41)
/-- A read of the core's own register at byte offset `off`; a reserved offset reads 0 (R8). -/
def State.coreReg (s : State) (c off : Nat) : Word :=
  if off = 0 then s.coreId c else if off = 0x10 then s.coreStatus c
  else match regDef (0x8000000 + c * 0x1000 + off) with
    | some _ => s.rdW (0x8000000 + c * 0x1000 + off)
    | none => 0

/-- The offsets MTCR may write (R55), with the bits that are not reserved. -/
def mtcrMask (off : Nat) : Option Word :=
  if off = 0x38 ∨ off = 0x40 ∨ off = 0x48 then some (-1)
  else if 0x100 ≤ off ∧ off < 0x300 then
    match off % 0x20 with
    | 0 => some (-1)
    | 8 => some (-1)
    | 0x10 => some 0xffffffffff#64
    | _ => none
  else none

/-- MTCR (R55). -/
def State.mtcr (s : State) (c : Nat) (w : Word) : State :=
  s.ctl c 0x18 w (fun f s pc =>
    let off := f.imm.toNat % 4096
    match mtcrMask off with
    | some m => s.wrW (0x8000000 + c * 0x1000 + off) (s.sreg c f.a &&& m)
    | none => s.illegal c pc)
/-- ASTAT: the stream waits (Table 2-12). -/
def State.astat (s : State) (c : Nat) (w : Word) : State :=
  s.ctl c 0x1a w (fun f s _ =>
    s.modCore c (fun x => { x with stall := .astat (Fin.ofNat 4 f.imm.toNat) (Fin.ofNat 32 f.d) }))
/-- ASTAT_DONE: once what ASTAT waits for has drained or completed, s[d] takes the first fault code since the previous
ASTAT of its kind, which is cleared (Table 2-12). -/
def State.astatDone (s : State) (c : Nat) : State :=
  let x := s.core c
  match x.stall with
  | .astat i d =>
    if i = 3 then
      if x.vecs.isEmpty && x.xfers.isEmpty then
        s.setCore c (({ x with stall := .none, firstOther := 0 } : CoreSt).setS d (BitVec.ofNat 64 x.firstOther))
      else s
    else if (x.arr i).idle then
      s.setCore c ((({ x with stall := .none } : CoreSt).setArr i { x.arr i with first := 0 }).setS d
        (BitVec.ofNat 64 (x.arr i).first))
    else s
  | _ => s

/-- HALT: issue stops; RUNNING clears once operations have drained (Table 2-12). -/
def State.halt (s : State) (c : Nat) (w : Word) : State :=
  s.ctl c 1 w (fun _ s _ => s.modCore c (fun x => { x with running := false }))

/-- RESERVED_INSTRUCTION (R51, R54, R94, R276): a reserved class, or a length code that is reserved or not its class's, is
ILLEGAL_INSTR and halts the core whatever FAULT_ACT holds; a reserved OP of CTL, SYNC, VEC or COLL is ILLEGAL_INSTR under
FAULT_ACT. A word that another command of the table names is not this command's: nothing happens. -/
def State.reservedInstr (s : State) (c : Nat) (w : Word) : State :=
  let cls := fieldOf w 0 4
  let len := fieldOf w 4 2
  let legal := (cls ≤ 2 ∧ len = 0) ∨ (cls = 3 ∧ len = 2) ∨ (4 ≤ cls ∧ cls ≤ 6 ∧ len = 1)
  if !legal then s.issue c 1 (fun s pc => s.coreFault c 0x1001 3 0 pc true)
  else if (cls = 0 ∧ !ctlOp (fieldOf w 6 6)) ∨ (cls = 1 ∧ fieldOf w 6 4 > 3) then s.issue c 1 (fun s pc => s.illegal c pc)
  else if (cls = 5 ∧ fieldOf w 6 6 > 0xf) ∨ (cls = 6 ∧ fieldOf w 6 2 > 1) then s.issue c 2 (fun s pc => s.illegal c pc)
  else s

/-- IMEM_LOAD_GO (R58): a write of CORE.IMEM_CMD by a control processor. With GO = 1 a load is refused with ERR while the
core runs, or where the source does not lie in a region its partition may reach; else BUSY is set. -/
def State.imemLoadGo (s : State) (c : Nat) (v : Word) : State :=
  let s := s.wrs [(R.CORE.IMEM_CMD.LINES c, fieldOf v 0 7),
    (R.CORE.IMEM_CMD.ERR c, if fieldOf v 10 1 = 1 then 0 else s.rd (R.CORE.IMEM_CMD.ERR c))]
  if fieldOf v 8 1 = 0 then s else
  let n := (fieldOf v 0 7 + 1) * 512
  let a := s.rd (R.CORE.IMEM_SRC.SRC c) * 512
  if (s.core c).runningBit then s.wr (R.CORE.IMEM_CMD.ERR c) 1
  else if placeOf a = .hbm ∧ (s.partOfCore c).isSome ∧ s.reach (s.partOfCore c) a n false = .ok then
    s.wr (R.CORE.IMEM_CMD.BUSY c) 1
  else s.wr (R.CORE.IMEM_CMD.ERR c) 1
/-- `n` bytes, a multiple of 32, with their poisoned parts written to a core's instruction memory from its start. -/
def State.loadImem (s : State) (c n : Nat) (d : Piece) : State :=
  let other (w : Nat) : Bool := !(decide (c * 2048 ≤ w) && decide (w < c * 2048 + n / 32))
  let keep := s.chip.imemPoison.filter other
  { s with chip := { s.chip with imem := pasteTab s.chip.imem (c * 65536) n d.data,
                                 imemErr := s.chip.imemErr.filter other,
                                 imemPoison := d.pois.foldl (fun p r => addWord p (c * 2048 + r.1 / 32)) keep } }
/-- IMEM_LOAD_DONE: the lines are in instruction memory and BUSY clears; a poisoned source sets ERR (Table 2-20), and the
words it gave are poisoned (R456). The load does not end while a line of its source waits for a retrain (R318). -/
def State.imemLoadDone (s : State) (c : Nat) : State :=
  let n := (s.rd (R.CORE.IMEM_CMD.LINES c) + 1) * 512
  let a := s.rd (R.CORE.IMEM_SRC.SRC c) * 512
  if !s.on (R.CORE.IMEM_CMD.BUSY c) || s.held a n then s else
  let d := s.cut a n
  let s := s.wr (R.CORE.IMEM_CMD.BUSY c) 0
  (if d.pois.isEmpty then s else s.wr (R.CORE.IMEM_CMD.ERR c) 1).loadImem c n d

/-- CORE_RUN (R62): RUN = 1 starts a halted core at START_PC, but not one halted by a fault while AFAULT is valid, nor one
whose die's ACLK PLL is relocking (R476). -/
def State.coreRun (s : State) (c : Nat) : State :=
  let x := s.core c
  if x.runningBit || x.offline || s.rd R.CLK.LOCK.PLL / 2 ^ (c / 200) % 2 != 1 || (x.faultHalt && s.on (R.CORE.AFAULT.VALID c)) then s
  else (s.wr (R.CORE.CTL.RUN c) 1).setCore c
    { x with running := true, faultHalt := false, stall := .none, pc := s.rd (R.CORE.START_PC.PC c) }
/-- CORE_STOP (R62): RUN = 0 halts the core after the current instruction. -/
def State.coreStop (s : State) (c : Nat) : State :=
  (s.wr (R.CORE.CTL.RUN c) 0).modCore c (fun x => { x with running := false })

end Sys2Proof.Machine
end

