-- ==== Sys2Proof/Machine/Transc.lean ====
section
/-! DEFINITION. The functions that R93 asks to be correctly rounded: exp, ln, 1/√x, √x and the logistic sigmoid. Each is
given by bounds that tighten with the precision; `roundBounds` raises the precision until both bounds round alike
(log entry 12). -/
namespace Sys2Proof.Machine

/-- floor(√n) by one bit at a time: `k` bits still to try, `r` found so far. -/
def isqrtGo (n : Nat) : Nat → Nat → Nat
  | 0, r => r
  | k + 1, r => let t := r + 2 ^ k; isqrtGo n k (if t * t ≤ n then t else r)
/-- floor(√n). -/
def isqrt (n : Nat) : Nat := isqrtGo n (Nat.log2 n / 2 + 1) 0

/-- Bounds of √(n / d) at `p` fractional bits; both are the exact root where it is on the grid. -/
def sqrtBounds (n d p : Nat) : Q × Q :=
  let x := n * 2 ^ (2 * p) / d
  let t := isqrt x
  if t * t * d = n * 2 ^ (2 * p) then (⟨t, 1, -(p : Int)⟩, ⟨t, 1, -(p : Int)⟩)
  else (⟨t, 1, -(p : Int)⟩, ⟨(t + 1 : Nat), 1, -(p : Int)⟩)

/-- Bounds of √q for positive q. The precision is taken relative to the magnitude. -/
def Q.sqrtB (q : Q) (p : Nat) : Q × Q :=
  let h := q.expo / 2
  let y := q.mul (Q.pow2 (-2 * h))
  let n : Nat := if y.e ≥ 0 then y.m.natAbs * 2 ^ y.e.toNat else y.m.natAbs
  let d : Nat := if y.e ≥ 0 then y.d else y.d * 2 ^ (-y.e).toNat
  let b := sqrtBounds n d p
  (b.1.mul (Q.pow2 h), b.2.mul (Q.pow2 h))

/-- 2^p · ln 2 from below by Σ 1 / (k 2^k): `k` the next term, `n` terms left. -/
def ln2Sum (p : Nat) : Nat → Nat → Nat
  | 0, _ => 0
  | n + 1, k => 2 ^ p / (k * 2 ^ k) + ln2Sum p n (k + 1)
/-- ln 2 lies in [ln2Lo p, ln2Lo p + p + 3] / 2^p. -/
def ln2Lo (p : Nat) : Nat := ln2Sum p (p + 1) 1

/-- The Taylor terms of exp at r / 2^p: the sum of the terms from `t` on, `n` terms left, `i` the next divisor. -/
def expTerms (p : Nat) (r : Int) : Nat → Nat → Int → Int
  | 0, _, t => t
  | n + 1, i, t => t + expTerms p r n (i + 1) ((t * r).fdiv ((2 ^ p : Nat) * (i : Int)))

/-- Bounds of e^x: x is reduced by a multiple of ln 2. Beyond ±256 the bounds leave every format's range (no format
reaches 2^±300). -/
def Q.expB (x : Q) (p : Nat) : Q × Q :=
  if x.m = 0 then (Q.ofInt 1, Q.ofInt 1)
  else if (Q.ofInt 256).lt x then (Q.pow2 300, Q.pow2 301)
  else if x.lt (Q.ofInt (-256)) then (Q.pow2 (-400), Q.pow2 (-350))
  else
    let g := p + 24
    let l2 : Int := ln2Lo g
    let xf := x.floorAt (-(g : Int))
    let k := (xf + l2 / 2).fdiv l2
    let r := xf - k * l2
    let s := expTerms g r (g / 2 + 16) 1 (2 ^ g : Nat)
    -- the reduced argument is off by at most 1 + |k| (g + 3) units, the series by 2 units a term
    let err : Int := 4 * ((k.natAbs + 2 : Nat) * (g + 4 : Nat)) + 4 * (g + 20 : Nat)
    (⟨s - err, 1, k - (g : Int)⟩, ⟨s + err, 1, k - (g : Int)⟩)

/-- The series of 2 atanh(z) at z / 2^p: terms from z^i / i on; `zz` is z² at 2^p. -/
def atanhTerms (p : Nat) (zz : Int) : Nat → Nat → Int → Int
  | 0, _, _ => 0
  | n + 1, i, t => t.fdiv (i : Int) + atanhTerms p zz n (i + 2) ((t * zz).fdiv (2 ^ p : Nat))

/-- Bounds of ln x for positive x. -/
def Q.lnB (x : Q) (p : Nat) : Q × Q :=
  if x.eqv (Q.ofInt 1) then (Q.zero, Q.zero)
  else
    let g := p + 24
    let k0 := x.expo
    let y0 := x.mul (Q.pow2 (-k0))
    -- y in [3/4, 3/2)
    let k := if (Q.mk 3 2 0).le y0 then k0 + 1 else k0
    let y := x.mul (Q.pow2 (-k))
    let z := ((y.sub (Q.ofInt 1)).div (y.add (Q.ofInt 1))).floorAt (-(g : Int))
    let s := 2 * atanhTerms g ((z * z).fdiv (2 ^ g : Nat)) (g / 4 + 8) 1 z
    let t := s + k * (ln2Lo g : Int)
    let err : Int := 4 * ((k.natAbs + 2 : Nat) * (g + 4 : Nat)) + 8 * (g + 20 : Nat)
    (⟨t - err, 1, -(g : Int)⟩, ⟨t + err, 1, -(g : Int)⟩)

/-- Bounds of 1 / (1 + e^(−x)). -/
def Q.sigmB (x : Q) (p : Nat) : Q × Q :=
  let b := x.neg.expB p
  (((Q.ofInt 1).add b.2).inv, ((Q.ofInt 1).add b.1).inv)

/-- Bounds of 1 / √x for positive x. -/
def Q.rsqrtB (x : Q) (p : Nat) : Q × Q := x.inv.sqrtB p

/-- How often a bound's precision is doubled before the lower bound is taken (128 to 2^21 bits, log entry 12). -/
def boundFuel : Nat := 14

/-- A value that `bounds` encloses, rounded once (R93). -/
def Fmt.roundB (f : Fmt) (how : Rnd) (ovf : Bool) (bounds : Nat → Q × Q) : Rounded :=
  roundBounds (fun q => f.round how ovf (.ofQ q)) boundFuel bounds 128

end Sys2Proof.Machine
end

