-- ==== Sys2Proof/Machine/Vec.lean ====
section
/-! DEFINITION. The vector operations (Tables 3-5 to 3-9, R75 to R79, R91, R93 to R96). A VEC instruction checks its fields,
computes every result exactly and rounds it once; its rows land until its completion, which ORs the flags word and takes
its traps. -/
namespace Sys2Proof.Machine

/-- The fields of a VEC instruction (Tables 3-5 and 3-6); rows and columns are one more than their fields, strides are in
bytes. -/
structure VecF where
  cls : Nat
  len : Nat
  op : Nat
  sfmt : Nat
  dfmt : Nat
  ssp : Nat
  dsp : Nat
  grad : Bool
  ovf : Bool
  trap : Bool
  kdesc : Nat
  grp : Nat
  axis : Nat
  sreg : Nat
  dreg : Nat
  xreg : Nat
  preg : Nat
  freg : Nat
  cols : Nat
  rows : Nat
  sstride : Nat
  dstride : Nat
  rsv : Nat
deriving DecidableEq, Repr

/-- The fields of the two words of a VEC instruction. -/
def vecFields (w0 w1 : Word) : VecF where
  cls := fieldOf w0 0 4
  len := fieldOf w0 4 2
  op := fieldOf w0 6 6
  sfmt := fieldOf w0 12 4
  dfmt := fieldOf w0 16 4
  ssp := fieldOf w0 20 1
  dsp := fieldOf w0 21 1
  grad := fieldOf w0 22 1 == 1
  ovf := fieldOf w0 23 1 == 1
  trap := fieldOf w0 24 1 == 1
  kdesc := fieldOf w0 25 4
  grp := fieldOf w0 29 2
  axis := fieldOf w0 31 1
  sreg := fieldOf w0 32 5
  dreg := fieldOf w0 37 5
  xreg := fieldOf w0 42 5
  preg := fieldOf w0 47 5
  freg := fieldOf w0 52 5
  cols := fieldOf w1 0 13 + 1
  rows := fieldOf w1 13 13 + 1
  sstride := fieldOf w1 26 17 * 16
  dstride := fieldOf w1 43 17 * 16
  rsv := fieldOf w0 57 7 + fieldOf w1 60 4

/-- Bytes of a row of `n` elements in a space: packed in the scratchpad (R530), 8-byte slots in the accumulator buffer
(R31). -/
def spRow (space fmt n : Nat) : Nat := if space = 1 then 8 * n else rowBytes fmt n
/-- The size of a space. -/
def spSize (space : Nat) : Nat := if space = 1 then abBytes else spBytes
/-- The window offset of a byte of a space. -/
def spOff (space a : Nat) : Nat := if space = 1 then a + abOff else a

/-- The operands of a VEC instruction with its registers read: source, destination, second operand or scales, parameter
and flags word. -/
structure VecOps where
  f : VecF
  src : Nat
  dst : Nat
  x : Option Nat
  p : Nat
  flags : Option Nat
deriving DecidableEq, Repr

/-- The registers of a VEC instruction read; s0 in XREG, PREG or FREG means no such operand (R93, Table 3-5). AXPY and DROPOUT
without a parameter take it as 0 (log entry 151). -/
def State.vecOps (s : State) (c : Nat) (f : VecF) : VecOps where
  f := f
  src := (s.sreg c f.sreg).toNat
  dst := (s.sreg c f.dreg).toNat
  x := if f.xreg = 0 then none else some (s.sreg c f.xreg).toNat
  p := (s.sreg c f.preg).toNat
  flags := if f.freg = 0 then none else some (s.sreg c f.freg).toNat

/-- Whether the operation has a second vector operand at XREG: ADD, MUL, AXPY, MAX. -/
def VecF.binary (f : VecF) : Bool := decide (3 ≤ f.op ∧ f.op ≤ 6)
/-- Whether a conversion divides by the source's scales: it widens a scaled format (R77). -/
def VecF.widens (f : VecF) : Bool :=
  decide (f.sfmt ≤ 4) && decide ((fmtOf f.sfmt).width < (fmtOf f.dfmt).width)
/-- Whether a conversion uses scales at all: its source widens from a scaled format, or its target is scaled. -/
def VecF.scaled (f : VecF) : Bool := f.op == 0 && (f.widens || decide (f.dfmt ≤ 4))

/-- Outer extent and block-axis extent of the source (R72, R73): blocks run along rows for AXIS = 0. -/
def VecF.outer (f : VecF) : Nat := if f.axis = 0 then f.rows else f.cols
/-- The extent along the block axis. -/
def VecF.inner (f : VecF) : Nat := if f.axis = 0 then f.cols else f.rows
/-- How many groups the grouping gives per outer index or in all (Table 3-5 GRP). -/
def VecF.groups (f : VecF) : Nat :=
  if f.grp = 0 then 1 else if f.grp = 1 then (f.outer + 127) / 128 else f.outer * ((f.inner + 31) / 32)
/-- The group of element (r, q): per tensor, per 128 outer positions, or per 32 along the axis (R72, R73). -/
def VecF.groupOf (f : VecF) (r q : Nat) : Nat :=
  let o := if f.axis = 0 then r else q
  let k := if f.axis = 0 then q else r
  if f.grp = 0 then 0 else if f.grp = 1 then o / 128 else o * ((f.inner + 31) / 32) + k / 32
/-- Bytes of one scale: an E8M0 byte for GRP = 2, else FP32. -/
def VecF.scaleSize (f : VecF) : Nat := if f.grp = 2 then 1 else 4

/-- Rows and elements per row of the destination (log entry 13). -/
def VecF.dstShape (f : VecF) : Nat × Nat :=
  match f.op with
  | 1 => if f.grp = 2 then (f.outer, (f.inner + 31) / 32) else (1, f.groups)
  | 8 => (0, 0)
  | 0xe | 0xf => if f.axis = 0 then (f.rows, 1) else (1, f.cols)
  | _ => (f.rows, f.cols)
/-- The format code of destination elements: AMAX writes FP32, SCALE FP32 or bytes (INT8's width), the rest DFMT. -/
def VecF.dstFmt (f : VecF) : Nat :=
  if f.op = 1 then 8 else if f.op = 2 then (if isF8 f.dfmt then 8 else 5) else f.dfmt
/-- The format code of source elements: SCALE reads FP32 amax values. -/
def VecF.srcFmt (f : VecF) : Nat := if f.op = 2 then 8 else f.sfmt

/-- The source range in its space. -/
def VecOps.srcRange (v : VecOps) : Rng := rowsRange v.src v.f.rows (spRow v.f.ssp v.f.srcFmt v.f.cols) v.f.sstride
/-- The destination range in its space. -/
def VecOps.dstRange (v : VecOps) : Rng :=
  let sh := v.f.dstShape
  if sh.1 = 0 then (0, 0) else rowsRange v.dst sh.1 (spRow v.f.dsp v.f.dstFmt sh.2) v.f.dstride
/-- The range at XREG: the second operand, laid out as the source, or the scales in the scratchpad (log entry 13). -/
def VecOps.xRange (v : VecOps) : Rng :=
  match v.x with
  | none => (0, 0)
  | some a => if v.f.binary then rowsRange a v.f.rows (spRow v.f.ssp v.f.sfmt v.f.cols) v.f.sstride
    else if v.f.scaled then (a, v.f.groups * v.f.scaleSize) else (0, 0)
/-- The space of what lies at XREG. -/
def VecOps.xSpace (v : VecOps) : Nat := if v.f.binary then v.f.ssp else 0

/-- The limits of Table 3-8 and the field rules of R94; a range outside its memory is a value outside the table. SCALE to a
format that has no scale of R75 is illegal (log entry 152). -/
def VecOps.legal (v : VecOps) : Bool :=
  let f := v.f
  let inside (sp : Nat) (r : Rng) : Bool := r.2 == 0 || decide (r.1 + r.2 ≤ spSize sp)
  f.rsv == 0 && decide (f.sfmt ≤ 10) && decide (f.dfmt ≤ 10) && decide (f.grp ≤ 2) &&
  v.src % 16 == 0 && (f.op == 8 || v.dst % 16 == 0) && (!f.binary || (match v.x with | some a => a % 16 == 0 | none => true)) &&
  (!decide (f.dfmt ≤ 2) || (f.grp == 2 && (f.axis != 0 || f.cols % 32 == 0))) &&
  (!isF8 f.dfmt || decide ((fmtOf f.sfmt).width ≤ 8) || decide (f.grp ≤ 1)) &&
  ((f.sfmt != 10 && f.dfmt != 10) || f.op == 0 || f.op == 3 || f.op == 6 || f.op == 8) &&
  (f.op != 2 || decide (f.dfmt ≤ 4)) &&
  inside f.ssp v.srcRange && inside f.dsp v.dstRange && inside v.xSpace v.xRange &&
  (match v.flags with | some a => decide (a + 8 ≤ spBytes) | none => true)

/-- The bits of element (r, q) of a source at `base`. -/
def State.vecBits (s : State) (c sp fmt base stride r q : Nat) : Nat :=
  let row := spOff sp (base + r * stride)
  if sp = 1 then s.le (winAddr c (row + 8 * q)) 8 else elemBits (s.winByte c) fmt row q
/-- The value of element (r, q) of a source at `base`. -/
def State.vecVal (s : State) (c sp fmt base stride r q : Nat) : Val :=
  (fmtOf fmt).decode (s.vecBits c sp fmt base stride r q)
/-- The source value of element (r, q). -/
def State.vecSrc (s : State) (c : Nat) (v : VecOps) (r q : Nat) : Val :=
  s.vecVal c v.f.ssp v.f.srcFmt v.src v.f.sstride r q
/-- The source bits of element (r, q). -/
def State.vecSrcBits (s : State) (c : Nat) (v : VecOps) (r q : Nat) : Nat :=
  s.vecBits c v.f.ssp v.f.srcFmt v.src v.f.sstride r q % 2 ^ (fmtOf v.f.srcFmt).width
/-- The second operand of element (r, q); zero where XREG names none. -/
def State.vecX (s : State) (c : Nat) (v : VecOps) (r q : Nat) : Val :=
  match v.x with
  | some a => s.vecVal c v.f.ssp v.f.sfmt a v.f.sstride r q
  | none => .zero false

/-- The scale of element (r, q) of a conversion, as a value; 1 where there is none. GRP alone says whether it is an E8M0 byte
or an FP32 word, also where it does not fit the format (log entry 153). -/
def State.vecScale (s : State) (c : Nat) (v : VecOps) (r q : Nat) : Val :=
  match v.x with
  | none => .ofQ (Q.ofInt 1)
  | some a =>
    let i := v.f.groupOf r q
    if v.f.grp = 2 then
      match e8m0Exp (s.winByte c (a + i)) with
      | some e => .ofQ (Q.pow2 (-e))
      | none => .nan
    else s.scaleVal c (a + 4 * i)

/-- The random word of element (r, q) (R33, R91). -/
def State.vecWord (s : State) (c : Nat) (f : VecF) (r q : Nat) : BitVec 32 := s.kcgAt c (s.kdesc c f.kdesc) r q
/-- The rounding of element (r, q) (R78). -/
def State.vecRnd (s : State) (c : Nat) (f : VecF) (r q : Nat) : Rnd :=
  if f.grad then .sr ((s.vecWord c f r q).toNat / 65536) else .rne false

/-- An exact result before rounding: a value, bounds that tighten, or none stated by the spec. -/
inductive VRes where
  | val (v : Val)
  | bnd (b : Nat → Q × Q)
  | unstated

/-- The larger of two values, NaN if either is (Table 3-7); the sign of the larger of +0 and −0 is open, `neg` here. -/
def maxVal (neg : Bool) (a b : Val) : Val :=
  if a.isNan || b.isNan then .nan
  else if a.isZero && b.isZero && a.sign != b.sign then .zero neg
  else if a.lt b then b else a

/-- The exponential (R93). -/
def vExp : Val → VRes
  | .nan => .val .nan
  | .inf neg => .val (if neg then .zero false else .inf false)
  | .fin _ q => .bnd q.expB
/-- The natural logarithm: NaN below 0, −Inf at 0 (Table 3-7). -/
def vLog : Val → VRes
  | .nan => .val .nan
  | .inf neg => .val (if neg then .nan else .inf false)
  | .fin _ q => if q.m = 0 then .val (.inf true) else if q.isNeg then .val .nan else .bnd q.lnB
/-- The reciprocal square root; at 0 the spec states no value (log entry 14). -/
def vRsqrt : Val → VRes
  | .nan => .val .nan
  | .inf neg => .val (if neg then .nan else .zero false)
  | .fin _ q => if q.m = 0 then .unstated else if q.isNeg then .val .nan else .bnd q.rsqrtB
/-- The reciprocal; at 0 the spec states no value (log entry 14). -/
def vRecip : Val → VRes
  | .nan => .val .nan
  | .inf neg => .val (.zero neg)
  | .fin _ q => if q.m = 0 then .unstated else .val (.ofQ q.inv)
/-- The logistic sigmoid (R93). -/
def vSigm : Val → VRes
  | .nan => .val .nan
  | .inf neg => .val (if neg then .zero false else .ofQ (Q.ofInt 1))
  | .fin _ q => .bnd q.sigmB
/-- A conversion: times the target's scale, or divided by the source's when it widens (R77); a zero keeps its sign (R70). By
a zero or infinite scale the spec states no quotient. -/
def vCvt (widens : Bool) (x sc : Val) : VRes :=
  match x, sc with
  | _, .nan => .val .nan
  | .nan, _ => .val .nan
  | .fin n p, .fin m q =>
    if widens ∧ q.m = 0 then .unstated
    else if p.m = 0 then .val (.zero n)
    else .val (if widens then .ofQ (p.div q) else (Val.fin n p).mul (.fin m q))
  | x, .inf b => if widens then .unstated else .val (x.mul (.inf b))
  | .inf n, .fin m q =>
    if !widens then .val ((Val.inf n).mul (.fin m q)) else if q.m = 0 then .unstated else .val (.inf (n != q.isNeg))

/-- One destination element: its bits, its flags, and whether its block scale becomes 0xFF. -/
structure VOut where
  bits : Nat
  fl : VFlags
  blockNan : Bool
deriving DecidableEq, Repr

/-- A result rounded once to the destination format, with its flags; `open_` stands in where the spec states no bits. -/
def roundV (fmt : Fmt) (how : Rnd) (ovf : Bool) (open_ : Nat) (nanIn : Bool) : VRes → VOut
  | .unstated =>
    let b := fmt.openBits open_
    let n := (fmt.decode b).isNan
    ⟨b, { VFlags.none with nan := n, invalid := n && !nanIn }, false⟩
  | .bnd f => let r := fmt.roundB how ovf f; ⟨r.bits, VFlags.ofResult (.zero false) nanIn r, r.blockNan⟩
  | .val v =>
    let r := fmt.round how ovf v
    ⟨if r.unstated then fmt.openBits open_ else r.bits, VFlags.ofResult v nanIn r, r.blockNan⟩

/-- The element (r, q) of an element-wise operation (Table 3-7). -/
def State.vecElem (s : State) (c : Nat) (v : VecOps) (r q : Nat) : VOut :=
  let f := v.f
  let xb : Nat := match v.x with
    | some a => if f.binary then s.vecBits c f.ssp f.sfmt a f.sstride r q
      else if f.scaled then s.le (winAddr c (a + f.scaleSize * f.groupOf r q)) f.scaleSize else 0
    | none => 0
  let open_ := (Config.openValue [f.op, f.sfmt, f.dfmt, f.grp, s.vecSrcBits c v r q, xb, v.p]).toNat
  let x := s.vecSrc c v r q
  let y := if f.binary then s.vecX c v r q else .zero false
  let sc := if f.scaled then s.vecScale c v r q else .ofQ (Q.ofInt 1)
  let p32 (lo : Nat) : Val := Fmt.fp32.decode (v.p / 2 ^ lo % 2 ^ 32)
  let opFl := (VFlags.ofOperand x).or (if f.binary then VFlags.ofOperand y else VFlags.none)
  let scNan := f.scaled && f.grp == 2 && sc.isNan
  let nanIn := x.isNan || y.isNan || (f.scaled && sc.isNan) || (f.op == 5 && (p32 0).isNan) ||
    (f.op == 7 && (p32 32).isNan)
  let res : VRes := match f.op with
    | 0 => vCvt f.widens x sc
    | 3 => .val (x.add y)
    | 4 => .val (x.mul y)
    | 5 => .val (x.fma (p32 0) y)
    | 6 => .val (maxVal (open_ % 2 == 1) x y)
    | 7 => if (s.vecWord c f r q).toNat ≥ v.p % 2 ^ 32 then .val (x.mul (p32 32)) else .val (.zero false)
    | 9 => vExp x
    | 0xa => vLog x
    | 0xb => vRsqrt x
    | 0xc => vRecip x
    | _ => vSigm x
  let o := roundV (fmtOf f.dfmt) (s.vecRnd c f r q) f.ovf open_ nanIn res
  { o with fl := (o.fl.or opFl).or { VFlags.none with nanIn := scNan } }

/-- The positions of a list of groups: AMAX and the row operations fold over them. -/
def VecF.cells (f : VecF) : List (Nat × Nat) := (List.range f.rows).flatMap (fun r => (List.range f.cols).map (fun q => (r, q)))

/-- AMAX of one group: the exact largest magnitude, NaN if any is, as FP32 (R74, R93); a W40 magnitude that FP32 cannot hold is
rounded to nearest even (log entry 154). -/
def State.vecAmax (s : State) (c : Nat) (v : VecOps) (g : Nat) : VOut :=
  let xs := (v.f.cells.filter (fun e => v.f.groupOf e.1 e.2 == g)).map (fun e => s.vecSrc c v e.1 e.2)
  let m := xs.foldl (fun a x => maxVal false a x.abs) (.zero false)
  let fl := xs.foldl (fun a x => a.or (VFlags.ofOperand x)) VFlags.none
  let o := roundV .fp32 (.rne false) false 0 (xs.any Val.isNan) (.val m)
  { o with fl := o.fl.or fl }
/-- The scale of one amax value (R75, R76 apart) with its flags: of a negative amax that the pseudocode gives no value, an
open function of its bits. -/
def scaleOf (f8 : Bool) (fmt : Nat) (bits : Nat) : VOut :=
  let mx := (fmtOf fmt).maxFin
  let x := Fmt.fp32.decode bits
  let open_ := (Config.openValue [2, fmt, bits]).toNat
  let fl := { VFlags.ofOperand x with nan := x.isNan }
  if f8 then
    match x with
    | .fin _ q =>
      if q.m = 0 then ⟨0x3f800000, fl, false⟩ else
      let r := Fmt.fp32.round (.rne false) false (.ofQ (mx.div q))
      ⟨if r.overflow && q.isNeg then Fmt.fp32.openBits open_ else r.bits, fl.or (VFlags.ofResult x true r), false⟩
    | _ => ⟨f8Scale x mx, fl, false⟩
  else
    let neg : Bool := match x with | .fin _ q => q.isNeg | _ => false
    ⟨if neg then open_ % 255 else e8m0Scale x mx, fl, false⟩
/-- One row of SCALE: the scales of its amax values, capped for E8M0 (R75, R76). -/
def State.vecScaleRow (s : State) (c : Nat) (v : VecOps) (r : Nat) : List VOut :=
  let f := v.f
  let xs := (List.range f.cols).map (fun q => scaleOf (isF8 f.dfmt) f.dfmt (s.vecSrcBits c v r q))
  if isF8 f.dfmt then xs
  else (xs.zip (capRow (xs.map (·.bits)))).map (fun e => { e.1 with bits := e.2 })
/-- ROWSUM or ROWMAX of one row or column (R93); a maximum that DFMT cannot hold is rounded to it under GRAD and OVF (log entry
154). -/
def State.vecRow (s : State) (c : Nat) (v : VecOps) (i : Nat) : VOut :=
  let f := v.f
  let xs := if f.axis = 0 then (List.range f.cols).map (fun q => s.vecSrc c v i q)
    else (List.range f.rows).map (fun r => s.vecSrc c v r i)
  let fl := xs.foldl (fun a x => a.or (VFlags.ofOperand x)) VFlags.none
  let bs := if f.axis = 0 then (List.range f.cols).map (fun q => s.vecSrcBits c v i q)
    else (List.range f.rows).map (fun r => s.vecSrcBits c v r i)
  let open_ := (Config.openValue ([f.op, f.sfmt, f.dfmt] ++ bs)).toNat
  let how := if f.axis = 0 then s.vecRnd c f i 0 else s.vecRnd c f 0 i
  let res : Val := if f.op = 0xe then xs.foldl Val.add (.zero false)
    else match xs with | [] => .nan | x :: t => t.foldl (maxVal (open_ % 2 == 1)) x
  let o := roundV (fmtOf f.dfmt) how f.ovf open_ (xs.any Val.isNan) (.val res)
  { o with fl := o.fl.or fl }

/-- Every destination element in order: (row, column, result). -/
def State.vecResults (s : State) (c : Nat) (v : VecOps) : List (Nat × Nat × VOut) :=
  let f := v.f
  match f.op with
  | 1 =>
    let w := f.dstShape.2
    (List.range f.groups).map (fun g => (g / w, g % w, s.vecAmax c v g))
  | 2 => (List.range f.rows).flatMap (fun r =>
      ((s.vecScaleRow c v r).zip (List.range f.cols)).map (fun e => (r, e.2, e.1)))
  | 8 => []
  | 0xe | 0xf =>
    if f.axis = 0 then (List.range f.rows).map (fun r => (r, 0, s.vecRow c v r))
    else (List.range f.cols).map (fun q => (0, q, s.vecRow c v q))
  | _ => f.cells.map (fun e => (e.1, e.2, s.vecElem c v e.1 e.2))

/-- The value of a packed F4 or F6 row of elements, the first in the lowest bits (R530). -/
def packBits (w : Nat) : List Nat → Nat
  | [] => 0
  | b :: t => b % 2 ^ w + 2 ^ w * packBits w t
/-- The bytes of a destination row with the elements' bits (R530): an 8-byte slot of the accumulator buffer reads 0 above
its element (R31), and the unused bits at the end of an F4 or F6 row keep what they held. `old` is the row's value now. -/
def rowOf (sp fmt : Nat) (old : Nat) (bits : List Nat) : List Byte :=
  if sp = 1 then bits.flatMap (leBytes 8)
  else match fmt with
    | 0 => leBytes (rowBytes 0 bits.length) (packBits 4 bits + old / 2 ^ (4 * bits.length) * 2 ^ (4 * bits.length))
    | 1 | 2 => leBytes (rowBytes 1 bits.length) (packBits 6 bits + old / 2 ^ (6 * bits.length) * 2 ^ (6 * bits.length))
    | _ => bits.flatMap (leBytes (rowBytes fmt 1))
/-- The rows that an operation's results make, as pieces. -/
def State.vecRows (s : State) (c : Nat) (v : VecOps) (rs : List (Nat × Nat × VOut)) : List (Tab Byte) :=
  (List.range v.f.dstShape.1).map (fun r =>
    let n := spRow v.f.dsp v.f.dstFmt v.f.dstShape.2
    let old := s.le (winAddr c (spOff v.f.dsp (v.dst + r * v.f.dstride))) n
    bytesTab (rowOf v.f.dsp v.f.dstFmt old ((rs.filter (fun e => e.1 == r)).map (fun e => e.2.2.bits))) 0)
/-- The window offsets of the scale bytes that a conversion sets to 0xFF (Table 3-3). -/
def VecOps.nanBlocks (v : VecOps) (rs : List (Nat × Nat × VOut)) : List Nat :=
  match v.x with
  | some a => if v.f.op = 0 ∧ v.f.grp = 2 then
      (rs.filter (fun e => e.2.2.blockNan)).map (fun e => a + v.f.groupOf e.1 e.2.1) else []
  | none => []

/-- Whether the operation consumes poison: source, second operand or scales. -/
def State.vecPoison (s : State) (c : Nat) (v : VecOps) : Bool :=
  let hit (sp : Nat) (r : Rng) : Bool := r.2 != 0 && s.winPoison c (spOff sp r.1, r.2)
  (List.range v.f.rows).any (fun r => hit v.f.ssp (v.src + r * v.f.sstride, spRow v.f.ssp v.f.srcFmt v.f.cols)) ||
  (if v.f.binary then (List.range v.f.rows).any (fun r => match v.x with
      | some a => hit v.f.ssp (a + r * v.f.sstride, spRow v.f.ssp v.f.sfmt v.f.cols)
      | none => false)
   else hit 0 v.xRange)

/-- The ranges of the window that an operation reads, and those it writes beside its flags word. -/
def VecOps.reads (v : VecOps) : List Rng :=
  [(spOff v.f.ssp v.srcRange.1, v.srcRange.2), (spOff v.xSpace v.xRange.1, v.xRange.2)]
/-- The ranges of the window that an operation writes: destination, flags word, and the scale bytes a conversion to F4 or F6
may set. -/
def VecOps.writes (v : VecOps) : List Rng :=
  [(spOff v.f.dsp v.dstRange.1, v.dstRange.2), (match v.flags with | some a => (a, 8) | none => (0, 0)),
   if v.f.op = 0 ∧ v.f.grp = 2 ∧ v.f.dfmt ≤ 2 then (spOff v.xSpace v.xRange.1, v.xRange.2) else (0, 0)]

/-- A VEC instruction whose OP is `op`: field checks (R94), segments that are OFF (R301), the scoreboard (R38, R95, R271), then
its results, which land until VEC_COMPLETE. An operation that consumes poison and produces a NaN with TRAP = 1 counts as
the poisoned one (R96, log entry 155). A word with another legal OP is not this command's. -/
def State.vec (s : State) (c op : Nat) (w0 w1 : Word) : State :=
  let f := vecFields w0 w1
  if !s.issues c then s
  else if f.cls ≠ 5 ∨ f.len ≠ 1 then s.issue c 1 (fun s pc => s.coreFault c 0x1001 3 0 pc true)
  else if f.op ≥ 0x10 then s.issue c 2 (fun s pc => s.illegal c pc)
  else if f.op ≠ op then s
  else
    let v := s.vecOps c f
    if !v.legal then s.issue c 2 (fun s pc => s.illegal c pc)
    else if (v.reads ++ v.writes).any (fun r => s.segOff c r) then s.issue c 2 (fun s pc => s.addrFault c pc)
    else if s.mustWait c (v.reads.map (winRng c)) (v.writes.map (winRng c)) then s
    else s.issue c 2 (fun s pc =>
      let s := v.reads.foldl (fun s r => s.wakeWin c r) s
      let bad := s.vecPoison c v
      let rs := s.vecResults c v
      let base := if f.op = 8 then f.cells.foldl (fun a e => a.or (VFlags.ofOperand (s.vecSrc c v e.1 e.2))) VFlags.none
        else rs.foldl (fun a e => a.or e.2.2.fl) VFlags.none
      let fl : VFlags := { base with poison := bad }
      let pend : VecPend := ⟨pc, (s.core c).seq, fl.bits, fl.count, f.trap && fl.nan && !bad, bad, v.flags, spOff f.dsp v.dst,
        spRow f.dsp f.dstFmt f.dstShape.2, f.dstride, f.dstShape.1, v.reads, s.vecRows c v rs, v.nanBlocks rs, 0⟩
      s.modCore c (fun x => { x with vecs := x.vecs ++ [pend], seq := x.seq + 1 }))

/-- The window range of destination row `r` of an operation in flight. -/
def VecPend.row (v : VecPend) (r : Nat) : Rng := (v.dstAddr + r * v.stride, v.rowBytes)
/-- Rows `lo` to `hi` − 1 of an operation land, each whole (R273, R299). -/
def State.vecLand (s : State) (c : Nat) (v : VecPend) (lo hi : Nat) : State :=
  (List.range' lo (hi - lo)).foldl (fun s r =>
    s.landBy (some (c, v.seq)) (winAddr c (v.row r).1) v.rowBytes ⟨v.data.getD r [], []⟩) s

/-- VEC_COMPLETE of the oldest vector operation. With `upto` only its rows below that number land now (R270, R273). Else it
completes: the rest lands, flags are ORed in and overflows counted (R95). On consumed poison its whole destination is
poisoned, on a NaN with TRAP = 1 it holds free values and no flags are written (R96, log entry 13); the fault has ARRAY = 3. -/
def State.vecComplete (s : State) (c : Nat) (upto : Option Nat) : State :=
  match (s.core c).vecs with
  | [] => s
  | v :: rest =>
    match upto with
    | some k =>
      if v.trap || v.poison then s else
      let hi := min (max k v.done) v.rows
      (s.vecLand c v v.done hi).modCore c (fun x => { x with vecs := { v with done := hi } :: rest })
    | none =>
      let s := s.modCore c (fun x => { x with vecs := rest })
      let s := if v.poison then (List.range v.rows).foldl (fun s r => s.poisonRange (winAddr c (v.row r).1) v.rowBytes) s
        else if v.trap then (List.range v.rows).foldl (fun s r =>
          (s.landBy (some (c, v.seq)) (winAddr c (v.row r).1) v.rowBytes (.ofBytes (s.freeBytes v.rowBytes))).used
            ((v.rowBytes + 63) / 64)) s
        else v.blocks.foldl (fun s b => s.landBy (some (c, v.seq)) (winAddr c b) 1 (.ofBytes [255]))
          (s.vecLand c v v.done v.rows)
      let s := if v.trap then s else match v.flagAddr with
        | some a => s.landBy (some (c, v.seq)) (winAddr c a) 8
            (.ofBytes (leBytes 8 (flagsWord (s.le (winAddr c a) 8) v.flags v.ovfCount)))
        | none => s
      if v.trap then s.coreFault c 0x1003 3 0 v.pc false
      else if v.poison then s.coreFault c 0x1004 3 0 v.pc false
      else s

end Sys2Proof.Machine
end

