-- ==== Sys2Proof/Machine/Sampling.lean ====
section
/-! DEFINITION. Sampling and log-probabilities of the rollout engine (R151 to R153). -/
namespace Sys2Proof.Machine

/-- An FP32 rounding by RNE whose overflow is an infinity (R151, log entry 15). -/
def f32Round (r : Rounded) (neg : Bool) : Nat := if r.overflow then (if neg then 0xff800000 else 0x7f800000) else r.bits
/-- An exact value to FP32 (R151). -/
def f32 (v : Val) : Nat := f32Round (Fmt.fp32.round (.rne false) false v) v.sign
/-- A value that bounds enclose to FP32 (R93). -/
def f32B (b : Nat → Q × Q) : Nat := f32Round (Fmt.fp32.roundB (.rne false) false b) (b 128).1.isNeg
/-- A transcendental result to FP32. -/
def f32R : VRes → Nat
  | .val v => f32 v
  | .bnd b => f32B b
  | .unstated => Fmt.fp32.nan
/-- The value of FP32 bits. -/
def ofF32 (n : Nat) : Val := Fmt.fp32.decode n

/-- The order of R151: NaN below −Inf, −0 and +0 equal. -/
def f32Key (n : Nat) : Int :=
  let m : Nat := n % 2 ^ 31
  if m > 0x7f800000 then -(2 ^ 32) else if n / 2 ^ 31 % 2 = 1 then -(m : Int) else m
/-- The first of an index list with the largest key. -/
def argMax (key : Nat → Int) : List Nat → Nat
  | [] => 0
  | i :: t => t.foldl (fun b j => if key b < key j then j else b) i

/-- The word of R151 and R152 for a vocabulary index at a position. -/
def sampleWord (seed : BitVec 128) (salt pos i : Nat) : BitVec 32 :=
  kcgWord seed (BitVec.ofNat 32 (0x80000000 + salt % 2 ^ 28)) (BitVec.ofNat 32 pos) (BitVec.ofNat 64 i)
/-- Bounds of −ln(−ln((w + 1/2) / 2^32)). -/
def gumbelB (w p : Nat) : Q × Q :=
  let u : Q := ⟨(2 * w + 1 : Nat), 1, -33⟩
  let b := u.lnB p
  let lo := b.2.neg
  let hi := b.1.neg
  if lo.m ≤ 0 then (⟨-1, 1, 400⟩, ⟨1, 1, 400⟩) else ((hi.lnB p).2.neg, (lo.lnB p).1.neg)
/-- The Gumbel term of a random word (R151). -/
def gumbel (w : Nat) : Nat := f32B (gumbelB w)

/-- A logit over the temperature, rounded to FP32; division by one returns the logit's value. -/
def overTau (logit tau : Nat) : Nat :=
  match ofF32 tau with
  | .fin _ q => f32 ((ofF32 logit).mul (.ofQ q.inv))
  | _ => Fmt.fp32.nan
/-- The candidates of R151: every index, or the `k` largest logits with the lower index first on ties. -/
def candidates (logits : List Nat) (k : Nat) : List Nat :=
  let is := List.range logits.length
  if k = 0 then is else
  let key (i : Nat) : Int := f32Key (logits.getD i 0)
  is.filter (fun i => decide ((is.filter (fun j => decide (key i < key j) || (key i == key j && decide (j < i)))).length < k))

/-- The sample of R151. -/
def sampleToken (seed : BitVec 128) (logits : List Nat) (tau k salt pos : Nat) : Nat :=
  if tau = 0 then argMax (fun i => f32Key (logits.getD i 0)) (List.range logits.length) else
  let cand := candidates logits k
  let score (i : Nat) : Nat :=
    f32 ((ofF32 (overTau (logits.getD i 0) tau)).add (ofF32 (gumbel (sampleWord seed salt pos i).toNat)))
  let scores := cand.map (fun i => (i, f32Key (score i)))
  (scores.foldl (fun b e => match b with
    | none => some e
    | some x => if x.2 < e.2 then some e else some x) none).elim 0 (·.1)

/-- The log-probability of R153, as FP32 bits. -/
def logProb (logits : List Nat) (tok tau k : Nat) (mode : Bool) : Nat :=
  let t := if mode ∧ tau ≠ 0 then tau else 0x3f800000
  let set := if mode then candidates logits k else List.range logits.length
  let z (i : Nat) : Nat := overTau (logits.getD i 0) t
  let m := z (argMax (fun i => f32Key (z i)) set)
  let term (i : Nat) : Val := ofF32 (f32R (match (ofF32 (z i)).add (ofF32 m).neg with
    | .fin n q => if q.m = 0 then .val (.ofQ (Q.ofInt 1)) else vExp (.fin n q)
    | v => vExp v))
  let sum := f32 ((set.map term).foldl Val.add (.zero false))
  f32 (((ofF32 (z tok)).add (ofF32 m).neg).add (ofF32 (f32R (vLog (ofF32 sum)))).neg)

end Sys2Proof.Machine
end

