-- ==== Sys2Proof/Machine/House.lean ====
section
/-! DEFINITION. House lines found uncorrectable (R443, R445, R447). -/
namespace Sys2Proof.Machine

/-- The valid region of the house partition (R314, R437). -/
def State.houseRegion (s : State) : Option Nat :=
  if !(s.part 8).valid then none else
  (List.range 8).find? (fun r => s.on (R.HBM0.REGION.VALID r) && s.rd (R.HBM0.REGION.STACKS r) == (s.part 8).stackMask)
/-- Whether an address lies in the house region. -/
def State.inHouse (s : State) (a : Nat) : Bool :=
  match s.houseRegion with
  | some r => placeOf a == .hbm && s.regionOf a == some r
  | none => false
/-- Whether a partition is paused by a house rebuild (R445). -/
def State.housePaused (s : State) (p : Nat) : Bool := s.rd R.SEC.HOUSE_STAT.PAUSED / 2 ^ p % 2 == 1
/-- R445: the line of address `a` awaits its rebuild; tenants with house read enabled pause. -/
def State.houseFound (s : State) (a : Nat) : State :=
  let line := a / 512 * 512
  if s.sec.houseLines.contains line then s else
  let ls := addWord s.sec.houseLines line
  let s := ({ s with sec := { s.sec with houseLines := ls } } : State).wrs [(R.SEC.HOUSE_STAT.STATE, 3),
    (R.SEC.HOUSE_STAT.PAUSED, s.rd R.SEC.HOUSE_CTL.READ), (R.SEC.HOUSE_STAT.PENDING, min ls.length 0xffff)]
  (s.recErr R.SEC.ERR.VALID R.SEC.ERR.OVERRUN [(R.SEC.ERR.CODE, 0x7005), (R.SEC.ERR.PART, 8)]).event 0x7005 2 8 0xffff
    0xffff none
/-- A consumer read an uncorrectable house line. Where no line awaits its rebuild, this read found it: a poisoned word of
the house region, or, if the memory shows none, a line that is open (log entry 3). -/
def State.houseConsumed (s : State) : State :=
  if !s.sec.houseLines.isEmpty then s else
  match s.houseRegion with
  | none => s
  | some r =>
    match s.poison.find? (fun w => s.inHouse (32 * w)) with
    | some w => s.houseFound (32 * w)
    | none =>
      let n := s.rd (R.HBM0.REGION.NLOG r) * 2 ^ 30
      let a := s.rd (R.HBM0.REGION.BASE_GIB r) * 2 ^ 30 + (if n = 0 then 0 else s.free 64 % n)
      ((s.used 1).poisonRange a 1).houseFound a

end Sys2Proof.Machine
end

