-- ==== Sys2Proof/Machine/Records.lean ====
section
/-! DEFINITION. What boot and field repair share: boot codes (Table 15-10), field records (Table 15-9, R413), the map from
logical to physical cores (R63 to R65, R414) and retirement requests. -/
namespace Sys2Proof.Machine

/-- A boot code: BOOT.ERR and its event; the DETAIL of the event is the one that rule or table names. -/
def State.bootErr (s : State) (code detail : Nat) (named : Bool) : State :=
  (s.recErr R.BOOT.ERR.VALID R.BOOT.ERR.OVERRUN [(R.BOOT.ERR.CODE, code), (R.BOOT.ERR.DETAIL, detail)]).event code 1 15 0xffff
    0xffff (if named then some detail else none)

/-! ## Field records -/

/-- Slots of the field-record log (Table 15-11). -/
def fieldSlots : Nat := 16384
/-- FIELD_RECORD_APPEND (R413): a record goes to the next slot of both halves; a full log refuses it with FIELD_LOG_FULL. -/
def State.appendField (s : State) (r : FieldRec) : State :=
  if s.boot.fields.length < fieldSlots then { s with boot := { s.boot with fields := s.boot.fields ++ [some r] } }
  else s.bootErr 0xb00a 0 false
/-- The record of type `t` that firmware decides on now, with the fields above bit 15 of w0 (Table 15-9). -/
def State.fieldNow (s : State) (t rest : Nat) : FieldRec := ⟨BitVec.ofNat 64 (t + rest * 2 ^ 16), BitVec.ofNat 64 s.now⟩
/-- w0[63:16] of a record about a row or channel of a stack: STACK, CH, PC, BANK and ROW. -/
def rowFields (k ch pc bank row : Nat) : Nat :=
  k * 2 ^ 10 + ch * 2 ^ 13 + pc * 2 ^ 18 + bank * 2 ^ 19 + row * 2 ^ 23
/-- The type of a record. -/
def recType (r : FieldRec) : Nat := fieldOf r.w0 0 8

/-! ## Cores -/

/-- The core map that the boot ROM builds: cores moved to a spare, spares taken, and cores left offline. -/
structure CoreMap where
  moved : Tab (Option Nat)
  taken : List Nat
  off : List Nat
deriving DecidableEq, Repr

/-- The spare physical cores of a group, in ascending local index (R64; the fuse map's, log entry 2). -/
def spares (die group : Nat) : List Nat := (List.range 8).map (fun i => die * 216 + group * 108 + 100 + i)
/-- The spares of a logical core's die, its own group's first (R414). -/
def sparesFor (c : Nat) : List Nat := spares (c / 200) (c % 200 / 100) ++ spares (c / 200) (1 - c % 200 / 100)
/-- One CORE_RETIRE record (R414): the lowest unassigned spare of the group, else of the die's other group, else offline
(R65). A core already offline stays so. -/
def CoreMap.retire (m : CoreMap) (c : Nat) : CoreMap :=
  if m.off.contains c then m else
  match (sparesFor c).find? (fun p => !m.taken.contains p) with
  | some p => { m with moved := Tab.set none m.moved c (some p), taken := p :: m.taken }
  | none => { m with off := c :: m.off }
/-- The core a CORE_RETIRE record names. -/
def retireOf : Option FieldRec → Option Nat
  | some r => if recType r = 1 ∧ fieldOf r.w0 16 10 < 800 then some (fieldOf r.w0 16 10) else none
  | none => none
/-- The map that the log's CORE_RETIRE records give, in log order (R414). -/
def coreMap (fs : List (Option FieldRec)) : CoreMap := (fs.filterMap retireOf).foldl CoreMap.retire ⟨[], [], []⟩

/-- CORE_SPARE_EXHAUSTED (R65), for a core. -/
def State.spareExhausted (s : State) (c : Nat) : State :=
  s.event 0x1008 1 (match s.partOfCore c with | some p => p | none => 15) (s.jobOfCore c) c none
/-- CORE_RETIREMENT_REQUEST (R64, R65): a CORE_RETIRE record for the next boot; with no spare left on the die
CORE_SPARE_EXHAUSTED is raised as well. The retirement counts in the lifetime counter of the die (Table 18-4). -/
def State.retireCore (s : State) (c : Nat) : State :=
  let none_ := (sparesFor c).all (fun p => (coreMap s.boot.fields).taken.contains p)
  let s := s.appendField (s.fieldNow 1 c)
  let n := Tab.get 0 s.clk.life (46 + c / 200)
  let s : State := { s with clk := { s.clk with life := Tab.set 0 s.clk.life (46 + c / 200) (min (n + 1) 255) } }
  if none_ then s.spareExhausted c else s

end Sys2Proof.Machine
end

