-- ==== Sys2Proof/Machine/Hbm.lean ====
section
/-! DEFINITION. HBM stacks: temperature (R312), retraining (R318, R319), migration, row repair and retirement (R320 to
R323), the repair port (R324) and the traffic generator (R325). -/
namespace Sys2Proof.Machine

/-- A stack's state. -/
def State.stk (s : State) (k : Nat) : HbmSt := Tab.get HbmSt.reset s.hbm k
/-- A stack's state replaced. -/
def State.setStk (s : State) (k : Nat) (h : HbmSt) : State := { s with hbm := Tab.set HbmSt.reset s.hbm k h }
/-- The state field of channel `c` of stack `k` (Table 11-8, CH_STATEn). -/
def chFld (k c : Nat) : Fld := ⟨0x1000000 + k * 0x100000 + 0x10 + c / 16 * 8, c % 16 * 4, 4⟩
/-- The partition that an event of a stack names: its tenant partition, 8 the house, 15 the module. -/
def State.stackPart (s : State) (k : Nat) : Nat :=
  match s.partOfStack k with
  | some p => p
  | none => if (s.part 8).valid && hasStack (s.part 8).stackMask k then 8 else 15
/-- The job an event of a partition names. -/
def State.partJob (s : State) (p : Nat) : Nat := if p < 8 then s.jobId p else 0xffff

/-- The DETAIL of an HBM event (R533). -/
def hbmDetail (pc bank row : Nat) : Nat := pc % 2 + bank % 16 * 2 + row % 2 ^ 18 * 32
/-- An HBM code: HBM.ERR and its event. A pseudo-channel, bank or row that the finding does not name is free (R533, log
entry 4). -/
def State.hbmError (s : State) (k code cls ch : Nat) (pc : Option Nat) (place : Option (Nat × Nat)) : State :=
  let open_ := s.free 23
  let s := if pc.isNone || place.isNone then s.used 1 else s
  let pc := pc.getD (open_ % 2)
  let (bank, row) := place.getD (open_ / 2 % 16, open_ / 32)
  let p := s.stackPart k
  (s.recErr (R.HBM.ERR.VALID k) (R.HBM.ERR.OVERRUN k) [(R.HBM.ERR.CODE k, code), (R.HBM.ERR.CH k, ch),
    (R.HBM.ERR.PC k, pc), (R.HBM.ERR.BANK k, bank), (R.HBM.ERR.ROW k, row)]).event code cls p (s.partJob p)
    (k * 32 + ch) (some (hbmDetail pc bank row))

/-- HBM_TEMP_SAMPLE (R312): each stack's temperature, and HOT above 85 °C. -/
def State.hbmTempSample (s : State) (temps : List (BitVec 8)) : State :=
  (List.range 8).foldl (fun s k => match temps[k]? with
    | some t => s.wrs [(R.HBM.STAT.TEMP_C k, t.toNat), (R.HBM.STAT.HOT k, if t.toNat > 85 then 1 else 0)]
    | none => s) s

/-! ## Migration, repair, retirement -/

/-- Whether channel `c` of a stack carries traffic: ACTIVE or MIG_OUT. -/
def State.chActive (s : State) (k c : Nat) : Bool := s.rd (chFld k c) == 0 || s.rd (chFld k c) == 2
/-- The first retrain that is due on an active channel begins, where none holds and the stack's MCLK runs (R318, R319, R491). -/
def State.nextRetrain (s : State) (k : Nat) : State :=
  let h := s.stk k
  if !s.pllLocked (5 + k) then s else
  match h.holding, h.due.find? (fun pc => s.chActive k (pc / 2)) with
  | none, some pc => s.setStk k { h with holding := some pc, due := h.due.filter (· ≠ pc) }
  | _, _ => s

/-- A migration of channel `c` starts (R320, Table 11-4), when a spare is free; else MIG.ERR (Table 11-8). -/
def State.migStart (s : State) (k c : Nat) (back : Bool) : State :=
  if !s.on (R.HBM.STAT.SPARE_FREE k) then s.wr (R.HBM.MIG.ERR k) 1
  else if s.rd (chFld k c) ≠ 0 then s
  else
    let sp := s.rd (R.HBM.STAT.SPARE_CH k)
    (s.wrs [(R.HBM.MIG.SRC k, c), (R.HBM.MIG.DST k, sp), (R.HBM.MIG.BUSY k, 1), (R.HBM.MIG.MIB_DONE k, 0),
      (R.HBM.STAT.SPARE_FREE k, 0), (chFld k c, 2), (chFld k sp, 3)]).setStk k
      { s.stk k with mig := some ⟨c, sp⟩, swapped := back }
/-- HBM_MIG_GO: a firmware write of HBM.MIG. -/
def State.hbmMigGo (s : State) (k : Nat) (v : Word) : State :=
  let s := s.regPut false (R.HBM.MIG.REG k).reg v
  if fieldOf v 10 1 = 1 then s.migStart k (s.rd (R.HBM.MIG.SRC k)) false else s

/-- The channel map with channel `c` of stack `k` replaced by channel `d` (Table 11-4). -/
def State.remap (s : State) (k c d : Nat) : State :=
  (List.range 512).foldl (fun s e =>
    let q := s.rd (R.HBM0.CMAP.PPC e)
    if q / 2 = k * 32 + c then s.wr (R.HBM0.CMAP.PPC e) (k * 64 + d * 2 + q % 2) else s) s
/-- Channel `c` holds no data and becomes the stack's spare. -/
def State.becomeSpare (s : State) (k c : Nat) : State :=
  s.wrs [(chFld k c, 1), (R.HBM.STAT.SPARE_CH k, c), (R.HBM.STAT.SPARE_FREE k, 1)]

/-- HBM_MIG_SWITCH (R320, R321): the copy ended and the routers switch to the spare, or the spare failed. A channel that
was migrated back leaves its former place as the spare. -/
def State.hbmMigSwitch (s : State) (k : Nat) (ok : Bool) : State :=
  match (s.stk k).mig with
  | none => s
  | some m =>
    let s := s.setStk k { s.stk k with mig := none }
    let s := s.wr (R.HBM.MIG.BUSY k) 0
    if ok then
      let s := (s.remap k m.src m.dst).wrs [(R.HBM.MIG.MIB_DONE k, 2048), (R.HBM.MIG.DONE k, 1), (chFld k m.dst, 0)]
      (if (s.stk k).swapped then (s.becomeSpare k m.src).setStk k { s.stk k with swapped := false }
      else (s.wr (chFld k m.src) 4).setStk k { s.stk k with ppr := some m.src }).nextRetrain k
    else
      (s.wrs [(R.HBM.MIG.ERR k, 1), (chFld k m.src, 0), (chFld k m.dst, 1), (R.HBM.STAT.SPARE_FREE k, 1)]).hbmError
        k 0x2005 1 m.dst none none

/-- The repaired rows of a bank. -/
def HbmSt.rowsOf (h : HbmSt) (ch pc bank : Nat) : List Nat := Tab.get [] h.repaired ((ch * 2 + pc) * 16 + bank)
/-- A row added to the repaired rows of a bank. -/
def HbmSt.addRow (h : HbmSt) (ch pc bank row : Nat) : HbmSt :=
  { h with repaired := Tab.set [] h.repaired ((ch * 2 + pc) * 16 + bank) (h.rowsOf ch pc bank ++ [row]) }

/-- HBM_PPR_DONE (R323, Table 11-4): the repaired channel becomes the spare, or is migrated back with SWAPBACK = 1; a
repair that fails, or a bank without repair rows, retires it: it stays OFFLINE, and a field record keeps it out at every
boot (R413, R415). -/
def State.hbmPprDone (s : State) (k : Nat) (ok : Bool) (pc bank row : Nat) : State :=
  match (s.stk k).ppr with
  | none => s
  | some c =>
    let h := { s.stk k with ppr := none }
    if ok && decide ((h.rowsOf c pc bank).length < Config.repairRows) then
      let back := s.rd (R.HBM.STAT.SPARE_CH k)
      let s := (s.setStk k (h.addRow c pc bank row)).becomeSpare k c
      if s.on (R.HBM.CTL.SWAPBACK k) then s.migStart k back true else s
    else
      let s := (s.setStk k h).hbmError k 0x2006 1 c (some pc) (some (bank, row))
      s.appendField (s.fieldNow 4 (rowFields k c 0 0 0))

/-! ## Retraining -/

/-- HBM_RETRAIN: a retrain falls due. The hold of an active pseudo-channel begins, one at a time in a stack; a retrain waits for
another's hold, and while its channel is offline (R318, R319). -/
def State.hbmRetrain (s : State) (k pc : Nat) : State :=
  let h := s.stk k
  if (s.chActive k (pc / 2) || s.rd (chFld k (pc / 2)) == 4) && !h.due.contains pc && h.holding != some pc then
    (s.setStk k { h with due := h.due ++ [pc] }).nextRetrain k
  else s
/-- A failed retrain: the first is tried once more, the second raises HBM_TRAIN_FAIL and starts migration (R319). -/
def State.retrainFailed (s : State) (k pc : Nat) : State :=
  let h := s.stk k
  let s := s.count (R.HBM.RETRAIN.FAILS k) 1
  if h.retry.contains pc then
    let s := (s.setStk k { h with retry := h.retry.filter (· ≠ pc) }).hbmError k 0x2004 1 (pc / 2) (some (pc % 2)) none
    s.migStart k (pc / 2) false
  else s.setStk k { h with retry := h.retry ++ [pc] }
/-- A retrain that found settings: counted, and no second attempt is owed. -/
def State.retrainOk (s : State) (k pc : Nat) : State :=
  (s.count (R.HBM.RETRAIN.COUNT k) 1).setStk k { s.stk k with retry := (s.stk k).retry.filter (· ≠ pc) }
/-- HBM_RETRAIN_DONE: the hold ends (R318, R319). -/
def State.hbmRetrainDone (s : State) (k : Nat) (ok : Bool) (ns : BitVec 16) : State :=
  match (s.stk k).holding with
  | none => s
  | some pc =>
    let s := (s.setStk k { s.stk k with holding := none }).wr (R.HBM.RETRAIN.LAST_NS k) ns.toNat
    (if ok then s.retrainOk k pc else s.retrainFailed k pc).nextRetrain k
/-- HBM_RETRAIN_RETRY: the second attempt, 1 ms after the first failed (R319). -/
def State.hbmRetrainRetry (s : State) (k pc : Nat) (ok : Bool) : State :=
  if !(s.stk k).retry.contains pc || !s.chActive k (pc / 2) then s
  else if ok then s.retrainOk k pc else s.retrainFailed k pc

/-! ## Repair port -/

/-- A write of HBM.RPR_CMD (R324): the command starts with GO = 1 while none runs; a hard repair of a channel that is not
OFFLINE is refused; OP 3 is reserved and starts nothing. -/
def State.rprWrite (s : State) (k : Nat) (v : Word) : State :=
  let s := s.regPut false (R.HBM.RPR_CMD.REG k).reg v
  let op := fieldOf v 28 2
  if fieldOf v 30 1 = 0 ∨ (s.stk k).rpr.isSome ∨ op = 3 then s
  else if op = 1 ∧ s.rd (chFld k (fieldOf v 0 5)) ≠ 4 then s.wr (R.HBM.RPR_STAT.REFUSED k) 1
  else (s.wr (R.HBM.RPR_STAT.BUSY k) 1).setStk k { s.stk k with rpr := some op }
/-- RPR_COMPLETE (R324): the running command ends: free rows, the repaired row entered or FAIL, or the next repaired row
with MORE. Listing starts again after the last row or a query. -/
def State.rprComplete (s : State) (k : Nat) (ok : Bool) : State :=
  let h := s.stk k
  match h.rpr with
  | none => s
  | some op =>
    let ch := s.rd (R.HBM.RPR_CMD.CH k)
    let pc := s.rd (R.HBM.RPR_CMD.PC k)
    let bank := s.rd (R.HBM.RPR_CMD.BANK k)
    let rows := h.rowsOf ch pc bank
    let s := s.wrs [(R.HBM.RPR_STAT.BUSY k, 0), (R.HBM.RPR_STAT.DONE k, 1)]
    let h := { h with rpr := none }
    if op = 0 then (s.wr (R.HBM.RPR_STAT.FREE k) (Config.repairRows - rows.length)).setStk k { h with listed := 0 }
    else if op = 1 then
      if ok then s.setStk k (h.addRow ch pc bank (s.rd (R.HBM.RPR_CMD.ROW k)))
      else (s.wr (R.HBM.RPR_STAT.FAIL k) 1).setStk k h
    else match rows[h.listed]? with
      | some r =>
        let more := decide (h.listed + 1 < rows.length)
        (s.wrs [(R.HBM.RPR_STAT.ROW k, r), (R.HBM.RPR_STAT.MORE k, if more then 1 else 0)]).setStk k
          { h with listed := if more then h.listed + 1 else 0 }
      | none => (s.wr (R.HBM.RPR_STAT.MORE k) 0).setStk k { h with listed := 0 }

/-! ## Traffic generator -/

/-- Whether a stack belongs to a valid region. -/
def State.inRegion (s : State) (k : Nat) : Bool :=
  (List.range 8).any (fun r => s.on (R.HBM0.REGION.VALID r) && hasStack (s.rd (R.HBM0.REGION.STACKS r)) k)
/-- A write of HBM.TG_CTL (R325): ABORT stops the run after its burst; GO starts one where the channel carries no region
data and the range ends within the pseudo-channel, else it is refused. -/
def State.tgWrite (s : State) (k : Nat) (v : Word) : State :=
  let s := s.regPut false (R.HBM.TG_CTL.REG k).reg v
  let op := fieldOf v 3 2
  let s := if fieldOf v 2 1 = 1 ∧ (s.stk k).tg.isSome then s.setStk k { s.stk k with tgAbort := true } else s
  if fieldOf v 1 1 = 0 ∨ (s.stk k).tg.isSome ∨ op = 3 then s else
  let st := s.rd (chFld k (fieldOf v 0 1 * 16))
  let fits := decide (s.rd (R.HBM.TG_RANGE.START k) + s.rd (R.HBM.TG_RANGE.LINES k) < 2 ^ 21)
  if (st == 1 || st == 4 || !s.inRegion k) && fits then
    (s.wr (R.HBM.TG_STAT.BUSY k) 1).setStk k { s.stk k with tg := some op, tgAbort := false }
  else s.wr (R.HBM.TG_STAT.REFUSED k) 1
/-- TG_ABORT: a write of TG_CTL.ABORT that changes no other field. -/
def State.tgAbortWrite (s : State) (k : Nat) : State :=
  if (s.stk k).tg.isSome then s.setStk k { s.stk k with tgAbort := true } else s
/-- TG_DONE (R325): the run ends; a mode that checks reports its mismatches. -/
def State.tgDone (s : State) (k : Nat) (mis line byte mbps : Nat) : State :=
  match (s.stk k).tg with
  | none => s
  | some op =>
    let n := if op = 0 then 0 else mis
    let s := (s.wrs [(R.HBM.TG_STAT.BUSY k, 0), (R.HBM.TG_STAT.DONE k, 1), (R.HBM.TG_STAT.MISMATCH k, n),
      (R.HBM.TG_STAT.MBPS k, mbps)]).setStk k { s.stk k with tg := none, tgAbort := false }
    if n = 0 then s
    else (s.wrs [(R.HBM.TG_FAIL.LINE k, line), (R.HBM.TG_FAIL.BYTE k, byte)]).hbmError k 0x2007 1
      (s.rd (R.HBM.TG_CTL.PCSEL k) * 16) (some 0) (some ((Config.bankOf line).toNat, (Config.rowOf line).toNat))

end Sys2Proof.Machine
end

