-- ==== Sys2Proof/Machine/Route.lean ====
section
/-! DEFINITION. How messages leave the module: the link and reach tables (R363, R364), the path of a message (R367), and each
port's queues, credits, replay buffer and transmit arbiter (R351 to R353, R359). -/
namespace Sys2Proof.Machine

/-! ## Ports and tables -/

/-- A port without traffic. -/
def PortSt.idle : PortSt := ⟨0, 0, false, false, 0, 0, 0, 0, [], 0, [], [], 0, 0, none⟩
/-- A port beside its registers. -/
def State.port (s : State) (p : Nat) : PortSt := Tab.get PortSt.idle s.fab.ports p
/-- A port replaced. -/
def State.setPort (s : State) (p : Nat) (x : PortSt) : State :=
  { s with fab := { s.fab with ports := Tab.set PortSt.idle s.fab.ports p x } }
/-- FAB.STAT.STATE of a port (Table 13-5). -/
def State.portState (s : State) (p : Nat) : Nat := s.rd (R.FAB.STAT.STATE p)
/-- A port moved to a state of Table 13-5. -/
def State.portTo (s : State) (p st : Nat) : State := s.wr (R.FAB.STAT.STATE p) st
/-- Whether a port carries messages: ACTIVE or WAX. -/
def State.portUp (s : State) (p : Nat) : Bool := s.portState p == 4 || s.portState p == 5
/-- The own place among the 64 modules of the rack. -/
def State.rackPlace (s : State) : Nat := s.moduleId % 64
/-- The 32 entries that the own ports give (R363). -/
def State.ownEnts (s : State) : List TopoEnt :=
  (List.range 32).map (fun p => ⟨BitVec.ofNat 2 (s.rd (R.FAB.STAT.PTYPE p)), BitVec.ofNat 16 (s.rd (R.FAB.PARTNER.MODULE p)),
    BitVec.ofNat 5 (s.rd (R.FAB.PARTNER.PORT p)), BitVec.ofNat 4 (s.portState p)⟩)
/-- A rack member's part of the link table. -/
def State.topo (s : State) (m : Nat) : TopoMod := Tab.get ⟨0, 0, []⟩ s.fab.topo m
/-- Whether an own system port leads to a rack: by a switch's advertisement, or to an encapsulated partner there. -/
def State.leadsTo (s : State) (rack p : Nat) : Bool :=
  s.portUp p && s.rd (R.FAB.STAT.LEVEL p) == 3 &&
  (if s.rd (R.FAB.STAT.PTYPE p) = 1 then s.rd (R.FAB.PARTNER.RACK p) == rack
   else match Tab.get none s.fab.advert p with
    | some a => a.racks.contains rack
    | none => false)
/-- Whether an entry of a rack member's ports is a link inside the rack that carries messages. -/
def TopoEnt.links (rack : Nat) (e : TopoEnt) : Bool :=
  e.ptype == 1 && (e.state == 4 || e.state == 5) && e.module.toNat / 64 == rack
/-- The links of the rack as (member, member), this module's own as its ports are now (R363). -/
def State.rackLinks (s : State) : List (Nat × Nat) :=
  let rack := s.rd R.FABG.ID.RACK
  let of (m : Nat) (es : List TopoEnt) : List (Nat × Nat) := (es.filter (TopoEnt.links rack)).map (fun e => (m, e.module.toNat % 64))
  of s.rackPlace s.ownEnts ++ (s.fab.topo.filter (fun e => e.1 != s.rackPlace)).flatMap (fun e => of e.1 e.2.ents)

/-! ## The path of a message -/

/-- The hops from each rack member to the nearest of a list, with `d` hops for those of `front`; `fuel` bounds the hops. -/
def hops (links : List (Nat × Nat)) : Nat → List Nat → List Nat → Nat → List (Nat × Nat)
  | 0, _, _, _ => []
  | fuel + 1, front, seen, d =>
    let next := ((links.filter (fun e => front.contains e.2 && !seen.contains e.1)).map (·.1)).dedup
    front.map (fun m => (m, d)) ++ (if next.isEmpty then [] else hops links fuel next (seen ++ next) (d + 1))
/-- The own ports on a minimal-hop path to the nearest of a list of rack members (R367). -/
def State.portsTo (s : State) (targets : List Nat) : List Nat :=
  let ds := hops s.rackLinks 64 targets targets 0
  match ds.find? (fun e => e.1 == s.rackPlace) with
  | some (_, k + 1) => (List.range 32).filter (fun p => s.portUp p &&
      (s.rd (R.FAB.STAT.LEVEL p) == 1 || s.rd (R.FAB.STAT.LEVEL p) == 2) && ds.contains (s.rd (R.FAB.PARTNER.MODULE p) % 64, k))
  | _ => []
/-- The ports over which a message for module `dst` may go (R367): inside the rack a minimal-hop path; to another rack first a
member of that rack's reach mask, this module where it is one. -/
def State.routes (s : State) (dst : Nat) : List Nat :=
  let mask := Tab.get 0 s.fab.reach (dst / 64)
  if dst / 64 = s.rd R.FABG.ID.RACK then s.portsTo [dst % 64]
  else if mask / 2 ^ s.rackPlace % 2 = 1 then (List.range 32).filter (s.leadsTo (dst / 64))
  else s.portsTo ((List.range 64).filter (fun m => mask / 2 ^ m % 2 == 1))
/-- What the hash of R367 is taken over: CTR for stores, atomics and their answers, else SEQ and CHUNK; and the attempt of a
retransmission. -/
def TxMsg.hashed (m : TxMsg) : List Nat :=
  let k := m.h.kind.toNat
  [m.h.src.toNat, m.h.dst.toNat, k] ++ (if 4 ≤ k ∧ k ≤ 7 then [m.h.ctr.toNat] else [m.h.seq.toNat, m.h.chunk.toNat]) ++
    (if m.attempt = 0 then [] else [m.attempt])
/-- The port that a message takes (R367). -/
def State.route (s : State) (m : TxMsg) : Option Nat :=
  let ps := s.routes m.h.dst.toNat
  ps[Config.routeHash m.hashed % ps.length]?

/-! ## A port's transmitter -/

/-- The virtual channel of a KIND (Table 13-3). -/
def vcOf (kind : Nat) : Nat := if kind = 1 ∨ 8 ≤ kind then 0 else if kind = 0 then 1 else if kind = 4 ∨ kind = 5 then 3 else 2
/-- The virtual channel of a message. -/
def TxMsg.vc (m : TxMsg) : Nat := vcOf m.h.kind.toNat
/-- The flits of a message: header, payload and tag in bodies of 496 bytes. -/
def TxMsg.flits (m : TxMsg) : Nat := (80 + m.h.bytes.toNat + 495) / 496
/-- Whether a channel has a flit and a credit (R352). -/
def PortSt.ready (x : PortSt) (vc : Nat) : Bool := decide (0 < Tab.get 0 x.credits vc) && x.queue.any (fun e => e.1.vc == vc)
/-- The channel that the arbiter grants (R353): VC0 first, then the one nearest after the pointer. -/
def PortSt.grant (x : PortSt) : Option Nat :=
  if x.ready 0 then some 0 else ([0, 1, 2].map (fun i => (x.ptr + i) % 3 + 1)).find? x.ready
/-- A flit of the granted channel leaves: it uses a credit and stays in the replay buffer (R351, R352). -/
def PortSt.sendFlit (x : PortSt) (vc : Nat) : PortSt :=
  match x.queue.find? (fun e => e.1.vc == vc) with
  | none => x
  | some (m, k) =>
    let rest := if k ≤ 1 then x.queue.erase (m, k) else
      x.queue.map (fun e => if e = (m, k) then (m, k - 1) else e)
    { x with queue := rest, replay := x.replay ++ [⟨x.txSeq, m, k == m.flits, decide (k ≤ 1)⟩], txSeq := (x.txSeq + 1) % 4096
             credits := Tab.set 0 x.credits vc (Tab.get 0 x.credits vc - 1), ptr := if vc = 0 then x.ptr else vc % 3 }
/-- Flits leave while a channel has one with a credit and the replay buffer of 1,024 has room. -/
def PortSt.pump : Nat → PortSt → PortSt
  | 0, x => x
  | fuel + 1, x => if x.replay.length ≥ 1024 then x else
    match x.grant with
    | some vc => PortSt.pump fuel (x.sendFlit vc)
    | none => x
/-- An ACTIVE port that no PFC pause holds sends what it can (R353, R371); one in a hold waits (R369). -/
def State.pumpPort (s : State) (p : Nat) : State :=
  let x := s.port p
  if s.portState p ≠ 4 ∨ x.pause ≠ 0 ∨ x.queue.isEmpty then s
  else s.setPort p (x.pump (min 1024 ((x.queue.map (·.2)).foldl (· + ·) 0)))
/-- The port that carries a VC0 flit while port `p` is in a hold: another ACTIVE one to that partner, else `p` (R369, R370). -/
def State.aside (s : State) (p vc : Nat) : Nat :=
  if vc ≠ 0 ∨ s.portState p ≠ 5 then p else
  ((List.range 32).find? (fun q => q != p && s.portState q == 4 && s.rd (R.FAB.STAT.PTYPE q) == s.rd (R.FAB.STAT.PTYPE p) &&
    (if s.rd (R.FAB.STAT.PTYPE p) = 1 then s.rd (R.FAB.PARTNER.MODULE q) == s.rd (R.FAB.PARTNER.MODULE p)
     else s.rd (R.FAB.PARTNER.RACK q) == s.rd (R.FAB.PARTNER.RACK p)))).getD p
/-- `k` flits of a message enter a port's queue. -/
def State.enqueue (s : State) (p : Nat) (m : TxMsg) (k : Nat) : State :=
  let p := s.aside p m.vc
  (s.setPort p { s.port p with queue := (s.port p).queue ++ [(m, k)] }).pumpPort p
/-- `k` flits of a message go to the port that R367 gives; a destination without a path gets none (R368). -/
def State.forward (s : State) (m : TxMsg) (k : Nat) : State :=
  match s.route m with
  | some p => s.enqueue p m k
  | none => s
/-- A message is sent. -/
def State.send (s : State) (m : TxMsg) : State := s.forward m m.flits
/-- The header of a message of this module under a job's key slot (Table 13-4). -/
def State.header (s : State) (job key ctr dst kind : Nat) : THdr :=
  ⟨BitVec.ofNat 16 job, BitVec.ofNat 16 s.moduleId, BitVec.ofNat 16 dst, BitVec.ofNat 4 kind, Fin.ofNat 16 key,
    BitVec.ofNat 64 ctr, 0, 0, 0, 0, 0, 0, false⟩
/-- The key slot of a job. -/
def State.slotOfJob (s : State) (job : Nat) : Option (Nat × KeySlot) :=
  (List.range 16).findSome? (fun i => match Tab.get none s.fab.slots i with
    | some k => if k.job = job then some (i, k) else none
    | none => none)
/-- A new message of a job to a module: the counter under the job's key advances (R355), and `f` fills the header. Without a
key nothing is sent. -/
def State.sendJob (s : State) (job dst kind : Nat) (f : THdr → THdr) : State :=
  match s.slotOfJob job with
  | some (i, k) =>
    ({ s with fab := { s.fab with slots := Tab.set none s.fab.slots i (some { k with ctr := k.ctr + 1 }) } } : State).send
      ⟨f (s.header job i k.ctr dst kind), 0⟩
  | none => s
/-- A fabric message under the fabric key to the partner of a port, over that port (R361, R363). -/
def State.sendPort (s : State) (p kind : Nat) : State :=
  let m : TxMsg := ⟨s.header 0xffff 0 s.fab.fabCtr (s.rd (R.FAB.PARTNER.MODULE p)) kind, 0⟩
  ({ s with fab := { s.fab with fabCtr := s.fab.fabCtr + 1 } } : State).enqueue p m m.flits

end Sys2Proof.Machine
end

