-- ==== Sys2Proof/Machine/Xfer.lean ====
section
/-! DEFINITION. Transfers (Table 2-13, R56, R285 to R287, R522) and what remote accesses share (R355, R360). -/
namespace Sys2Proof.Machine

/-- The fields of an XFER (Table 2-13). -/
structure XferF where
  cls : Nat
  len : Nat
  ssp : Nat
  dsp : Nat
  sreg : Nat
  dreg : Nat
  lreg : Nat
  creg : Nat
  cw : Bool
  rsv : Nat
  rows : Nat
  sstride : Nat
  dstride : Nat
deriving DecidableEq, Repr

/-- The fields of the two words of an XFER. -/
def xferFields (w0 w1 : Word) : XferF where
  cls := fieldOf w0 0 4
  len := fieldOf w0 4 2
  ssp := fieldOf w0 6 2
  dsp := fieldOf w0 8 2
  sreg := fieldOf w0 10 5
  dreg := fieldOf w0 15 5
  lreg := fieldOf w0 20 5
  creg := fieldOf w0 25 5
  cw := fieldOf w0 30 1 == 1
  rsv := fieldOf w0 31 1 + fieldOf w0 48 16
  rows := fieldOf w0 32 16 + 1
  sstride := fieldOf w1 0 32
  dstride := fieldOf w1 32 32

/-- One end of a transfer: a local byte address, or a module and a local address of it. -/
structure XEnd where
  mod : Option Nat
  addr : Nat
deriving DecidableEq, Repr

/-- A register's address under a space code (R522): a global address of the own module is served locally. -/
def State.xferEnd (s : State) (c space v : Nat) : XEnd :=
  if space = 0 then ⟨none, winAddr c v⟩
  else if space = 1 then ⟨none, winAddr c (abOff + v)⟩
  else if space = 2 then ⟨none, v⟩
  else if v / 2 ^ 48 = s.moduleId then ⟨none, v % 2 ^ 48⟩
  else ⟨some (v / 2 ^ 48), v % 2 ^ 48⟩

/-- What core `c` may reach (R439). -/
def State.coreReach (s : State) (c a n : Nat) (write : Bool) : Reach :=
  match s.partOfCore c with
  | none => .foreign
  | some p => s.reach (some p) a n write

/-- The start addresses of the rows of one end. -/
def rowStarts (a stride rows : Nat) : List Nat := (List.range rows).map (fun r => a + r * stride)

/-- The check of one end (R47, R56, R301, R439, R521): a range of the own scratchpad or accumulator buffer lies inside
it; a local range is reached row by row; a remote one names HBM, slow-tier DRAM or a window. An OFF segment of another
core's memories does not stop the start: its window port answers. -/
def State.xferCheck (s : State) (c space v : Nat) (n rows stride : Nat) (write : Bool) : Reach :=
  let e := s.xferEnd c space v
  if space = 0 ∧ v + (rows - 1) * stride + n > spBytes then .hole
  else if space = 1 ∧ v + (rows - 1) * stride + n > abBytes then .hole
  else match e.mod with
    | some _ =>
      if (rowStarts e.addr stride rows).any (fun a => placeOf a == .control || placeOf a == .nowhere) then .unmapped else .ok
    | none =>
      firstReach ((rowStarts e.addr stride rows).map (fun a =>
        match s.coreReach c a n write with
        | .off i => if i / 8 = c then .off i else .ok
        | r => r))

/-- The core's refusal of an access: SLOW_RANGE for the slow tier (R330), else ARR_ADDR (R316, R439, R521). -/
def State.coreRefuse (s : State) (c pc a : Nat) (r : Reach) : State :=
  match r with
  | .slowRange => s.refuseHub ((s.partOfCore c).getD 15) a .slowRange
  | _ => s.addrFault c pc

/-- The message of a remote access (R355, Table 13-4). -/
def State.remHdr (s : State) (r : Remote) : THdr :=
  { s.header (s.jobOfCore r.core) r.key r.ctr r.module (match r.kind with | .atomic _ => 5 | _ => 4) with
    addr := BitVec.ofNat 48 r.addr, bytes := BitVec.ofNat 40 r.bytes }
/-- A remote store or atomic, place `q` of its core's issue order, sent under the job's key slot: the counter advances and
the access waits for its acknowledgement (R355, R360). Without a slot nothing can be sent, and nothing acknowledges it. -/
def State.sendRemote (s : State) (c q : Nat) (kind : RemKind) (m addr bytes : Nat) : State :=
  let open_ (i ctr : Nat) (s : State) : State :=
    { s with chip := { s.chip with remotes := s.chip.remotes ++ [⟨i, ctr, c, q, kind, m, addr, bytes, 0⟩] } }
  match s.slotOfJob (s.jobOfCore c) with
  | some (i, k) =>
    (open_ i k.ctr { s with fab := { s.fab with slots := Tab.set none s.fab.slots i (some { k with ctr := k.ctr + 1 }) } }).send
      ⟨s.remHdr ⟨i, k.ctr, c, q, kind, m, addr, bytes, 0⟩, 0⟩
  | none => open_ 16 0 s

/-- XFER: the instruction's checks, then the transfer starts (R56). Its bytes move until it completes. It waits, without
effect, for accesses in flight that conflict with it (R38, R271) and while 65,536 transactions are in flight (Table
1-2). -/
def State.xfer (s : State) (c : Nat) (w0 w1 : Word) : State :=
  let f := xferFields w0 w1
  if !s.issues c then s
  else if f.cls ≠ 4 ∨ f.len ≠ 1 then s.issue c 1 (fun s pc => s.coreFault c 0x1001 3 0 pc true)
  else
    let sa := (s.sreg c f.sreg).toNat
    let da := (s.sreg c f.dreg).toNat
    let n := (s.sreg c f.lreg).toNat
    let cwA := (s.sreg c f.creg).toNat
    let src := s.xferEnd c f.ssp sa
    let dst := s.xferEnd c f.dsp da
    let span (e : XEnd) (stride : Nat) : Touch := if e.mod.isNone then [rowsRange e.addr f.rows n stride] else []
    if f.rsv ≠ 0 ∨ n = 0 ∨ n > 2097152 then s.issue c 2 (fun s pc => s.illegal c pc)
    else if s.mustWait c (span src f.sstride) (span dst f.dstride ++ (if f.cw then [(cwA, 8)] else [])) then s
    else if !s.mayTransact then s
    else s.issue c 2 (fun s pc =>
      let r1 := s.xferCheck c f.ssp sa n f.rows f.sstride false
      let r2 := s.xferCheck c f.dsp da n f.rows f.dstride true
      let r3 := if f.cw then s.xferCheck c 2 cwA 8 1 0 true else .ok
      if r1 ≠ .ok then s.coreRefuse c pc src.addr r1
      else if r2 ≠ .ok then s.coreRefuse c pc dst.addr r2
      else if r3 ≠ .ok then s.coreRefuse c pc cwA r3
      else
        let q := (s.core c).seq
        let x : XferPend := ⟨pc, q, src.addr, dst.addr, src.mod, dst.mod, n, f.rows, f.sstride, f.dstride, da % 2 ^ 48,
          if f.cw then some cwA else none, none, [], []⟩
        let s := s.modCore c (fun k => { k with xfers := k.xfers ++ [x], seq := q + 1 })
        match dst.mod with
        | some m => s.sendRemote c q (.xfer q) m dst.addr (f.rows * n)
        | none => s)

/-! ## The bytes of a transfer -/

/-- Bytes written by core `c`'s access at place `q` of its issue order: a window that is OFF discards them and raises
SRAM_OFF_ACCESS (R301). -/
def State.writeRow (s : State) (c q a n : Nat) (d : Piece) : State :=
  match s.offAt a n with
  | some i => s.refuseHub ((s.partOfCore c).getD 15) a (.off i)
  | none => s.pasteBy (some (c, q)) a n d
/-- A row read for core `c`: a window that is OFF returns poison and raises SRAM_OFF_ACCESS (R301). -/
def State.readRow (s : State) (c a n : Nat) : State × Piece :=
  match s.offAt a n with
  | some i => (s.refuseHub ((s.partOfCore c).getD 15) a (.off i), ⟨[], [(0, n)]⟩)
  | none => (s.wake a n, s.cut a n)
/-- `n` bytes from offset `lo` of a piece. -/
def Piece.part (d : Piece) (lo n : Nat) : Piece :=
  ⟨cutTab d.data lo n, (d.pois.filter (fun r => Rng.overlaps r (lo, n))).map
    (fun r => (max r.1 lo - lo, min (r.1 + r.2) (lo + n) - max r.1 lo))⟩

/-- Whether the bytes of row `r` of a local transfer are open when its rows move together: its source row overlaps a
destination row of the same transfer, or its destination row another destination row, and rows move in any order (R270,
log entry 3). -/
def XferPend.openRow (x : XferPend) (r : Nat) : Bool :=
  let src := (x.src + r * x.sstride, x.rowBytes)
  let dst := (x.dst + r * x.dstride, x.rowBytes)
  (List.range x.rows).any (fun q =>
    let d := (x.dst + q * x.dstride, x.rowBytes)
    (x.buf.isNone && Rng.overlaps src d && !(q == r && src == d)) || (q != r && Rng.overlaps dst d))

/-- Row `r` as the transfer reads it now, or as it read it (R270). -/
def State.xferRow (s : State) (c : Nat) (x : XferPend) (r : Nat) : State × Piece :=
  match x.buf with
  | some rows => (s, rows.getD r ⟨[], []⟩)
  | none => s.readRow c (x.src + r * x.sstride) x.rowBytes
/-- The source rows of a transfer read in order. -/
def State.readRows (s : State) (c : Nat) (x : XferPend) (r : Nat) : Nat → State × List Piece
  | 0 => (s, [])
  | k + 1 =>
    let (s1, d) := s.readRow c (x.src + r * x.sstride) x.rowBytes
    let (s2, t) := s1.readRows c x (r + 1) k
    (s2, d :: t)

/-- The 8-byte words that row `r` of a transfer's destination touches. -/
def XferPend.rowWords (x : XferPend) (r : Nat) : List Nat :=
  let b := x.dst + r * x.dstride
  List.range' (b / 8) ((b + x.rowBytes - 1) / 8 + 1 - b / 8)
/-- One 8-byte word of a transfer's destination lands (R270, R273). A poisoned 32-byte word that the row covers whole loses
its poison with the last of its four words, unless one of them brought poison (R299, R456). -/
def State.landWord (s : State) (c : Nat) (x : XferPend) (r w : Nat) : State × XferPend :=
  let b := x.dst + r * x.dstride
  let lo := max (8 * w) b
  let n := min (8 * w + 8) (b + x.rowBytes) - lo
  let (s, d) := s.xferRow c x r
  let p := d.part (lo - b) n
  let line := w / 4
  let x := { x with landed := x.landed ++ [(r, w)], pois := if p.pois.isEmpty then x.pois else addWord x.pois line }
  let s := s.writeRow c x.seq lo n p
  if p.pois.isEmpty ∧ b ≤ 32 * line ∧ 32 * line + 32 ≤ b + x.rowBytes ∧ !x.pois.contains line ∧
      (List.range' (4 * line) 4).all (fun k => x.landed.contains (r, k)) then
    ({ s with poison := s.poison.filter (· ≠ line) }, x)
  else (s, x)
/-- Whether a transfer's word may land now: it is one of the destination, has not landed, and waits for no retrain. -/
def State.mayLand (s : State) (x : XferPend) (e : Nat × Nat) : Bool :=
  decide (e.1 < x.rows) && (x.rowWords e.1).contains e.2 && !x.landed.contains e && !s.held (8 * e.2) 8 &&
  (x.buf.isSome || !s.held (x.src + e.1 * x.sstride) x.rowBytes)
/-- Words of a transfer's destination land one after another. -/
def State.landWords (s : State) (c : Nat) (x : XferPend) : List (Nat × Nat) → State × XferPend
  | [] => (s, x)
  | e :: t =>
    if s.mayLand x e then
      let (s, x) := s.landWord c x e.1 e.2
      s.landWords c x t
    else s.landWords c x t
/-- The rows of a transfer to local memory from `r` on, each whole where none of its words has landed; whether poison was
copied. -/
def State.moveRows (s : State) (c : Nat) (x : XferPend) (r : Nat) : Nat → State × Bool
  | 0 => (s, !x.pois.isEmpty)
  | k + 1 =>
    if x.landed.any (fun e => e.1 == r) then
      let (s1, x1) := s.landWords c x ((x.rowWords r).map (fun w => (r, w)))
      s1.moveRows c { x1 with landed := x.landed } (r + 1) k
    else
      let b := x.dst + r * x.dstride
      let (s1, d) := s.xferRow c x r
      let s2 := if x.openRow r then
          (s1.writeRow c x.seq b x.rowBytes (.ofBytes (s1.freeBytes x.rowBytes))).used ((x.rowBytes + 63) / 64)
        else s1.writeRow c x.seq b x.rowBytes d
      let (s3, p) := s2.moveRows c x (r + 1) k
      (s3, p || !d.pois.isEmpty)
/-- Whether a row of one end of a transfer waits for a retrain hold (R318). -/
def State.heldRows (s : State) (a n stride rows : Nat) : Bool := (rowStarts a stride rows).any (fun b => s.held b n)

/-- The completion word of a transfer (Table 9-3), where CW = 1: a release store at MODULE scope that stands at the transfer's
place of the issue order (R285). -/
def State.xferWord (s : State) (c : Nat) (x : XferPend) (status : Nat) : State :=
  match x.cw with
  | some a => s.modCore c (fun k => { k with sigs := k.sigs ++ [⟨x.seq, 3, a, none, x.daddr + status * 2 ^ 48 + 2 ^ 63⟩] })
  | none => s
/-- The transfers of a core without the one at place `q` of its issue order. -/
def State.dropXfer (s : State) (c q : Nat) : State :=
  s.modCore c (fun k => { k with xfers := k.xfers.filter (fun x => x.seq ≠ q) })
/-- A transfer of a core replaced. -/
def State.setXfer (s : State) (c : Nat) (x : XferPend) : State :=
  s.modCore c (fun k => { k with xfers := k.xfers.map (fun y => if y.seq = x.seq then x else y) })
/-- R287, R360: FAB_UNREACHABLE, a contained error against the core's job; with no port to name, it fills FABG.ERR. -/
def State.unreachable (s : State) (c m : Nat) : State :=
  let p := (s.partOfCore c).getD 15
  (s.recErr R.FABG.ERR.VALID R.FABG.ERR.OVERRUN [(R.FABG.ERR.CODE, 0x300a), (R.FABG.ERR.MODULE, m)]).contained
    0x300a p (s.jobOfCore c) c none

/-- Whether the store of a transfer still awaits its acknowledgement. -/
def State.unacked (s : State) (c q : Nat) : Bool := s.chip.remotes.any (fun r => r.core == c && r.kind == .xfer q)
/-- A transfer whose remote side is lost: its word with STATUS 2, which waits for nothing since its core is about to stop,
then the fabric error (R287). -/
def State.xferLost (s : State) (c : Nat) (x : XferPend) : State :=
  let s := s.dropXfer c x.seq
  let s := match x.cw with
    | some a => s.writeRow c x.seq a 8 (.ofBytes (leBytes 8 (x.daddr + 2 * 2 ^ 48 + 2 ^ 63)))
    | none => s
  s.unreachable c ((x.dstMod.orElse (fun _ => x.srcMod)).getD 0)
/-- The rows of delivered bytes. -/
def XferPend.rowsOf (x : XferPend) (data : List (Byte × Bool)) : List Piece :=
  (List.range x.rows).map (fun r => .ofMarked ((data.drop (r * x.rowBytes)).take x.rowBytes))

/-- The end of a transfer, or what becomes of it on the way, before its release word is written (R270, R273, R285). A way that
does not fit the transfer's ends, or an access that waits for a retrain (R318), does nothing. -/
def State.xferStep (s : State) (c : Nat) (x : XferPend) (how : XferEnd) : State :=
  match how, x.srcMod, x.dstMod with
  | .sourceRead, none, _ =>
    if x.buf.isSome || s.heldRows x.src x.rowBytes x.sstride x.rows then s else
    let (s, b) := s.readRows c x 0 x.rows
    s.setXfer c { x with buf := some b }
  | .remoteRead data, some _, none =>
    if x.buf.isSome ∨ data.length ≠ x.rows * x.rowBytes then s else s.setXfer c { x with buf := some (x.rowsOf data) }
  | .words ws, src, none =>
    if src.isSome && x.buf.isNone then s else
    let (s, x) := s.landWords c x ws
    s.setXfer c x
  | .localDone, src, none =>
    if (src.isSome && x.buf.isNone) || s.heldRows x.dst x.rowBytes x.dstride x.rows ||
      (x.buf.isNone && s.heldRows x.src x.rowBytes x.sstride x.rows) then s else
    let (s1, p) := (s.dropXfer c x.seq).moveRows c x 0 x.rows
    s1.xferWord c x (if p then 1 else 0)
  | .remoteData data, some _, none =>
    if x.buf.isSome ∨ data.length ≠ x.rows * x.rowBytes ∨ s.heldRows x.dst x.rowBytes x.dstride x.rows then s else
    let (s1, p) := (s.dropXfer c x.seq).moveRows c { x with buf := some (x.rowsOf data) } 0 x.rows
    s1.xferWord c x (if p then 1 else 0)
  | .remoteData data, some _, some _ =>
    if s.unacked c x.seq then s else (s.dropXfer c x.seq).xferWord c x (if data.any (·.2) then 1 else 0)
  | .remoteAcked, none, some _ =>
    if s.unacked c x.seq then s else
    let p := match x.buf with
      | some rows => rows.any (fun d => !d.pois.isEmpty)
      | none => (rowStarts x.src x.sstride x.rows).any (fun a => s.poisoned a x.rowBytes || (s.offAt a x.rowBytes).isSome)
    (s.dropXfer c x.seq).xferWord c x (if p then 1 else 0)
  | .lost, none, none => s
  | .lost, _, _ => s.xferLost c x
  | _, _, _ => s

end Sys2Proof.Machine
end

