-- ==== Sys2Proof/Machine/Sync.lean ====
section
/-! DEFINITION. The SYNC instruction (Table 9-2, R276 to R283, R288). -/
namespace Sys2Proof.Machine

/-- The fields of a SYNC instruction (Table 9-2). -/
structure SyncF where
  cls : Nat
  len : Nat
  op : Nat
  scope : Nat
  ord : Nat
  aop : Nat
  cond : Nat
  a : Nat
  b : Nat
  d : Nat
  gaddr : Nat
  rsv : Nat
  tmo : Nat
deriving DecidableEq, Repr

/-- The fields of a SYNC word. -/
def syncFields (w : Word) : SyncF where
  cls := fieldOf w 0 4
  len := fieldOf w 4 2
  op := fieldOf w 6 4
  scope := fieldOf w 10 3
  ord := fieldOf w 13 2
  aop := fieldOf w 15 3
  cond := fieldOf w 18 2
  a := fieldOf w 20 5
  b := fieldOf w 25 5
  d := fieldOf w 30 5
  gaddr := fieldOf w 35 1
  rsv := fieldOf w 36 4
  tmo := fieldOf w 40 24

/-- R276: no reserved value, and every field the operation does not use is 0. -/
def SyncF.fieldsOk (f : SyncF) : Bool :=
  decide (f.op ≤ 3) && decide (f.scope ≤ 4) && f.rsv == 0 &&
  (match f.op with
   | 0 => f.ord == 0 && f.aop == 0 && f.cond == 0 && f.a == 0 && f.b == 0 && f.d == 0 && f.gaddr == 0 && f.tmo == 0
   | 1 => f.ord == 0 && f.aop == 0 && decide (f.cond < 3)
   | 2 => f.ord == 0 && f.aop == 0 && f.cond == 0 && f.d == 0 && f.tmo == 0
   | _ => decide (f.aop < 7) && f.cond == 0 && f.tmo == 0)

/-- An agent of Table 9-1: a core, a hub engine (collective engine, work scheduler, rollout engine), an update unit, a host DMA
engine of this module, or any agent of another member of the job. -/
inductive Agent where
  | core (c : CoreId)
  | hub
  | updateUnit (m : Fin 4)
  | hostDma (port : Fin 2)
  | member (m : BitVec 16)
deriving DecidableEq, Repr

/-- Whether agent `q` is within scope `sc` as core `c` sees it (R274, Table 9-1); each scope holds those before it. -/
def inScope (sc : Nat) (c : CoreId) : Agent → Bool
  | .core q => decide (2 ≤ sc) || q == c || (decide (1 ≤ sc) && q.val / 200 == c.val / 200)
  | .hub => decide (2 ≤ sc)
  | .updateUnit _ => decide (3 ≤ sc)
  | .hostDma _ => decide (3 ≤ sc)
  | .member _ => decide (4 ≤ sc)

/-- Whether scope `sc` of core `c` covers a place of a memory of module `m` (none: this one) (Table 9-1, R275, R288). -/
def scopeCovers (c sc : Nat) (m : Option Nat) (a : Nat) : Bool :=
  match m with
  | some _ => sc == 4
  | none => match placeOf a with
    | .hbm => decide (2 ≤ sc)
    | .slow _ _ => decide (3 ≤ sc)
    | .window c' _ => c' == c || (decide (1 ≤ sc) && (decide (2 ≤ sc) || c' / 200 == c / 200))
    | _ => true
/-- Whether a transfer in flight is not complete at scope `sc` of its core (R277): it has still to write a place that the
scope covers, or to read its source; a CORE scope looks at the core's own memories alone. -/
def XferPend.open_ (x : XferPend) (c sc : Nat) : Bool :=
  (x.dstMod.isNone && scopeCovers c sc none x.dst) ||
  (x.buf.isNone && (decide (1 ≤ sc) || (x.srcMod.isNone && scopeCovers c 0 none x.src)))
/-- Whether an access of core `c` that stands before place `q` of its issue order is outstanding at a scope (R277, R278): an
array or VEC operation at any scope, a transfer or a release store not complete at it, and at any scope beyond CORE a
remote store or atomic that nothing has acknowledged (log entry 156). -/
def State.outstanding (s : State) (c sc q : Nat) : Bool :=
  let k := s.core c
  k.inFlight.any (fun o => o.seq < q) || k.vecs.any (fun v => v.seq < q) ||
  k.xfers.any (fun x => x.seq < q && x.open_ c sc) ||
  k.sigs.any (fun g => g.seq < q && (if g.mod.isSome then decide (1 ≤ sc) else scopeCovers c sc none g.addr)) ||
  (decide (1 ≤ sc) && s.chip.remotes.any (fun r => r.core == c && decide (r.seq < q)))

/-! ## Release stores -/

/-- A release store that nothing before it holds back, and whose place waits for no retrain, is performed (R278, R285):
written, or sent to its module. -/
def State.fireSig (s : State) (c : Nat) (g : Sig) : State :=
  let s := s.modCore c (fun k => { k with sigs := k.sigs.erase g })
  match g.mod with
  | some m => s.sendRemote c g.seq .signal m g.addr 8
  | none => s.writeRow c g.seq g.addr 8 (.ofBytes (leBytes 8 g.value))
/-- Whether a release store may be performed now. -/
def State.sigReady (s : State) (c : Nat) (g : Sig) : Bool :=
  !s.outstanding c g.scope g.seq && (g.mod.isSome || !s.held g.addr 8) && (g.mod.isNone || s.mayTransact)
/-- The release stores of a core that may be performed are, one by one. -/
def State.fireSigs (s : State) (c : Nat) : Nat → State
  | 0 => s
  | n + 1 => match (s.core c).sigs.find? (s.sigReady c) with
    | some g => (s.fireSig c g).fireSigs c n
    | none => s
/-- Every release store of a core that may be performed now is. -/
def State.poke (s : State) (c : Nat) : State := s.fireSigs c (s.core c).sigs.length
/-- The release stores of every core that may be performed now are. -/
def State.pokeCores (s : State) : State :=
  (s.chip.cores.filter (fun e => !e.2.sigs.isEmpty)).foldl (fun s e => s.poke e.1) s

/-- XFER_COMPLETE (R285): what `how` says becomes of transfer `index` of the core, in issue order, then the release stores it
held back. -/
def State.xferComplete (s : State) (c index : Nat) (how : XferEnd) : State :=
  match (s.core c).xfers[index]? with
  | none => s
  | some x => (s.xferStep c x how).poke c

/-- Issues a SYNC word of operation `op`; a word of another class is that class's, and a SYNC word of another operation is
that command's. -/
def State.sync (s : State) (c op : Nat) (w : Word) (k : SyncF → State → Nat → State) : State :=
  let f := syncFields w
  if !s.issues c then s
  else if f.cls ≠ 1 ∨ f.len ≠ 0 then s.issue c 1 (fun s pc => s.coreFault c 0x1001 3 0 pc true)
  else if f.op ≤ 3 ∧ f.op ≠ op then s
  else if !f.fieldsOk then s.issue c 1 (fun s pc => s.illegal c pc)
  else s.issue c 1 (k f)

/-- FENCE: the stream holds until `FENCE_DONE` (R277). -/
def State.fence (s : State) (c : Nat) (w : Word) : State :=
  s.sync c 0 w (fun f s _ => s.modCore c (fun k => { k with stall := .fence f.scope k.seq }))
/-- FENCE_DONE: issue resumes once nothing the FENCE waits for is outstanding (R277). -/
def State.fenceDone (s : State) (c : Nat) : State :=
  match (s.core c).stall with
  | .fence sc q => if s.outstanding c sc q then s else s.modCore c (fun k => { k with stall := .none })
  | _ => s

/-- The check of a SYNC address (R276): 8-byte aligned, in a memory the operation may name, and reached by the core.
`win` says whether windows are allowed. -/
def State.syncCheck (s : State) (c : Nat) (e : XEnd) (win write : Bool) : Reach :=
  let placeOk := match placeOf e.addr with
    | .hbm => true
    | .slow _ _ => true
    | .window _ _ => win
    | _ => false
  if e.addr % 8 ≠ 0 ∨ !placeOk then .unmapped
  else match e.mod with
    | some _ => .ok
    | none => match s.coreReach c e.addr 8 write with
      | .off i => if i / 8 = c then .off i else .ok
      | r => r

/-- WAIT: the stream holds on repeated acquire reads (R279). A global address raises ARR_ADDR (R276). -/
def State.waitOp (s : State) (c : Nat) (w : Word) : State :=
  s.sync c 1 w (fun f s pc =>
    let a := (s.sreg c f.a).toNat
    let r := s.syncCheck c ⟨none, a⟩ true false
    if f.gaddr = 1 then s.addrFault c pc
    else if r ≠ .ok then s.coreRefuse c pc a r
    else s.modCore c (fun k => { k with stall := .wait w }))
/-- The condition of a WAIT (Table 9-2). -/
def waitHolds (cond : Nat) (x y : Word) : Bool :=
  if cond = 0 then x == y else if cond = 1 then x != y else decide (y.toNat ≤ x.toNat)
/-- The stream's hold ends. -/
def State.release (s : State) (c : Nat) : State := s.modCore c (fun k => { k with stall := .none })
/-- WAIT_SATISFIED: one read of a waiting core. A poisoned word stops the WAIT with ARR_POISON; a word that meets the
condition lets issue resume; any other leaves the core waiting (R279). The read waits for earlier accesses in flight to its
word of the core's own memory (R271) and for a retrain (R318). Later accesses wait for it at every scope (log entry 157). -/
def State.waitSatisfied (s : State) (c : Nat) : State :=
  match (s.core c).stall with
  | .wait w =>
    let f := syncFields w
    let a := (s.sreg c f.a).toNat
    let mask : Word := if f.d = 0 then -1 else s.sreg c f.d
    if s.mustWait c [(a, 8)] [] || s.held a 8 then s else
    let (s1, d) := s.readRow c a 8
    if !d.pois.isEmpty then (s1.release c).coreFault c 0x1004 3 0 ((s.core c).pc - 1) false
    else if waitHolds f.cond (BitVec.ofNat 64 (tabLE d.data 0 8) &&& mask) (s.sreg c f.b) then s1.release c
    else s1
  | _ => s
/-- SYNC_TIMEOUT: a WAIT reaches its time limit (R279); TMO = 0 has none. -/
def State.syncTimeout (s : State) (c : Nat) : State :=
  match (s.core c).stall with
  | .wait w =>
    if (syncFields w).tmo = 0 then s
    else (s.release c).coreFault c 0x1007 3 0 ((s.core c).pc - 1) false
  | _ => s

/-- SIGNAL: a release store of s[B] (R278). It takes its place among the core's accesses and is performed once those before it
are visible at its scope; the stream goes on. The write of a global address leaves as a remote store. -/
def State.signalOp (s : State) (c : Nat) (w : Word) : State :=
  s.sync c 2 w (fun f s pc =>
    let e := s.xferEnd c (2 + f.gaddr) (s.sreg c f.a).toNat
    let r := s.syncCheck c e true true
    if r ≠ .ok then s.coreRefuse c pc e.addr r
    else
      let g : Sig := ⟨(s.core c).seq, f.scope, e.addr, e.mod, (s.sreg c f.b).toNat⟩
      (s.modCore c (fun k => { k with sigs := k.sigs ++ [g], seq := k.seq + 1 })).poke c)

/-- The new value of an atomic (R281): old value, s[B], and the expected value of CAS. -/
def atomicNew (aop : AOp) (old b expected : Word) : Word :=
  match aop with
  | .add => old + b
  | .swap => b
  | .cas => if old = expected then b else old
  | .and => old &&& b
  | .or => old ||| b
  | .umax => if old.toNat < b.toNat then b else old
  | .umin => if b.toNat < old.toNat then b else old
/-- The code of an atomic (Table 9-2). -/
def aopCode : AOp → Nat
  | .add => 0
  | .swap => 1
  | .cas => 2
  | .and => 3
  | .or => 4
  | .umax => 5
  | .umin => 6
/-- The new value written at the word's home; CAS writes only on a match (R281). -/
def State.atomicWrite (s : State) (a : Nat) (aop : AOp) (old b expected : Word) : State :=
  if aop = .cas ∧ old ≠ expected then s else s.storeLE a 8 (atomicNew aop old b expected).toNat

/-- ATOMIC (R281 to R283): one indivisible read and write; the old value goes to s[D]. It waits, without effect, while its
word's pseudo-channel retrains or an earlier access to its word is in flight, a remote one while 65,536 transactions are in flight, and with release semantics while an
access before it is outstanding at its scope. A remote one holds the stream until its result. -/
def State.atomicOp (s : State) (c : Nat) (aop : AOp) (w : Word) : State :=
  let f := syncFields w
  let e := s.xferEnd c (2 + f.gaddr) (s.sreg c f.a).toNat
  if f.op = 3 ∧ f.fieldsOk ∧ f.aop ≠ aopCode aop then s
  else if f.op = 3 ∧ f.fieldsOk ∧ ((2 ≤ f.ord ∧ s.outstanding c f.scope (s.core c).seq) ∨
    (e.mod.isNone ∧ (s.held e.addr 8 ∨ s.mustWait c [] [(e.addr, 8)])) ∨ (e.mod.isSome ∧ !s.mayTransact)) then s else
  s.sync c 3 w (fun f s pc =>
    let e := s.xferEnd c (2 + f.gaddr) (s.sreg c f.a).toNat
    let r := s.syncCheck c e false true
    if r ≠ .ok then s.coreRefuse c pc e.addr r
    else match e.mod with
      | some m => (s.sendRemote c (s.core c).seq (.atomic (Fin.ofNat 32 f.d)) m e.addr 16).modCore c
          (fun k => { k with stall := .atomic (Fin.ofNat 32 f.d), seq := k.seq + 1 })
      | none =>
        if s.poisoned e.addr 8 then s.coreFault c 0x1004 3 0 pc false
        else
          let old : Word := BitVec.ofNat 64 (s.le e.addr 8)
          (s.atomicWrite e.addr aop old (s.sreg c f.b) (s.sreg c f.d)).setSreg c f.d old)

end Sys2Proof.Machine
end

