-- ==== Sys2Proof/Machine/Train.lean ====
section
/-! DEFINITION. Training (chapter 04): admission in order (R100), stash reservations (R115 to R120), version slots (R123 to
R129), replay (R121), and the partition's regions (R178, R179, R142, R210). -/
namespace Sys2Proof.Machine

/-- A partition's training state. -/
def State.trn' (s : State) (p : Nat) : TrnSt := Tab.get TrnSt.reset s.trn p
/-- A partition's training state replaced. -/
def State.setTrn (s : State) (p : Nat) (t : TrnSt) : State := { s with trn := Tab.set TrnSt.reset s.trn p t }

/-- A TRN code (R135): TRN.ERR, the event, and for a contained class the reset of the job. -/
def State.trnErr (s : State) (p code cls layer mb : Nat) : State :=
  let s := s.recErr (R.TRN.ERR.VALID p) (R.TRN.ERR.OVERRUN p)
    [(R.TRN.ERR.CODE p, code), (R.TRN.ERR.LAYER p, layer), (R.TRN.ERR.MB_ID p, mb)]
  if cls = 3 then s.contained code p (s.jobId p) 0xffff none else s.event code cls p (s.jobId p) 0xffff none

/-! ## The installed mapping -/

/-- What the scheduler keeps of a partition's installed mapping (R531). -/
def State.mapping (s : State) (p : Nat) : Option MapSt := Tab.get none s.sched.maps p
/-- Whether the copies of a layer that the mapping has this member gather are resident for a step (R194, R195). -/
def State.gathered (s : State) (p step layer : Nat) : Bool :=
  match s.mapping p with
  | none => true
  | some m => m.gathers.zipIdx.all (fun g => g.1.layer != layer || !g.1.members.any (fun x => x.toNat == s.moduleId) ||
      s.coll.resident.any (fun r => r.part == p && r.layer == layer && r.tensor == g.2 && r.step == step))
/-- Whether this module, stage `k` of the pipeline, sends to a stage queue: forward over boundary k, backward over k − 1 (R199). -/
def MapSt.sends (m : MapSt) (q : StageQ) : Bool :=
  m.queues.contains q && (match m.stage with | some k => if q.backward then q.boundary.val + 1 == k else q.boundary.val == k | none => false)
/-- Whether this module receives from a stage queue: forward over boundary k − 1, backward over k (R199). -/
def MapSt.takes (m : MapSt) (q : StageQ) : Bool :=
  m.queues.contains q && (match m.stage with | some k => if q.backward then q.boundary.val == k else q.boundary.val + 1 == k | none => false)
/-- Whether a unit's work in a direction ends with an entry for a stage queue (R199). -/
def State.stageOut (s : State) (p : Nat) (backward : Bool) : Bool :=
  match s.mapping p with
  | some m => m.queues.any (fun q => q.backward == backward && m.sends q)
  | none => false

/-! ## Regions of a partition -/

/-- MiB to bytes. -/
def mib (n : Nat) : Nat := n * 2 ^ 20
/-- The weight slots and the F4 area (R178, R179). -/
def State.slotRange (s : State) (p : Nat) : Rng :=
  let z := s.rd (R.SCHED.WSLOT_SIZE.MIB p)
  (mib (s.rd (R.SCHED.WSLOT_BASE.BASE p)), mib (2 * z + (z * 17 + 31) / 32))
/-- The first byte of the slot of a step (R178). -/
def State.slotBase (s : State) (p step : Nat) : Nat :=
  mib (s.rd (R.SCHED.WSLOT_BASE.BASE p)) + step % 2 * mib (s.rd (R.SCHED.WSLOT_SIZE.MIB p))
/-- The first byte of the F4 area (R179). -/
def State.f4Base (s : State) (p : Nat) : Nat :=
  mib (s.rd (R.SCHED.WSLOT_BASE.BASE p)) + 2 * mib (s.rd (R.SCHED.WSLOT_SIZE.MIB p))
/-- The KV region (R142). -/
def State.kvRange (s : State) (p : Nat) : Rng := (mib (s.rd (R.ROLL.KV_BASE.BASE p)), mib (s.rd (R.ROLL.KV_SIZE.MIB p)))
/-- The group table: 4,096 entries of 32 bytes (R210). -/
def State.gtabRange (s : State) (p : Nat) : Rng := (s.rd (R.COLL.GTAB.BASE p) * 4096, 0x20000)
/-- The stash region (R115). -/
def State.stashRange (s : State) (p : Nat) : Rng := (mib (s.rd (R.TRN.STASH_BASE.BASE p)), mib (s.rd (R.TRN.STASH_SIZE.MIB p)))
/-- The spill region (R115). -/
def State.spillRange (s : State) (p : Nat) : Rng := (mib (s.rd (R.TRN.SPILL_BASE.BASE p)), mib (s.rd (R.TRN.SPILL_SIZE.MIB p)))
/-- Whether a range lies in the partition's HBM region. -/
def State.inHbm (s : State) (p : Nat) (r : Rng) : Bool :=
  r.2 == 0 || (placeOf r.1 == .hbm && s.reachHbm (some p) r.1 r.2 true == .ok)
/-- Whether a range lies in the partition's slow-tier halves, outside the park areas. -/
def State.inSlow (s : State) (p : Nat) (r : Rng) : Bool :=
  r.2 == 0 || (decide (slowBase ≤ r.1) && s.reachSlow (some p) r.1 r.2 == .ok)

/-- TRN_CONFIG (Table 4-8): what TRN.CTL.EN = 1 requires of the regions; a stash region below the 4 MiB of Table 4-7 counts with
them (log entry 161). -/
def State.trnConfigOk (s : State) (p : Nat) : Bool :=
  s.inHbm p (s.stashRange p) && s.inSlow p (s.spillRange p) && decide (4 ≤ s.rd (R.TRN.STASH_SIZE.MIB p)) &&
  !Rng.overlaps (s.stashRange p) (s.slotRange p) && !Rng.overlaps (s.stashRange p) (s.kvRange p) &&
  !Rng.overlaps (s.stashRange p) (s.gtabRange p) &&
  decide (s.rd (R.TRN.STASH_WM.HBM_MIB p) ≤ s.rd (R.TRN.STASH_SIZE.MIB p)) &&
  decide (s.rd (R.TRN.STASH_WM.SPILL_MIB p) ≤ s.rd (R.TRN.SPILL_SIZE.MIB p))

/-! ## Version slots -/

/-- A layer shard. -/
def TrnSt.shard (t : TrnSt) (n : Nat) : Shard := (Tab.get none t.shards n).getD t.base
/-- A layer shard replaced. -/
def TrnSt.setShard (t : TrnSt) (n : Nat) (x : Shard) : TrnSt := { t with shards := Tab.set none t.shards n (some x) }
/-- The slot of a step's parity. -/
def Shard.slot (x : Shard) (step : Nat) : VSlot := if step % 2 = 0 then x.even else x.odd
/-- The slot of a step's parity replaced. -/
def Shard.setSlot (x : Shard) (step : Nat) (v : VSlot) : Shard :=
  if step % 2 = 0 then { x with even := v } else { x with odd := v }
/-- Rollout-batch references on the slot of a step (R180). -/
def State.batchRefs (s : State) (p step : Nat) : Nat :=
  if step % 2 = 0 then s.rd (R.SCHED.RB_STAT.EVEN_RB p) else s.rd (R.SCHED.RB_STAT.ODD_RB p)
/-- Whether a slot holds a step as ACTIVE or PREVIOUS. -/
def VSlot.holds (v : VSlot) (step : Nat) : Bool := v.step == step && (v.st == 2 || v.st == 3)

/-- Table 4-6: an update for `w` may claim: the slot is FREE, or PREVIOUS with no reference. -/
def Shard.claimable (x : Shard) (w rb : Nat) : Bool :=
  (x.slot w).st == 0 || ((x.slot w).st == 3 && (x.slot w).refs + rb == 0)
/-- An update for `w` arrives at a shard: it claims, or waits behind those that wait (R126). -/
def Shard.arrive (x : Shard) (w rb : Nat) : Shard :=
  if x.claimable w rb then { x.setSlot w ⟨w, 1, 0⟩ with updWait := x.updWait.filter (· ≠ w) }
  else { x with updWait := if x.updWait.contains w then x.updWait else x.updWait ++ [w] }
/-- Waiting updates claim as soon as they may, in order of arrival (R126, R128). -/
def Shard.reclaim (x : Shard) (rb : Nat → Nat) : Shard := x.updWait.foldl (fun x w => x.arrive w (rb w)) x
/-- What a forward pass stamped `v` finds (R127): 0 a slot that holds v, 1 a wait, 2 VERSION_MISSING. -/
def Shard.verdict (x : Shard) (v : Nat) : Nat :=
  if (x.slot v).holds v then 0
  else if (x.slot v).step == v && (x.slot v).st == 1 then 1
  else match x.newest with
    | some n => if v = (n + 1) % 65536 then 1 else 2
    | none => 2
/-- One micro-batch reference more on the slot of `v`. -/
def Shard.ref (x : Shard) (v : Nat) : Shard := x.setSlot v { x.slot v with refs := (x.slot v).refs + 1 }
/-- One reference fewer on the slot of `v`, if the slot holds v. -/
def Shard.unref (x : Shard) (v : Nat) : Shard :=
  if (x.slot v).holds v then x.setSlot v { x.slot v with refs := (x.slot v).refs - 1 } else x
/-- Step `w` is published (Table 4-6): the slot is ACTIVE, the other one, if ACTIVE, PREVIOUS; peers' waiting admissions of
`w` take their references. -/
def Shard.publish (x : Shard) (w : Nat) : Shard :=
  let o := x.slot (w + 1)
  let x := x.setSlot (w + 1) (if o.st = 2 then { o with st := 3 } else o)
  let x := x.setSlot w ⟨w, 2, (x.waits.filter (· == w)).length⟩
  { x with newest := some w, waits := x.waits.filter (· ≠ w) }
/-- The slot of `w` returns to FREE (R187, R204). -/
def Shard.freeSlot (x : Shard) (w : Nat) : Shard := x.setSlot w { x.slot w with st := 0, refs := 0 }

/-- One shard changed by `f`, then a waiting update's claim. -/
def State.modShard (s : State) (p n : Nat) (f : Shard → Shard) : State :=
  let t := s.trn' p
  s.setTrn p (t.setShard n ((f (t.shard n)).reclaim (s.batchRefs p)))
/-- Every shard of a partition changed by `f`, then the waiting updates' claims. -/
def State.modShards (s : State) (p : Nat) (f : Shard → Shard) : State :=
  let t := s.trn' p
  let g (x : Shard) : Shard := (f x).reclaim (s.batchRefs p)
  s.setTrn p { t with base := g t.base, shards := t.shards.map (fun e => (e.1, e.2.map g)) }
/-- Whether every shard of a partition satisfies `f`. -/
def State.allShards (s : State) (p : Nat) (f : Shard → Bool) : Bool :=
  f (s.trn' p).base && (s.trn' p).shards.all (fun e => match e.2 with | some x => f x | none => true)
/-- Whether every listed shard, or the base where none is listed, satisfies `f`. -/
def State.slotsAre (s : State) (p : Nat) (f : Shard → Bool) : Bool :=
  if (s.trn' p).shards.isEmpty then f (s.trn' p).base
  else (s.trn' p).shards.all (fun e => match e.2 with | some x => f x | none => true)

/-! ## Stash reservations -/

/-- The free gaps between sorted reservations in [lo, hi). -/
def gapsOf : List Rng → Nat → Nat → List Rng
  | [], lo, hi => if lo < hi then [(lo, hi - lo)] else []
  | (a, n) :: t, lo, hi => (if lo < a then [(lo, a - lo)] else []) ++ gapsOf t (max lo (a + n)) hi
/-- A list of ranges sorted by start. -/
def sortRngs (l : List Rng) : List Rng := l.foldr (fun r t => t.takeWhile (fun x => decide (x.1 < r.1)) ++ r ::
  t.dropWhile (fun x => decide (x.1 < r.1))) []
/-- The largest gap, the lowest-addressed among equals. -/
def largest (l : List Rng) : Option Rng :=
  l.foldl (fun b g => match b with | none => some g | some x => if x.2 < g.2 then some g else b) none
/-- The sum of the lengths of ranges. -/
def total (l : List Rng) : Nat := (l.map (·.2)).foldl (· + ·) 0

/-- The HBM reservations of a partition, in MiB. -/
def TrnSt.hbmRes (t : TrnSt) : List Rng := t.units.filterMap (·.hres)
/-- The spill reservations of a partition, in MiB. -/
def TrnSt.spillRes (t : TrnSt) : List Rng := t.units.filterMap (·.sres)

/-- R116: the ranges reserved for a footprint, all or nothing; the HBM watermark counts the 2 MiB table. -/
def State.reserve (s : State) (p foot : Nat) : Option (Option Rng × Option Rng) :=
  let t := s.trn' p
  let room := s.rd (R.TRN.STASH_WM.HBM_MIB p) - 2 - total t.hbmRes
  let gaps := gapsOf (sortRngs t.hbmRes) 2 (s.rd (R.TRN.STASH_SIZE.MIB p))
  let h : Option Rng := match if foot ≤ room then gaps.find? (fun g => decide (foot ≤ g.2)) else none with
    | some g => some (g.1, foot)
    | none => match largest gaps with
      | some g => if min (min g.2 room) foot = 0 then none else some (g.1, min (min g.2 room) foot)
      | none => none
  let rest := foot - (match h with | some x => x.2 | none => 0)
  if rest = 0 then some (h, none)
  else if !s.on (R.TRN.CTL.SPILL_EN p) || total t.spillRes + rest > s.rd (R.TRN.STASH_WM.SPILL_MIB p) then none
  else match (gapsOf (sortRngs t.spillRes) 0 (s.rd (R.TRN.SPILL_SIZE.MIB p))).find? (fun g => decide (rest ≤ g.2)) with
    | some g => some (h, some (g.1, rest))
    | none => none
/-- R120: what the stash could hold with nothing else reserved. -/
def State.stashLimit (s : State) (p : Nat) : Nat :=
  s.rd (R.TRN.STASH_WM.HBM_MIB p) - 2 + (if s.on (R.TRN.CTL.SPILL_EN p) then s.rd (R.TRN.STASH_WM.SPILL_MIB p) else 0)

/-! ## Units -/

/-- The chunks of a unit's micro-batch (R130). -/
def MbUnit.chunks (u : MbUnit) : Nat := (u.tokens + 65535) / 65536
/-- Whether two units belong to one micro-batch. -/
def MbUnit.same (a b : MbUnit) : Bool := a.batch == b.batch && a.mb == b.mb
/-- Whether a unit has the key `k`. -/
def MbUnit.is (u : MbUnit) (k : MbKey) : Bool := u.batch == k.batch.toNat && u.mb == k.mb.toNat && u.chunk == k.chunk.val
/-- Admission order (R100, R121, R131): replayed units first, then batch, micro-batch and chunk. -/
def MbUnit.before (a b : MbUnit) : Bool :=
  if a.replay != b.replay then a.replay
  else if a.batch ≠ b.batch then decide (a.batch < b.batch)
  else if a.mb ≠ b.mb then decide (a.mb < b.mb)
  else decide (a.chunk < b.chunk)
/-- A unit entered in admission order. -/
def insertUnit (u : MbUnit) : List MbUnit → List MbUnit
  | [] => [u]
  | x :: t => if u.before x then u :: x :: t else x :: insertUnit u t
/-- Whether every chunk of a unit's micro-batch has completed its forward pass. -/
def TrnSt.mbForward (t : TrnSt) (u : MbUnit) : Bool :=
  decide (((t.units.filter (fun x => x.same u && x.stage != .posted && x.stage != .fwd)).length = u.chunks))
/-- The first chunks of the micro-batches. -/
def TrnSt.heads (t : TrnSt) : List MbUnit := t.units.filter (fun u => u.chunk == 0)
/-- Micro-batches whose forward pass is complete and whose backward pass is not (MB_STAT.BWD_PENDING). -/
def TrnSt.bwdPending (t : TrnSt) : Nat := (t.heads.filter (fun u => u.stage != .done && t.mbForward u)).length
/-- Micro-batches admitted whose forward pass is not complete (MB_STAT.FWD_ACTIVE). -/
def TrnSt.fwdActive (t : TrnSt) : Nat := (t.heads.filter (fun u => u.stage != .posted && !t.mbForward u)).length
/-- Micro-batches between admission and backward completion (Table 4-7). -/
def TrnSt.inFlight (t : TrnSt) : Nat := (t.heads.filter (fun u => u.stage != .posted && u.stage != .done)).length
/-- A unit changed by `f`. -/
def TrnSt.modUnit (t : TrnSt) (u : MbUnit) (f : MbUnit → MbUnit) : TrnSt :=
  { t with units := t.units.map (fun x => if x.same u && x.chunk == u.chunk then f x else x) }

/-- Whether the scheduler admits micro-batches of a partition (R177). -/
def State.learning (s : State) (p : Nat) : Bool :=
  s.on (R.TRN.CTL.EN p) && s.rd (R.SCHED.TURN_STAT.PHASE p) == 3 &&
  (match s.jobOf p with | some j => !j.reset | none => false)

/-- What the head of the admission order does (R100): it goes on waiting, waits for stash, is admitted, or stops. -/
inductive Admit where
  | waitVersion | waitStash | admitted | stopped
deriving DecidableEq, Repr

/-- A KCG descriptor written (R113, R114): the index of an element of an activation is its token's global index × row width +
column, of a weight gradient its flat index. -/
def State.setKd (s : State) (k : KdSet) : State :=
  let (base, pitch) := match k.tensor with
    | .activation token width column => (token * width + column, width)
    | .weight flat len => (flat, len)
  s.wrs [(R.CORE.KDESC_ID.STREAM k.core.val k.n.val, k.stream.toNat),
    (R.CORE.KDESC_BASE.BASE k.core.val k.n.val, base % 2 ^ 64), (R.CORE.KDESC_PITCH.PITCH k.core.val k.n.val, pitch % 2 ^ 40)]
/-- The KCG descriptors of an admitted unit written (R113, R114): the step is the batch number. -/
def State.setKds (s : State) (u : MbUnit) : State :=
  u.kds.foldl (fun s k => (s.setKd k).wr (R.CORE.KDESC_ID.STEP k.core.val k.n.val) u.batch) s

/-- The head takes the references it can, asks other owners for theirs, and then takes its stash (R100, R116, R120, R125, R127,
R133). -/
def State.tryAdmit (s : State) (p : Nat) (u : MbUnit) : State × Admit :=
  if u.foot > s.stashLimit p then (s.trnErr p 0x5002 3 0 u.mb, .stopped)
  else if s.housePaused p ∧ !(s.trn' p).units.any (fun x => x.batch == u.batch && (x.stage != .posted || x.replay)) then
    (s, .waitVersion)
  else if (s.trn' p).inFlight ≥ 4096 ∧ u.chunk = 0 then (s, .waitVersion)
  else
    let todo := if u.chunk = 0 then u.shards.filter (fun n => !u.refs.contains n) else []
    let far := if u.chunk = 0 then u.remote.filter (fun e => !u.remRefs.contains e) else []
    match todo.find? (fun n => ((s.trn' p).shard n).verdict u.step == 2) with
    | some n => (s.trnErr p 0x5005 3 n u.mb, .stopped)
    | none =>
      let ready := todo.filter (fun n => ((s.trn' p).shard n).verdict u.step == 0)
      let s := ready.foldl (fun s n => s.modShard p n (fun x => x.ref u.step)) s
      let ask := far.filter (fun e => !u.asked.contains e)
      let u := { u with refs := u.refs ++ ready, asked := u.asked ++ ask }
      let t := (s.trn' p).modUnit u (fun _ => u)
      let s := s.setTrn p { t with sent := t.sent ++ ask.map (fun e => ⟨e.1, e.2, u.step, false⟩) }
      if ready.length < todo.length ∨ !far.isEmpty then (s, .waitVersion)
      else match s.reserve p u.foot with
        | none => (s, .waitStash)
        | some (h, q) =>
          let s := s.setTrn p ((s.trn' p).modUnit u (fun _ => { u with stage := .fwd, hres := h, sres := q }))
          ((s.count (R.TRN.STASH_CNT.SPILL_MIB p) (match q with | some r => r.2 | none => 0)).setKds u, .admitted)

/-- A wait for stash begins or ends: its µs are counted (Table 4-11). -/
def State.stashWait (s : State) (p : Nat) (waits : Bool) : State :=
  let t := s.trn' p
  match t.stall, waits with
  | none, true => s.setTrn p { t with stall := some s.uptime }
  | some u, false => (s.setTrn p { t with stall := none }).count (R.TRN.STASH_CNT.STALL_US p) (s.uptime - u)
  | _, _ => s

/-- STASH_STAT and MB_STAT (Tables 4-4, 4-11). -/
def State.trnRegs (s : State) (p : Nat) : State :=
  let t := s.trn' p
  let stage := if t.latch then 3 else if t.stall.isSome then 2 else if t.spillRes.isEmpty then 0 else 1
  let waiting := if s.learning p then (t.units.filter (fun u => u.stage == .posted)).length else 0
  s.wrs [(R.TRN.STASH_STAT.STAGE p, stage),
    (R.TRN.STASH_STAT.HBM_USED p, if s.on (R.TRN.CTL.EN p) then 2 + total t.hbmRes else 0),
    (R.TRN.STASH_STAT.SPILL_USED p, total t.spillRes), (R.TRN.MB_STAT.FWD_ACTIVE p, t.fwdActive),
    (R.TRN.MB_STAT.BWD_PENDING p, t.bwdPending), (R.TRN.MB_STAT.FWD_WAITING p, waiting)]

/-- Admissions in order until the head waits or stops (R100, R117), then the stages of Table 4-4 with STASH_DEADLOCK
(R119). `fuel` bounds the admissions. -/
def State.trnLoop (s : State) (p : Nat) : Nat → State
  | 0 => s
  | fuel + 1 =>
    match (s.trn' p).units.find? (fun u => u.stage == .posted) with
    | none => s.stashWait p false
    | some u =>
      if !s.learning p then s.stashWait p false
      else match s.tryAdmit p u with
        | (s, .admitted) => s.trnLoop p fuel
        | (s, .waitVersion) => s.stashWait p false
        | (s, .stopped) => s.stashWait p false
        | (s, .waitStash) =>
          let s := s.stashWait p true
          if (s.trn' p).bwdPending = 0 && !(s.trn' p).latch then
            (s.setTrn p { s.trn' p with latch := true }).trnErr p 0x5001 3 0 u.mb
          else s
/-- Training work of a partition goes on as far as it can. -/
def State.trnGo (s : State) (p : Nat) : State := (s.trnLoop p ((s.trn' p).units.length + 1)).trnRegs p

/-! ## The descriptor table -/

/-- The address of descriptor `i` of the table (R115). -/
def State.descAddr (s : State) (p i : Nat) : Nat := (s.stashRange p).1 + i * 32
/-- The STATE of descriptor `i` replaced by `q`, where `f` holds of it. -/
def State.setDesc (s : State) (p i : Nat) (f : Nat → Bool) (q : Nat) : State :=
  let a := s.descAddr p i + 8
  let w1 : Word := BitVec.ofNat 64 (s.le a 8)
  if f (fieldOf w1 49 3) then s.storeLE a 8 (w1.toNat - fieldOf w1 49 3 * 2 ^ 49 + q * 2 ^ 49) else s
/-- The descriptors of a unit's entries that satisfy `on` take STATE `q` where `f` holds of their state (R122). -/
def State.descState (s : State) (p : Nat) (u : MbUnit) (on : StashEnt → Bool) (f : Nat → Bool) (q : Nat) : State :=
  (u.entries.filter on).foldl (fun s e => s.setDesc p e.desc f q) s
/-- Descriptor indices in use. -/
def TrnSt.descUsed (t : TrnSt) : List Nat := t.units.flatMap (fun u => u.entries.map (·.desc))
/-- Where the next `n` bytes of a unit's stash go: its HBM part first, then, once an entry has not fitted there, its spill part
(R116); none where its reservation is full. -/
def State.stashPlace (s : State) (p : Nat) (u : MbUnit) (n : Nat) : Option (Nat × Bool) :=
  let h := match u.hres with
    | some r => if u.sfill = 0 ∧ u.hfill + n ≤ mib r.2 then some ((s.stashRange p).1 + mib r.1 + u.hfill, false) else none
    | none => none
  match h, u.sres with
  | some x, _ => some x
  | none, some r => if u.sfill + n ≤ mib r.2 then some ((s.spillRange p).1 + mib r.1 + u.sfill, true) else none
  | none, none => none
/-- A forward pass begins to write a stash entry (R116, R118, R122): it gets the next bytes of its unit's reservation and a
descriptor in STATE 1. An entry is written once, before its layer's forward pass completes; one that does not fit, or
finds no free descriptor, is not made. -/
def State.stashWrite (s : State) (p : Nat) (u : MbUnit) (layer slot n fmt : Nat) : State :=
  let used := (s.trn' p).descUsed
  match s.stashPlace p u n, (List.range (used.length + 1)).find? (fun i => !used.contains i) with
  | some (a, spill), some i =>
    if n = 0 ∨ n % 512 ≠ 0 ∨ i ≥ 65536 ∨ u.layers.contains layer ∨ u.entries.any (fun e => e.layer == layer && e.slot == slot) then s
    else
      let u := { u with entries := u.entries ++ [⟨layer, slot, i, a, n, fmt⟩],
                        hfill := if spill then u.hfill else u.hfill + n, sfill := if spill then u.sfill + n else u.sfill }
      let s := s.setTrn p ((s.trn' p).modUnit u (fun _ => u))
      s.store (s.descAddr p i) ([u.mb % 65536 + layer * 2 ^ 16 + slot * 2 ^ 32 + u.chunk * 2 ^ 40 + u.step * 2 ^ 48,
        a + (if spill then 2 ^ 48 else 0) + 2 ^ 49, n + fmt * 2 ^ 40, 0].flatMap (leBytes 8))
  | _, _ => s

/-! ## The commands -/

/-- MB_ADMIT: a unit is posted to the scheduler in admission order; it is admitted when it and those before it can be
(R100). A unit already posted, or one that a later unit has overtaken, is not posted. TOKENS values above 4,194,303, which
Table 4-1 does not have, are taken modulo 4,194,304 (log entry 162). -/
def State.mbAdmit (s : State) (p : Nat) (k : MbKey) (h : MbHeader) : State :=
  let tokens := h.tokens.toNat % 4194304 + 1
  let far := h.remote.map (fun e => (e.1.toNat, e.2.val))
  let u : MbUnit := ⟨k.batch.toNat, k.mb.toNat, k.chunk.val, h.step.toNat, tokens, h.footMib.toNat, h.shards.map (·.val), far, h.kds,
    .posted, [], [], [], false, none, none, 0, 0, [], [], false, false, false, false⟩
  let t := s.trn' p
  if u.foot = 0 ∨ u.chunk ≥ u.chunks ∨ t.units.any (fun x => x.is k) ∨
     t.units.any (fun x => x.stage != .posted && !x.replay && u.before x) then s
  else (s.setTrn p { t with units := insertUnit u t.units, foreign := (t.foreign ++ far.map (·.2)).dedup }).trnGo p
/-- Whether every earlier chunk of a unit's micro-batch satisfies `f` (R131, R132). -/
def TrnSt.chunksBefore (t : TrnSt) (u : MbUnit) (f : MbUnit → Bool) : Bool :=
  t.units.all (fun x => !(x.same u && decide (x.chunk < u.chunk)) || f x)
/-- FWD_COMPLETE (R116, R118, R131, R132): a stash entry is begun; or the forward pass of a layer completes, after that of the
earlier chunks whose K and V it reads and with the layer's gathered copies resident (R194), and the layer's entries become
readable; or the unit's forward pass completes, in ascending chunk order, with its stage-queue entry sent (R199). -/
def State.fwdComplete (s : State) (p : Nat) (k : MbKey) (what : FwdEnd) : State :=
  match (s.trn' p).units.find? (fun u => u.is k && u.stage == .fwd) with
  | none => s
  | some u =>
    let past (x : MbUnit) : Bool := x.stage != .posted && x.stage != .fwd
    match what with
    | .writes layer slot bytes fmt => s.stashWrite p u layer.val slot.toNat bytes.toNat fmt.val
    | .layer l =>
      if u.layers.contains l.val ∨ !s.gathered p u.step l.val ∨ !(s.trn' p).chunksBefore u (fun x => past x || x.layers.contains l.val) then s
      else (s.setTrn p ((s.trn' p).modUnit u (fun x => { x with layers := x.layers ++ [l.val] }))).descState p u
        (fun e => e.layer == l.val) (· == 1) 2
    | .unit =>
      if !(s.trn' p).chunksBefore u past ∨ (s.stageOut p false && !u.sentFwd) then s else
      ((s.setTrn p ((s.trn' p).modUnit u (fun x => { x with stage := .fwdDone }))).descState p u (fun _ => true) (· == 1) 2).trnGo p
/-- Whether the backward pass of a unit may start (R101, R131): its micro-batch's forward pass complete, dY there, the
chunks after it complete and the micro-batches before it of its batch started. -/
def TrnSt.mayBwd (t : TrnSt) (u : MbUnit) : Bool :=
  u.stage == .fwdDone && t.mbForward u && u.dy &&
  t.units.all (fun x =>
    (!(x.same u && decide (u.chunk < x.chunk)) || x.stage == .done) &&
    (!(x.batch == u.batch && decide (x.mb < u.mb) && x.chunk + 1 == x.chunks) || x.stage == .bwd || x.stage == .done))
/-- BWD_START (R101): dY of the micro-batch may have arrived; the backward pass starts when it may. -/
def State.bwdStart (s : State) (p : Nat) (k : MbKey) (dy : Bool) : State :=
  match (s.trn' p).units.find? (fun u => u.is k) with
  | none => s
  | some u =>
    let u := { u with dy := u.dy || dy }
    let t := (s.trn' p).modUnit u (fun _ => u)
    if t.mayBwd u then (s.setTrn p (t.modUnit u (fun x => { x with stage := .bwd }))).trnGo p else s.setTrn p t
/-- The references of a unit on the shards that satisfy `here` and, elsewhere, `far` released or reported (R125). -/
def State.dropRefs (s : State) (p : Nat) (u : MbUnit) (here : Nat → Bool) (far : Nat × Nat → Bool) : State :=
  let s := (u.refs.filter here).foldl (fun s n => s.modShard p n (fun x => x.unref u.step)) s
  let t := (s.trn' p).modUnit u (fun x =>
    { x with refs := x.refs.filter (fun n => !here n), asked := x.asked.filter (fun e => !far e),
             remRefs := x.remRefs.filter (fun e => !far e) })
  s.setTrn p { t with sent := t.sent ++ ((u.remRefs.filter far).map (fun e => ⟨e.1, e.2, u.step, true⟩)) }
/-- The seed of a partition's job, its cores' KCG key (R92, R112). -/
def State.seedOf (s : State) (p : Nat) : BitVec 128 := match s.jobOf p with | some j => j.seed | none => 0
/-- A chunk's contributions to the W40 gradient entry of an earlier chunk added element by element, each rounded once and
stochastically; the first contribution, the last chunk's, replaces what the entry held (R104, R110, R132, log entry 163). -/
def State.kvGradAdd (s : State) (p : Nat) (u : MbUnit) (e : StashEnt) (first : Nat) (vals : List (BitVec 40)) (stream base : Nat) : State :=
  (vals.zip (List.range vals.length)).foldl (fun s v =>
    let a := e.addr + 8 * (first + v.2)
    let old : Val := if u.chunk + 1 = u.chunks then .zero false else Fmt.w40.decode (s.le a 5)
    let r := (kcgWord (s.seedOf p) (BitVec.ofNat 32 stream) (BitVec.ofNat 32 u.batch) (BitVec.ofNat 64 (base + first + v.2))).toNat / 65536
    s.storeLE a 8 (Fmt.w40.round (.sr r) false (old.add (Fmt.w40.decode v.1.toNat))).bits) s

/-- A batch runs again from its first forward pass (R121, R253): reservations and stash entries go, references that are held
stay. What its accumulators hold is discarded, since each range's first contribution overwrites it (R104). -/
def State.replayBatch (s : State) (p batch : Nat) : State :=
  let t := s.trn' p
  let again (u : MbUnit) : MbUnit := { u with stage := .posted, dy := false, hres := none, sres := none, hfill := 0, sfill := 0,
                                              entries := [], layers := [], replay := true, sentFwd := false, sentBwd := false }
  let mine := t.units.filter (fun u => u.batch == batch)
  let rest := t.units.filter (fun u => u.batch != batch)
  let s := mine.foldl (fun s u => s.descState p u (fun _ => true) (fun _ => true) 0) s
  (s.setTrn p { t with units := (mine.map again).foldr insertUnit rest, replay := some batch }).trnGo p
/-- A backward product of micro-batch `k` consumed a poisoned stash entry, or house poison: STASH_POISON or HOUSE_POISON
and a replay, or REPLAY_FAILED in a replay (R121, R445). -/
def State.stashPoison (s : State) (p : Nat) (k : MbKey) (house : Bool) : State :=
  let s := if house then s.houseConsumed else
    match (s.trn' p).units.find? (fun u => u.is k) with
    | some u =>
      let s := s.descState p u (fun e => s.poisoned e.addr e.bytes) (· == 2) 3
      let t := s.trn' p
      s.setTrn p { t with units := t.units.map (fun x => if x.same u then { x with tainted := true } else x) }
    | none => s
  if (s.trn' p).replay = some k.batch.toNat then s.trnErr p 0x5004 3 0 k.mb.toNat
  else (if house then s else s.trnErr p 0x5003 2 0 k.mb.toNat).replayBatch p k.batch.toNat

/-- A unit's backward pass has completed (R117, R121, R133): its reservation and entries go, chunk 0 gives up its references
unless its micro-batch consumed poison, and a replay ends with the last unit of its batch. -/
def State.bwdEnd (s : State) (p : Nat) (u : MbUnit) : State :=
  let s := s.descState p u (fun _ => true) (fun _ => true) 0
  let s := s.setTrn p ((s.trn' p).modUnit u (fun x => { x with stage := .done, hres := none, sres := none, entries := [] }))
  let s := if u.tainted then s else s.dropRefs p u (fun _ => true) (fun _ => true)
  let t := s.trn' p
  if t.replay == some u.batch && t.units.all (fun x => x.batch ≠ u.batch || x.stage == .done) then
    let s := (t.units.filter (fun x => x.batch == u.batch && x.tainted)).foldl
      (fun s x => s.dropRefs p x (fun _ => true) (fun _ => true)) s
    let t := s.trn' p
    (s.setTrn p { t with replay := none, units := t.units.map (fun x =>
      if x.batch = u.batch then { x with replay := false, tainted := false } else x) }).trnGo p
  else s.trnGo p
/-- BWD_COMPLETE (R117, R125, R132, R133): a contribution to an earlier chunk's K or V gradients, whose poison is a poisoned stash
entry's (R121); the pass of chunk 0 through a layer, whose gathered copies are resident (R194), which gives up that shard's
reference; or the whole pass, with its stage-queue entry sent (R199). -/
def State.bwdComplete (s : State) (p : Nat) (k : MbKey) (what : BwdEnd) : State :=
  match (s.trn' p).units.find? (fun u => u.is k && u.stage == .bwd) with
  | none => s
  | some u =>
    match what with
    | .kvGrad c layer slot first vals stream base =>
      match (s.trn' p).units.find? (fun x => x.same u && x.chunk == c.val && decide (x.chunk < u.chunk)) with
      | none => s
      | some x => match x.entries.find? (fun e => e.layer == layer.val && e.slot == slot.toNat && e.fmt == 9) with
        | none => s
        | some e =>
          if 8 * (first + vals.length) > e.bytes then s
          else if u.chunk + 1 ≠ u.chunks ∧ s.poisoned (e.addr + 8 * first) (8 * vals.length) then s.stashPoison p k false
          else s.kvGradAdd p u e first vals stream.toNat base
    | .layer n owner =>
      if u.chunk ≠ 0 ∨ u.tainted ∨ !s.gathered p u.step n.val then s else match owner with
      | none => (s.dropRefs p u (fun m => m == n.val) (fun _ => false)).trnGo p
      | some m => (s.dropRefs p u (fun _ => false) (fun e => e == (m.toNat, n.val))).trnGo p
    | .unit => if s.stageOut p true && !u.sentBwd then s else s.bwdEnd p u

/-- SLOT_CLAIM (R126): an update for `step` arrives at a layer shard. -/
def State.slotClaim (s : State) (p n step : Nat) : State :=
  (s.setTrn p ((s.trn' p).setShard n (((s.trn' p).shard n).arrive step (s.batchRefs p step)))).trnGo p
/-- VERSION_REPORT (R100, R125, R127): a gather-group member's admission or backward completion at this owner; or, at a member,
the owner's word that the reference it asked for is taken. -/
def State.versionReport (s : State) (p n step : Nat) (what : VerReport) : State :=
  match what with
  | .backward => (s.modShard p n (fun x => x.unref step)).trnGo p
  | .admission => match ((s.trn' p).shard n).verdict step with
    | 0 => s.modShard p n (fun x => x.ref step)
    | 1 => s.modShard p n (fun x => { x with waits := x.waits ++ [step] })
    | _ => s.trnErr p 0x5005 3 n 0
  | .granted owner =>
    let e := (owner.toNat, n)
    match (s.trn' p).units.find? (fun u => u.stage == .posted && u.step == step && u.asked.contains e && !u.remRefs.contains e) with
    | none => s
    | some u => (s.setTrn p ((s.trn' p).modUnit u (fun x => { x with remRefs := x.remRefs ++ [e] }))).trnGo p
/-- VERSION_TIMEOUT (R129): what waits past VER_TIMEOUT.MS; 0 disables it. -/
def State.versionTimeout (s : State) (p : Nat) (what : VerWait) : State :=
  if s.rd (R.TRN.VER_TIMEOUT.MS p) = 0 then s else
  match what with
  | .update n => if !((s.trn' p).shard n).updWait.isEmpty then s.trnErr p 0x5006 3 n 0 else s
  | .forward =>
    match (s.trn' p).units.find? (fun u => u.stage == .posted) with
    | some u =>
      if s.learning p && decide (u.chunk = 0) &&
        (u.shards.any (fun n => !u.refs.contains n && ((s.trn' p).shard n).verdict u.step == 1) ||
         u.asked.any (fun e => !u.remRefs.contains e))
      then s.trnErr p 0x5006 3 0 u.mb else s
    | none => s
/-- TRN_ENABLE (Table 4-8): TRN.CTL.EN is set, or TRN_CONFIG is raised for a bad region. -/
def State.trnEnable (s : State) (p : Nat) : State :=
  if s.trnConfigOk p then (s.wr (R.TRN.CTL.EN p) 1).trnGo p else s.trnErr p 0x5007 3 0 0
/-- TRN.CTL.EN cleared: the stage latch and TRN.ERR clear with it (R136). -/
def State.trnOff (s : State) (p : Nat) : State :=
  ((s.wrs [(R.TRN.CTL.EN p, 0)]).wrW (R.TRN.ERR.CODE p).reg 0 |>.setTrn p
    { s.trn' p with latch := false, units := [], stall := none, replay := none }).trnRegs p
/-- TRN_DISABLE (R136): allowed once the job is aborted or complete. -/
def State.trnDisable (s : State) (p : Nat) : State :=
  if (match s.jobOf p with | some j => j.reset | none => true) then s.trnOff p else s

/-- ARRAY_OP_DRAIN: the drain, and for a product of micro-batch `stash` that consumed a poisoned stash entry, or
house poison, the replay of R121 and R445. -/
def State.drainOp (s : State) (c i half : Nat) (rows : Option Nat) (stash : Option MbKey) (house : Bool) : State :=
  match s.arrayDrain c i half rows, stash, s.partOfCore c with
  | (s1, some (_, .poison)), some k, some p => (s1.stashPoison p k house).poke c
  | (s1, _), _, _ => s1.poke c

end Sys2Proof.Machine
end

