-- ==== Sys2Proof/Machine/Gate.lean ====
section
/-! DEFINITION. What every posted command passes before it acts (R384, R387, R532): reserved bits, a job reset or ending,
and ownership. -/
namespace Sys2Proof.Machine

/-- The payload words w1 to w7 of an entry. -/
def payloadRest (p : Payload) : List Word := [p.w1, p.w2, p.w3, p.w4, p.w5, p.w6, p.w7]
/-- Whether the payload's reserved bits are 0: word i may hold bits only in mask i; a word without a mask is reserved
(R383, R384). -/
def payloadOk (p : Payload) (masks : List Word) : Bool :=
  (List.range 7).all (fun i => ((payloadRest p).getD i 0 &&& ~~~(masks.getD i 0)) == 0)
/-- The low `n` bits. -/
def lowMask (n : Nat) : Word := BitVec.ofNat 64 (2 ^ n - 1)

/-- Whether a function owns a job (R387). -/
def Job.ownedBy (j : Job) (port fn : Nat) : Bool := j.port == port && j.fn == fn

/-- Whether journal entries are dispatched: the module is job-ready (R398) and no fatal error stopped it (R469). -/
def State.polls (s : State) : Bool := s.on R.BOOT.STAT.READY && s.rd R.RAS.STAT.STATE == 0
/-- The PLLs that STANDBY turns off: ACLK0 to 3 and MCLK0 to 7 (R491, `CLK.LOCK`). -/
def standbyPlls : Nat := 0x1fef
/-- STANDBY_EXIT (R490, R491): from STANDBY to ACTIVE; the ACLK and MCLK PLLs run again, and retrains that fell due begin. -/
def State.standbyExit (s : State) : State :=
  if s.rd R.PWR.STAT.STATE = 1 then
    (List.range 8).foldl (fun (s : State) k => s.nextRetrain k)
      (s.wrs [(R.PWR.STAT.STATE, 0), (R.CLK.LOCK.PLL, s.rd R.CLK.LOCK.PLL ||| standbyPlls)])
  else s
/-- A dispatched entry: it first returns the module from STANDBY to ACTIVE (R491). -/
def State.dispatched (s : State) (k : State → State) : State := if s.polls then k s.standbyExit else s

/-- R384, R387, R532: reserved bits give HOST_BAD_ENTRY; an ending job HOST_JOB_BUSY; a reset job COLL_ABORTED; a function
that does not own the job HOST_NOT_OWNER; else `k` runs with the job. -/
def State.gate (s : State) (p : Post) (op : Nat) (masks : List Word) (k : State → Job → State) : State :=
  s.dispatched (fun s =>
    if !payloadOk p.p masks then s.reply p op 0xa001
    else match s.job p.job.toNat with
      | none => s.reply p op 0xa002
      | some j =>
        if j.ending.isSome then s.reply p op 0xa003
        else if j.reset then s.reply p op 0x4006
        else if !j.ownedBy p.port p.fn then s.reply p op 0xa002
        else k s j)

end Sys2Proof.Machine
end

