-- ==== Sys2Proof/Machine/Slow.lean ====
section
/-! DEFINITION. The slow tier: objects (R336 to R339), flash metadata and moves (R344 to R347), lift links (R332, R333,
R422). -/
namespace Sys2Proof.Machine

/-- Slow-tier codes (R533): NOL.ERR of Nolmer `m` and the event, UNIT the Nolmer, DETAIL the channel with bit 5 for an
ONFI channel; a channel that the finding does not name is free (log entry 4).
A contained code resets the job of a tenant partition it names. -/
def State.nolError (s : State) (m code cls part job : Nat) (ch : Option Nat) (flash : Bool) : State :=
  let c := match ch with | some c => c | none => if flash then s.free 3 else s.free 4
  let s := if ch.isNone then s.used 1 else s
  let s := s.recErr (R.NOL.ERR.VALID m) (R.NOL.ERR.OVERRUN m) [(R.NOL.ERR.CODE m, code), (R.NOL.ERR.CH m, c),
    (R.NOL.ERR.FLASH m, if flash then 1 else 0)]
  let d := c + (if flash then 32 else 0)
  if cls = 3 ∧ part < 8 then s.contained code part job m (some d) else s.event code cls part job m (some d)

/-! ## The directory -/

/-- The index of a handle (R336). -/
def handleIndex (h : Nat) : Nat := h % 2 ^ 22
/-- An object by its index. -/
def State.objAt (s : State) (i : Nat) : Option Obj := Tab.get none s.dir.objs i
/-- The object a handle names, when the generation is current. -/
def State.obj (s : State) (h : Nat) : Option Obj :=
  match s.objAt (handleIndex h) with
  | some o => if o.gen = h / 2 ^ 22 % 1024 then some o else none
  | none => none
/-- An object entered at an index. -/
def State.putObj (s : State) (i : Nat) (o : Option Obj) : State :=
  { s with dir := { s.dir with objs := Tab.set none s.dir.objs i o } }
/-- The generation after `g` of an index; index 0 passes over generation 0 (R336). -/
def nextGen (i g : Nat) : Nat := if i = 0 ∧ (g + 1) % 1024 = 0 then 1 else (g + 1) % 1024
/-- The generation an index has when first used: 1 for index 0 (R336). -/
def firstGen (i : Nat) : Nat := if i = 0 then 1 else 0
/-- A free index: one never used, else the least recently freed (R336, log entry 20). -/
def State.freeIndex (s : State) : Option Nat :=
  if s.dir.fresh < 4194304 then some s.dir.fresh else s.dir.freed.head?
/-- The Nolmer halves of a partition's region, as 2m + h (R328). -/
def State.halves (s : State) (p : Nat) : List Nat := (List.range 8).filter (fun k => hasStack (s.part p).stackMask k)
/-- A Nolmer. -/
def State.nolOf (s : State) (m : Nat) : NolSt := Tab.get ⟨0, 0, none⟩ s.nol m
/-- A Nolmer replaced. -/
def State.setNol (s : State) (m : Nat) (x : NolSt) : State := { s with nol := Tab.set ⟨0, 0, none⟩ s.nol m x }
/-- A fresh object key wrapped for each Nolmer that holds a half of a partition's region (R335, R336, log entry 178). -/
def State.wrapObjKey (s : State) (p : Nat) : List (Nat × BitVec 384) :=
  ((s.halves p).map (· / 2)).dedup.filterMap (fun m =>
    (s.nolOf m).keys.map (fun k => (m, Config.wrapStore k.store (BitVec.ofNat 256 (s.free 256)))))
/-- A new object takes an index and its own key; its handle. -/
def State.newObj (s : State) (o : Nat → Obj) : Option (State × Nat) :=
  match s.freeIndex with
  | none => none
  | some i =>
    let g := Tab.get (firstGen i) s.dir.gens i
    let d := { s.dir with fresh := if s.dir.fresh < 4194304 then s.dir.fresh + 1 else s.dir.fresh,
                          freed := s.dir.freed.filter (· ≠ i) }
    some ((({ s with dir := d } : State).putObj i (some { o g with wrapped := s.wrapObjKey (o g).part })).used 1, g * 2 ^ 22 + i)
/-- An object's key is destroyed and its index freed (R335, R336). -/
def State.dropObj (s : State) (h : Nat) : State :=
  match s.obj h with
  | none => s
  | some o =>
    let i := handleIndex h
    let s := s.putObj i none
    { s with dir := { s.dir with gens := Tab.set (firstGen i) s.dir.gens i (nextGen i o.gen), freed := s.dir.freed ++ [i] } }

/-- Usable flash bytes of one half (Table 12-4). -/
def halfFlash : Nat := if Config.isL32 then 4 * 2 ^ 40 else 2 ^ 40
/-- Bytes in whole 1 MiB units. -/
def units (n : Nat) : Nat := (n + 0xfffff) / 0x100000 * 0x100000
/-- Whether an index holds a park record whose KV lies in the park area (R340). -/
def State.parkInDram (s : State) (i : Nat) : Bool :=
  match Tab.get none s.roll.parks i with
  | some k => k.dram
  | none => false
/-- Flash bytes that a partition's objects hold, in whole 1 MiB units. -/
def State.flashUsed (s : State) (p : Nat) : Nat :=
  s.dir.objs.foldl (fun n e =>
    match e.2 with
    | some o => if o.part = p ∧ !s.parkInDram e.1 then n + units o.bytes else n
    | none => n) 0
/-- Whether flash of a partition takes `n` more bytes: no READ_ONLY Nolmer, blocks enough (R339, R346, log entry 21). -/
def State.flashRoom (s : State) (p n : Nat) : Bool :=
  (s.halves p).all (fun h => s.rd (R.NOL.FL_STAT.MODE (h / 2)) != 2) &&
  decide (s.flashUsed p + units n ≤ (s.halves p).length * halfFlash)
/-- Bytes of an object of `n` bytes that land on Nolmer `m`: 1 MiB units striped in turn across the Nolmers that hold the region's
halves (R336). -/
def State.stripe (s : State) (p n m : Nat) : Nat :=
  let ms := ((s.halves p).map (· / 2)).dedup
  match ms.idxOf? m with
  | none => 0
  | some k =>
    let whole := n / 2 ^ 20
    (whole + ms.length - 1 - k) / ms.length * 2 ^ 20 + (if whole % ms.length = k then n % 2 ^ 20 else 0)
/-- FL_CNT counts host and NAND writes of an object's bytes (R348). -/
def State.countFlash (s : State) (p n : Nat) : State :=
  (List.range 4).foldl (fun s m =>
    let x := s.nolOf m
    let k := s.stripe p n m
    let y : NolSt := { x with hostBytes := x.hostBytes + k, nandBytes := x.nandBytes + k }
    (s.setNol m y).wrs [(R.NOL.FL_CNT.HOST_GIB m, min (y.hostBytes / 2 ^ 30) 0xffffffff),
      (R.NOL.FL_CNT.NAND_GIB m, min (y.nandBytes / 2 ^ 30) 0xffffffff)]) s

/-- The code and effect of a refused local access of a command of partition `p`: the command completes with the code
that the refusal raises (R440, R532). -/
def reachCode (r : Reach) : Nat :=
  match r with
  | .unmapped => 0x2008
  | .hole => 0x1002
  | .unbacked => 0x2003
  | .foreign => 0x7003
  | .slowRange => 0x900d
  | .off _ => 0x2082
  | .ok => 0
/-- A posted command that a refused local access ends. -/
def State.refusePost (s : State) (p : Post) (op part a : Nat) (r : Reach) : State :=
  (s.done p op (reachCode r) 0).refuseHub part a r

/-! ## Object commands -/

/-- OBJ_PUT (R337 to R339, R346, R390, R433). -/
def State.objPut (s : State) (post : Post) (dmaFail : Bool) : State :=
  s.gate post 0x90 [lowMask 32, -1, lowMask 40] (fun s j =>
    let w := post.p
    let loc := fieldOf w.w1 0 1 == 1
    let kind : ObjKind := if fieldOf w.w1 1 1 = 1 then .image else .data
    let ttl := fieldOf w.w1 8 24
    let a := w.w2.toNat
    let n := w.w3.toNat
    let r := if loc then s.reach (some j.part) a n false else .ok
    if n = 0 ∨ fieldOf w.w1 2 6 ≠ 0 then s.done post 0x90 (if n = 0 then 0x900c else 0xa001) 0
    else if !r.passes then s.refusePost post 0x90 j.part a r
    else if loc && (s.part j.part).sealedW && Rng.overlaps (a, n) (s.slotRange j.part) then s.done post 0x90 0x7002 0
    else if !s.flashRoom j.part n then s.done post 0x90 0x900a 0
    else if !loc && dmaFail then (s.done post 0x90 0xa006 0).hostContained 0xa006 j
    else match s.newObj (fun g => ⟨g, j.part, kind, n, if ttl = 0 then none else some (s.now + ttl * 32768), false, false,
        [], [], a, if loc then none else some post.port, []⟩) with
      | none => s.done post 0x90 0x900a 0
      | some (s, h) => s.await post 0x90 (.objPut h))
/-- Whether programs and erases of a Nolmer are paused (R496). -/
def State.flashPaused (s : State) (m : Nat) : Bool := decide (s.rd (R.NOL.MEM_STAT.FLASH_C m) ≥ 75)
/-- Whether programs of a partition's region are paused. -/
def State.programsPaused (s : State) (p : Nat) : Bool := (s.halves p).any (fun h => s.flashPaused (h / 2))
/-- OBJ_SEALED (R338): the copy has run, the last page and the directory entry are programmed, the handle is returned. -/
def State.objSealed (s : State) (h : Nat) : State :=
  match s.obj h with
  | none => s
  | some o =>
    if o.sealedO || s.programsPaused o.part then s else
    let d : Piece := match o.srcHost with
      | some port => ⟨cutTab (s.hostMem port) o.source o.bytes, []⟩
      | none => s.hubCut o.source o.bytes
    let s := if o.srcHost.isSome then s else s.hubTouch o.part (o.source, o.bytes)
    let s := s.putObj (handleIndex h) (some { o with sealedO := true, data := d.data, poison := d.pois })
    (s.countFlash o.part o.bytes).finish (fun c => c.kind == .objPut h) 0 h

/-- The object that a command of partition `p` may name (R337). -/
def State.objFor (s : State) (p h : Nat) : Option Obj :=
  match s.obj h with
  | some o => if o.part = p ∧ o.sealedO ∧ !o.deleting then some o else none
  | none => none
/-- OBJ_GET (R337, R339): the read is queued; a range outside the object is OBJ_INVALID (log entry 22). -/
def State.objGet (s : State) (post : Post) : State :=
  s.gate post 0x91 [lowMask 33, lowMask 40, lowMask 40, -1] (fun s j =>
    let w := post.p
    let h := fieldOf w.w1 0 32
    let loc := fieldOf w.w1 32 1 == 1
    let off := w.w2.toNat
    let n := w.w3.toNat
    let a := w.w4.toNat
    match s.objFor j.part h with
    | none => s.done post 0x91 0x900c 0
    | some o =>
      let r := if loc && n != 0 then s.reach (some j.part) a n true else .ok
      if off + n > o.bytes then s.done post 0x91 0x900c 0
      else if !r.passes then s.refusePost post 0x91 j.part a r
      else s.await post 0x91 (.objGet h off n (!loc) a))
/-- Whether a queued command reads an object. -/
def PendKind.readsObj (h : Nat) : PendKind → Bool
  | .objGet h' _ _ _ _ => h' == h
  | _ => false
/-- A DELETE that waited for earlier GETs goes ahead (R339). -/
def State.deleteReady (s : State) (h : Nat) : State :=
  if s.host.waiting.any (fun c => c.kind.readsObj h) then s
  else if s.host.waiting.any (fun c => c.kind == .objDelete h) then
    (s.dropObj h).finish (fun c => c.kind == .objDelete h) 0 0
  else s
/-- OBJ_GET_COMPLETE (R337, R344, Table 17-2): the oldest GET of the handle has its last byte written. The 4 KiB units of the object
whose page reads failed every step are delivered poisoned. A poisoned host write completes with FLASH_UNCORR. -/
def State.objGetComplete (s : State) (h : Nat) (failed : List Nat) : State :=
  match s.host.waiting.find? (fun c => c.kind.readsObj h), s.obj h with
  | some c, some o =>
    match c.kind with
    | .objGet _ off n toHost a =>
      let lost : List Rng := failed.map (fun u => (u * 4096, 4096))
      let pois := ((o.poison ++ lost).filter (fun r => Rng.overlaps r (off, n))).map
        (fun r => (max r.1 off - off, min (r.1 + r.2) (off + n) - max r.1 off))
      let d : Piece := ⟨cutTab o.data off n, pois⟩
      let bad := !d.pois.isEmpty
      let job := s.job c.job
      let s := if toHost then
          (match job with | some j => s.hostPaste j.port a n d.data | none => s)
        else s.hubPaste o.part a n d
      let s := { s with host := { s.host with waiting := s.host.waiting.erase c } }
      (s.complete c.port c.fn c.ring ⟨c.tag, if toHost && bad then 0x9006 else 0, c.opcode, c.job, 0⟩).deleteReady h
    | _ => s
  | _, _ => s
/-- OBJ_DELETE (R335, R339): later GETs find nothing; the key goes once earlier GETs are complete. -/
def State.objDelete (s : State) (post : Post) : State :=
  s.gate post 0x92 [lowMask 32] (fun s j =>
    let h := fieldOf post.p.w1 0 32
    match s.objFor j.part h with
    | none => s.done post 0x92 0x900c 0
    | some o => ((s.putObj (handleIndex h) (some { o with deleting := true })).await post 0x92 (.objDelete h)).deleteReady h)
/-- OBJECT_EXPIRY (R341, R346): an object put with a TTL is deleted once its instant has come, whatever the flash mode;
reads of it that have not completed find nothing. -/
def State.objectExpiry (s : State) (h : Nat) : State :=
  match s.obj h with
  | some o => match o.expiry with
    | some t =>
      if s.now < t ∨ o.kind = .park then s
      else ((s.dropObj h).finish (fun c => c.kind.readsObj h || c.kind == .objPut h) 0x900c 0).finish
        (fun c => c.kind == .objDelete h) 0 0
    | none => s
  | none => s

/-! ## Flash blocks -/

/-- A block's metadata by Nolmer and number. -/
def State.blk (s : State) (m b : Nat) : Blk := Tab.get ⟨0, 0, 0, false, false⟩ s.blks (m * 2 ^ 19 + b)
/-- A block's metadata replaced. -/
def State.setBlk (s : State) (m b : Nat) (x : Blk) : State :=
  { s with blks := Tab.set ⟨0, 0, 0, false, false⟩ s.blks (m * 2 ^ 19 + b) x }
/-- Blocks of a Nolmer (Table 12-4). -/
def blocksPer : Nat := 294912
/-- The listed blocks of a Nolmer. -/
def State.blocksOf (s : State) (m : Nat) : List Blk :=
  (s.blks.filter (fun e => decide (e.1 / 2 ^ 19 = m))).map (·.2)
/-- Highest, lowest and summed program/erase counts of a Nolmer. -/
def State.wear (s : State) (m : Nat) : Nat × Nat × Nat :=
  let ps := (s.blocksOf m).map (·.pe)
  (ps.foldl max 0, if ps.length < blocksPer then 0 else ps.foldl min (ps.headD 0), ps.foldl (· + ·) 0)
/-- FL_WEAR follows the metadata (Table 12-9). -/
def State.wearRegs (s : State) (m : Nat) : State :=
  let w := s.wear m
  s.wrs [(R.NOL.FL_WEAR.PE_MAX m, w.1), (R.NOL.FL_WEAR.PE_MIN m, w.2.1), (R.NOL.FL_WEAR.PE_AVG m, w.2.2 / blocksPer)]
/-- Bytes of a block (Table 12-4). -/
def blockBytes : Nat := if Config.isL32 then 32 * 2 ^ 20 else 8 * 2 ^ 20
/-- The data of block `b` rewritten to block `t`; the source is erased, or left as it is when it is bad. -/
def State.rewrite (s : State) (m b t : Nat) : State :=
  let x := s.blk m b
  let y := s.blk m t
  let n := s.nolOf m
  let n' : NolSt := { n with nandBytes := n.nandBytes + blockBytes }
  let s := s.setBlk m b (if x.bad then { x with reads := 0, refresh := false }
    else { x with pe := x.pe + 1, reads := 0, progTime := 0, refresh := false })
  let s := s.setBlk m t { y with progTime := max 1 (s.now / 32768), reads := 0, refresh := false }
  ((s.setNol m n').wr (R.NOL.FL_CNT.NAND_GIB m) (min (n'.nandBytes / 2 ^ 30) 0xffffffff)).wearRegs m
/-- Whether a block takes data: erased, and not bad. -/
def Blk.free (x : Blk) : Bool := x.progTime == 0 && !x.bad
/-- Whether block `b` is the coldest of a Nolmer, its data being the oldest, and block `t` the most-worn free one (R345, log entry
175). -/
def State.levels (s : State) (m b t : Nat) : Bool :=
  (s.blk m b).progTime != 0 && (s.blocksOf m).all (fun y =>
    (y.progTime == 0 || decide ((s.blk m b).progTime ≤ y.progTime)) && (!y.free || decide (y.pe ≤ (s.blk m t).pe)))
/-- Whether an object expires within 24 h (R345). -/
def State.expiresSoon (s : State) (h : Nat) : Bool :=
  match s.obj h with
  | some o => match o.expiry with
    | some t => decide (t ≤ s.now + 86400 * 32768)
    | none => false
  | none => false
/-- Whether a move has its ground (R345). -/
def State.moveDue (s : State) (m b t : Nat) (why : MoveWhy) : Bool :=
  let x := s.blk m b
  match why with
  | .retention => x.refresh || decide (s.now / 32768 > x.progTime + s.rd (R.NOL.FL_POLICY.REFRESH_D m) * 86400)
  | .disturb => decide (x.reads ≥ s.rd (R.NOL.FL_POLICY.DISTURB_K m) * 1000)
  | .wear => decide ((s.wear m).1 > (s.wear m).2.1 + s.rd (R.NOL.FL_POLICY.WL_DELTA m)) && s.levels m b t
/-- FLASH_MOVE (R345): a move whose ground holds rewrites a block elsewhere, on a free one. Refresh and wear levelling skip a block
whose objects, `held`, all expire within 24 h (log entry 175). -/
def State.flashMove (s : State) (m : Nat) (why : MoveWhy) (b t : Nat) (held : List Nat) : State :=
  let skip := why != .disturb && !held.isEmpty && held.all s.expiresSoon
  if s.flashPaused m || skip || !s.moveDue m b t why || b == t || !(s.blk m t).free || (s.blk m b).bad then s else
  let s := s.rewrite m b t
  match why with
  | .retention => s.count (R.NOL.FL_RELOC.REFRESH m) 1
  | .disturb => s.count (R.NOL.FL_RELOC.DISTURB m) 1
  | .wear => s
/-- The mode that follows a reserve count (R346). -/
def flashMode (reserve : Nat) : Nat := if reserve ≤ 2048 then 2 else if reserve ≤ 16384 then 1 else 0
/-- FLASH_BLOCK_FAIL (R346): the block is retired from the reserve, its data rewritten, and the mode follows. -/
def State.flashBlockFail (s : State) (m b t : Nat) : State :=
  if (s.blk m b).bad ∨ b = t ∨ !(s.blk m t).free then s else
  let s := (s.setBlk m b { s.blk m b with bad := true }).rewrite m b t
  let r := s.rd (R.NOL.FL_STAT.RESERVE m) - 1
  let old := s.rd (R.NOL.FL_STAT.MODE m)
  let s := (s.wr (R.NOL.FL_STAT.RESERVE m) r).count (R.NOL.FL_STAT.GROWN_BAD m) 1
  let s := (s.wr (R.NOL.FL_STAT.MODE m) (flashMode r)).nolError m 0x9007 1 15 0xffff none true
  if flashMode r = old then s
  else if flashMode r = 1 then s.nolError m 0x9008 1 15 0xffff none true
  else if flashMode r = 2 then s.nolError m 0x9009 1 15 0xffff none true
  else s
/-- The metadata and codes of a page read (R344, R345): the read is counted; a retry or a soft decode may queue the block
for a refresh; a read that fails every step raises FLASH_UNCORR. -/
def State.pageRead (s : State) (m ch b : Nat) (how : PageRead) : State :=
  let x := s.blk m b
  let lvl := s.rd (R.NOL.FL_POLICY.RETRY_LVL m)
  let due := match how with
    | .hard => false
    | .retry k => decide (k.val ≥ lvl)
    | .soft => true
    | .failed => false
  let s := s.setBlk m b { x with reads := x.reads + 1, refresh := x.refresh || due }
  match how with
  | .retry _ => s.nolError m 0x9005 0 15 0xffff (some ch) true
  | .failed => s.nolError m 0x9006 2 15 0xffff (some ch) true
  | _ => s

/-! ## Lift links -/

/-- The tenant partitions that hold a half of a Nolmer (R328). -/
def State.nolParts (s : State) (m : Nat) : List Nat :=
  (List.range 8).filter (fun p => (s.part p).valid && (hasStack (s.part p).stackMask (2 * m) ||
    hasStack (s.part p).stackMask (2 * m + 1)))
/-- A Nolmer goes offline until the next boot, and every job whose region uses it is aborted (R333, R422). `raise`
records the code. -/
def State.nolOffline (s : State) (m : Nat) (raise : State → Nat → Nat → State) : State :=
  let s := s.wrs [(R.NOL.MEM_STAT.OFFLINE m, 1), (R.NOL.MEM_STAT.LINK_UP m, 0)]
  let ps := (s.nolParts m).filter (fun p => (s.jobOf p).isSome)
  if ps.isEmpty then raise s 15 0xffff else ps.foldl (fun s p => raise s p (s.jobId p)) s
/-- LIFT_DOWN (R333): one record per job that is aborted, or one of the module. -/
def State.liftDown (s : State) (m : Nat) : State :=
  s.nolOffline m (fun s p j => s.nolError m 0x9004 3 p j none false)
/-- LIFT_FRAME (R332): an uncorrectable frame is replayed. -/
def State.liftFrame (s : State) (m : Nat) (raw : BitVec 288) : State :=
  if (lcDecode (lcSyms raw)).2 = 3 then
    (s.count (R.NOL.MEM_STAT.REPLAYS m) 1).nolError m 0x9003 0 15 0xffff none false
  else s
/-- LIFT_RECAL (R333): a failed recalibration whose retrain fails too raises LIFT_DOWN. -/
def State.liftRecal (s : State) (m : Nat) (ok retrainOk : Bool) : State :=
  if ok || retrainOk || s.on (R.NOL.MEM_STAT.OFFLINE m) then s else s.liftDown m

end Sys2Proof.Machine
end

