-- ==== Sys2Proof/Machine/Roll.lean ====
section
/-! DEFINITION. The rollout engine's own parts (chapter 05): contexts and handles (R139), stream rings (R171, R172), stop
conditions (R157), charges (R159), draft lengths (R156), adapter and prefix references (R147, R163), rollout batches
(R180, R181), and park records in the slow tier (R340 to R342). -/
namespace Sys2Proof.Machine

/-! ## Access -/

/-- The rollout state changed by `f`. -/
def State.modRoll (s : State) (f : RollSt → RollSt) : State := { s with roll := f s.roll }
/-- A context by number. -/
def State.ctx (s : State) (n : Nat) : Ctx := Tab.get (Ctx.free 0) s.roll.ctxs n
/-- A context replaced. -/
def State.setCtx (s : State) (n : Nat) (c : Ctx) : State :=
  s.modRoll (fun r => { r with ctxs := Tab.set (Ctx.free 0) r.ctxs n c })
/-- A context changed by `f`. -/
def State.modCtx (s : State) (n : Nat) (f : Ctx → Ctx) : State := s.setCtx n (f (s.ctx n))
/-- The contexts of a partition that are not FREE, ascending. -/
def State.liveCtxs (s : State) (p : Nat) : List Nat :=
  (s.roll.ctxs.map (·.1)).filter (fun n => (s.ctx n).st != 0 && (s.ctx n).part == p)
/-- The handle of a context (R139). -/
def ctxHandle (n : Nat) (c : Ctx) : Nat := n + c.gen * 2 ^ 14
/-- A ROLL code (R175): ROLL.ERR, the event, and for a contained class the reset of the job. -/
def State.rollErr (s : State) (p code cls ctx adapter : Nat) : State :=
  let s := s.recErr (R.ROLL.ERR.VALID p) (R.ROLL.ERR.OVERRUN p)
    [(R.ROLL.ERR.CODE p, code), (R.ROLL.ERR.CTX p, ctx), (R.ROLL.ERR.ADAPTER p, adapter)]
  if cls = 3 then s.contained code p (s.jobId p) 0xffff none else s.event code cls p (s.jobId p) 0xffff none
/-- The first member of a list that satisfies `p` changed by `f`. -/
def mapFirst {α : Type} (p : α → Bool) (f : α → α) : List α → List α
  | [] => []
  | a :: t => if p a then f a :: t else a :: mapFirst p f t
/-- The first number from `n` on that satisfies `f`. -/
def firstFrom (f : Nat → Bool) (n : Nat) : Nat → Option Nat
  | 0 => none
  | fuel + 1 => if f n then some n else firstFrom f (n + 1) fuel

/-! ## Stream rings -/

/-- A stream ring of a partition's job. -/
def State.sring (s : State) (p r : Nat) : Option StreamRing := Tab.get none s.roll.rings (p * 64 + r)
/-- A stream ring replaced. -/
def State.setSring (s : State) (p r : Nat) (x : Option StreamRing) : State :=
  s.modRoll (fun q => { q with rings := Tab.set none q.rings (p * 64 + r) x })
/-- The job whose rings the module may write: not orphaned, its port's link up (R391). -/
def State.streamJob (s : State) (p : Nat) : Option Job :=
  match s.jobOf p with
  | some j => if j.orphaned || !s.linkUp j.port then none else some j
  | none => none
/-- Free records of a ring by the host's tail word (R172). -/
def State.ringRoom (s : State) (j : Job) (x : StreamRing) : Nat := 2 ^ x.log2 - (x.written - s.hostLE j.port x.tail 8)
/-- Records written to a ring in order; PHASE starts at 1 and inverts on each wrap (Table 5-6). -/
def State.writeRecs (s : State) (j : Job) (x : StreamRing) (w : Nat) : List (Nat × Nat) → State
  | [] => s
  | (a, b) :: t =>
    let phase := if w / 2 ^ x.log2 % 2 = 0 then 2 ^ 63 else 0
    (s.hostWords j.port (x.base + w % 2 ^ x.log2 * 16) [a + phase, b]).writeRecs j x (w + 1) t
/-- The queued records of a ring that have room are written, and the ring's vector is signalled (R290, R388). -/
def State.flushRing (s : State) (p r : Nat) : State :=
  match s.sring p r, s.streamJob p with
  | some x, some j =>
    let n := min (s.ringRoom j x) x.queue.length
    if n = 0 then s else
    ((s.writeRecs j x x.written (x.queue.take n)).setSring p r
      (some { x with written := x.written + n, queue := x.queue.drop n })).signal j.port j.fn (9 + r)
  | _, _ => s
/-- A stream record behind those that wait (R171, R172). -/
def State.pushRec (s : State) (p r w0 w1 : Nat) : State :=
  match s.sring p r with
  | some x => (s.setSring p r (some { x with queue := x.queue ++ [(w0, w1)] })).flushRing p r
  | none => s
/-- Whether a ring has no free record: an orphaned job's rings count as full (R172, R391). -/
def State.ringFull (s : State) (p r : Nat) : Bool :=
  match s.sring p r, s.streamJob p with
  | some x, some j => !x.queue.isEmpty || s.ringRoom j x == 0
  | some _, none => true
  | none, _ => false
/-- Whether a full ring holds a context at its decode step (R172). -/
def State.heldCtx (s : State) (n : Nat) : Bool := (s.ctx n).st == 5 && s.ringFull (s.ctx n).part (s.ctx n).ring
/-- The µs that a full ring held a context are counted up to now (Table 5-12). -/
def State.stallTick (s : State) (p : Nat) : State :=
  let held := (s.liveCtxs p).any s.heldCtx
  let s1 := match Tab.get none s.roll.stall p with
    | some t => s.count (R.ROLL.STREAM_STALL.US p) (s.uptime - t)
    | none => s
  s1.modRoll (fun r => { r with stall := Tab.set none r.stall p (if held then some s.uptime else none) })
/-- The stream record of a token (Table 5-6). -/
def tokenRec (n : Nat) (c : Ctx) (pos tok lp : Nat) (spec : Bool) : Nat × Nat :=
  (ctxHandle n c + pos * 2 ^ 32 + (if spec then 2 ^ 56 else 0), tok % 2 ^ 18 + lp * 2 ^ 32)
/-- The final record of a context (Table 5-6). -/
def finalRec (n : Nat) (c : Ctx) : Nat × Nat :=
  (ctxHandle n c + 2 ^ 54, c.reason + c.out % 2 ^ 24 * 2 ^ 8 + c.ticket * 2 ^ 32)

/-! ## Stops and emission -/

/-- What stops a context in DECODE or RUN_OUT (Table 5-1, Table 5-4, R162). -/
def Ctx.stop (c : Ctx) (reason : Nat) : Ctx :=
  if c.st = 6 then { c with st := 8, reason := if reason ≥ 8 then reason else 6, round := none }
  else if c.keep ∧ 1 ≤ reason ∧ reason ≤ 5 then { c with st := 7, reason := reason, round := none }
  else { c with st := 8, reason := reason, round := none }
/-- A context closed with a reason, whatever its state; one that is CLOSING keeps its reason. -/
def Ctx.close (c : Ctx) (reason : Nat) : Ctx :=
  if c.st = 0 ∨ c.st = 8 then c else { c with st := 8, reason := reason, round := none }
/-- A stop condition met: before DECODE it waits for the entry to DECODE (log entry 30). -/
def Ctx.meet (c : Ctx) (reason : Nat) : Ctx := if c.st ≤ 4 then { c with stopped := some reason } else c.stop reason
/-- Whether a list ends with another. -/
def endsWith (l q : List Nat) : Bool := decide (q.length ≤ l.length) && l.drop (l.length - q.length) == q
/-- The first condition of Table 5-4 that the token just emitted meets (R157); `c` counts it. -/
def stopReason (ss : StopSet) (c : Ctx) (tok pos : Nat) : Option Nat :=
  if ss.ends.contains tok then some 1
  else if ss.seqs.any (fun q => !q.isEmpty && endsWith (c.toks.drop (c.toks.length - c.hist)) q) then some 2
  else if c.out ≥ c.maxNew then some 3
  else if pos ≥ 4194303 then some 5
  else none
/-- An account's balance. -/
def State.balance (s : State) (a : Nat) : Nat := Tab.get 0 s.roll.accts a
/-- An account's balance replaced. -/
def State.setBalance (s : State) (a v : Nat) : State := s.modRoll (fun r => { r with accts := Tab.set 0 r.accts a v })
/-- A stop set of a partition. -/
def State.stopSet (s : State) (p i : Nat) : StopSet := Tab.get ⟨[], []⟩ s.roll.stops (p * 256 + i)

/-- One token of a context (R157, R159, R162): a token that the account cannot pay for is not emitted; else it is charged,
streamed unless the context runs out, and checked. The answer says whether the sequence goes on. -/
def State.emitTok (s : State) (n : Nat) (t : Nat × Nat × Bool) : State × Bool :=
  let c := s.ctx n
  let pos := c.toks.length
  if s.balance c.acct = 0 then (s.setCtx n (c.meet 4), false) else
  let s := s.setBalance c.acct (s.balance c.acct - 1)
  let c' := { c with toks := c.toks ++ [t.1], hist := c.hist + 1, out := c.out + 1 }
  let s := s.setCtx n c'
  let rec_ := tokenRec n c pos t.1 t.2.1 t.2.2
  let s := if c.st = 6 ∨ c.runEnd then s else s.pushRec c.part c.ring rec_.1 rec_.2
  match stopReason (s.stopSet c.part c.stopset) c' t.1 pos with
  | some r => (s.setCtx n (c'.meet r), false)
  | none => (s, true)
/-- Tokens of one round until a stop (R157). -/
def State.emitAll (s : State) (n : Nat) : List (Nat × Nat × Bool) → State × Bool
  | [] => (s, true)
  | t :: ts =>
    match s.emitTok n t with
    | (s, true) => s.emitAll n ts
    | (s, false) => (s, false)

/-! ## Draft lengths -/

/-- Whether a context never drafts (R156). -/
def State.noDrafts (s : State) (c : Ctx) : Bool :=
  !s.on (R.ROLL.CTL.SPEC_EN c.part) || c.noDraft || s.rd (R.ROLL.CTL.DRAFT_MAX c.part) == 0
/-- The draft length of a context's next round (R156). -/
def State.draftLen (s : State) (c : Ctx) : Nat :=
  if s.noDrafts c then 0 else min c.len (min 8 (s.rd (R.ROLL.CTL.DRAFT_MAX c.part)))
/-- Table 5-3. -/
def Ctx.draftUpdate (c : Ctx) (max : Nat) (r : Round) : Ctx :=
  if c.off then { c with offLeft := c.offLeft - 1 }
  else if r.len = 0 then c
  else if r.acc = r.len then { c with len := min (r.len + 1) max, zeroRun := 0 }
  else if r.acc ≥ 1 then { c with len := r.len, zeroRun := 0 }
  else if r.len ≥ 2 then { c with len := r.len / 2 }
  else if c.zeroRun + 1 < 4 then { c with len := 1, zeroRun := c.zeroRun + 1 }
  else { c with len := 0, zeroRun := 0, off := true, offLeft := 64 }
/-- The entry to DECODE: RUN_OUT after a run-to-end cancellation, then a stop that waits, then a held PAUSE. -/
def State.enterDecode (s : State) (n : Nat) : State :=
  let c := s.ctx n
  let l := min (s.rd (R.ROLL.CTL.DRAFT_INIT c.part)) (min 8 (s.rd (R.ROLL.CTL.DRAFT_MAX c.part)))
  let c := { c with st := (if c.runEnd then 6 else 5), len := (if s.noDrafts c then 0 else l), off := false,
                    offLeft := 0, zeroRun := 0 }
  s.setCtx n (match c.stopped, c.hold with
    | some r, _ => c.stop r
    | none, some t => if c.runEnd then c else { c with st := 7, reason := 7, ttl := t }
    | none, none => c)

/-! ## Adapters and prefixes -/

/-- An adapter slot. -/
def State.aslot (s : State) (i : Nat) : AdSlot := Tab.get ⟨0, 0, 0, 0, 0, []⟩ s.roll.slots i
/-- An adapter slot replaced. -/
def State.setAslot (s : State) (i : Nat) (x : AdSlot) : State :=
  s.modRoll (fun r => { r with slots := Tab.set ⟨0, 0, 0, 0, 0, []⟩ r.slots i x })
/-- An OLD slot without references is FREE (Table 5-5). -/
def AdSlot.settle (x : AdSlot) : AdSlot := if x.st = 3 ∧ x.count = 0 then ⟨0, 0, 0, 0, 0, []⟩ else x
/-- One reference fewer on the slot that a context pins (R163). -/
def State.unpin (s : State) (n : Nat) : State :=
  match (s.ctx n).slot with
  | some i => (s.setAslot i ({ s.aslot i with count := (s.aslot i).count - 1 }).settle).modCtx n (fun c => { c with slot := none })
  | none => s
/-- The slot that the adapter pointer of an ID names (R163). -/
def State.adapterPtr (s : State) (p id : Nat) : Option Nat :=
  (s.roll.slots.find? (fun e => e.2.st == 2 && e.2.part == p && e.2.id == id)).map (·.1)
/-- The pointer is cleared: the CURRENT slot becomes OLD (Table 5-5). -/
def State.retireSlot (s : State) (i : Nat) : State := s.setAslot i ({ s.aslot i with st := 3 }).settle

/-- A prefix handle. -/
def State.pfx (s : State) (h : Nat) : Option Pfx := Tab.get none s.roll.pfxs h
/-- A prefix handle replaced. -/
def State.setPfx (s : State) (h : Nat) (x : Option Pfx) : State :=
  s.modRoll (fun r => { r with pfxs := Tab.set none r.pfxs h x })
/-- Whether a context maps a prefix handle. -/
def State.mapped (s : State) (h : Nat) : Bool := s.roll.ctxs.any (fun e => e.2.st != 0 && e.2.maps.contains h)
/-- A released handle that no context maps is freed with its pages (R147). -/
def State.settlePfx (s : State) (h : Nat) : State :=
  match s.pfx h with
  | some x => if x.released && !s.mapped h then s.setPfx h none else s
  | none => s

/-! ## KV pages -/

/-- Tokens of a page (Table 5-11). -/
def State.pageTok (s : State) (p : Nat) : Nat := 16 * 2 ^ s.rd (R.ROLL.PAGE_CFG.TOK p)
/-- Bytes of a page (R142). -/
def State.pageBytes (s : State) (p : Nat) : Nat := s.rd (R.ROLL.PAGE_CFG.LINES p) * 512
/-- The pages in use in a partition: those of its contexts and prefix handles (R143), and those it holds for contexts of other
modules (R138). -/
def State.usedPages (s : State) (p : Nat) : List Nat :=
  s.roll.ctxs.flatMap (fun e => if e.2.st ≠ 0 ∧ e.2.part = p then e.2.pages else []) ++
  s.roll.pfxs.flatMap (fun e => match e.2 with | some x => if x.part = p then x.pages else [] | none => []) ++
  s.roll.lodged.flatMap (fun x => if x.part = p then x.pages else [])
/-- The lowest `need` pages from `n` on that are not used. -/
def freePages (used : List Nat) (n need : Nat) : Nat → List Nat
  | 0 => []
  | fuel + 1 =>
    if need = 0 then [] else
    if used.contains n then freePages used (n + 1) need fuel else n :: freePages used (n + 1) (need - 1) fuel
/-- `need` pages reserved, all or nothing (R143). The page lists, which the engine keeps inside the region in a form the spec
does not give (R142), stand in `Ctx.pages` and take none of its room (log entry 164). -/
def State.reservePages (s : State) (p need : Nat) : Option (List Nat) :=
  let used := s.usedPages p
  let l := freePages used 0 need (used.length + need)
  if l.length = need ∧ l.all (fun i => decide ((i + 1) * s.pageBytes p ≤ (s.kvRange p).2)) then some l else none
/-- The local address of a page. -/
def State.pageAddr (s : State) (p i : Nat) : Nat := (s.kvRange p).1 + i * s.pageBytes p
/-- Whether a page that holds the first `n` positions of a context is poisoned. -/
def State.kvPoisoned (s : State) (c : Ctx) (n : Nat) : Bool :=
  (c.pages.take ((n + s.pageTok c.part - 1) / s.pageTok c.part)).any
    (fun i => s.poisoned (s.pageAddr c.part i) (s.pageBytes c.part))
/-- The bytes of pages, one after another. -/
def State.cutPages (s : State) (p : Nat) : List Nat → Nat → Piece
  | [], _ => ⟨[], []⟩
  | i :: t, off =>
    let d := s.cut (s.pageAddr p i) (s.pageBytes p)
    let r := s.cutPages p t (off + s.pageBytes p)
    ⟨d.data.map (fun e => (e.1 + off, e.2)) ++ r.data, d.pois.map (fun e => (e.1 + off, e.2)) ++ r.pois⟩
/-- Bytes put back into pages, one after another. -/
def State.pastePages (s : State) (p : Nat) (data : Tab Byte) (poison : List Rng) : List Nat → Nat → State
  | [], _ => s
  | i :: t, off =>
    let n := s.pageBytes p
    let pois := (poison.filter (fun r => Rng.overlaps r (off, n))).map
      (fun r => (max r.1 off - off, min (r.1 + r.2) (off + n) - max r.1 off))
    (s.paste (s.pageAddr p i) n ⟨cutTab data off n, pois⟩).pastePages p data poison t (off + n)

/-! ## Rollout batches -/

/-- The batches of a partition. -/
def State.batchSt (s : State) (p : Nat) : BatchSt := Tab.get ⟨[], none⟩ s.roll.batches p
/-- SCHED.RB_STAT follows the batches (Table 6-12). -/
def State.rbRegs (s : State) (p : Nat) : State :=
  let l := (s.batchSt p).open_
  let refs (par : Nat) : Nat := (l.filter (fun b => match b.stamp with | some v => v % 2 == par | none => false)).length
  s.wrs [(R.SCHED.RB_STAT.OPEN p, l.length), (R.SCHED.RB_STAT.STARTED p, (l.filter (fun b => b.stamp.isSome)).length),
    (R.SCHED.RB_STAT.EVEN_RB p, refs 0), (R.SCHED.RB_STAT.ODD_RB p, refs 1)]
/-- The batches of a partition replaced. -/
def State.setBatches (s : State) (p : Nat) (b : BatchSt) : State :=
  (s.modRoll (fun r => { r with batches := Tab.set ⟨[], none⟩ r.batches p b })).rbRegs p
/-- Batch number `a` is lower than `b` (R181). -/
def batchLower (a b : Nat) : Bool :=
  let d := (b + 2 ^ 32 - a) % 2 ^ 32
  decide (1 ≤ d ∧ d ≤ 2 ^ 31 - 1)
/-- Whether every context of a batch is FREE or parked (R181). -/
def State.batchIdle (s : State) (p num : Nat) : Bool :=
  (s.liveCtxs p).all (fun n => (s.ctx n).batch ≠ num || ((s.ctx n).st == 8 && (s.ctx n).ticket != 0))
/-- Closed batches whose contexts are all FREE or parked complete: their references are released, and what waited for a
slot goes on (R128, R181). -/
def State.batchesDone (s : State) (p : Nat) : State :=
  let b := s.batchSt p
  let rest := b.open_.filter (fun x => !(x.closed && s.batchIdle p x.num))
  if rest.length = b.open_.length then s
  else ((s.setBatches p { b with open_ := rest }).modShards p id).trnGo p
/-- Whether ADMIT may name a batch (R181). -/
def State.batchOk (s : State) (p num : Nat) : Bool :=
  let b := s.batchSt p
  (match b.high with | some h => !(batchLower num h || num == h) | none => true) &&
  (match b.open_.find? (fun x => x.num == num) with
    | some x => !x.closed
    | none => decide (b.open_.length < 16))
/-- The version an admission to a batch meets: its stamp, else the weight pointer (R149, R180). -/
def State.batchVer (s : State) (p num : Nat) : Nat :=
  match (s.batchSt p).open_.find? (fun x => x.num == num) with
  | some ⟨_, _, some v⟩ => v
  | _ => s.rd (R.SCHED.WPTR.STEP p)

/-! ## Park records -/

/-- A park record by its ticket. -/
def State.parkRec (s : State) (t : Nat) : Option Park :=
  match s.obj t with
  | some _ => Tab.get none s.roll.parks (handleIndex t)
  | none => none
/-- A park record replaced. -/
def State.setPark (s : State) (t : Nat) (x : Option Park) : State :=
  s.modRoll (fun r => { r with parks := Tab.set none r.parks (handleIndex t) x })
/-- MiB of a record's KV. -/
def mibs (n : Nat) : Nat := (n + 0xfffff) / 0x100000
/-- Of `u` units striped across `hs`, how many lie on half `k` (R336, log entry 23). -/
def unitsOn (hs : List Nat) (u k : Nat) : Nat :=
  match hs.findIdx? (· == k) with
  | some i => (u + hs.length - 1 - i) / hs.length
  | none => 0
/-- The park areas: the halves of each and its MiB (R330). -/
def State.parkAreas (s : State) : List (List Nat × Nat) :=
  (List.range 4).flatMap (fun m =>
    if s.rd (R.NOL.MEM_CFG.SPLIT m) = 0 then [([2 * m, 2 * m + 1], s.rd (R.NOL.PARK_CFG.MIB0 m))]
    else [([2 * m], s.rd (R.NOL.PARK_CFG.MIB0 m)), ([2 * m + 1], s.rd (R.NOL.PARK_CFG.MIB1 m))])
/-- The park records as (index, record, object). -/
def State.parkList (s : State) : List (Nat × Park × Obj) :=
  s.roll.parks.filterMap (fun e => match e.2, s.objAt e.1 with | some k, some o => some (e.1, k, o) | _, _ => none)
/-- MiB that the records satisfying `f` hold on a list of halves. -/
def State.parkMib (s : State) (f : Park → Bool) (hs : List Nat) : Nat :=
  s.parkList.foldl (fun n e => if f e.2.1 then
    n + (hs.map (fun k => unitsOn (s.halves e.2.2.part) (mibs e.2.2.bytes) k)).foldl (· + ·) 0 else n) 0
/-- PARK_STAT follows the records (Table 12-9). -/
def State.parkRegs (s : State) : State :=
  (List.range 4).foldl (fun s m =>
    let hs := [2 * m, 2 * m + 1]
    s.wrs [(R.NOL.PARK_STAT.RECORDS m, (s.parkList.filter (fun e => (s.halves e.2.2.part).any (fun k => hs.contains k))).length),
      (R.NOL.PARK_STAT.DRAM_MIB m, s.parkMib (fun k => k.dram) hs),
      (R.NOL.PARK_STAT.FLASH_GIB m, s.parkMib (fun k => !k.dram) hs / 1024)]) s
/-- Whether the park areas take a record of partition `p` (R340). -/
def State.parkFits (s : State) (p bytes : Nat) : Bool :=
  !(s.halves p).isEmpty && s.parkAreas.all (fun a =>
    let add := (a.1.map (fun k => unitsOn (s.halves p) (mibs bytes) k)).foldl (· + ·) 0
    add == 0 || decide (s.parkMib (fun k => k.dram) a.1 + add ≤ a.2))
/-- A record's KV moves to flash (R340). -/
def State.demote (s : State) (i : Nat) (k : Park) (o : Obj) : State :=
  ((s.modRoll (fun r => { r with parks := Tab.set none r.parks i (some { k with dram := false }) })).countFlash o.part
    o.bytes).parkRegs
/-- The oldest record of a partition that may move to flash. -/
def State.oldestPark (s : State) (p : Nat) : Option (Nat × Park × Obj) :=
  (s.parkList.filter (fun e => e.2.2.part == p && e.2.1.dram && !e.2.1.held && !e.2.1.lost)).foldl
    (fun b e => match b with | none => some e | some x => if e.2.1.at_ < x.2.1.at_ then some e else some x) none
/-- Records move to flash, oldest first, until the park area takes `bytes` more (R340). -/
def State.makeRoom (s : State) (p bytes : Nat) : Nat → State
  | 0 => s
  | fuel + 1 =>
    if s.parkFits p bytes then s else
    match s.oldestPark p with
    | some (i, k, o) => if s.flashRoom p o.bytes then (s.demote i k o).makeRoom p bytes fuel else s
    | none => s
/-- A park record and its KV are deleted (R335, R341). -/
def State.dropPark (s : State) (t : Nat) : State := ((s.setPark t none).dropObj t).parkRegs

end Sys2Proof.Machine
end

