-- ==== Sys2Proof/Machine/RollCmd.lean ====
section
/-! DEFINITION. The rollout commands and events (chapter 05, R340 to R342). -/
namespace Sys2Proof.Machine

/-! ## The decode-step boundary -/

/-- Whether a waiting command of partition `p` with opcode `op` waits for a boundary. -/
def State.waitsFor (s : State) (p op : Nat) (c : PendCmd) : Bool :=
  c.opcode == op && (match c.kind, s.job c.job with
    | .boundary _ _, some j => j.part == p
    | _, _ => false)
/-- The commands of partition `p` with opcode `op` that wait for the boundary are processed in command order by `act`,
whose answer is the status and the result of the completion (R141, R532). -/
def State.runBoundary (s : State) (p op : Nat) (act : State → Job → Payload → Bool → State × Nat × Nat) : State :=
  let hit := s.host.waiting.filter (s.waitsFor p op)
  let s := { s with host := { s.host with waiting := s.host.waiting.filter (fun c => !s.waitsFor p op c) } }
  hit.foldl (fun s c => match c.kind, s.job c.job with
    | .boundary w f, some j =>
      let (s, st, res) := act s j w f
      s.complete c.port c.fn c.ring ⟨c.tag, st, c.opcode, c.job, res⟩
    | _, _ => s) s

/-- The context that a handle names for a job, if R139 lets it be named. -/
def State.named (s : State) (j : Job) (h : Nat) : Option Nat :=
  let n := h % 2 ^ 14
  let c := s.ctx n
  if c.gen = h / 2 ^ 14 % 2 ^ 18 ∧ c.st ≠ 0 ∧ c.st ≠ 8 ∧ c.part = j.part then some n else none
/-- CANCEL of context `n` in partition `p` (R141, R161, R162, Table 5-1). -/
def State.cancelCtx (s : State) (n : Nat) : State × Nat :=
  let c := s.ctx n
  if c.st = 6 ∨ c.st = 7 ∨ c.stopped.isSome then (s, 0x6007)
  else if s.on (R.ROLL.CTL.RUN_TO_END c.part) then
    (s.setCtx n (if c.st = 5 then { c with st := 6 } else { c with runEnd := true }), 0)
  else (s.setCtx n (c.close 6), 0)
/-- PAUSE of context `n` with a TTL (R141, R167, Table 5-1). -/
def State.pauseCtx (s : State) (n ttl : Nat) : State × Nat :=
  let c := s.ctx n
  if c.st = 6 ∨ c.st = 7 ∨ c.runEnd ∨ c.stopped.isSome then (s, 0x6007)
  else if c.st = 5 then (s.setCtx n { c with st := 7, reason := 7, ttl := ttl, round := none }, 0)
  else (s.setCtx n { c with hold := some ttl }, 0)
/-- A CANCEL at the boundary. -/
def State.cancelNow (s : State) (j : Job) (w : Payload) (_ : Bool) : State × Nat × Nat :=
  match s.named j (fieldOf w.w1 0 32) with
  | some n => let (s, st) := s.cancelCtx n; (s, st, 0)
  | none => (s, 0x6007, 0)
/-- A PAUSE at the boundary; a TTL of 0 breaks Table 5-8. -/
def State.pauseNow (s : State) (j : Job) (w : Payload) (_ : Bool) : State × Nat × Nat :=
  if fieldOf w.w1 32 24 = 0 then (s, 0x6008, 0) else
  match s.named j (fieldOf w.w1 0 32) with
  | some n => let (s, st) := s.pauseCtx n (fieldOf w.w1 32 24); (s, st, 0)
  | none => (s, 0x6007, 0)
/-- Whether an account belongs to a job (Table 14-7, R148). -/
def Job.owns (j : Job) (a : Nat) : Bool := decide (j.acctFirst ≤ a ∧ a < j.acctFirst + j.acctN)
/-- A BUDGET at the boundary (R160). -/
def State.budgetNow (s : State) (j : Job) (w : Payload) (_ : Bool) : State × Nat × Nat :=
  let a := fieldOf w.w1 0 12
  let v := fieldOf w.w2 0 48
  if !j.owns a then (s, 0x6008, 0)
  else if fieldOf w.w1 12 1 = 0 then (s.setBalance a v, 0, 0)
  else
    let t : Int := (s.balance a : Int) + toSigned 48 v
    (s.setBalance a (if t < 0 then 0 else min t.toNat (2 ^ 48 - 1)), 0, 0)

/-- The fields of an ADMIT payload (Table 5-2). -/
structure AdmitF where
  addr : Nat
  plen : Nat
  maxNew : Nat
  acct : Nat
  ring : Nat
  adapter : Nat
  pfx : Nat
  stopset : Nat
  topk : Nat
  keep : Bool
  resume : Bool
  recompute : Bool
  noDraft : Bool
  lpMode : Bool
  temp : Nat
  salt : Nat
  ticket : Nat
  ttl : Nat
  batch : Nat
  rsv : Nat
/-- The fields of the payload of an ADMIT. -/
def admitFields (w : Payload) : AdmitF where
  addr := w.w1.toNat
  plen := fieldOf w.w2 0 23
  maxNew := fieldOf w.w2 23 22
  acct := fieldOf w.w2 45 12
  ring := fieldOf w.w2 57 6
  adapter := fieldOf w.w3 0 16
  pfx := fieldOf w.w3 16 16
  stopset := fieldOf w.w3 32 8
  topk := fieldOf w.w3 40 8
  keep := fieldOf w.w3 48 1 == 1
  resume := fieldOf w.w3 49 1 == 1
  recompute := fieldOf w.w3 50 1 == 1
  noDraft := fieldOf w.w3 51 1 == 1
  lpMode := fieldOf w.w3 52 1 == 1
  temp := fieldOf w.w4 0 32
  salt := fieldOf w.w4 32 28
  ticket := fieldOf w.w5 0 32
  ttl := fieldOf w.w5 32 24
  batch := fieldOf w.w6 0 32
  rsv := fieldOf w.w2 63 1 + fieldOf w.w3 53 11 + fieldOf w.w4 60 4 + fieldOf w.w5 56 8 + fieldOf w.w6 32 32 +
    fieldOf w.w7 0 64
/-- R148, R181 and Table 5-8: what an ADMIT of a job may hold. A resume names no prefix handle (log entry 31). -/
def State.admitOk (s : State) (j : Job) (f : AdmitF) : Bool :=
  f.rsv == 0 && decide (f.plen ≤ 4194303) && f.maxNew != 0 && j.owns f.acct && (s.sring j.part f.ring).isSome &&
  decide (f.temp < 0x7f800000) && (!f.keep || f.ttl != 0) && (f.pfx == 0xffff || decide (f.pfx < 16384)) &&
  !(f.resume && f.pfx != 0xffff) && s.batchOk j.part f.batch

/-- What a resume finds (R168 to R170, R342): 0 the record, or a status. -/
def State.resumeCheck (s : State) (p ver aver : Nat) (f : AdmitF) : Nat :=
  if !f.resume then 0 else
  match s.parkRec f.ticket, s.obj f.ticket with
  | some k, some o =>
    let past : Bool := match o.expiry with | some t => decide (t < s.now) | none => false
    if o.part ≠ p ∨ k.held ∨ past then 0x6005
    else if k.lost then 0x6012
    else if !f.recompute ∧ (k.step ≠ ver ∨ k.adapter ≠ f.adapter ∨ k.aver ≠ aver) then 0x6006
    else 0
  | _, _ => 0x6005
/-- Whether an admission may use the prefix handle it names (R146). -/
def State.prefixOk (s : State) (p ver aver : Nat) (f : AdmitF) : Bool :=
  if f.pfx = 0xffff then true else
  match s.pfx f.pfx with
  | some x => x.part == p && !x.released && x.step == ver && x.adapter == f.adapter && x.aver == aver
  | none => false

/-- An ADMIT at the boundary (R143 to R150, R158, R163, R168, R169). The order in which the refusals are looked for is
that of log entry 31. A refused ADMIT leaves the state as it was, but for the record of ROLL_PARK_LOST. -/
def State.admitNow (s : State) (j : Job) (w : Payload) (dmaFail : Bool) : State × Nat × Nat :=
  let f := admitFields w
  let p := j.part
  let ptr := if f.adapter = 0xffff then none else s.adapterPtr p f.adapter
  let aver := match ptr with | some i => (s.aslot i).ver | none => 0
  let ver := s.batchVer p f.batch
  if !s.admitOk j f then (s, 0x6008, 0)
  else if dmaFail && f.plen != 0 then (s, 0xa005, 0)
  else if (s.liveCtxs p).length ≥ s.rd (R.ROLL.QUOTA.CTX p) then (s, 0x6001, 0)
  else match firstFrom (fun n => (s.ctx n).st == 0) 0 16384 with
    | none => (s, 0x6001, 0)
    | some n =>
      let park := if f.resume then s.parkRec f.ticket else none
      let px := if f.pfx = 0xffff then none else s.pfx f.pfx
      let stored := match park, px with | some k, _ => k.toks | none, some x => x.toks | none, none => []
      let base := stored.length
      let charge := (f.plen * min 16 (s.rd (R.ROLL.CTL.PREFILL_W p)) + 15) / 16
      let rc := s.resumeCheck p ver aver f
      if f.adapter ≠ 0xffff ∧ ptr.isNone then (s, 0x6003, 0)
      else if rc = 0x6012 then ((s.rollErr p 0x6012 2 0 f.adapter).dropPark f.ticket, rc, 0)
      else if rc ≠ 0 then (s, rc, 0)
      else if base + f.plen > 4194303 then (s, 0x6008, 0)
      else if !s.prefixOk p ver aver f then (s, 0x6004, 0)
      else if s.balance f.acct < charge then (s, 0x6002, 0)
      else
        let own := match px with | some x => x.pages | none => []
        let from_ := match px with | some x => x.toks.length | none => 0
        let need := (min (base + f.plen + f.maxNew) 4194304 - from_ + s.pageTok p - 1) / s.pageTok p
        match s.reservePages p need with
        | none => (s, 0x6009, 0)
        | some pages =>
          let prompt := (List.range f.plen).map (fun i => s.hostLE j.port (f.addr + 4 * i) 4)
          let g := (s.ctx n).gen
          let c : Ctx := { Ctx.free g with
            st := 1, part := p, job := j.id, order := s.roll.order, batch := f.batch, acct := f.acct, ring := f.ring,
            stopset := f.stopset, adapter := f.adapter, aver := aver, slot := ptr,
            filled := (if f.recompute && f.resume then 0 else if f.resume then base - 1 else base),
            maps := (if f.pfx = 0xffff then [] else [f.pfx]), pages := own ++ pages, toks := stored ++ prompt,
            hist := (if f.plen = 0 then (match park with | some k => k.hist | none => 0) else 0), prompt := f.plen,
            maxNew := f.maxNew, temp := f.temp, salt := f.salt, topk := f.topk, keep := f.keep, ttl := f.ttl,
            lpMode := f.lpMode, noDraft := f.noDraft,
            resume := (if f.resume && !f.recompute then some f.ticket else none) }
          let s := (s.setCtx n c).modRoll (fun r => { r with order := r.order + 1 })
          let s := s.setBalance f.acct (s.balance f.acct - charge)
          let s := match ptr with | some i => s.setAslot i { s.aslot i with count := (s.aslot i).count + 1 } | none => s
          let s := match park with
            | some k => if f.recompute then s.dropPark f.ticket else s.setPark f.ticket (some { k with held := true })
            | none => s
          let b := s.batchSt p
          let s := if b.open_.any (fun x => x.num == f.batch) then s
            else s.setBatches p { b with open_ := b.open_ ++ [⟨f.batch, false, none⟩] }
          (s, 0, ctxHandle n c)

/-- The emissions of one context's round, and the draft length that follows (R156, R157). -/
def State.emitRound (s : State) (n : Nat) : State :=
  match (s.ctx n).round with
  | none => s
  | some r =>
    let (s, on) := (s.modCtx n (fun c => { c with round := none })).emitAll n r.toks
    if on then s.modCtx n (fun c =>
      if s.noDrafts c then { c with len := 0 } else c.draftUpdate (min 8 (s.rd (R.ROLL.CTL.DRAFT_MAX c.part))) r)
    else s
/-- What a turn's CTX_POLICY asks of a context (Table 6-2, step 2), where that is `what`: 2 CANCEL, 1 PAUSE with PARK_TTL. -/
def State.markNow (s : State) (what n : Nat) : State :=
  let c := s.ctx n
  if c.mark ≠ what then s else
  let s := s.setCtx n { c with mark := 0 }
  if what = 2 then (s.cancelCtx n).1
  else if what = 1 then (s.pauseCtx n (s.rd (R.SCHED.TURN_CTL.PARK_TTL c.part))).1
  else s
/-- DECODE_STEP_BOUNDARY (R141, R160): emissions and stops in ascending context number, then cancellations, pauses,
budgets and admissions; what a turn asks of contexts is a cancellation or a pause, after the commands of its kind (log
entry 165). -/
def State.decodeBoundary (s : State) (p : Nat) : State :=
  if !s.on (R.ROLL.CTL.EN p) then s else
  let s := (s.liveCtxs p).foldl (fun s n => s.emitRound n) s
  let s := (s.liveCtxs p).foldl (fun s n => s.markNow 2 n) (s.runBoundary p 0x61 State.cancelNow)
  let s := (s.liveCtxs p).foldl (fun s n => s.markNow 1 n) (s.runBoundary p 0x62 State.pauseNow)
  let s := (s.runBoundary p 0x63 State.budgetNow).runBoundary p 0x60 State.admitNow
  (s.batchesDone p).stallTick p

/-! ## Posted commands -/

/-- ADMIT is posted: it waits for the boundary (R141, R532); its reserved bits are the engine's to refuse (R148). -/
def State.admitPost (s : State) (post : Post) (dmaFail : Bool) : State :=
  s.gate post 0x60 [-1, -1, -1, -1, -1, -1, -1] (fun s _ => s.await post 0x60 (.boundary post.p dmaFail))
/-- CANCEL is posted (R141). -/
def State.cancelPost (s : State) (post : Post) : State :=
  s.gate post 0x61 [lowMask 32] (fun s _ => s.await post 0x61 (.boundary post.p false))
/-- PAUSE is posted (R141). -/
def State.pausePost (s : State) (post : Post) : State :=
  s.gate post 0x62 [lowMask 56] (fun s _ => s.await post 0x62 (.boundary post.p false))
/-- BUDGET is posted with operation `op`: 0 SET, 1 ADD; an entry with the other operation is not this command. -/
def State.budgetPost (s : State) (post : Post) (op : Nat) : State :=
  if fieldOf post.p.w1 12 1 ≠ op then s else
  s.gate post 0x63 [lowMask 13, lowMask 48] (fun s _ => s.await post 0x63 (.boundary post.p false))

/-- ADAPTER_LOAD (R164): the load waits for a slot. ID 0xFFFF names no adapter. -/
def State.adapterLoad (s : State) (post : Post) : State :=
  s.gate post 0x64 [lowMask 32, lowMask 48, lowMask 40] (fun s j =>
    let w := post.p
    let a := w.w2.toNat
    let n := w.w3.toNat
    let r := if n = 0 then .ok else s.reach (some j.part) a n false
    if fieldOf w.w1 0 16 = 0xffff then s.done post 0x64 0x6008 0
    else if r ≠ .ok then s.refusePost post 0x64 j.part a r
    else s.await post 0x64 (.adapterWait (fieldOf w.w1 0 16) (fieldOf w.w1 16 16) a n))
/-- ADAPTER_LOAD_DISPATCH (R164): the partition's first waiting load takes its lowest FREE slot within the quota. -/
def State.adapterDispatch (s : State) (p : Nat) : State :=
  let mine (c : PendCmd) : Bool := match c.kind, s.job c.job with
    | .adapterWait _ _ _ _, some j => j.part == p
    | _, _ => false
  match s.host.waiting.find? mine, firstFrom (fun i => (s.aslot i).st == 0) 0 1024 with
  | some c, some i =>
    if (s.roll.slots.filter (fun e => e.2.st != 0 && e.2.part == p)).length ≥ s.rd (R.ROLL.QUOTA.ADAPTERS p) then s else
    match c.kind with
    | .adapterWait id ver src n =>
      let s := s.setAslot i ⟨1, p, id, ver, 0, []⟩
      { s with host := { s.host with waiting := mapFirst mine (fun x => { x with kind := .adapterLoading i src n }) s.host.waiting } }
    | _ => s
  | _, _ => s
/-- ADAPTER_LOAD_COMPLETE (R163, R165): the pointer moves, or a poisoned source frees the slot. -/
def State.adapterComplete (s : State) (i : Nat) : State :=
  let x := s.aslot i
  let of (c : PendCmd) : Bool := match c.kind with | .adapterLoading k _ _ => k == i | _ => false
  match s.host.waiting.find? of with
  | none => s
  | some c =>
    match c.kind with
    | .adapterLoading _ src n =>
      if x.st ≠ 1 then s
      else if s.poisoned src n then
        ((s.setAslot i ⟨0, 0, 0, 0, 0, []⟩).rollErr x.part 0x6013 2 0 x.id).finish of 0x6013 0
      else
        let s := match s.adapterPtr x.part x.id with | some k => s.retireSlot k | none => s
        (s.setAslot i { x with st := 2, data := (s.cut src n).data }).finish of 0 0
    | _ => s
/-- ADAPTER_UNLOAD (Table 5-5); an ID without a CURRENT slot is absent (log entry 32). -/
def State.adapterUnload (s : State) (post : Post) : State :=
  s.gate post 0x65 [lowMask 16] (fun s j =>
    match s.adapterPtr j.part (fieldOf post.p.w1 0 16) with
    | some i => (s.retireSlot i).done post 0x65 0 0
    | none => s.done post 0x65 0x6003 0)
/-- PREFIX_CREATE (R145): the KV of the last emitted token is not written yet. -/
def State.prefixCreate (s : State) (post : Post) : State :=
  s.gate post 0x66 [lowMask 54] (fun s j =>
    let m := fieldOf post.p.w1 32 22
    match s.named j (fieldOf post.p.w1 0 32) with
    | none => s.done post 0x66 0x6007 0
    | some n =>
      let c := s.ctx n
      let held := (s.roll.pfxs.filter (fun e => match e.2 with | some x => x.part == j.part | none => false)).length
      match firstFrom (fun h => (s.pfx h).isNone) 0 16384 with
      | none => s.done post 0x66 0x6004 0
      | some h =>
        if (c.st ≠ 5 ∧ c.st ≠ 6) ∨ m % s.pageTok j.part ≠ 0 ∨ m + 1 > c.toks.length ∨
           held ≥ s.rd (R.ROLL.QUOTA.PREFIXES j.part) then s.done post 0x66 0x6004 0
        else ((s.setPfx h (some ⟨j.part, c.toks.take m, c.pages.take (m / s.pageTok j.part), c.step, c.adapter, c.aver,
          false⟩)).setCtx n { c with maps := c.maps ++ [h] }).done post 0x66 0 h)
/-- PREFIX_RELEASE (R147). -/
def State.prefixRelease (s : State) (post : Post) : State :=
  s.gate post 0x67 [lowMask 14] (fun s j =>
    let h := fieldOf post.p.w1 0 14
    match s.pfx h with
    | some x =>
      if x.part ≠ j.part ∨ x.released then s.done post 0x67 0x6004 0
      else ((s.setPfx h (some { x with released := true })).settlePfx h).done post 0x67 0 0
    | none => s.done post 0x67 0x6004 0)
/-- STOPSET_WRITE (Table 5-7): eight end tokens, then four times a length and eight tokens; a length of 1 to 8 gives a
sequence (log entry 33). -/
def State.stopsetWrite (s : State) (post : Post) (dmaFail : Bool) : State :=
  s.gate post 0x68 [lowMask 8, -1] (fun s j =>
    if dmaFail then s.done post 0x68 0xa005 0 else
    let at_ (i : Nat) : Nat := s.hostLE j.port (post.p.w2.toNat + 4 * i) 4
    let seqs := (List.range 4).map (fun k =>
      if 1 ≤ at_ (8 + 9 * k) ∧ at_ (8 + 9 * k) ≤ 8 then (List.range (at_ (8 + 9 * k))).map (fun i => at_ (9 + 9 * k + i)) else [])
    let x : StopSet := ⟨(List.range 8).map at_, seqs.filter (fun q => !q.isEmpty)⟩
    (s.modRoll (fun r => { r with stops := Tab.set ⟨[], []⟩ r.stops (j.part * 256 + fieldOf post.p.w1 0 8) x })).done
      post 0x68 0 0)

/-! ## Contexts -/

/-- CONTEXT_TAKE (R137, R149, R177, R180, R445): in ROLLOUT the prefill pool takes the QUEUED context admitted first; its
batch starts with it, stamped with the pointer's step. -/
def State.contextTake (s : State) (n : Nat) : State :=
  let c := s.ctx n
  let p := c.part
  let b := s.batchSt p
  if c.st ≠ 1 ∨ s.rd (R.SCHED.TURN_STAT.PHASE p) ≠ 1 ∨ !s.on (R.ROLL.CTL.EN p) ∨
     (s.liveCtxs p).any (fun m => (s.ctx m).st == 1 && decide ((s.ctx m).order < c.order)) then s
  else
    let go (s : State) (v : Nat) : State :=
      s.setCtx n { c with st := (if c.resume.isSome then 2 else 3), step := v }
    match b.open_.find? (fun x => x.num == c.batch) with
    | some ⟨_, _, some v⟩ => go s v
    | some _ =>
      if s.housePaused p ∨ !s.on (R.SCHED.WPTR.VALID p) then s else
      let v := s.rd (R.SCHED.WPTR.STEP p)
      go (s.setBatches p { b with open_ := b.open_.map (fun x => if x.num = c.batch then { x with stamp := some v } else x) }) v
    | none => s
/-- RESTORE_COMPLETE (R168, Table 5-1): the stored KV is back, the ticket is consumed. -/
def State.restoreComplete (s : State) (n : Nat) : State :=
  let c := s.ctx n
  match c.st, c.resume with
  | 2, some t =>
    match s.obj t with
    | some o =>
      let s := (s.pastePages c.part o.data o.poison (c.pages.take (o.bytes / s.pageBytes c.part)) 0).dropPark t
      let s := s.setCtx n { c with st := 3, resume := none }
      if c.prompt = 0 then s.enterDecode n else s
    | none => s
  | _, _ => s
/-- KV poison was consumed: the context closes with ERROR and ROLL_KV_POISON is raised (R175, Table 5-1). -/
def State.kvPoison (s : State) (n : Nat) : State :=
  let c := s.ctx n
  (s.setCtx n (c.close 8)).rollErr c.part 0x6010 2 n c.adapter
/-- The sample of a position and its log-probability (R151 to R153). -/
def State.sampleAt (s : State) (c : Ctx) (logits : List (BitVec 32)) (pos : Nat) : Nat × Nat :=
  let l := logits.map (·.toNat)
  let seed := match s.job c.job with | some j => j.seed | none => 0
  let t := sampleToken seed l c.temp c.topk c.salt pos
  (t, logProb l t c.temp c.topk c.lpMode)
/-- Whether logits form a vocabulary (Table 5-8). -/
def vocabOk (l : List (BitVec 32)) : Bool := decide (1 ≤ l.length ∧ l.length ≤ 262144)
/-- A poisoned read from an adapter slot (R166): every context pinned to it closes with ERROR, the slot becomes OLD. -/
def State.adapterPoison (s : State) (i : Nat) : State :=
  let x := s.aslot i
  let hit := (s.roll.ctxs.filter (fun e => e.2.slot == some i && e.2.st != 0)).map (·.1)
  let s := hit.foldl (fun s n => s.modCtx n (fun c => c.close 8)) s
  (if x.st = 2 then s.retireSlot i else s).rollErr x.part 0x6013 2 (hit.headD 0) x.id
/-- PREFILL_COMPLETE (R137, R138, R166, R174): a chunk of at most 65,536 tokens is done, in ascending position order; after the
last one the first token is emitted and the context moves to SHIP. A chunk reads the KV before it, and the adapter's slot. -/
def State.prefillComplete (s : State) (n : Nat) (what : PrefillEnd) (adapterPoison : Bool) : State :=
  let c := s.ctx n
  let left := c.toks.length - c.filled
  let go : Bool := match what with
    | .chunk k => decide (k.val + 1 < left)
    | .first logits => decide (left ≤ 65536) && vocabOk logits
  if c.st ≠ 3 ∨ !go then s
  else if s.kvPoisoned c c.filled then s.kvPoison n
  else if adapterPoison && c.slot.isSome then s.adapterPoison (c.slot.getD 0)
  else match what with
    | .chunk k => s.setCtx n { c with filled := c.filled + k.val + 1 }
    | .first logits =>
      let t := s.sampleAt c logits c.toks.length
      (s.emitTok n (t.1, t.2, false)).1.modCtx n (fun x => { x with st := 4, filled := c.toks.length })
/-- Whether a partition's decode pool is on this module (R137): where the mapping gives its cores no pool, it is. -/
def State.decodeHere (s : State) (p : Nat) : Bool :=
  let l := (s.roll.pools.filter (fun e => s.partOfCore e.1 == some p)).map (·.2)
  l.isEmpty || l.contains 2
/-- Whether a partition's job has a key, under which KV pages cross the fabric (R138). -/
def State.jobKeyed (s : State) (p : Nat) : Bool := match s.jobOf p with | some j => j.keySlot.isSome | none => false
/-- SHIP_COMPLETE (R138): the pages are handed over in place; or the decode pool's module has them, and they are given up
here; or the shipment failed. Pages of another module's context come to the decode pool here, where the region has room, or
leave with that context (log entry 166). -/
def State.shipComplete (s : State) (n : Nat) (how : ShipEnd) : State :=
  let c := s.ctx n
  match how with
  | .here => if c.st ≠ 4 ∨ !s.decodeHere c.part then s else s.enterDecode n
  | .sent m => if c.st ≠ 4 ∨ s.decodeHere c.part ∨ !s.jobKeyed c.part then s
    else (s.setCtx n { c with pages := [], far := some m.toNat }).enterDecode n
  | .failed => if c.st ≠ 4 then s else (s.setCtx n (c.close 8)).rollErr c.part 0x6011 2 n c.adapter
  | .came p m h data =>
    let need := if s.pageBytes p = 0 then 0 else data.length / s.pageBytes p
    let d := Piece.ofMarked data
    match s.reservePages p need with
    | some pages =>
      if !s.jobKeyed p.val ∨ need * s.pageBytes p ≠ data.length ∨ s.roll.lodged.any (fun x => x.src == m.toNat && x.handle == h.toNat) then s
      else (s.modRoll (fun r => { r with lodged := r.lodged ++ [⟨p, m.toNat, h.toNat, pages⟩] })).pastePages p d.data d.pois pages 0
    | none => s
  | .left p m h => s.modRoll (fun r =>
      { r with lodged := r.lodged.filter (fun x => !(x.part == p.val && x.src == m.toNat && x.handle == h.toNat)) })
/-- The tokens of a round: the drafts up to the first that differs from the main model's sample, then that sample (R155). -/
def acceptDrafts : List (Nat × Nat) → List Nat → List (Nat × Nat × Bool)
  | [], _ => []
  | [t], _ => [(t.1, t.2, false)]
  | t :: _, [] => [(t.1, t.2, false)]
  | t :: ts, d :: ds => if d = t.1 then (t.1, t.2, true) :: acceptDrafts ts ds else [(t.1, t.2, false)]
/-- VERIFY_ROUND (R151, R152, R155, R156, R166, R172, R175, R445): the draft model samples as many positions as the draft length
with the stream, salt and positions of the main model, which samples these and the one after; what it emits waits for the boundary. A held context does nothing, and a round that consumed house poison
emits nothing. -/
def State.verifyRound (s : State) (n : Nat) (draft logits : List (List (BitVec 32)))
    (kvPoison adapterPoison housePoison : Bool) : State :=
  let c := s.ctx n
  let l := s.draftLen c
  if (c.st ≠ 5 ∧ c.st ≠ 6) ∨ c.round.isSome ∨ s.heldCtx n ∨ !s.on (R.ROLL.CTL.EN c.part) then s
  else if draft.length ≠ l ∨ logits.length ≠ l + 1 ∨ !logits.all vocabOk ∨ !draft.all vocabOk then s
  else if kvPoison || s.kvPoisoned c (c.toks.length - 1) then s.kvPoison n
  else if adapterPoison && c.slot.isSome then s.adapterPoison (c.slot.getD 0)
  else if housePoison && s.rd R.SEC.HOUSE_CTL.READ / 2 ^ c.part % 2 == 1 then s.houseConsumed
  else
    let ts := (List.range (l + 1)).map (fun i => s.sampleAt c (logits.getD i []) (c.toks.length + i))
    let ds := (List.range l).map (fun i => (s.sampleAt c (draft.getD i []) (c.toks.length + i)).1)
    let out := acceptDrafts ts ds
    let a := out.length - 1
    ((s.setCtx n { c with round := some ⟨l, a, out⟩ }).count (R.ROLL.SPEC_CNT.DRAFTED c.part) l).count
      (R.ROLL.SPEC_CNT.ACCEPTED c.part) a
/-- DRAFT_REPROBE (Table 5-3): after the 64th decode step with drafting off, L is 1. -/
def State.draftReprobe (s : State) (n : Nat) : State :=
  let c := s.ctx n
  if (c.st = 5 ∨ c.st = 6) ∧ c.off ∧ c.offLeft = 0 ∧ c.round.isNone then
    s.setCtx n { c with len := (if s.noDrafts c then 0 else 1), off := false, zeroRun := 0 }
  else s
/-- PARK_COMPLETE (R167, R340): the record and its KV are in the slow tier and the ticket is known, or there was no room. `far`
is the KV of a context whose pages another module holds. -/
def State.parkComplete (s : State) (n : Nat) (far : List (Byte × Bool)) : State :=
  let c := s.ctx n
  let p := c.part
  let count := (c.toks.length + s.pageTok p - 1) / s.pageTok p
  let pages := c.pages.take count
  let bytes := (if c.far.isSome then count else pages.length) * s.pageBytes p
  if c.st ≠ 7 ∨ (c.far.isSome ∧ far.length ≠ bytes) then s else
  let full (s : State) : State :=
    (s.setCtx n { c with st := 8, reason := 8, ticket := 0 }).nolError ((s.halves p).headD 0 / 2) 0x900b 2 p c.job none false
  let s := s.makeRoom p bytes (s.roll.parks.length + 1)
  if !s.parkFits p bytes ∨ s.roll.parks.length ≥ 1048576 then full s else
  let d := if c.far.isSome then Piece.ofMarked far else s.cutPages p pages 0
  match s.newObj (fun g => ⟨g, p, .park, bytes, some (s.now + c.ttl * 32768), true, false, d.data, d.pois, 0, none, []⟩) with
  | none => full s
  | some (s, t) =>
    let s := s.setPark t (some ⟨c.toks, c.hist, c.step, c.adapter, c.aver, bytes / s.pageBytes p, c.ring, s.now, true, false, false⟩)
    (((s.parkRegs.unpin n).modCtx n (fun c => { c with st := 8, ticket := t })).batchesDone p)
/-- CONTEXT_CLOSE (R140, R143, R147, R163, R171): the final record is written, then the pages return and the context is
FREE with the next generation; a full ring delays it. -/
def State.contextClose (s : State) (n : Nat) : State :=
  let c := s.ctx n
  if c.st ≠ 8 then s else
  let f := finalRec n c
  let s := if c.finalSent then s.flushRing c.part c.ring
    else (s.setCtx n { c with finalSent := true }).pushRec c.part c.ring f.1 f.2
  let waits : Bool := match s.sring c.part c.ring with | some x => x.queue.contains f | none => false
  if waits then s else
  let s := match c.resume with | some t => s.dropPark t | none => s
  let s := (s.unpin n).setCtx n (Ctx.free ((c.gen + 1) % 2 ^ 18))
  (c.maps.foldl (fun s h => s.settlePfx h) s).batchesDone c.part
/-- STREAM_RING_ROOM (R172): records that waited are written; the held contexts resume at their next decode step. -/
def State.streamRoom (s : State) (p r : Nat) : State := (s.flushRing p r).stallTick p

/-! ## Park records -/

/-- PARK_DEMOTE (R340, R342): a record parked for DEMOTE_S seconds moves to flash, unless it is held. -/
def State.parkDemote (s : State) (t : Nat) : State :=
  match s.parkRec t, s.obj t with
  | some k, some o =>
    let m := (s.halves o.part).headD 0 / 2
    let older (e : Nat × Option Park) : Bool := match e.2, s.objAt e.1 with
      | some x, some y => x.dram && !x.held && !x.lost && y.part == o.part && decide (x.at_ < k.at_)
      | _, _ => false
    if k.dram && !k.held && !k.lost && !s.roll.parks.any older && !s.programsPaused o.part && s.flashRoom o.part o.bytes &&
       decide (k.at_ + s.rd (R.NOL.PARK_CFG.DEMOTE_S m) * 32768 ≤ s.now) then s.demote (handleIndex t) k o
    else s
  | _, _ => s
/-- PARK_EXPIRY (R170, R341, R342): a record whose instant has come is deleted, unless a resume holds it; PARK_EXPIRED goes
to its ring of the partition's job. -/
def State.parkExpiry (s : State) (t : Nat) : State :=
  match s.parkRec t, s.obj t with
  | some k, some o =>
    match o.expiry with
    | some e => if k.held ∨ s.now < e then s else (s.dropPark t).pushRec o.part k.ring (2 ^ 55) (t * 2 ^ 32)
    | none => s
  | _, _ => s
/-- A park record that a flash read could not deliver (R344): the resume in progress fails with ROLL_PARK_LOST, its context
closes with ERROR and the record is deleted; another record is lost (log entry 34). -/
def State.parkReadFailed (s : State) (t : Nat) : State :=
  match s.parkRec t with
  | none => s
  | some k =>
    match s.roll.ctxs.find? (fun e => e.2.st == 2 && e.2.resume == some t) with
    | some (n, c) =>
      ((s.setCtx n { c.close 8 with resume := none }).dropPark t).rollErr c.part 0x6012 2 n c.adapter
    | none => s.setPark t (some { k with lost := true })
/-- FLASH_PAGE_READ (R344): the read's metadata and code, and the park record that a failed read was for. -/
def State.flashRead (s : State) (m ch b : Nat) (how : PageRead) (park : Option (BitVec 32)) : State :=
  let s := s.pageRead m ch b how
  match how, park with
  | .failed, some t => s.parkReadFailed t.toNat
  | _, _ => s

/-! ## Enabling -/

/-- ROLL_CONFIG (Table 5-9): what ROLL.CTL.EN = 1 requires. Quotas are summed over the enabled partitions; a reserved TOK
is refused with them (log entry 35). -/
def State.rollConfigOk (s : State) (p : Nat) : Bool :=
  let sum (f : Nat → Nat) : Nat :=
    ((List.range 8).map (fun q => if q = p ∨ s.on (R.ROLL.CTL.EN q) then f q else 0)).foldl (· + ·) 0
  s.inHbm p (s.kvRange p) && decide (s.rd (R.ROLL.CTL.DRAFT_MAX p) ≤ 8) && s.rd (R.ROLL.PAGE_CFG.TOK p) != 3 &&
  decide (sum (fun q => s.rd (R.ROLL.QUOTA.CTX q)) ≤ 16384) && decide (sum (fun q => s.rd (R.ROLL.QUOTA.ADAPTERS q)) ≤ 1024) &&
  decide (sum (fun q => s.rd (R.ROLL.QUOTA.PREFIXES q)) ≤ 16384)
/-- ROLL_ENABLE (R142, R176). -/
def State.rollEnable (s : State) (p : Nat) : State :=
  if s.rollConfigOk p then s.wr (R.ROLL.CTL.EN p) 1 else s.rollErr p 0x6014 3 0 0
/-- Every context of a partition closes with reason ABORT (R176, Table 5-1). -/
def State.rollAbort (s : State) (p : Nat) : State :=
  (s.liveCtxs p).foldl (fun s n => s.modCtx n (fun c => c.close 9)) s
/-- ROLL_DISABLE (R176). -/
def State.rollDisable (s : State) (p : Nat) : State := (s.wr (R.ROLL.CTL.EN p) 0).rollAbort p

end Sys2Proof.Machine
end

