-- ==== Sys2Proof/Machine/Coll.lean ====
section
/-! DEFINITION. The collective engine (chapter 07): the group table (R210, R211), posting (R215, R219), admission (R218,
R220), the data of a collective (R216, R217, R224 to R229), failures and agreement (R236 to R242). -/
namespace Sys2Proof.Machine

/-! ## The group table -/

/-- A group table entry (Table 7-1). -/
structure GroupEnt where
  n : Nat
  rank : Nat
  cred : Nat
  valid : Bool
  sbuf : Nat
  timeout : Nat
  members : Nat
/-- Entry `g` of a partition's group table (R210). -/
def State.groupEnt (s : State) (p g : Nat) : GroupEnt :=
  let a := (s.gtabRange p).1 + g * 32
  let w0 : Word := BitVec.ofNat 64 (s.le a 8)
  let w1 : Word := BitVec.ofNat 64 (s.le (a + 8) 8)
  ⟨fieldOf w0 0 16 + 1, fieldOf w0 16 16, fieldOf w0 32 4 + 1, fieldOf w0 36 1 == 1, fieldOf w1 0 9, fieldOf w1 16 32,
    s.le (a + 16) 6⟩
/-- The entries of a partition's table that are not all zero. -/
def State.groupsOf (s : State) (p : Nat) : List Nat :=
  let b := (s.gtabRange p).1
  ((s.mem.filter (fun e => decide (b ≤ e.1) && decide (e.1 < b + 0x20000))).map (fun e => (e.1 - b) / 32)).dedup
/-- The valid groups of a partition that holds a job, or of partition `q` (R211). -/
def State.validGroups (s : State) (q p : Nat) : List GroupEnt :=
  if p = q ∨ (s.jobOf p).isSome then ((s.groupsOf p).map (s.groupEnt p)).filter (·.valid) else []
/-- Module ID of a rank of a group. -/
def State.memberOf (s : State) (p g r : Nat) : Nat := s.le ((s.groupEnt p g).members + 2 * r) 2
/-- R211 for partition `p` beside the others: credits, quotas and group 0's share for a Carve. -/
def State.collConfigOk (s : State) (p : Nat) : Bool :=
  let l := (List.range 8).flatMap (s.validGroups p)
  decide ((l.map (·.cred)).foldl (· + ·) 0 ≤ 64) && decide ((l.map (·.sbuf)).foldl (· + ·) 0 ≤ 256) &&
  decide (s.rd (R.SCHED.CARVE_CFG.STAGE_MIB p) ≤ (s.groupEnt p 0).sbuf)

/-! ## Access -/

/-- The collective engine changed by `f`. -/
def State.modEng (s : State) (f : CollEng → CollEng) : State := { s with coll := f s.coll }
/-- A group's state. -/
def State.grp (s : State) (p g : Nat) : GrpSt := Tab.get ⟨0, 0, false⟩ s.coll.groups (p * 4096 + g)
/-- A group's state replaced. -/
def State.setGrp (s : State) (p g : Nat) (x : GrpSt) : State :=
  s.modEng (fun e => { e with groups := Tab.set ⟨0, 0, false⟩ e.groups (p * 4096 + g) x })
/-- Whether a collective has a name. -/
def Coll.is (c : Coll) (p g q : Nat) : Bool := c.part == p && c.group == g && c.seq == q
/-- A collective by its name. -/
def State.collAt (s : State) (p g q : Nat) : Option Coll := s.coll.colls.find? (fun c => c.is p g q)
/-- A collective replaced; of two posts of one name, which R214 leaves to the program, the first. -/
def State.setColl (s : State) (x : Coll) : State :=
  s.modEng (fun e => { e with colls := mapFirst (fun c => c.is x.part x.group x.seq) (fun _ => x) e.colls })
/-- A collective leaves the engine: its credit and share are released (Table 7-5). -/
def State.dropColl (s : State) (x : Coll) : State :=
  s.modEng (fun e => { e with colls := e.colls.eraseP (fun c => c.is x.part x.group x.seq) })
/-- The level at which a member is reached (Table 7-14): 0 this package, 1 the tray, 2 the rack, 3 the system. -/
def State.peerLevel (s : State) (m : Nat) : Nat :=
  if m = s.moduleId then 0 else if m / 8 = s.moduleId / 8 then 1 else if m / 64 = s.moduleId / 64 then 2 else 3
/-- A COLL code (R229, Table 7-10): COLL.ERR, ERR_PEER with the member at fault where there is one, the event, and for a contained
class the reset of the job. -/
def State.collErr (s : State) (p g q code cls : Nat) (peer : Option Nat) : State :=
  let s := s.recErr (R.COLL.ERR.VALID p) (R.COLL.ERR.OVERRUN p)
    [(R.COLL.ERR.CODE p, code), (R.COLL.ERR.GROUP p, g), (R.COLL.ERR.SEQ p, q),
     (R.COLL.ERR_PEER.PEER p, peer.getD 0), (R.COLL.ERR_PEER.LEVEL p, peer.elim 0 s.peerLevel)]
  if cls = 3 then s.contained code p (s.jobId p) 0xffff none else s.event code cls p (s.jobId p) 0xffff none
/-- Whether the job of a partition goes on: it exists and is not reset. -/
def State.jobRuns (s : State) (p : Nat) : Bool := match s.jobOf p with | some j => !j.reset | none => false

/-! ## Descriptors -/

/-- A descriptor's fields (Table 7-3). -/
def collDesc (w : Payload) : CollDesc where
  kind := fieldOf w.w0 0 4
  op := fieldOf w.w0 4 2
  exact_ := fieldOf w.w0 6 1 == 1
  noise := fieldOf w.w0 7 1 == 1
  ifmt := fieldOf w.w0 8 4
  chunk := fieldOf w.w0 12 4
  root := fieldOf w.w0 16 16
  contrib := fieldOf w.w0 32 16 + 1
  src := fieldOf w.w1 0 48
  dst := fieldOf w.w2 0 48
  elems := fieldOf w.w3 0 40
  cstride := fieldOf w.w4 0 48
  cw := fieldOf w.w5 0 48
  rsv := fieldOf w.w0 48 16 + fieldOf w.w1 48 16 + fieldOf w.w2 48 16 + fieldOf w.w3 40 24 + fieldOf w.w4 48 16 +
    fieldOf w.w5 48 16 + fieldOf w.w6 0 64 + fieldOf w.w7 0 64
/-- The descriptor at a local address. -/
def State.readDesc (s : State) (a : Nat) : CollDesc :=
  let w (i : Nat) : Word := BitVec.ofNat 64 (s.le (a + 8 * i) 8)
  collDesc ⟨w 0, w 1, w 2, w 3, w 4, w 5, w 6, w 7⟩
/-- Whether a collective reduces elements. -/
def CollDesc.reduces (d : CollDesc) : Bool := d.kind == 2 || d.kind == 3 || d.kind == 4
/-- Whether a collective carries data. -/
def CollDesc.carries (d : CollDesc) : Bool := d.reduces || d.kind == 1 || d.kind == 5
/-- The format of an input element. -/
def CollDesc.fmt (d : CollDesc) : Fmt := (Fmt.ofCode d.ifmt).getD .w40
/-- Bytes of an input element in memory (R216). -/
def CollDesc.inBytes (d : CollDesc) : Nat := if d.ifmt = 6 then 2 else if d.ifmt = 9 then 8 else 4
/-- Bytes of an output element in memory (R216). -/
def CollDesc.outBytes (d : CollDesc) : Nat := if d.op = 0 then 8 else d.inBytes
/-- Elements or bytes of a chunk. -/
def CollDesc.chunkLen (d : CollDesc) : Nat := 2 ^ ((if d.reduces then 9 else 12) + d.chunk)
/-- Chunks of one member's input (R217). -/
def CollDesc.chunks (d : CollDesc) : Nat := (d.elems + d.chunkLen - 1) / d.chunkLen
/-- Bytes that an element takes on the wire (R218, R231). -/
def CollDesc.wire (d : CollDesc) : Nat :=
  if !d.reduces then 1 else if d.op ≠ 0 then d.fmt.width / 8 else if d.exact_ then 18 else 5
/-- Whether a collective takes the small path (R231). -/
def CollDesc.small (d : CollDesc) : Bool := decide (d.elems * d.wire ≤ 256)
/-- Bytes of a chunk as the share counts it (R218). -/
def CollDesc.chunkWire (d : CollDesc) : Nat := d.chunkLen * d.wire + 80
/-- The output chunks of rank `r` of `n` (R217). -/
def CollDesc.outChunks (d : CollDesc) (n r : Nat) : List Nat :=
  let c := d.chunks
  match d.kind with
  | 1 => List.range c
  | 2 => if r = d.root then List.range c else []
  | 3 => List.range c
  | 4 => let p := (c + n - 1) / n; List.range' (r * p) (min ((r + 1) * p) c - r * p)
  | 5 => List.range (n * c)
  | _ => []
/-- COLL_DESC_INVALID (Table 7-10) but for the share: reserved values, limits, R226, PERMUTE. -/
def CollDesc.ok (d : CollDesc) (n : Nat) : Bool :=
  d.rsv == 0 && decide (d.kind ≤ 6) && d.op != 3 && decide (d.chunk ≤ 10) && d.cw % 32 == 0 &&
  (!d.carries || (d.elems != 0 && decide (d.chunks * (if d.kind = 5 then n else 1) ≤ 16777216))) &&
  (!(d.kind == 1 || d.kind == 2) || decide (d.root < n)) &&
  (if d.reduces then
    (d.ifmt == 6 || d.ifmt == 8 || d.ifmt == 9 || (d.ifmt == 10 && d.op != 0)) &&
    (!d.exact_ || (d.op == 0 && decide (n * d.contrib ≤ 2 ^ 26))) && (!d.noise || (d.op == 0 && d.kind != 2))
   else !d.exact_ && !d.noise)
/-- A descriptor without data. -/
def CollDesc.empty (kind : Nat) : CollDesc := ⟨kind, 0, false, false, 0, 0, 0, 1, 0, 0, 0, 0, 0, 0⟩
/-- The own chunks a member sends: its inputs to a reduction or gather, the root's to a broadcast. -/
def CollDesc.ownChunks (d : CollDesc) (me : Nat) : List Nat :=
  if d.reduces || d.kind == 5 || (d.kind == 1 && d.root == me) then List.range d.chunks else []

/-! ## The data of a collective -/

/-- Members and own rank of a collective: of its group, or of the gather group of a gather, in which a member without a piece
has no rank (R194, R209). -/
def State.ranks (s : State) (c : Coll) : Nat × Nat :=
  match c.gather with
  | some t => (t.members.length, (t.members.findIdx? (· == s.moduleId)).getD t.members.length)
  | none => let e := s.groupEnt c.part c.group; (e.n, e.rank)
/-- Whether chunk `k` of the own input is ready (R215). -/
def Coll.isReady (c : Coll) (k : Nat) : Bool := c.allReady || c.ready.any (fun r => decide (r.1 ≤ k) && decide (k < r.1 + r.2))
/-- The elements (or bytes) of input chunk `k`, as (first, count). -/
def CollDesc.span (d : CollDesc) (k : Nat) : Nat × Nat := (k * d.chunkLen, min d.chunkLen (d.elems - k * d.chunkLen))
/-- Element `e` of contribution `j` at this member, with its poison. -/
def State.contribAt (s : State) (d : CollDesc) (j e : Nat) : Nat × Bool :=
  let a := d.src + j * d.cstride + e * d.inBytes
  (s.le a d.inBytes % 2 ^ d.fmt.width, s.hubBad a d.inBytes)
/-- An input element widened exactly to W40 (R216). -/
def widenW40 (d : CollDesc) (bits : Nat) : Nat := w40 (d.fmt.decode bits)
/-- The member's own part of element `e` outside the exact mode: its tree (R224), else its MAX or MIN (R227). -/
def State.ownPart (s : State) (d : CollDesc) (e : Nat) : Nat × Bool :=
  let cs := (List.range d.contrib).map (fun j => s.contribAt d j e)
  let bad := cs.any (·.2)
  if d.op = 0 then (tree (cs.map (fun x => widenW40 d x.1)), bad) else (extremum d.fmt (d.op == 1) (cs.map (·.1)), bad)
/-- What this member gives for chunk `k`: in exact mode every contribution, else its part; bytes for the other kinds. -/
def State.ownData (s : State) (d : CollDesc) (k : Nat) : List (List (Nat × Bool)) :=
  let (lo, n) := d.span k
  let es := List.range' lo n
  if !d.reduces then [es.map (fun i => ((s.byte (d.src + i)).toNat, s.hubBad (d.src + i) 1))]
  else if d.exact_ then (List.range d.contrib).map (fun j => es.map (fun e => s.contribAt d j e))
  else [es.map (fun e => s.ownPart d e)]
/-- The local ranges of chunk `k` of this member's input. -/
def CollDesc.sources (d : CollDesc) (k : Nat) : List Rng :=
  let (lo, n) := d.span k
  if !d.reduces then [(d.src + lo, n)]
  else (List.range d.contrib).map (fun j => (d.src + j * d.cstride + lo * d.inBytes, n * d.inBytes))
/-- Lists of elements as a part holds them. -/
def toWords (ls : List (List (Nat × Bool))) : List (List (Word × Bool)) :=
  ls.map (fun l => l.map (fun v => (BitVec.ofNat 64 v.1, v.2)))
/-- The lists of elements of a part. -/
def CollPart.lists (x : CollPart) : List (List (Nat × Bool)) := x.vals.map (fun l => l.map (fun v => (v.1.toNat, v.2)))
/-- The part of chunk `k` over exactly `n` ranks from `lo` on. -/
def Coll.partAt (c : Coll) (k lo n : Nat) : Option CollPart := c.got.find? (fun x => x.chunk == k && x.lo == lo && x.n == n)
/-- Column `i` of lists of elements. -/
def column (ls : List (List (Nat × Bool))) (i : Nat) : List (Nat × Bool) := ls.map (fun l => l.getD i (0, false))
/-- The members of a list of own partials: in exact mode the exact sums of the contributions, rounded once (R235). -/
def CollDesc.partials (d : CollDesc) (ls : List (List (Nat × Bool))) : List (Nat × Bool) :=
  if d.exact_ then (List.range ((ls.headD []).length)).map (fun i =>
    let cs := column ls i
    (exactPartial (cs.map (fun x => d.fmt.decode x.1)), cs.any (·.2)))
  else ls.headD []
/-- The chunks of the member's own input that are ready and not yet taken (R215). -/
def Coll.fresh (c : Coll) (me : Nat) : List Nat := (c.desc.ownChunks me).filter (fun k => c.isReady k && (c.partAt k me 1).isNone)
/-- The package stage (R222): the member's part of a ready chunk is formed, and with NOISE its squares are taken (R235). -/
def State.capture (s : State) (c : Coll) (me : Nat) : Coll :=
  (c.fresh me).foldl (fun c k =>
    let ls := s.ownData c.desc k
    let scale := match c.gather with | some t => s.le t.scaleAt 4 | none => 0
    { c with got := c.got ++ [⟨k, me, 1, scale, toWords ls⟩],
             small := if c.desc.noise then (c.desc.partials ls).foldl (fun a x => noiseEnter a x.1 x.2) c.small else c.small }) c
/-- Two partials of one chunk added element by element (R87). -/
def addParts (a b : List (Nat × Bool)) : List (Nat × Bool) :=
  (a.zip b).map (fun x => (addW40 (x.1.1 % 2 ^ 40) (x.2.1 % 2 ^ 40), x.1.2 || x.2.2))
/-- The subtree of `n` ranks from `lo` on of a chunk (R224, R225): a partial that a level brought, or its two halves; `fuel` bounds
the depth. -/
def Coll.subtree (c : Coll) (k : Nat) : Nat → Nat → Nat → Option (List (Nat × Bool))
  | 0, lo, n => (c.partAt k lo n).map (fun x => x.lists.headD [])
  | fuel + 1, lo, n =>
    match c.partAt k lo n with
    | some x => some (x.lists.headD [])
    | none =>
      if n ≤ 1 then none else
      let h := 2 ^ Nat.log2 (n - 1)
      match c.subtree k fuel lo h, c.subtree k fuel (lo + h) (n - h) with
      | some a, some b => some (addParts a b)
      | _, _ => none
/-- The reduced elements of chunk `k` over `n` ranks once what they need is there (R224 to R228): the tree, in exact mode one
reduction over all contributions of all ranks, for MAX and MIN parts that together hold every rank. -/
def Coll.reduced (c : Coll) (n k : Nat) : Option (List (Nat × Bool)) :=
  let d := c.desc
  let m := (d.span k).2
  if d.op = 0 ∧ !d.exact_ then c.subtree k (Nat.log2 n + 1) 0 n
  else
    let ps := c.got.filter (fun x => x.chunk == k)
    if !(List.range n).all (fun r => ps.any (fun x => decide (x.lo ≤ r) && decide (r < x.lo + x.n))) then none
    else
      let ls := ps.flatMap CollPart.lists
      some ((List.range m).map (fun i =>
        let cs := column ls i
        (if d.op = 0 then exactSum (cs.map (fun x => d.fmt.decode x.1)) else extremum d.fmt (d.op == 1) (cs.map (·.1)),
         cs.any (·.2))))
/-- Bytes that carry their poison, from elements of `n` bytes. -/
def elemBytes (n : Nat) (es : List (Nat × Bool)) : List (Byte × Bool) := es.flatMap (fun x => (leBytes n x.1).map (fun b => (b, x.2)))
/-- A gathered F8 element widened to BF16 (R77, R195); a quotient by a zero or infinite scale, which the spec does not state, is an
open function of the two (log entry 148). -/
def widenPiece (f8b : Bool) (scale code : Nat) : Nat :=
  match f8Over (if f8b then .f8b else .f8a) scale code with
  | some v => (Fmt.bf16.round (.rne false) false v).bits
  | none => Fmt.bf16.openBits (Config.openValue [195, if f8b then 1 else 0, scale, code]).toNat
/-- The output of chunk `k` of a collective of `n` ranks once its data is there: the elements of a reduction, and the writes as
(address, bytes with their poison). -/
def Coll.output (c : Coll) (n k : Nat) : Option (List (Nat × Bool) × List (Nat × List (Byte × Bool))) :=
  let d := c.desc
  if d.reduces then (c.reduced n k).map (fun es => (es, [(d.dst + (d.span k).1 * d.outBytes, elemBytes d.outBytes es)]))
  else
    let r := if d.kind = 1 then d.root else k / d.chunks
    let q := if d.kind = 1 then k else k % d.chunks
    (c.partAt q r 1).map (fun x =>
      let bs := x.lists.headD []
      let at_ := (if d.kind = 5 then r * d.elems else 0) + (d.span q).1
      match c.gather with
      | some t =>
        if t.widen then ([], [(d.dst + 2 * at_, elemBytes 2 (bs.map (fun b => (widenPiece t.f8b x.scale b.1, b.2))))])
        else ([], [(d.dst + at_, elemBytes 1 bs), (t.scalesTo + 4 * r, elemBytes 4 [(x.scale, false)])])
      | none => ([], [(d.dst + at_, elemBytes 1 bs)]))
/-- The completion word of a chunk (Table 7-7), where the collective has a status address. -/
def State.collWord (s : State) (c : Coll) (k : Nat) : State :=
  if c.desc.cw = 0 ∧ c.core.isNone then s
  else s.hubPaste c.part (c.desc.cw + 32 + 8 * k) 8 (.ofBytes (leBytes 8 (c.seq + k % 2 ^ 24 * 2 ^ 32 + 2 ^ 63)))
/-- The outputs of chunks whose data is there are written, in order, each before its completion word (R229); with NOISE the squares
of this member's shard are taken (R235). -/
def State.collWrite (s : State) (c : Coll) (n me : Nat) : List Nat → State × Coll
  | [] => (s, c)
  | k :: t =>
    if c.out.contains k then s.collWrite c n me t else
    match c.output n k with
    | none => s.collWrite c n me t
    | some (es, ws) =>
      let mine := c.desc.noise && (({ c.desc with kind := 4 } : CollDesc).outChunks n me).contains k
      let bad := c.poison || ws.any (fun w => w.2.any (·.2))
      let c := { c with out := c.out ++ [k], poison := bad, big := if mine then es.foldl (fun a x => noiseEnter a x.1 x.2) c.big else c.big }
      let s := ws.foldl (fun (s : State) w => s.hubPaste c.part w.1 w.2.length (.ofMarked w.2)) s
      (s.collWord c k).collWrite c n me t
/-- A RUNNING collective goes on: its own part is taken, outputs are written, and with its own part complete it enters CLOSING
with code 0 (Table 7-5). A SNAPSHOT waits for the fabric writes of its partition's cores (R234). -/
def State.collGo (s : State) (p g q : Nat) : State :=
  match s.collAt p g q with
  | none => s
  | some c =>
    if c.st ≠ .running ∨ c.internal ∨ !s.jobRuns p then s else
    let (n, me) := s.ranks c
    let outs := if me < n then c.desc.outChunks n me else []
    let own := if me < n then c.desc.ownChunks me else []
    let read := if me < n then ((c.fresh me).flatMap c.desc.sources).foldl (fun (s : State) r => s.hubTouch p r) s else s
    let (s, c) := read.collWrite (if me < n then s.capture c me else c) n me outs
    let fenced := c.desc.kind != 6 || !s.chip.remotes.any (fun r => s.partOfCore r.core == some p)
    if outs.all (fun k => c.out.contains k) && own.all c.isReady && fenced then s.setColl { c with st := .closing, code := 0 }
    else s.setColl c
/-- Every RUNNING collective of a partition goes on. -/
def State.collPoke (s : State) (p : Nat) : State :=
  (s.coll.colls.filter (fun c => c.part == p)).foldl (fun s c => s.collGo p c.group c.seq) s
/-- A collective enters CLOSING with a code and the member at fault, unless it is there. -/
def State.collFail (s : State) (c : Coll) (code : Nat) (peer : Option Nat) : State :=
  if c.st = .closing then s else s.setColl { c with st := .closing, code := code, peer := peer }

/-! ## Posting -/

/-- Sequence `a` precedes `b` (R213). -/
def seqBefore (a b : Nat) : Bool := batchLower a b
/-- The posted collectives that are HELD. -/
def State.heldPosts (s : State) : Nat := (s.coll.colls.filter (fun c => c.st == .held)).length
/-- A posted predecessor lets held collectives of the group on, one sequence after another (R219). -/
def State.unhold (s : State) (p g : Nat) : Nat → State
  | 0 => s
  | fuel + 1 =>
    let x := s.grp p g
    match s.collAt p g x.expect with
    | some c => ((if c.st = .held then s.setColl { c with st := .queued } else s).setGrp p g
        { x with expect := (x.expect + 1) % 2 ^ 32 }).unhold p g fuel
    | none => s
/-- A collective is posted: HELD until its predecessor is posted, with the READYs that came before it (R215, R219). -/
def State.postColl (s : State) (c : Coll) : State :=
  let mine (e : Nat × Nat × Nat × Nat × Nat) : Bool := e.1 == c.part && e.2.1 == c.group && e.2.2.1 == c.seq
  let ready := (s.coll.early.filter mine).map (fun e => e.2.2.2)
  let x := s.grp c.part c.group
  let st := if c.seq = x.expect then .queued else if seqBefore c.seq x.expect then .queued else .held
  (s.modEng (fun e => { e with colls := e.colls ++ [{ c with st := st, ready := ready, since := s.uptime }],
                               early := e.early.filter (fun y => !mine y) })).unhold c.part c.group (s.coll.colls.length + 1)
/-- A collective as posted. -/
def newColl (p job g q : Nat) (core : Option Nat) (d : CollDesc) (allReady : Bool) : Coll :=
  { part := p, job := job, group := g, seq := q, core := core, desc := d, internal := false, allReady := allReady, ready := [],
    st := .queued, share := 0, credit := false, code := 0, peer := none, got := [], out := [], reqs := [], stale := false,
    poison := false, small := noiseZero, big := noiseZero, since := 0, gather := none, acked := [], resent := [] }

/-- Whether the head of a post queue waits (R219). -/
def State.postWaits (s : State) (p : Nat) (r : PostReq) : Bool :=
  let x := s.grp p r.group
  !r.ready && ((seqBefore x.expect r.seq && decide ((r.seq + 2 ^ 32 - x.expect) % 2 ^ 32 > 1024)) ||
    (r.seq != x.expect && seqBefore x.expect r.seq && decide (s.heldPosts ≥ 256)))
/-- The engine takes a request of core `c` in partition `p` (R215, Table 7-10). -/
def State.takePost (s : State) (c p : Nat) (r : PostReq) : State :=
  if r.ready then
    match s.collAt p r.group r.seq with
    | some x => (s.setColl { x with ready := x.ready ++ [(r.first, r.count)] }).collGo p r.group r.seq
    | none => s.modEng (fun e => { e with early := e.early ++ [(p, r.group, r.seq, r.first, r.count)] })
  else if !s.on (R.COLL.CTL.EN p) ∨ !(s.groupEnt p r.group).valid then s.collErr p r.group r.seq 0x4007 3 none
  else
    let q := s.reach (some p) r.addr 64 false
    if !q.passes then s.refuseHub p r.addr q
    else if s.hubBad r.addr 64 then (s.hubTouch p (r.addr, 64)).poisonControl p
    else (s.hubTouch p (r.addr, 64)).postColl (newColl p (s.jobId p) r.group r.seq (some c) (s.readDesc r.addr) r.allReady)
/-- A core's post queue (R215). -/
def State.postQueue (s : State) (c : Nat) : List PostReq := Tab.get [] s.coll.queues c
/-- Requests at the heads of the post queues are taken until every head waits; `fuel` bounds them. -/
def State.pump (s : State) : Nat → State
  | 0 => s
  | fuel + 1 =>
    match s.coll.queues.find? (fun e => match s.partOfCore e.1, e.2 with
        | some p, r :: _ => !s.postWaits p r
        | _, _ => false) with
    | some (c, r :: t) =>
      ((s.modEng (fun e => { e with queues := Tab.set [] e.queues c t })).takePost c ((s.partOfCore c).getD 0) r).pump fuel
    | _ => s
/-- The queues are served as far as they can be. -/
def State.pumpAll (s : State) : State := s.pump ((s.coll.queues.map (fun e => e.2.length)).foldl (· + ·) 0)

/-! ## The COLL instruction -/

/-- Issues a COLL instruction (Table 7-2): fields are checked, and `k` gets the request. With the post queue full the
instruction stalls. -/
def State.collIssue (s : State) (c : Nat) (w0 w1 : Word) (op : Nat) : State :=
  if !s.issues c then s
  else if fieldOf w0 0 4 ≠ 6 ∨ fieldOf w0 4 2 ≠ 1 then s.issue c 1 (fun s pc => s.coreFault c 0x1001 3 0 pc true)
  else if fieldOf w0 6 2 ≤ 1 ∧ fieldOf w0 6 2 ≠ op then s
  else if fieldOf w0 6 2 > 1 ∨ fieldOf w0 9 3 ≠ 0 ∨ fieldOf w0 44 20 ≠ 0 ∨ fieldOf w1 32 32 ≠ 0 then
    s.issue c 2 (fun s pc => s.illegal c pc)
  else if (s.postQueue c).length ≥ 8 then s
  else s.issue c 2 (fun s _ =>
    let seq := ((s.sreg c (fieldOf w0 24 5)).toNat + fieldOf w1 0 32) % 2 ^ 32
    let r : PostReq := ⟨op == 1, fieldOf w0 12 12, seq, (s.sreg c (fieldOf w0 29 5)).toNat % 2 ^ 48,
      fieldOf w0 8 1 == 1, (s.sreg c (fieldOf w0 34 5)).toNat, (s.sreg c (fieldOf w0 39 5)).toNat + 1⟩
    (s.modEng (fun e => { e with queues := Tab.set [] e.queues c (s.postQueue c ++ [r]) })).pumpAll)
/-- The KIND that a core's POST would post: of the descriptor it names, none where that cannot be read. -/
def State.postKind (s : State) (c : Nat) (w0 : Word) : Option Nat :=
  let a := (s.sreg c (fieldOf w0 29 5)).toNat % 2 ^ 48
  match s.partOfCore c with
  | some p => if s.reach (some p) a 64 false = .ok && !s.hubBad a 64 then some (s.readDesc a).kind else none
  | none => none
/-- A collective of kind `kind` is posted by a core or by the work scheduler. A core's POST of another kind of Table 7-4 is
that kind's command. -/
def State.postKinded (s : State) (kind : Nat) (by_ : Poster) : State :=
  match by_ with
  | .core c w0 w1 =>
    match s.postKind c w0 with
    | some k => if k ≤ 7 ∧ k ≠ kind ∧ fieldOf w0 0 8 = 0x16 then s else s.collIssue c w0 w1 0
    | none => s.collIssue c w0 w1 0
  | .sched p q d =>
    let d := collDesc d
    if d.kind ≠ kind ∨ !s.jobRuns p.val ∨ (s.collAt p.val 0 q.toNat).isSome ∨ !(s.groupEnt p.val 0).valid then s
    else (s.postColl (newColl p.val (s.jobId p.val) 0 q.toNat none d true)).pumpAll

/-! ## Admission and agreement -/

/-- Credits that a group's collectives hold. -/
def State.creditsUsed (s : State) (p g : Nat) : Nat :=
  (s.coll.colls.filter (fun c => c.part == p && c.group == g && c.credit)).length
/-- Stage-buffer MiB that a group's collectives hold (R193, R218). -/
def State.shareUsed (s : State) (p g : Nat) : Nat :=
  ((s.coll.colls.filter (fun c => c.part == p && c.group == g)).map (·.share)).foldl (· + ·) 0
/-- Collectives admitted on the module. -/
def State.admittedColls (s : State) : Nat := (s.coll.colls.filter (·.credit)).length
/-- The share that a collective reserves at admission (R218); a TURN reserves for its Carve when that starts (R193). -/
def State.shareOf (s : State) (c : Coll) : Nat :=
  let e := s.groupEnt c.part c.group
  if !c.desc.carries || c.desc.small then 0 else e.sbuf / e.cred
/-- Whether a descriptor is invalid (Table 7-10): its own fields, or a share under two chunks. -/
def State.badDesc (s : State) (c : Coll) : Bool :=
  let d := c.desc
  (!c.internal && !d.ok (s.ranks c).1) || (d.carries && !d.small && decide (s.shareOf c * 2 ^ 20 < 2 * d.chunkWire))
/-- Whether a QUEUED collective could be admitted now (R121, R218 to R220; 16 at most while the hub is hot, R496): its predecessors
are admitted, and a credit and its share are free. A REDUCE_SCATTER is held while a batch of its partition is replayed (log
entry 163). -/
def State.admissible (s : State) (c : Coll) : Bool :=
  let e := s.groupEnt c.part c.group
  let x := s.grp c.part c.group
  c.st == .queued && (c.seq == x.next || seqBefore c.seq x.next) && decide (s.creditsUsed c.part c.group < e.cred) &&
  decide (s.admittedColls < (if s.on R.THM.STAT.HUB_HOT then 16 else 64)) && s.jobRuns c.part &&
  !(c.desc.kind == 4 && (s.trn' c.part).replay.isSome) &&
  (s.badDesc c || s.shareOf c == 0 || decide (s.shareUsed c.part c.group + s.shareOf c ≤ e.sbuf))
/-- The order of admissions (R221): partition, group, sequence. -/
def Coll.earlier (a b : Coll) : Bool :=
  decide (a.part < b.part) || (a.part == b.part && (decide (a.group < b.group) || (a.group == b.group && seqBefore a.seq b.seq)))
/-- COLL_ADMIT (R193, R218 to R221): of the collectives that could be admitted, the first takes a credit and its share; an invalid
descriptor sends it to CLOSING, an access outside the job's reach is refused (R439, R521). -/
def State.collAdmit (s : State) (p g q : Nat) : State :=
  match s.collAt p g q with
  | none => s
  | some c =>
    if !s.admissible c ∨ s.coll.colls.any (fun x => s.admissible x && x.earlier c) then s
    else
      let d := c.desc
      let x := s.grp p g
      let (n, me) := s.ranks c
      let s1 := s.setGrp p g { x with next := if c.seq = x.next then (x.next + 1) % 2 ^ 32 else x.next }
      if s.badDesc c then s1.collFail c 0x4004 none
      else
        let width := match c.gather with | some t => if t.widen then 2 else 1 | none => 1
        let inB := if d.reduces then d.elems * d.inBytes + (d.contrib - 1) * d.cstride else d.elems
        let outB := if d.reduces then d.elems * d.outBytes else if d.kind = 5 then n * d.elems * width else d.elems
        let data := d.carries && !c.internal && decide (me < n)
        let r1 := if data && !(d.kind == 1 && d.root != me) then s.reach (some p) d.src inB false else .ok
        let r2 := if data && !(d.kind == 2 && d.root != me) then s.reach (some p) d.dst outB true else .ok
        let r3 := if c.core.isSome then s.reach (some p) d.cw 32 true else .ok
        let s := s1.setColl { c with st := .admitted, credit := true, share := s.shareOf c }
        if !r1.passes then s.refuseHub p d.src r1
        else if !r2.passes then s.refuseHub p d.dst r2
        else if !r3.passes then s.refuseHub p d.cw r3
        else s
/-- COLL_OPEN_EXCHANGE (Table 7-5): the round partners' digests agree, or one differs. -/
def State.collOpen (s : State) (p g q : Nat) (agree : Bool) (peer : Nat) : State :=
  match s.collAt p g q with
  | some c =>
    if c.st ≠ .admitted ∨ !s.jobRuns p then s
    else if agree then (s.setColl { c with st := .running, stale := false }).collGo p g q
    else s.collFail c 0x4003 (some peer)
  | none => s
/-- The words that a payload's elements are (R216). -/
def ofBytes (l : List (Byte × Bool)) : List (Word × Bool) := l.map (fun b => (b.1.setWidth 64, b.2))
/-- A part of a chunk enters an open collective, over tokens on the small path and in chunks otherwise (R231); a part that is there
already is not taken twice. -/
def State.collData (s : State) (p g q : Nat) (small : Bool) (x : CollPart) : State :=
  match s.collAt p g q with
  | some c =>
    if (c.st ≠ .running ∧ c.st ≠ .admitted) ∨ c.internal ∨ c.desc.small ≠ small ∨ (c.partAt x.chunk x.lo x.n).isSome then s
    else (s.setColl { c with got := c.got ++ [x], stale := false }).collGo p g q
  | none => s
/-- A segment of a weight load is to be rebuilt (R204, R237). -/
def State.loseSegment (s : State) (p seg : Nat) : State :=
  match Tab.get none s.sched.loads p with
  | some l => { s with sched := { s.sched with loads := Tab.set none s.sched.loads p (some { l with lost := addWord l.lost seg }) } }
  | none => s
/-- Chunk `k` of member `peer`, for a Carve of move `xid`, is requested again, or is lost when three requests have failed (R236,
R237): of a WEIGHT_LOAD it is rebuilt, any other collective enters CLOSING with COLL_SHARD_LOST. -/
def State.chunkAgain (s : State) (p g q k peer xid : Nat) : State :=
  match s.collAt p g q with
  | none => s
  | some c =>
    let key := (xid * 2 ^ 24 + k) * 65536 + peer
    let n := Tab.get 0 c.reqs key
    if (c.st ≠ .running ∧ c.st ≠ .admitted) ∨ !s.jobRuns p then s
    else if n < 3 then
      ((s.setColl { c with reqs := Tab.set 0 c.reqs key (n + 1) }).count (R.COLL.RETRY.REQUESTS p) 1).sendJob c.job peer 2 (fun h =>
        { h with seq := BitVec.ofNat 32 q, group := Fin.ofNat 4096 g, chunk := BitVec.ofNat 24 k,
                 level := Fin.ofNat 4 (s.peerLevel peer), addr := BitVec.ofNat 48 xid })
    else
      let s := s.count (R.COLL.RETRY.LOST p) 1
      if c.internal ∧ c.desc.kind = 1 then s.loseSegment p k else s.collFail c 0x4001 (some peer)
/-- The status record (Table 7-6), where the collective has a status address. -/
def State.collStatus (s : State) (c : Coll) (status qs qb origCode origModule : Nat) : State :=
  if c.desc.cw = 0 ∧ c.core.isNone then s else
  s.hubPaste c.part c.desc.cw 32 (.ofBytes ([c.seq + status * 2 ^ 32 + 2 ^ 48 + (if c.poison then 2 ^ 49 else 0), qs, qb,
    origCode + origModule * 2 ^ 16].flatMap (leBytes 8)))
/-- The lowest non-zero code of a list, or 0 (R238). -/
def agreed (codes : List Nat) : Nat :=
  codes.foldl (fun a c => if c = 0 then a else if a = 0 then c else min a c) 0
/-- A gathered copy is resident (R195). -/
def State.addResident (s : State) (c : Coll) (t : GatherTag) : State :=
  s.modEng (fun e => { e with resident := e.resident ++
    [⟨c.part, t.layer, t.tensor, t.step, c.desc.dst, t.members.length * c.desc.elems * (if t.widen then 2 else 1)⟩] })
/-- CLOSING_ROUND_DONE (R228, R229, R235, R238, R240, R242): the agreed status is written and the collective is DONE. A status other
than COLL_POISON fails the group and resets the job. -/
def State.collClose (s : State) (p g q : Nat) (codes : List (BitVec 16)) (noise : List (NoiseSum × NoiseSum)) : State :=
  match s.collAt p g q with
  | none => s
  | some c =>
    if c.st ≠ .closing ∨ !s.jobRuns p then s else
    let st := agreed (c.code :: codes.map (·.toNat))
    let sum := noise.foldl (fun a b => (noiseJoin a.1 b.1, noiseJoin a.2 b.2)) (c.small, c.big)
    let (qs, qb) := if c.desc.noise then (noiseValue sum.1, noiseValue sum.2) else (0, 0)
    let s := (s.dropColl c).collStatus c st qs qb 0 0
    let s := if c.desc.kind = 0 ∧ g = 0 then s.wr (R.COLL.BAR_LAST.NS p) (min ((s.uptime - c.since) * 1000) 0xffffffff) else s
    let s := if st = 0 then s.count (R.COLL.CNT.DONE p) 1 else s.count (R.COLL.CNT.ABORTED p) 1
    let s := match c.gather with
      | some t => if st = 0 ∧ (s.ranks c).2 < (s.ranks c).1 then s.addResident c t else s
      | none => s
    let s := if c.poison ∨ st = 0x4008 then s.collErr p g q 0x4008 2 none else s
    let s := if st = 0 ∨ st = 0x4008 then s
      else (s.setGrp p g { s.grp p g with failed := true }).collErr p g q st 3 c.peer
    s.pumpAll
/-- COLL_GROUP_TIMEOUT (R219, R239, R240, Table 7-5): what the probe found; a post that leaves HELD lets stalled posts go on. -/
def State.collTimeout (s : State) (p g q : Nat) (found : ProbeFind) (peer : Nat) : State :=
  match s.collAt p g q with
  | none => s
  | some c =>
    if c.st = .closing ∨ !s.jobRuns p then s else
    let lost : State := (s.collFail c 0x4005 (some peer)).collErr p g q 0x4005 3 (some peer)
    if c.st = .held ∨ c.st = .queued then (s.collFail c 0x4002 (some peer)).pumpAll else
    match found with
    | .notPosted => s.collFail c 0x4002 (some peer)
    | .digestDiffers => s.collFail c 0x4003 (some peer)
    | .running => if c.stale then lost else s.setColl { c with stale := true }
    | .noAnswer => lost
/-- COLL_ENABLE (R211). -/
def State.collEnable (s : State) (p : Nat) : State :=
  if s.collConfigOk p then s.wr (R.COLL.CTL.EN p) 1 else s.collErr p 0 0 0x4009 3 none
/-- COLL_DISABLE (R244): allowed once the job is aborted or complete. -/
def State.collDisable (s : State) (p : Nat) : State :=
  if s.jobRuns p then s else (s.wr (R.COLL.CTL.EN p) 0).wrW (R.COLL.ERR.CODE p).reg 0
/-- The collectives of a reset job complete with COLL_ABORTED (R241, Table 7-6); with its posts out of HELD, other jobs' stalled
posts go on (R219). -/
def State.collAbort (s : State) (p origCode origModule : Nat) : State :=
  let mine := s.coll.colls.filter (fun c => c.part == p)
  let s := mine.foldl (fun s c =>
    ((s.dropColl c).collStatus c 0x4006 0 0 origCode origModule).count (R.COLL.CNT.ABORTED p) 1) s
  (s.modEng (fun e =>
    let kept := e.queues.filter (fun x => s.partOfCore x.1 != some p)
    { e with early := e.early.filter (fun x => x.1 != p), queues := kept })).pumpAll
/-- What names an ended job's collectives (R195, R212, R242): groups, posts, early READYs, post queues and gathered copies. -/
def State.collForget (s : State) (p : Nat) : State :=
  s.modEng (fun e =>
    let kept := e.queues.filter (fun x => s.partOfCore x.1 != some p)
    let e : CollEng := { e with groups := e.groups.filter (fun x => x.1 / 4096 ≠ p), resident := e.resident.filter (fun x => x.part ≠ p) }
    { e with colls := e.colls.filter (fun c => c.part ≠ p), early := e.early.filter (fun x => x.1 ≠ p), queues := kept })

end Sys2Proof.Machine
end

