-- ==== Sys2Proof/Machine/Sram.lean ====
section
/-! DEFINITION. On-chip memory: power segments (R300 to R302), the march-test engine (R303 to R307); and background work:
scrub visits (R465), promotion and lateness (R463). -/
namespace Sys2Proof.Machine

/-- The MBIST window of a memory: the core's, or 800 for the hub (Table 10-7). -/
def mwin : MWin → Nat
  | .core c => c.val
  | .hub => 800
/-- The partition and job that an event of an MBIST window names. -/
def State.winOwner (s : State) (w : Nat) : Nat × Nat :=
  if w = 800 then (15, 0xffff) else match s.partOfCore w with
    | some p => (p, s.jobId p)
    | none => (15, 0xffff)
/-- The UNIT of an SRAM code (R533). -/
def winUnit (w : Nat) : Nat := if w = 800 then 0xffff else w

/-! ## Segments -/

/-- Whether any collective group of a job on the module has a stage-buffer quota (R302). -/
def State.stageInUse (s : State) : Bool := (List.range 8).any (fun p => (s.validGroups 8 p).any (fun g => g.sbuf != 0))
/-- Whether a turn's Carve is in progress. -/
def State.anyCarve (s : State) : Bool :=
  s.sched.turns.any (fun e => match e.2 with | some t => t.carving | none => false)
/-- Whether the stage buffer serves an admitted collective or a Carve (R301, R304). -/
def State.stageBusy (s : State) : Bool := s.coll.colls.any (·.credit) || s.anyCarve
/-- The index of a segment; none where the window has no such segment. -/
def segOf (w : Nat) (ab : Bool) (g : Nat) : Option Nat :=
  if w = 800 then (if ab then none else some (6400 + g)) else if g = 3 then none else some (w * 8 + (if ab then 4 else 0) + g)
/-- The byte length of a segment (R300). -/
def segBytes (w : Nat) (ab : Bool) : Nat := if w = 800 then 0x4000000 else if ab then 0x20000 else 0x80000
/-- The local range of a segment of a core's window. -/
def segRange (w : Nat) (ab : Bool) (g : Nat) : Rng := (winAddr w ((if ab then abOff else 0) + g * segBytes w ab), segBytes w ab)
/-- Whether a march run tests a segment. -/
def State.marching (s : State) (w : Nat) (ab : Bool) (g : Nat) : Bool :=
  match Tab.get none s.chip.march w with
  | some m => (m.ctl / 4 % 2 == 1) == ab && m.segs.contains g
  | none => false
/-- Whether an access to a segment is granted or in flight (R301): an operation, transfer or release store of a core, or a march
run. -/
def State.segBusy (s : State) (w : Nat) (ab : Bool) (g : Nat) : Bool :=
  s.marching w ab g ||
  if w = 800 then s.stageBusy else
  let r := segRange w ab g
  let k := s.core w
  k.inFlight.any (fun o => (o.fields.outWindow :: o.fields.reads).any (fun q => Rng.overlaps r (winRng w q))) ||
  k.vecs.any (fun v => (v.writes ++ v.reads).any (fun q => Rng.overlaps r (winRng w q))) ||
  s.chip.cores.any (fun e => e.2.xfers.any (fun x => (x.reads ++ x.writes).any (Rng.overlaps r)) ||
    e.2.sigs.any (fun q => q.writes.any (Rng.overlaps r)))
/-- The requested state of a segment. -/
def State.segReq (s : State) (w : Nat) (ab : Bool) (g : Nat) : Nat :=
  s.rd (if ab then R.MBIST.PWR.AB_REQ w else R.MBIST.PWR.SP_REQ w) / 4 ^ g % 4
/-- A segment's state replaced. -/
def State.setSeg (s : State) (i : Nat) (x : SegSt) : State :=
  { s with chip := { s.chip with segs := Tab.set ⟨0, false⟩ s.chip.segs i x } }
/-- The bytes of a segment replaced, all its words with or without poison. -/
def State.fillSeg (s : State) (w : Nat) (ab : Bool) (g : Nat) (d : Tab Byte) (bad : Nat → Bool) : State :=
  if w = 800 then
    let lo := g * 0x4000000
    let keep := s.chip.stagePoison.filter (fun k => !(decide (lo ≤ 32 * k) && decide (32 * k < lo + 0x4000000)))
    { s with chip := { s.chip with stage := pasteTab s.chip.stage lo 0x4000000 d,
                                   stagePoison := ((wordsOf lo 0x4000000).filter bad).foldl addWord keep } }
  else
    let (lo, n) := segRange w ab g
    { s with mem := pasteTab s.mem lo n d, poison := ((wordsOf lo n).filter bad).foldl addWord (coverWords s.poison lo n) }
/-- A segment that reads as zero with valid check bits. -/
def State.zeroSeg (s : State) (w : Nat) (ab : Bool) (g : Nat) : State := s.fillSeg w ab g [] (fun _ => false)

/-- SEGMENT_POWER_REQUEST (R301, R302): a write of MBIST.PWR. A request of RET or OFF for a stage-buffer segment is
ignored and sets ERR while a group has a stage-buffer quota. -/
def State.segRequest (s : State) (w : Nat) (v : Word) : State :=
  let old := s.rd (R.MBIST.PWR.SP_REQ w)
  let s := s.regPut false (R.MBIST.PWR.REG w).reg v
  if w = 800 then
    let new := s.rd (R.MBIST.PWR.SP_REQ w)
    let bad (g : Nat) : Bool := s.stageInUse && (new / 4 ^ g % 4 == 1 || new / 4 ^ g % 4 == 2)
    let kept := ((List.range 4).map (fun g => (if bad g then old / 4 ^ g % 4 else new / 4 ^ g % 4) * 4 ^ g)).foldl (· + ·) 0
    let s := s.wrs [(R.MBIST.PWR.SP_REQ w, kept), (R.MBIST.PWR.AB_REQ w, 0)]
    if (List.range 4).any bad then s.wr (R.MBIST.PWR.ERR w) 1 else s
  else s
/-- SEGMENT_POWER_CHANGE (R300, R301): the requested state takes effect once no access is in flight. A segment that was OFF
comes back as zero with valid check bits. The reserved code 3 requests nothing. -/
def State.segChange (s : State) (w : Nat) (ab : Bool) (g : Nat) : State :=
  match segOf w ab g with
  | none => s
  | some i =>
    let req := s.segReq w ab g
    let cur := (s.seg i).st
    if req = 3 ∨ req = cur ∨ s.segBusy w ab g ∨ (w = 800 ∧ req ≠ 0 ∧ s.stageInUse) then s
    else
      let s := s.setSeg i ⟨req, false⟩
      if cur = 2 then s.zeroSeg w ab g else s
/-- SEGMENT_IDLE_RETURN (R301): a woken segment returns to RET while the request still names RET. -/
def State.segReturn (s : State) (w : Nat) (ab : Bool) (g : Nat) : State :=
  match segOf w ab g with
  | none => s
  | some i => if (s.seg i).awake && s.segReq w ab g == 1 && !s.segBusy w ab g then s.setSeg i ⟨1, false⟩ else s
/-- The state a segment is in when it is read: ON while awake; RET in STANDBY (R301, R490). -/
def State.segNow (s : State) (i : Nat) : Nat :=
  let x := s.seg i
  if x.awake then 0 else if x.st = 0 ∧ s.rd R.PWR.STAT.STATE = 1 then 1 else x.st
/-- SP_CUR or AB_CUR of a window. -/
def State.segCur (s : State) (w : Nat) (ab : Bool) : Nat :=
  ((List.range 4).map (fun g => match segOf w ab g with | some i => s.segNow i * 4 ^ g | none => 0)).foldl (· + ·) 0

/-! ## March tests -/

/-- The march run of a window. -/
def State.marchOf (s : State) (w : Nat) : Option March := Tab.get none s.chip.march w
/-- The march run of a window replaced. -/
def State.setMarch (s : State) (w : Nat) (m : Option March) : State :=
  { s with chip := { s.chip with march := Tab.set none s.chip.march w m } }
/-- Whether a GO may start (R304, R305): a destructive run on a core needs it halted and owned by no job; on the hub no
admitted collective and no Carve; the hub has no content-preserving mode and no second target (log entry 53). -/
def State.marchMay (s : State) (w : Nat) (v : Word) : Bool :=
  let keeps := fieldOf v 3 1 == 1
  if w = 800 then !keeps && fieldOf v 2 1 == 0 && !s.stageBusy
  else keeps || (!(s.core w).runningBit && s.jobOfCore w == 0xffff)
/-- MARCH_ABORT (R305). -/
def State.marchAbort (s : State) (w : Nat) : State :=
  match s.marchOf w with
  | some m => s.setMarch w (some { m with aborting := true })
  | none => s
/-- The segments that a run with MT_CTL `ctl` tests: those of its mask that exist and are ON (Table 10-7). -/
def State.marchSegs (s : State) (w ctl : Nat) : List Nat :=
  (List.range 4).filter (fun g => ctl / 2 ^ (7 + g) % 2 == 1 &&
    (match segOf w (ctl / 4 % 2 == 1) g with | some i => (s.seg i).st == 0 || (s.seg i).awake | none => false))
/-- MARCH_GO: a write of MBIST.MT_CTL (R304); a GO during a run starts nothing (log entry 53). -/
def State.marchWrite (s : State) (w : Nat) (v : Word) : State :=
  let s := s.regPut false (R.MBIST.MT_CTL.REG w).reg v
  let s := if fieldOf v 1 1 = 1 then s.marchAbort w else s
  if fieldOf v 0 1 = 0 ∨ (s.marchOf w).isSome then s
  else if s.marchMay w v then
    (s.wrs [(R.MBIST.MT_STAT.BUSY w, 1), (R.MBIST.MT_STAT.FAILS w, 0)]).setMarch w (some ⟨v.toNat, s.marchSegs w v.toNat, false⟩)
  else s.wr (R.MBIST.MT_STAT.REFUSED w) 1
/-- The banks of a memory (Table 10-1). -/
def bankCount (w : Nat) (ab : Bool) : Nat := if w = 800 then 128 else if ab then 8 else 32
/-- The bank of a byte address of a memory, and the word within the bank (Table 10-1). -/
def bankWord (w : Nat) (ab : Bool) (a : Nat) : Nat × Nat := (a / 32 % bankCount w ab, a / 32 / bankCount w ab)
/-- The elements of Table 10-4: the word order (none: either), and the operations as (read, complement of the background). -/
def marchElems (alg : Nat) : List (Option Bool × List (Bool × Bool)) :=
  let r (x : Bool) : Bool × Bool := (true, x)
  let w (x : Bool) : Bool × Bool := (false, x)
  let mid (x : Bool) : List (Bool × Bool) := if alg = 0 then [r x, w (!x)] else [r x, r x, w x, r x, w (!x)]
  [(none, [w false]), (some true, mid false), (some true, mid true), (some false, mid false), (some false, mid true),
   (none, [r false])]
/-- An algorithm's operations on a word in their order: element, word order, read or write, background or complement. -/
def marchOps (alg : Nat) : List (Nat × Option Bool × Bool × Bool) :=
  (marchElems alg).zipIdx.flatMap (fun e => e.1.2.map (fun o => (e.2, e.1.1, o.1, o.2)))
/-- Bit `bit` of word `word` of the background: solid 0, or 0x55 and 0xAA by word (R303, log entry 53). -/
def marchBg (checker : Bool) (word bit : Nat) : Bool := checker && (word + bit) % 2 == 0
/-- Whether a run of a window can fail so (R303): a bit of a codeword of a segment it tests, at a read of its algorithm. -/
def March.fits (m : March) (w : Nat) (f : MarchFail) : Bool :=
  let ab := m.ctl / 4 % 2 == 1
  decide (f.bit.toNat < 288) && m.segs.contains (f.addr.toNat / segBytes w ab) &&
  (match (marchOps (m.ctl / 16 % 2))[f.op.toNat]? with | some o => o.2.2.1 | none => false)
/-- The bank and word of a failing compare (Table 10-1). -/
def March.at_ (m : March) (w : Nat) (f : MarchFail) : Nat × Nat := bankWord w (m.ctl / 4 % 2 == 1) f.addr.toNat
/-- The place of a failing compare in a run (R303, R305): its block of 8 words in a content-preserving run, its element, its word in
that element's order, its operation, its bank. -/
def March.place (m : March) (w : Nat) (f : MarchFail) : Nat :=
  let (bank, word) := m.at_ w f
  let o := (marchOps (m.ctl / 16 % 2)).getD f.op.toNat (0, none, true, false)
  let block := if m.ctl / 8 % 2 = 1 then word / 8 else 0
  let at_ := match o.2.1 with | none => 0 | some true => word | some false => 65535 - word
  (((block * 8 + o.1) * 65536 + at_) * 32 + f.op.toNat) * 128 + bank
/-- The failing compares of a run in its order; with STOP = 1 it ends at the first (R307). -/
def March.compares (m : March) (w : Nat) (fs : List MarchFail) : List MarchFail :=
  let l := (fs.filter (m.fits w)).dedup.mergeSort (fun a b => decide (m.place w a ≤ m.place w b))
  if m.ctl / 64 % 2 = 1 then l.take 1 else l
/-- The bit that the failing read expected (Table 10-7). -/
def March.expect (m : March) (w : Nat) (f : MarchFail) : Bool :=
  let o := (marchOps (m.ctl / 16 % 2)).getD f.op.toNat (0, none, true, false)
  marchBg (m.ctl / 32 % 2 == 1) (m.at_ w f).2 f.bit.toNat != o.2.2.2
/-- What a destructive run leaves (R304): zero in every segment it tested; after an ABORT what the march had written, which
is open, check bits included (log entry 53). -/
def State.marchLeaves (s : State) (w : Nat) (m : March) : State :=
  let ab := m.ctl / 4 % 2 == 1
  m.segs.foldl (fun s g =>
    if m.aborting then
      let n := segBytes w ab
      let c := s.freeCtr
      (s.fillSeg w ab g (bytesTab (s.freeBytes n) 0)
        (fun k => (Config.freeValue (c + n / 64 + k)).toNat % 2 == 1)).used (n / 64 + 0x2000000000)
    else s.zeroSeg w ab g) s
/-- MARCH_DONE (R307): failing compares are counted and raise MARCH_FAIL, the first in the run's order stands in MT_FAIL, and a core
that failed is put up for retirement. -/
def State.marchDone (s : State) (w : Nat) (fails : List MarchFail) (cycles : Nat) : State :=
  match s.marchOf w with
  | none => s
  | some m =>
    let fs := m.compares w fails
    let s := (s.setMarch w none).wrs [(R.MBIST.MT_STAT.BUSY w, 0), (R.MBIST.MT_STAT.DONE w, 1),
      (R.MBIST.MT_STAT.FAILS w, min fs.length 0xffff), (R.MBIST.MT_STAT.CYCLES w, cycles)]
    let s := match fs with
      | f :: _ => s.wrs [(R.MBIST.MT_FAIL.BANK w, (m.at_ w f).1), (R.MBIST.MT_FAIL.WORD w, (m.at_ w f).2),
          (R.MBIST.MT_FAIL.BIT w, f.bit.toNat), (R.MBIST.MT_FAIL.OP w, f.op.toNat),
          (R.MBIST.MT_FAIL.EXPECT w, (m.expect w f).toNat)]
      | [] => s
    let o := s.winOwner w
    let s := fs.foldl (fun s _ => s.event 0x2083 1 o.1 o.2 (winUnit w) none) s
    let s := if m.ctl / 8 % 2 = 0 then s.marchLeaves w m else s
    if w ≠ 800 ∧ fs ≠ [] then s.retireCore w else s

/-! ## Scrubbing -/

/-- A row of a stack needs repair (R320, R322, R323): the channel migrates to a free spare. Without one, unless its channel is
migrating already, the row is recorded for the next boot, or its channel for retirement where the bank has no repair rows
left. -/
def State.repairRow (s : State) (k ch pc bank row : Nat) : State :=
  let left := decide (((s.stk k).rowsOf ch pc bank).length < Config.repairRows)
  let record : State := s.appendField (if left then s.fieldNow 2 (rowFields k ch pc bank row) else s.fieldNow 4 (rowFields k ch 0 0 0))
  if s.on (R.HBM.STAT.SPARE_FREE k) then s.migStart k ch false
  else match (s.stk k).mig with
    | some m => if m.src = ch then s else record
    | none => record
/-- A corrected error of a row; more than REPAIR_THR within 24 h call for its repair (R320). -/
def State.countRow (s : State) (k ch pc bank row : Nat) : State :=
  let key := ((ch * 2 + pc) * 16 + bank) * 2 ^ 18 + row
  let h := s.stk k
  let ts := (Tab.get [] h.rowErr key).filter (fun t => decide (s.now < t + 86400 * 32768)) ++ [s.now]
  let s := s.setStk k { h with rowErr := Tab.set [] h.rowErr key ts }
  if ts.length > s.rd (R.HBM.CTL.REPAIR_THR k) then s.repairRow k ch pc bank row else s
/-- The 32 data bytes of a decoded word. -/
def wordBytes (d : List Nat) : List Byte := d.map (BitVec.ofNat 8)

/-- A visit to a word of HBM (R465); `st` is the decoder's answer. A pseudo-channel in a hold is visited later. The corrected
word is no new write of a gradient line (R250). -/
def State.scrubHbm (s : State) (a st : Nat) (d : List Byte) : State :=
  match s.regionOf a with
  | none => s
  | some r =>
    let (q, line) := s.hbmRoute r a
    let k := q / 64
    let ch := q % 64 / 2
    let pc := q % 2
    let bank := (Config.bankOf line).toNat
    let row := (Config.rowOf line).toNat
    if s.heldLine a then s
    else if st = 1 then
      ((((s.landBy none a d.length (.ofBytes d)).count R.RAS.SCRUB_CNT.CORR 1).count (R.HBM.ERRCNT.CORR k) 1).hbmError k 0x2001 0 ch
        (some pc) (some (bank, row))).countRow k ch pc bank row
    else
      let s := (((s.poisonRange a 32).count R.RAS.SCRUB_CNT.UNCORR 1).count (R.HBM.ERRCNT.UNCORR k) 1).hbmError k 0x2002 2 ch
        (some pc) (some (bank, row))
      let s := s.repairRow k ch pc bank row
      if s.inHouse a then s.houseFound a else s
/-- A visit to a word of LPDDR5X (R465). -/
def State.scrubSlow (s : State) (a st : Nat) (d : List Byte) : State :=
  let (m, ch, _) := s.slowRoute a
  if s.on (R.NOL.MEM_STAT.OFFLINE m) then s else
  let p := match s.partOfStack (2 * m + (a - slowBase) / 0x1000000000 % 2) with | some p => p | none => 15
  if st = 1 then
    (((s.landBy none a d.length (.ofBytes d)).count R.RAS.SCRUB_CNT.CORR 1).count (R.NOL.ERRCNT.CORR m) 1).nolError m 0x9001 0 p (s.partJob p)
      (some ch) false
  else
    (((s.poisonRange a 32).count R.RAS.SCRUB_CNT.UNCORR 1).count (R.NOL.ERRCNT.UNCORR m) 1).nolError m 0x9002 2 p (s.partJob p)
      (some ch) false
/-- The code of a visit to an on-chip word. -/
def State.scrubSram (s : State) (w st : Nat) : State :=
  let o := s.winOwner w
  if st = 1 then (s.count R.RAS.SCRUB_CNT.CORR 1).event 0x2080 0 o.1 o.2 (winUnit w) none
  else (s.count R.RAS.SCRUB_CNT.UNCORR 1).event 0x2081 2 o.1 o.2 (winUnit w) none
/-- A word of a core's window written back or poisoned without waking anything for long (R302). -/
def State.scrubWin (s : State) (a st : Nat) (d : List Byte) : State :=
  match placeOf a with
  | .window c off =>
    if off ≥ 0x1e0000 ∨ (s.seg (segIndex c off)).st = 2 then s
    else if st = 1 then
      ({ s with mem := pasteTab s.mem a 32 (bytesTab d 0) } : State).scrubSram c 1
    else (s.poisonRange a 32).scrubSram c 3
  | _ => s

/-- SCRUB_VISIT (R465): a word is read and decoded; a corrected one is written back, an uncorrectable one poisoned; clean
and poisoned words are left. An OFF segment and an address without memory are not visited (R302); `scrubAny` adds the control
processors' memories. -/
def State.scrubVisit (s : State) (t : ScrubTarget) (raw : BitVec 288) : State :=
  let (d, st) := lcDecode (lcSyms raw)
  let bs := wordBytes d
  if st = 0 ∨ st = 2 then s else
  match t with
  | .word addr =>
    let a := addr.toNat / 32 * 32
    if s.poisoned a 32 then s else
    match placeOf a with
    | .hbm => s.scrubHbm a st bs
    | .slow _ _ => s.scrubSlow a st bs
    | .window _ _ => s.scrubWin a st bs
    | _ => s
  | .imem c w =>
    let k := c.val * 2048 + w.val
    if s.chip.imemPoison.contains k then s
    else if st = 1 then
      ({ s with chip := { s.chip with imem := pasteTab s.chip.imem (k * 32) 32 (bytesTab bs 0) } } : State).scrubSram c 1
    else ({ s with chip := { s.chip with imemPoison := addWord s.chip.imemPoison k } } : State).scrubSram c 3
  | .stage w =>
    if s.chip.stagePoison.contains w.val ∨ (s.seg (6400 + w.val / 2097152)).st = 2 then s
    else if st = 1 then
      ({ s with chip := { s.chip with stage := pasteTab s.chip.stage (w.val * 32) 32 (bytesTab bs 0) } } : State).scrubSram 800 1
    else ({ s with chip := { s.chip with stagePoison := addWord s.chip.stagePoison w.val } } : State).scrubSram 800 3
  | .cp _ => s

/-! ## Ages -/

/-- The target period of a slot-based activity in ms (R463); 0 for the others. -/
def State.bgTarget (s : State) (act : Nat) : Nat :=
  if act = 0 then s.rd R.RAS.SCRUB_CFG.HBM_H * 3600000
  else if act = 1 then s.rd R.RAS.SCRUB_CFG.LP_H * 3600000
  else if act = 2 then s.rd R.RAS.SCRUB_CFG.SRAM_MIN * 60000
  else if act = 7 then 600000 else 0
/-- The level that an age calls for; a level is kept until the age reaches 0 (R463). -/
def bgLevel (old target age : Nat) : Nat :=
  if age = 0 then 0 else if age * 16 ≥ target then 2 else if age * 64 ≥ target then max old 1 else old
/-- SCRUB_PROMOTE (R463): an activity's age has reached a bound, or 0. -/
def State.scrubPromote (s : State) (act age : Nat) : State :=
  let t := s.bgTarget act
  if t = 0 then s else
  let old := Tab.get 0 s.ras.levels act
  let lvl := bgLevel old t age
  let s := { s with ras := { s.ras with ages := Tab.set 0 s.ras.ages act age, levels := Tab.set 0 s.ras.levels act lvl } }
  let s := if lvl > old then s.count R.RAS.SCRUB_STAT.PROMOTIONS 1 else s
  if act = 0 then s.wr R.RAS.SCRUB_STAT.HBM_LVL lvl
  else if act = 1 then s.wr R.RAS.SCRUB_STAT.LP_LVL lvl
  else if act = 2 then s.wr R.RAS.SCRUB_STAT.SRAM_LVL lvl
  else s
/-- A reliability code that names one unit: RAS.ERR and its event. -/
def State.rasErr (s : State) (code cls part job unit : Nat) : State :=
  (s.recErr R.RAS.ERR.VALID R.RAS.ERR.OVERRUN [(R.RAS.ERR.CODE, code), (R.RAS.ERR.UNIT, unit)]).event code cls part job
    unit none
/-- SCRUB_LATE (R463): a scrubber's unit is unvisited past its deadline. -/
def State.scrubLate (s : State) (act : Nat) : State :=
  if act < 3 then (s.count R.RAS.SCRUB_STAT.LATE 1).rasErr 0x2090 1 15 0xffff 0xffff else s

end Sys2Proof.Machine
end

