-- ==== Sys2Proof/Machine/Turn.lean ====
section
/-! DEFINITION. Turns (R177 to R193), the weight pointer and rollout batches (R180 to R183), weight loads (R201 to R204,
R432, R433), gathers (R194 to R196) and stage queues (R199, R200). A TURN or WEIGHT_LOAD is an internal collective of
group 0 under the sequence of its NAME (R184, R193, R212). -/
namespace Sys2Proof.Machine

/-! ## Access -/

/-- The scheduler's state changed by `f`. -/
def State.modSched (s : State) (f : SchedSt → SchedSt) : State := { s with sched := f s.sched }
/-- The turn in progress in a partition. -/
def State.turn (s : State) (p : Nat) : Option TurnSt := Tab.get none s.sched.turns p
/-- The turn of a partition replaced. -/
def State.setTurn (s : State) (p : Nat) (t : Option TurnSt) : State :=
  s.modSched (fun x => { x with turns := Tab.set none x.turns p t })
/-- The weight load in progress in a partition. -/
def State.wload (s : State) (p : Nat) : Option WLoad := Tab.get none s.sched.loads p
/-- The weight load of a partition replaced. -/
def State.setWload (s : State) (p : Nat) (w : Option WLoad) : State :=
  s.modSched (fun x => { x with loads := Tab.set none x.loads p w })
/-- The layout bit of the slot of a step (R178, Table 6-12): 0 rollout, 1 training. -/
def layFld (p step : Nat) : Fld := if step % 2 = 0 then R.SCHED.WPTR.EVEN_LAY p else R.SCHED.WPTR.ODD_LAY p
/-- A SCHED code (R207): SCHED.ERR, the event, and for a contained class the reset of the job. -/
def State.schedErr (s : State) (p code cls round peer : Nat) : State :=
  let s := s.recErr (R.SCHED.ERR.VALID p) (R.SCHED.ERR.OVERRUN p)
    [(R.SCHED.ERR.CODE p, code), (R.SCHED.ERR.ROUND p, round), (R.SCHED.ERR.PEER p, peer)]
  if cls = 3 then s.contained code p (s.jobId p) 0xffff none else s.event code cls p (s.jobId p) 0xffff none
/-- The waiting commands of one kind of the job in a partition complete. -/
def State.finishKind (s : State) (p : Nat) (k : PendKind) (status : Nat) : State :=
  s.finish (fun c => c.kind == k && c.job == s.jobId p) status 0
/-- The phase of a partition (Table 6-12). -/
def State.phase (s : State) (p : Nat) : Nat := s.rd (R.SCHED.TURN_STAT.PHASE p)
/-- Every shard's slot of a step holds it in one of two states. -/
def State.slotIn (s : State) (p step a b : Nat) : Bool :=
  s.slotsAre p (fun x => (x.slot step).step == step && ((x.slot step).st == a || (x.slot step).st == b))
/-- The slot of a step returns to FREE in every shard where it holds the step (R187, R204). -/
def State.freeStep (s : State) (p step : Nat) : State :=
  s.modShards p (fun x => if (x.slot step).step = step then x.freeSlot step else x)

/-! ## Rollout batches and the pointer -/

/-- Batches closed (R181): those of `f`, and the highest closed number raised to `nums`. -/
def State.closeBatches (s : State) (p : Nat) (f : Batch → Bool) (nums : List Nat) : State :=
  let b := s.batchSt p
  let high := nums.foldl (fun h n => match h with
    | none => some n
    | some m => if batchLower m n then some n else some m) b.high
  (s.setBatches p { open_ := b.open_.map (fun x => if f x then { x with closed := true } else x), high := high }).batchesDone p
/-- BATCH_CLOSE (R181). -/
def State.batchClose (s : State) (post : Post) : State :=
  s.gate post 0x52 [lowMask 32] (fun s j =>
    let n := fieldOf post.p.w1 0 32
    (s.closeBatches j.part (fun x => x.num == n) [n]).done post 0x52 0 0)
/-- The pointer moves to a step (R182); an F4 copy belongs to the pointer's slot (R179). -/
def State.movePointer (s : State) (p step : Nat) (f4 : Bool) : State :=
  s.wrs [(R.SCHED.WPTR.STEP p, step), (R.SCHED.WPTR.VALID p, 1), (R.SCHED.WPTR.F4 p, if f4 then 1 else 0)]
/-- WPTR_SET (R182). -/
def State.wptrSet (s : State) (post : Post) : State :=
  s.gate post 0x51 [lowMask 16] (fun s j =>
    let p := j.part
    let n := fieldOf post.p.w1 0 16
    if s.phase p = 1 ∧ s.slotIn p n 2 3 ∧ s.rd (layFld p n) = 0 then
      (s.movePointer p n (s.on (R.SCHED.WPTR.F4 p) && s.rd (R.SCHED.WPTR.STEP p) == n)).done post 0x51 0 0
    else s.done post 0x51 0x5016 0)

/-! ## The Carve plan -/

/-- Entry `i` of a plan (Table 6-4), and whether its reserved bits are 0. -/
def State.moveAt (s : State) (a i : Nat) : Move × Bool :=
  let w (k : Nat) : Word := BitVec.ofNat 64 (s.le (a + 32 * i + 8 * k) 8)
  (⟨fieldOf (w 0) 0 16, fieldOf (w 0) 16 16, fieldOf (w 0) 32 1 == 1, fieldOf (w 1) 0 48, fieldOf (w 2) 0 40,
    fieldOf (w 3) 0 32⟩,
   fieldOf (w 0) 33 31 + fieldOf (w 1) 48 16 + fieldOf (w 2) 40 24 + fieldOf (w 3) 32 32 == 0)
/-- Rounds in order. -/
def ascending : List Move → Bool
  | a :: b :: t => decide (a.round ≤ b.round) && ascending (b :: t)
  | _ => true
/-- The range of a move in the slot. -/
def Move.range (m : Move) : Rng := (m.off, m.bytes)
/-- No two of a list of moves overlap. -/
def disjoint : List Move → Bool
  | [] => true
  | m :: t => t.all (fun x => !Rng.overlaps m.range x.range) && disjoint t
/-- R191 for a plan that was read: order, ranges and alignment, receive entries, the stage buffer. -/
def planOk (slot stage : Nat) (l : List (Move × Bool)) : Bool :=
  let ms := l.map (·.1)
  let recv := ms.filter (·.recv)
  l.all (·.2) && ascending ms &&
  ms.all (fun m => decide (m.round ≠ 65535) && m.off % 512 == 0 && m.bytes % 512 == 0 && decide (m.off + m.bytes ≤ slot)) &&
  disjoint recv &&
  recv.all (fun m => decide (((recv.filter (fun x => x.round == m.round)).map (·.bytes)).foldl (· + ·) 0 ≤ mib stage)) &&
  recv.all (fun m => ms.all (fun x => x.recv || decide (x.round ≤ m.round) || !Rng.overlaps m.range x.range))
/-- The plan of a turn, none where it fails R191. -/
def State.readPlan (s : State) (p a n : Nat) : Option (List Move) :=
  if n > 1048576 ∨ !s.inHbm p (a, 32 * n) ∨ s.poisoned a (32 * n) then none
  else
    let l := (List.range n).map (s.moveAt a)
    if planOk (mib (s.rd (R.SCHED.WSLOT_SIZE.MIB p))) (s.rd (R.SCHED.CARVE_CFG.STAGE_MIB p)) l then some (l.map (·.1)) else none
/-- Rounds of an own plan (R186). -/
def planRounds (l : List Move) : Nat := match l.getLast? with | some m => m.round + 1 | none => 0

/-! ## The turn -/

/-- A scheduler's descriptor with the largest CHUNK of which the group's share holds two (R218, log entry 168). -/
def State.fitChunk (s : State) (p g : Nat) (d : CollDesc) : CollDesc :=
  let e := s.groupEnt p g
  { d with chunk := (([10, 9, 8, 7, 6, 5, 4, 3, 2, 1].find? (fun c =>
      decide (2 * ({ d with chunk := c } : CollDesc).chunkWire ≤ e.sbuf / e.cred * 2 ^ 20))).getD 0) }
/-- An internal collective of the scheduler is posted in a group under a sequence (R184, R201, R252). Where the collective engine
cannot take it, its code is raised. -/
def State.postInternal (s : State) (p g q : Nat) (d : CollDesc) : State :=
  if !s.on (R.COLL.CTL.EN p) ∨ !(s.groupEnt p g).valid then s.collErr p g q 0x4007 3 none
  else (s.postColl { newColl p (s.jobId p) g q none (s.fitChunk p g d) true with internal := true }).pumpAll
/-- The internal collective of a command. -/
def State.internal (s : State) (p name : Nat) : Option Coll :=
  match s.collAt p 0 (name % 2 ^ 32) with
  | some c => if c.internal then some c else none
  | none => none
/-- The internal collective of a command leaves the engine, with an agreed status. -/
def State.dropInternal (s : State) (p name status : Nat) : State :=
  match s.internal p name with
  | none => s
  | some c =>
    let s := s.dropColl c
    (if status = 0 then s.count (R.COLL.CNT.DONE p) 1 else s.count (R.COLL.CNT.ABORTED p) 1).pumpAll
/-- What an internal collective fails with, once it is CLOSING (R237, R239). -/
def State.internalCode (s : State) (p name : Nat) : Nat :=
  match s.internal p name with
  | some c => if c.st = .closing then c.code else 0
  | none => 0
/-- The member found at fault in an internal collective. -/
def State.internalPeer (s : State) (p name : Nat) : Option Nat := (s.internal p name).bind (·.peer)
/-- The number of a turn's step: `l` to learning, `r` to rollout. -/
def TurnSt.no (t : TurnSt) (l r : Nat) : Nat := if t.rollout then r else l
/-- A turn ends without its new phase (R186, R187): the phase is the one before, TURN completes with `status`. -/
def State.endTurn (s : State) (p : Nat) (t : TurnSt) (status coll : Nat) : State :=
  (((s.setTurn p none).wrs [(R.SCHED.TURN_STAT.PHASE p, t.prev), (R.SCHED.TURN_STAT.STEP_NO p, 0)]).dropInternal p t.name
    coll |>.finishKind p .turn status).trnGo p
/-- A member's own vote is cast: its code, and the step of the barrier. -/
def State.castVote (s : State) (p : Nat) (t : TurnSt) (code : Nat) : State :=
  (s.setTurn p (some { t with vote := some code })).wr (R.SCHED.TURN_STAT.STEP_NO p) (t.no 3 2)

/-- Whether the layout check of a turn to rollout fails: the slot holds STEP in rollout layout and MOVES is not 0. -/
def State.layoutBad (s : State) (p : Nat) (t : TurnSt) : Bool :=
  t.rollout && t.moves != 0 && s.slotIn p t.step 2 3 && s.rd (layFld p t.step) == 0
/-- The layout check of a waiting turn to rollout, as soon as the slot holds STEP (Table 6-3, step 1): it votes TURN_INVALID at
once. -/
def State.turnCheck (s : State) (p : Nat) : State :=
  match s.turn p with
  | some t => if t.vote.isNone && s.layoutBad p t && s.jobRuns p then s.castVote p t 0x5010 else s
  | none => s
/-- TURN is posted with DIR `rollout` (Tables 6-2, 6-3, step 1); an entry with the other DIR is not this command. A TURN
while another is in progress completes with TURN_INVALID at once. -/
def State.turnPost (s : State) (post : Post) (rollout : Bool) : State :=
  if (fieldOf post.p.w1 48 1 == 1) != rollout then s else
  s.gate post 0x50 [lowMask 49, lowMask 16, lowMask 48, lowMask 48, lowMask 24] (fun s j =>
    let w := post.p
    let p := j.part
    let name := fieldOf w.w1 0 48
    let step := fieldOf w.w2 0 16
    let moves := fieldOf w.w5 0 24
    let started := ((s.batchSt p).open_.filter (fun x => x.stamp.isSome)).map (·.num)
    let live := s.liveCtxs p |>.filter (fun n => started.contains (s.ctx n).batch && decide (1 ≤ (s.ctx n).st ∧ (s.ctx n).st ≤ 5))
    let s := if rollout then s else s.closeBatches p (fun x => x.stamp.isSome) started
    if (s.turn p).isSome then s.done post 0x50 0x5010 0 else
    let plan := s.readPlan p w.w4.toNat moves
    let sick := moves ≤ 1048576 && s.inHbm p (w.w4.toNat, 32 * moves) && s.poisoned w.w4.toNat (32 * moves)
    let prev := s.phase p
    let l := plan.getD []
    let t : TurnSt := ⟨rollout, step, name, fieldOf w.w3 0 48, moves, prev, none, l, 0, 0, [], [], false, 0, s.uptime, false⟩
    let policy := s.rd (R.SCHED.TURN_CTL.CTX_POLICY p)
    let ok : Bool := plan.isSome && (prev == 0 || prev == (if rollout then 3 else 1)) &&
      (rollout || (s.slotIn p step 2 2 && (s.rd (layFld p step) == 0 || moves == 0) && policy != 3))
    let s := (s.await post 0x50 .turn).wrs [(R.SCHED.TURN_STAT.PHASE p, if rollout then 4 else 2),
      (R.SCHED.TURN_STAT.STEP_NO p, if rollout then 1 else 2)]
    let s := s.setTurn p (some t)
    let s := if ok then
        (if rollout || policy == 0 then s else live.foldl (fun s n => s.modCtx n (fun c => { c with mark := policy })) s)
      else s.castVote p t 0x5010
    let s := ((s.trnGo p).postInternal p 0 (name % 2 ^ 32) (CollDesc.empty 7)).turnCheck p
    if sick then s.poisonControl p else s)

/-- Whether the quiescence that a turn waits for is reached (Table 6-2 step 2, Table 6-3 step 1). -/
def State.quiet (s : State) (p : Nat) (t : TurnSt) : Bool :=
  if t.rollout then
    (s.rdW (R.TRN.MB_STAT.REG p).reg == 0) &&
    !s.coll.colls.any (fun c => c.part == p && c.st != .closing && !(c.internal && c.group == 0 && c.seq == t.name % 2 ^ 32)) &&
    !s.host.waiting.any (fun c => c.kind == .update && c.job == s.jobId p) && s.slotIn p t.step 2 2
  else s.rd (R.SCHED.RB_STAT.STARTED p) == 0
/-- TURN_QUIESCED: the member votes 0, or TURN_INVALID where the layout check fails. -/
def State.turnQuiesced (s : State) (p : Nat) : State :=
  match s.turn p with
  | some t =>
    if t.vote.isSome ∨ !s.jobRuns p then s
    else if s.layoutBad p t then s.castVote p t 0x5010
    else if s.quiet p t then s.castVote p t 0 else s
  | none => s
/-- TURN_QUIESCE_TIMEOUT: what a turn waits for has not come within TIMEOUT_MS. -/
def State.turnTimeout (s : State) (p : Nat) : State :=
  match s.turn p with
  | some t =>
    if t.vote.isSome ∨ !s.jobRuns p then s
    else if s.layoutBad p t then s.castVote p t 0x5010
    else if s.quiet p t then s else s.castVote p t 0x5011
  | none => s

/-! ## Carve -/

/-- The chunks of a move: 4 MiB each, the last holds the remainder (R192). -/
def Move.chunks (m : Move) : Nat := (m.bytes + 0x3fffff) / 0x400000
/-- Bytes of chunk `k` of a move. -/
def Move.chunkLen (m : Move) (k : Nat) : Nat := min 0x400000 (m.bytes - k * 0x400000)
/-- Round `t.round` begins (R192): send ranges are read; a range that cannot be read counts as a lost chunk; a local copy's
chunks enter the stage buffer. -/
def State.startRound (s : State) (p : Nat) (t : TurnSt) : State :=
  let base := s.slotBase p t.step
  let sends := t.plan.filter (fun m => m.round == t.round && !m.recv)
  let bad := sends.any (fun m => m.bytes != 0 && s.reach (some p) (base + m.off) m.bytes false != .ok)
  let s := match bad, s.internal p t.name with | true, some c => s.collFail c 0x4001 none | _, _ => s
  let own := if bad then [] else (sends.filter (fun m => m.peer == s.moduleId)).flatMap (fun m =>
    (List.range m.chunks).map (fun k =>
      let d := s.cut (base + m.off + k * 0x400000) (m.chunkLen k)
      (⟨m.xid, k, d.data, d.pois, m.chunkLen k⟩ : HeldChunk)))
  (s.setTurn p (some { t with held := t.held ++ own, barrier := false })).wr
    (R.SCHED.CARVE_STAT.ROUND p) t.round
/-- A Carve ends with a non-zero status (R187): the slot of STEP is FREE, TURN_CARVE_FAILED aborts the job. -/
def State.carveFail (s : State) (p : Nat) (t : TurnSt) (code : Nat) (peer : Option Nat) : State :=
  ((s.freeStep p t.step).endTurn p t 0x5013 code).schedErr p 0x5013 3 t.round (peer.getD 0)
/-- The stage buffer that a Carve has reserved is set (R193). -/
def State.carveShare (s : State) (p : Nat) (t : TurnSt) (mibs : Nat) : State :=
  match s.internal p t.name with
  | some c => s.setColl { c with share := mibs }
  | none => s
/-- The Carve ends, or was not needed: the slot of STEP has the new layout (R178, R189), and its stage buffer is free. -/
def State.carveDone (s : State) (p : Nat) (t : TurnSt) : State :=
  (((s.carveShare p t 0).setTurn p (some { t with carving := false, held := [], written := [] })).wrs
    [(layFld p t.step, if t.rollout then 0 else 1), (R.SCHED.TURN_STAT.STEP_NO p, t.no 5 4)]).count
    (R.SCHED.CARVE_STAT.MIB_RECV p) (t.recv / 2 ^ 20)
/-- PERMUTE by the work scheduler (R193): an agreed Carve starts once STAGE_MIB is free in group 0's quota; until then it waits. -/
def State.carveStart (s : State) (p : Nat) : State :=
  match s.turn p with
  | none => s
  | some t =>
    let stage := s.rd (R.SCHED.CARVE_CFG.STAGE_MIB p)
    if t.carving ∨ t.rounds = 0 ∨ s.rd (R.SCHED.TURN_STAT.STEP_NO p) ≠ t.no 4 3 ∨ !s.jobRuns p ∨
       s.shareUsed p 0 + stage > (s.groupEnt p 0).sbuf then s
    else (s.carveShare p t stage).startRound p { t with carving := true }
/-- TURN_VOTE_BARRIER (R186): every member has arrived; `votes` are the other members'. -/
def State.turnVote (s : State) (p : Nat) (votes : List Vote) : State :=
  match s.turn p with
  | none => s
  | some t =>
    match t.vote, s.internal p t.name with
    | some own, some c =>
      if t.carving ∨ t.rounds ≠ 0 ∨ !c.credit ∨ c.st = .closing ∨ !s.jobRuns p ∨ s.rd (R.SCHED.TURN_STAT.STEP_NO p) ≠ t.no 3 2 then s
      else
        let same := votes.all (fun v => v.dir == t.rollout && v.step.toNat == t.step && v.name.toNat == t.name)
        let code := if same then agreed (own :: votes.map (fun v => v.code.toNat)) else 0x5012
        if code ≠ 0 then s.endTurn p t code 0 else
        let rounds := (votes.map (·.rounds)).foldl max (planRounds t.plan)
        let t := { t with rounds := rounds }
        let s := s.wr (R.SCHED.CARVE_STAT.ROUNDS p) (planRounds t.plan)
        if rounds = 0 then s.carveDone p t
        else ((s.wr (R.SCHED.TURN_STAT.STEP_NO p) (t.no 4 3)).setTurn p (some t)).carveStart p
    | _, _ => s
/-- The receive entry of a chunk under its XID, with the right length. -/
def TurnSt.entry (t : TurnSt) (xid k len : Nat) : Option Move :=
  t.plan.find? (fun m => m.recv && m.xid == xid && decide (k < m.chunks) && m.chunkLen k == len)
/-- A held chunk written to its destination. -/
def State.writeChunk (s : State) (p : Nat) (t : TurnSt) (h : HeldChunk) : State :=
  match t.entry h.xid h.chunk h.len with
  | none => s
  | some m => s.paste (s.slotBase p t.step + m.off + h.chunk * 0x400000) h.len ⟨h.data, h.pois⟩
/-- The held chunks of the present round written (R192). -/
def State.writeHeld (s : State) (p : Nat) (t : TurnSt) : State :=
  let now (h : HeldChunk) : Bool := match t.entry h.xid h.chunk h.len with | some m => m.round == t.round | none => false
  let hs := t.held.filter now
  (hs.foldl (fun s h => s.writeChunk p t h) s).setTurn p (some { t with
    held := t.held.filter (fun h => !now h), written := t.written ++ hs.map (fun h => (h.xid, h.chunk)),
    recv := t.recv + (hs.map (·.len)).foldl (· + ·) 0 })
/-- A Carve chunk of module `src` has arrived (R192), perhaps before the own barrier of the votes is known to be complete: it waits
for the round's barrier, or is written once that is complete. One that no receive entry matches counts as a lost chunk
(R191). -/
def State.carveData (s : State) (p xid k src : Nat) (data : List (Byte × Bool)) : State :=
  match s.turn p with
  | none => s
  | some t =>
    let fits := match t.entry xid k data.length with | some m => m.peer == src | none => false
    if !(t.carving || (t.vote == some 0 && decide (s.rd (R.SCHED.TURN_STAT.STEP_NO p) ≤ t.no 4 3))) ∨
       t.held.any (fun h => h.xid == xid && h.chunk == k) ∨ t.written.contains (xid, k) then s
    else if !fits then
      match s.internal p t.name with
      | some c => (s.count (R.COLL.RETRY.LOST p) 1).collFail c 0x4001 (some src)
      | none => s
    else
      let d := Piece.ofMarked data
      let t := { t with held := t.held ++ [⟨xid, k, d.data, d.pois, data.length⟩] }
      if t.barrier then s.writeHeld p t else s.setTurn p (some t)
/-- CARVE_ROUND_BARRIER (R192, R187): every member has read its send ranges, or the Carve ends with a status. -/
def State.carveBarrier (s : State) (p status : Nat) : State :=
  match s.turn p with
  | none => s
  | some t =>
    if !t.carving ∨ t.barrier ∨ !s.jobRuns p then s else
    let code := agreed [status, s.internalCode p t.name]
    if code ≠ 0 then s.carveFail p t code (s.internalPeer p t.name) else s.writeHeld p { t with barrier := true }
/-- CARVE_ROUND_WRITES_DONE (R192): with every chunk of the round written, the next round begins or the Carve ends. -/
def State.carveWrites (s : State) (p : Nat) : State :=
  match s.turn p with
  | none => s
  | some t =>
    let due := (t.plan.filter (fun m => m.recv && m.round == t.round)).all (fun m =>
      (List.range m.chunks).all (fun k => t.written.contains (m.xid, k)))
    if !t.carving ∨ !t.barrier ∨ !due ∨ s.internalCode p t.name ≠ 0 ∨ !s.jobRuns p then s
    else if t.round + 1 < t.rounds then s.startRound p { t with round := t.round + 1 }
    else s.carveDone p t

/-! ## Installation -/

/-- The amax of a block, and its F4 codes under the scale exponent `e` (R74, R75, R77). -/
def f4Block (vs : List Val) (e : Nat) : List Nat :=
  vs.map (fun v => match e8m0Exp e with
    | some x => (Fmt.f4.round (.rne false) false (v.mul (.ofQ (Q.pow2 (-x))))).bits
    | none => (Fmt.f4.round (.rne false) false .nan).bits)
/-- The FP32 amax of a block. -/
def blockAmax (vs : List Val) : Val :=
  if vs.any Val.isNan then .nan
  else Fmt.fp32.decode (Fmt.fp32.round (.rne false) false (vs.foldl (fun a v => if a.lt v.abs then v.abs else a) (.zero false))).bits
/-- The elements of an F8 tensor's row: value over its FP32 scale; by a zero or infinite scale, where the spec states no quotient, an
open function of the two (log entry 148). -/
def State.f8Row (s : State) (base : Nat) (t : F4Tensor) (r : Nat) : List Val :=
  let sc := s.le (base + t.scale) 4
  (List.range t.cols).map (fun i =>
    let code := (s.byte (base + t.src + r * t.cols + i)).toNat
    match f8Over (if t.f8b then .f8b else .f8a) sc code with
    | some v => v
    | none => Fmt.fp32.decode (Fmt.fp32.openBits (Config.openValue [179, if t.f8b then 1 else 0, sc, code]).toNat))
/-- Nibbles packed into bytes, the lower element in the lower nibble (R530). -/
def nibbles : List Nat → List Byte
  | [] => []
  | [a] => [BitVec.ofNat 8 a]
  | a :: b :: t => BitVec.ofNat 8 (a + 16 * b) :: nibbles t
/-- A tensor narrowed to F4 (R179, R74 to R76): one E8M0 scale for each 32 elements of a row. -/
def State.narrow (s : State) (p : Nat) (base : Nat) (t : F4Tensor) : State :=
  (List.range t.rows).foldl (fun s r =>
    let vs := s.f8Row base t r
    let n := (t.cols + 31) / 32
    let blk (b : Nat) : List Val := (vs.drop (32 * b)).take 32
    let es := capRow ((List.range n).map (fun b => e8m0Scale (blockAmax (blk b)) Fmt.f4.maxFin))
    let bits := (List.range n).flatMap (fun b => f4Block (blk b) (es.getD b 255))
    (s.store (s.f4Base p + t.dst + r * rowBytes 0 t.cols) (nibbles bits)).store (s.f4Base p + t.scales + r * n)
      (es.map (BitVec.ofNat 8))) s
/-- Whether the narrowing of a tensor reads poison. -/
def State.narrowPoison (s : State) (base : Nat) (t : F4Tensor) : Bool :=
  s.poisoned (base + t.src) (t.rows * t.cols) || s.poisoned (base + t.scale) 4
/-- The key of a stage queue. -/
def stageKey (p : Nat) (q : StageQ) : Nat := (p * 64 + q.boundary.val) * 2 + (if q.backward then 1 else 0)
/-- A stage queue. -/
def State.stage (s : State) (k : Nat) : StageSt := Tab.get ⟨0, 0, 0, 0, 0, []⟩ s.sched.stages k
/-- A stage queue replaced. -/
def State.setStage (s : State) (k : Nat) (x : StageSt) : State :=
  s.modSched (fun y => { y with stages := Tab.set ⟨0, 0, 0, 0, 0, []⟩ y.stages k x })
/-- A mapping's stage queues: every queue of the partition is set anew (R199, R531). -/
def State.installQueues (s : State) (p : Nat) (qs : List (StageQ × Fin 65)) : State :=
  qs.foldl (fun s q => s.setStage (stageKey p q.1) { s.stage (stageKey p q.1) with
      depth := q.2.val, credits := q.2.val, entries := [] })
    (s.modSched (fun y => { y with stages := y.stages.filter (fun e => e.1 / 128 ≠ p) }))
/-- A KCG descriptor and a core's pool and program of a mapping installed (R137, R531). -/
def State.installCores (s : State) (p : Nat) (m : Mapping) : State :=
  let pools := m.pools.foldl (fun t e => Tab.set 0 t e.1.val (if e.2 then 2 else 1))
    (s.roll.pools.filter (fun e => s.partOfCore e.1 != some p))
  let s := s.modRoll (fun r => { r with pools := pools })
  let s := m.programs.foldl (fun (s : State) e =>
    s.loadImem e.1.val ((e.2.length + 31) / 32 * 32) ⟨bytesTab e.2 0, []⟩) s
  m.kds.foldl (fun (s : State) k => s.setKd k) s
/-- Whether a mapping can be installed (R531, log entry 169): its cores are the partition's, its programs fit the instruction memory of
cores that do not run, its queues have entries, its slot places lie in the slot, and its gathers in the partition. -/
def State.installable (s : State) (p : Nat) (m : Mapping) : Bool :=
  let mine (c : CoreId) : Bool := s.partOfCore c.val == some p
  m.programs.all (fun e => mine e.1 && !(s.core e.1.val).runningBit && decide (e.2.length ≤ 65536)) &&
  m.kds.all (fun k => mine k.core) && m.pools.all (fun e => mine e.1) &&
  m.queues.all (fun q => q.2.val != 0) && (m.queues.map (·.1)).Nodup &&
  m.layout.all (fun x => decide (x.slot + x.bytes ≤ mib (s.rd (R.SCHED.WSLOT_SIZE.MIB p)))) &&
  m.gathers.all (fun g => decide (g.off + g.bytes ≤ mib (s.rd (R.SCHED.WSLOT_SIZE.MIB p))) && g.bytes != 0 &&
    s.inHbm p (g.dst.toNat, g.members.length * g.bytes * 2))
/-- A mapping installed (R531): core programs, KCG descriptors, pools, gathers and stage queues. -/
def State.installMapping (s : State) (p : Nat) (m : Mapping) : State :=
  let x : MapSt := ⟨m.stage.map (·.val), m.gathers, m.queues.map (·.1)⟩
  ((s.installCores p m).modSched (fun y => { y with maps := Tab.set none y.maps p (some x) })).installQueues p m.queues
/-- Step 5 of a turn ends in TRN_CONFIG or ROLL_CONFIG. -/
def State.installFail (s : State) (p : Nat) (t : TurnSt) : State :=
  let code := if t.rollout then 0x6014 else 0x5007
  let s := s.endTurn p t code code
  if t.rollout then s.rollErr p code 3 0 0 else s.trnErr p code 3 0 0
/-- TURN_INSTALL (steps 4 and 5 to rollout, step 5 to learning): F4 tensors are narrowed, the mapping is installed, the
pointer moves. `m`: what the descriptor at MAP gives this member, none where it cannot be read (R531). -/
def State.turnInstall (s : State) (p : Nat) (m : Option Mapping) : State :=
  match s.turn p with
  | none => s
  | some t =>
    if s.rd (R.SCHED.TURN_STAT.STEP_NO p) ≠ t.no 5 4 ∨ t.carving ∨ !s.jobRuns p then s else
    let base := s.slotBase p t.step
    let f4 := match m with | some m => m.f4 | none => []
    if t.rollout && f4.any (s.narrowPoison base) then s.poisonControl p
    else
      let s := if t.rollout then f4.foldl (fun s x => s.narrow p base x) s else s
      match m with
      | none => s.installFail p t
      | some m =>
        if !s.installable p m ∨ s.reach (some p) t.map 1 false ≠ .ok then s.installFail p t
        else
          let s := if t.rollout then s.movePointer p t.step (!f4.isEmpty) else s.wr (R.SCHED.WPTR.F4 p) 0
          (s.installMapping p m).wr (R.SCHED.TURN_STAT.STEP_NO p) 6
/-- TURN_FINAL_BARRIER (step 6, R447): the fence holds and every member has arrived; the new phase begins. -/
def State.turnFinal (s : State) (p status : Nat) : State :=
  match s.turn p with
  | none => s
  | some t =>
    if s.rd (R.SCHED.TURN_STAT.STEP_NO p) ≠ 6 ∨ !s.jobRuns p then s
    else if status ≠ 0 then (s.endTurn p t status status).collErr p 0 (t.name % 2 ^ 32) status 3 (s.internalPeer p t.name)
    else if s.chip.remotes.any (fun r => s.partOfCore r.core == some p) then s
    else
      let s := (s.wrs [(R.SCHED.TURN_STAT.LAST_US p, min (s.uptime - t.start) 0xffffff)]).count (R.SCHED.TURN_STAT.TURNS p) 1
      s.endTurn p { t with prev := if t.rollout then 1 else 3 } 0 0

/-! ## Weight loads -/

/-- The valid KIND 1 key entry of an image for a partition and job (R432). -/
def State.imageKey (s : State) (p image : Nat) (j : Job) : Option KeyEnt :=
  match (List.range 64).findSome? (fun i => match Tab.get none s.sec.keys i with
      | some k => if k.kind = 1 ∧ k.bind = p ∧ k.id = image then some k else none
      | none => none) with
  | some k =>
    if (k.notAfter ≠ 0 ∧ k.notAfter ≤ s.now) ∨ (k.reqDigest ≠ 0 ∧ k.reqDigest ≠ j.imageDigest) then none else some k
  | none => none
/-- The slot of a load's step is claimed: LOADING in every shard (R201). -/
def State.claimed (s : State) (p step : Nat) : Bool := s.slotIn p step 1 1
/-- The members of the job in group 0, in rank order. -/
def State.jobMembers (s : State) (p : Nat) : List Nat := (List.range (s.groupEnt p 0).n).map (s.memberOf p 0)
/-- The members of the job in a rack, in ascending module ID. -/
def State.rackOf (s : State) (p rack : Nat) : List Nat := ((s.jobMembers p).filter (fun m => m / 64 == rack)).insertionSort (· ≤ ·)
/-- The members of the job in this module's rack. -/
def State.ownRack (s : State) (p : Nat) : List Nat := s.rackOf p (s.moduleId / 64)
/-- The own index among the job's members of this rack, in ascending module ID (R203). -/
def State.rackIndex (s : State) (p : Nat) : Nat := (s.ownRack p).findIdx (· == s.moduleId)
/-- A mapping that gives this member nothing. -/
def bareMapping : Mapping := ⟨[], [], [], [], none, [], [], []⟩
/-- WEIGHT_LOAD (R201, R203, R432, R433): `m` is what the mapping descriptor at MAP gives this member. What refuses the command is
contributed at the start barrier. A second load of a partition is TURN_INVALID. -/
def State.weightLoad (s : State) (post : Post) (m : Option Mapping) : State :=
  s.gate post 0x53 [lowMask 48, lowMask 52, -1, lowMask 48] (fun s j =>
    let w := post.p
    let p := j.part
    let image := fieldOf w.w2 0 32
    let ec := fieldOf w.w2 51 1 == 1
    let fits := match m with | some m => s.installable p m | none => false
    match s.imageKey p image j with
    | none => s.done post 0x53 0x7002 0
    | some k =>
      if (s.wload p).isSome then s.done post 0x53 0x5010 0
      else
        let no := !fits || s.reach (some p) (fieldOf w.w4 0 48) 1 false != .ok || (ec && decide ((s.ownRack p).length < 10))
        let sealed_ := (s.part p).sealedW || k.flags % 2 == 1
        let s := { s with sec := { s.sec with parts := Tab.set ⟨false, 0, false⟩ s.sec.parts p { s.part p with sealedW := sealed_ } } }
        let l : WLoad :=
          { image := image, step := fieldOf w.w2 32 16, training := fieldOf w.w2 48 1 == 1, name := fieldOf w.w1 0 48,
            src := fieldOf w.w2 49 2, srcAddr := w.w3.toNat, ec := ec, vote := if no then 0x5010 else 0, opened := false, srcs := [],
            layout := match m with | some m => m.layout | none => [], tags := [], segs := [], lost := [], key := k }
        ((s.await post 0x53 .weightLoad).setWload p (some l)).postInternal p 0 (l.name % 2 ^ 32)
          { CollDesc.empty 1 with elems := k.nseg * 2 ^ 22 })
/-- A load ends without publishing (R204): the slot it has claimed returns to FREE. -/
def State.endLoad (s : State) (p : Nat) (l : WLoad) (status : Nat) : State :=
  let free (x : Shard) : Shard :=
    if !l.opened then x
    else if x.updWait.contains l.step then { x with updWait := x.updWait.filter (· != l.step) }
    else if (x.slot l.step).step = l.step ∧ (x.slot l.step).st = 1 then x.freeSlot l.step else x
  ((((s.setWload p none).modShards p free).dropInternal p l.name status).finishKind p .weightLoad status).trnGo p
/-- COLL_OPEN_EXCHANGE: for a WEIGHT_LOAD it is the start barrier (R201 to R203, R531), which refuses the command where a member
does, and claims the slot of STEP otherwise. -/
def State.openExchange (s : State) (p g q : Nat) (agree : Bool) (peer : Nat) (peers : List OpenPeer) : State :=
  let s1 := s.collOpen p g q agree peer
  match s.collAt p g q, s.wload p with
  | some c, some l =>
    if !c.internal ∨ c.desc.kind ≠ 1 ∨ c.st ≠ .admitted ∨ !s.jobRuns p ∨ !agree then s1
    else
      let code := agreed (l.vote :: peers.map (fun x => x.code.toNat))
      if code ≠ 0 then s1.endLoad p l code
      else (s1.setWload p (some { l with opened := true, srcs := peers.map (fun x => (x.module.toNat, x.src.val)) })).modShards p
        (fun x => x.arrive l.step (s.batchRefs p l.step))
  | _, _ => s1
/-- A member's source (Table 6-6). -/
def State.srcOf (s : State) (l : WLoad) (m : Nat) : Nat :=
  if m = s.moduleId then l.src else match l.srcs.find? (fun e => e.1 == m) with | some e => e.2 | none => 0
/-- The sources of a rack; of one without a source, those of the lowest-numbered rack that has one (R202). -/
def State.sourcesFor (s : State) (p : Nat) (l : WLoad) (rack : Nat) : List Nat :=
  let own := (s.rackOf p rack).filter (fun m => s.srcOf l m != 0)
  if !own.isEmpty then own else
  match ((s.jobMembers p).filter (fun m => s.srcOf l m != 0)).insertionSort (· ≤ ·) with
  | [] => []
  | m :: t => (m :: t).filter (fun x => x / 64 == m / 64)
/-- The member that reads segment `seg` for a rack (R202). -/
def State.segSource (s : State) (p : Nat) (l : WLoad) (rack seg : Nat) : Option Nat :=
  let ms := s.sourcesFor p l rack
  ms[seg % ms.length]?
/-- A segment's header at an address (Table 6-5). -/
def segHdr (t : Tab Byte) (a : Nat) : Payload :=
  let w (i : Nat) : Word := BitVec.ofNat 64 (tabLE t (a + 8 * i) 8)
  ⟨w 0, w 1, w 2, w 3, w 4, w 5, w 6, w 7⟩
/-- The plaintext bytes of a segment. -/
def segLen (h : Payload) : Nat := fieldOf h.w3 0 23
/-- Whether a header is one of Table 6-5 for a segment of an image. -/
def segHdrOk (h : Payload) (image seg : Nat) : Bool :=
  fieldOf h.w0 0 32 == image && fieldOf h.w0 32 32 == seg && decide (1 ≤ segLen h) && decide (segLen h ≤ 4194304) &&
  fieldOf h.w1 36 28 == 0 && fieldOf h.w2 48 16 == 0 && fieldOf h.w3 23 41 == 0 && fieldOf h.w5 32 32 == 0
/-- The address of segment `seg` of an image that begins at `a`: each is its header and the ciphertext, padded to 512 bytes. -/
def segAddr (t : Tab Byte) : Nat → Nat → Nat
  | 0, a => a
  | k + 1, a => segAddr t k (a + 64 + (segLen (segHdr t a) + 511) / 512 * 512)
/-- A segment verified and decrypted under the model key (Table 6-5). -/
def segOpen (key : BitVec 256) (h : Payload) (ct : List Byte) : Option (List Byte) :=
  Config.gcmOpen key (leBytes 8 h.w4.toNat ++ leBytes 4 h.w5.toNat)
    ([h.w0, h.w1, h.w2, h.w3].flatMap (fun w => leBytes 8 w.toNat)) ct (leBytes 8 h.w6.toNat ++ leBytes 8 h.w7.toNat)
/-- The exclusive-or of data fragments weighted by powers of g: P0 with `w` 0, P1 with `w` 1 (R203). -/
def parity (w : Nat) (fs : List (List Byte)) : List Byte :=
  let n := (fs.map List.length).foldl max 0
  (List.range n).map (fun i => (List.range fs.length).foldl (fun a k =>
    a ^^^ BitVec.ofNat 8 (gfMul (gfPow (w * k)) ((fs.getD k []).getD i 0).toNat)) 0)
/-- The key of fragment `k` of a stripe. -/
def fragKey (p stripe k : Nat) : Nat := (p * 2 ^ 32 + stripe) * 16 + k
/-- A fragment kept in the slow tier as an object of the work scheduler, where there is room (R203, Table 12-1). -/
def State.keepFrag (s : State) (p stripe k : Nat) (d : List Byte) : State :=
  if (Tab.get none s.sched.frags (fragKey p stripe k)).isSome ∨ d.isEmpty ∨ !s.flashRoom p d.length then s else
  match s.newObj (fun g => ⟨g, p, .fragment, d.length, none, true, false, bytesTab d 0, [], 0, none, []⟩) with
  | some (s, h) => s.modSched (fun x => { x with frags := Tab.set none x.frags (fragKey p stripe k) (some h) })
  | none => s
/-- Whether this member keeps fragment `k` of a stripe (R203). -/
def State.keeps (s : State) (p stripe k : Nat) : Bool := (8 * stripe + k) % (s.ownRack p).length == s.rackIndex p
/-- The fragments of a stripe that this member keeps, from the plaintext of its segments. -/
def State.keepStripe (s : State) (p : Nat) (l : WLoad) (j : Nat) : State :=
  let ds := (List.range 8).map (fun k => Tab.get [] l.segs (8 * j + k))
  let all := ds ++ [parity 0 ds, parity 1 ds]
  (List.range 10).foldl (fun (s : State) k => if s.keeps p j k then s.keepFrag p j k (all.getD k []) else s) s
/-- The fragments of a stripe that this member can read. -/
def State.ownFrags (s : State) (p j : Nat) : List (Nat × List Byte) :=
  (List.range 10).filterMap (fun k => match Tab.get none s.sched.frags (fragKey p j k) with
    | some h => (s.obj h).map (fun o => (k, (List.range o.bytes).map (fun i => Tab.get 0 o.data i)))
    | none => none)
/-- Data fragment `m` of a stripe from at least 8 of its 10 fragments (R203, R204). -/
def ecRebuild (fs : List (Nat × List Byte)) (m : Nat) : List Byte :=
  let frag (k : Nat) : Option (List Byte) := (fs.find? (fun e => e.1 == k)).map (·.2)
  match frag m with
  | some d => d
  | none =>
    let n := (fs.map (fun e => e.2.length)).foldl max 0
    let ks := (List.range 8).filter (fun k => (frag k).isSome)
    let other := (List.range 8).find? (fun k => k != m && (frag k).isNone)
    let at_ (k i : Nat) : Nat := (((frag k).getD []).getD i 0).toNat
    (List.range n).map (fun i => BitVec.ofNat 8 (
      let a := ks.foldl (fun x k => x ^^^ at_ k i) (at_ 8 i)
      let b := ks.foldl (fun x k => x ^^^ gfMul (gfPow k) (at_ k i)) (at_ 9 i)
      match other, frag 8 with
      | none, some _ => a
      | none, none => gfMul b (gfInv (gfPow m))
      | some o, _ => gfMul (b ^^^ gfMul (gfPow o) a) (gfInv (gfPow m ^^^ gfPow o))))
/-- The bytes of a segment that the slot needs are written (R202, R531). -/
def State.placeSeg (s : State) (p : Nat) (l : WLoad) (h : Payload) (data : List Byte) : State :=
  let lo := fieldOf h.w2 0 48
  l.layout.foldl (fun s x =>
    let a := max lo x.first
    let b := min (lo + data.length) (x.first + x.bytes)
    if x.tensor.toNat = fieldOf h.w1 0 32 ∧ a < b then
      s.store (s.slotBase p l.step + x.slot + (a - x.first)) ((data.drop (a - lo)).take (b - a))
    else s) s
/-- A segment's header is recorded (R432). -/
def WLoad.tagged (l : WLoad) (seg : Nat) (h : Payload) : WLoad :=
  { l with tags := Tab.set [] l.tags seg (leBytes 8 h.w6.toNat ++ leBytes 8 h.w7.toNat) }
/-- A segment's plaintext is here (R202, R203): its bytes go to the slot, and with EC = 1 the own fragments of a complete stripe are
kept. -/
def State.takeSeg (s : State) (p : Nat) (l : WLoad) (seg : Nat) (h : Payload) (data : List Byte) : State :=
  let segs := if l.ec then Tab.set [] l.segs seg data else l.segs
  let l : WLoad := { l.tagged seg h with lost := l.lost.filter (· != seg), segs := segs }
  let s := (s.placeSeg p l h data).setWload p (some l)
  if l.ec && (List.range 8).all (fun k => !(Tab.get [] l.segs (8 * (seg / 8) + k)).isEmpty) then s.keepStripe p l (seg / 8) else s
/-- A segment leaves for the other members that this member reads it for (R202, R432). -/
def State.sendSeg (s : State) (p : Nat) (l : WLoad) (seg n : Nat) : State :=
  ((s.jobMembers p).filter (fun m => m != s.moduleId && s.segSource p l (m / 64) seg == some s.moduleId)).foldl (fun (s : State) m =>
    s.sendJob (s.jobId p) m 0 (fun h =>
      { h with seq := BitVec.ofNat 32 (l.name % 2 ^ 32), chunk := BitVec.ofNat 24 seg,
               level := Fin.ofNat 4 (s.peerLevel m), bytes := BitVec.ofNat 40 n })) s
/-- GONDOLA_SEGMENT (R202 to R204, R390): a segment is read by this member where it is its source, verified, decrypted and sent on,
a tag that fails twice ending the load; or it comes from its source, or a fragment of a stripe does; or a lost one is
rebuilt from what this member and others keep. A header that is none of Table 6-5 counts as a tag that fails (log entry
170). -/
def State.gondola (s : State) (p seg : Nat) (how : SegFrom) : State :=
  match s.wload p, s.jobOf p with
  | some l, some j =>
    if !l.opened ∨ !s.claimed p l.step ∨ !s.jobRuns p then s else
    let mine := s.segSource p l (s.moduleId / 64) seg
    match how with
    | .read flash readOk bad1 bad2 =>
      if mine ≠ some s.moduleId ∨ (if flash then l.src < 2 else l.src % 2 = 0) then s
      else if !flash && !readOk then s.hostContained 0xa006 j
      else
        let src : Option (Tab Byte × Nat) :=
          if flash then (s.obj (l.srcAddr % 2 ^ 32)).map (fun o => (o.data, 0)) else some (s.hostMem j.port, l.srcAddr)
        let got : Option (Payload × List Byte) := src.bind (fun x =>
          let a := segAddr x.1 seg x.2
          let h := segHdr x.1 a
          if !segHdrOk h l.image seg || (bad1 && bad2) then none
          else (segOpen l.key.key h ((List.range (segLen h)).map (fun i => Tab.get 0 x.1 (a + 64 + i)))).map (fun d => (h, d)))
        (match got with
        | some (h, d) => (s.takeSeg p l seg h d).sendSeg p l seg d.length
        | none => s.endLoad p l 0x5014)
    | .received src h d =>
      if mine ≠ some src.toNat ∨ src.toNat = s.moduleId ∨ !segHdrOk h l.image seg ∨ d.length ≠ segLen h then s
      else s.takeSeg p l seg h d
    | .header src h =>
      if mine ≠ some src.toNat ∨ src.toNat = s.moduleId ∨ !segHdrOk h l.image seg then s
      else s.setWload p (some (l.tagged seg h))
    | .fragment k d => if l.ec && s.keeps p (seg / 8) k.val then s.keepFrag p (seg / 8) k.val d else s
    | .rebuilt h frags =>
      if !l.lost.contains seg ∨ !segHdrOk h l.image seg then s else
      let own := s.ownFrags p (seg / 8)
      let all := own ++ ((frags.map (fun e => (e.1.val, e.2))).filter (fun e => !own.any (fun o => o.1 == e.1)))
      if !l.ec ∨ ((all.map (·.1)).dedup).length < 8 then s.endLoad p l 0x5015
      else s.takeSeg p l seg h ((ecRebuild all (seg % 8)).take (segLen h))
  | _, _ => s
/-- WEIGHT_LOAD_PUBLISH (R201, R204, R432): with the codes the other members bring, the count of segments and the chain of their
tags checked, STEP is published in the stated layout, or the load ends. -/
def State.loadPublish (s : State) (p : Nat) (codes : List (BitVec 16)) : State :=
  match s.wload p with
  | none => s
  | some l =>
    let bad := l.tags.length ≠ l.key.nseg ∨ Config.sha384 (l.tags.flatMap (·.2)) ≠ l.key.tagChain
    let code := agreed ((if bad then 0x5014 else 0) :: codes.map (·.toNat))
    if !l.opened ∨ !s.claimed p l.step ∨ !s.jobRuns p ∨ !l.lost.isEmpty then s
    else if code ≠ 0 then s.endLoad p l code
    else
      let s := if l.ec ∧ l.key.nseg % 8 ≠ 0 then s.keepStripe p l (l.key.nseg / 8) else s
      let s := (s.modShards p (fun x => x.publish l.step)).wr (layFld p l.step) (if l.training then 1 else 0)
      let s := s.modJob (s.jobId p) (fun j => { j with manifests := j.manifests ++ [l.key.manifest] })
      ((((s.setWload p none).dropInternal p l.name 0).finishKind p .weightLoad 0).trnGo p).turnCheck p

/-! ## Gathers and stage queues -/

/-- Layers between two layers, in either direction. -/
def layerGap (a b : Nat) : Nat := max a b - min a b
/-- GATHER_START (R194, R195): in LEARNING, a tensor's pieces of a layer at most DEPTH layers from the layer computing are
all-gathered over their gather group from the slot of the stamp of unit `k`, unless a copy of that step is resident. What lay
where the copy goes is resident no more. -/
def State.gatherStart (s : State) (p : Nat) (k : MbKey) (layer tensor computing seq : Nat) : State :=
  match (s.trn' p).units.find? (fun u => u.is k), s.mapping p with
  | some u, some m =>
    match m.gathers[tensor]? with
    | none => s
    | some g =>
      let depth := min 4 (s.rd (R.SCHED.GATHER_CFG.DEPTH p))
      if s.phase p ≠ 3 ∨ !s.jobRuns p ∨ layerGap layer computing > depth ∨ g.layer ≠ layer ∨ !s.slotIn p u.step 2 3 ∨
         s.coll.resident.any (fun r => r.part == p && r.layer == layer && r.tensor == tensor && r.step == u.step) ∨
         !(s.groupEnt p 0).valid then s
      else
        let widen := s.on (R.SCHED.GATHER_CFG.WIDEN p)
        let base := s.slotBase p u.step
        let d := s.fitChunk p 0 { CollDesc.empty 5 with src := base + g.off, dst := g.dst.toNat, elems := g.bytes }
        let t : GatherTag := ⟨layer, tensor, u.step, widen, g.f8b, base + g.scale, g.dstScales.toNat, g.members.map (·.toNat)⟩
        let dest : Rng := (g.dst.toNat, g.members.length * g.bytes * (if widen then 2 else 1))
        let s := s.modEng (fun e => { e with resident := e.resident.filter (fun r => !Rng.overlaps dest (r.addr, r.bytes)) })
        (s.postColl { newColl p (s.jobId p) 0 seq none d true with gather := some t }).pumpAll
  | _, _ => s
/-- STAGE_ENTRY_SEND (R199, R200): a sender that holds a credit sends the entry that unit `k` produces in the queue's direction; the
µs it waited are counted. -/
def State.stageSend (s : State) (p : Nat) (q : StageQ) (k : MbKey) (us : Nat) : State :=
  let i := stageKey p q
  let x := s.stage i
  let may (u : MbUnit) : Bool := u.is k && (if q.backward then u.stage == .bwd && !u.sentBwd else u.stage == .fwd && !u.sentFwd)
  match s.mapping p, (s.trn' p).units.find? may with
  | some m, some u =>
    if !m.sends q ∨ x.credits = 0 ∨ !s.jobRuns p then s
    else (s.setTrn p ((s.trn' p).modUnit u (fun u => if q.backward then { u with sentBwd := true } else { u with sentFwd := true }))).setStage i
      { x with credits := x.credits - 1, stallUs := min (x.stallUs + us) 0xffffffff }
  | _, _ => s
/-- STAGE_ENTRY_ARRIVE (R199, R200): an entry enters the receiving queue. -/
def State.stageArrive (s : State) (p : Nat) (q : StageQ) (e : MbKey) : State :=
  let k := stageKey p q
  let x := s.stage k
  match s.mapping p with
  | some m =>
    if !m.takes q ∨ x.entries.length ≥ x.depth ∨ !s.jobRuns p then s
    else s.setStage k { x with entries := x.entries ++ [e], peak := max x.peak (x.entries.length + 1) }
  | none => s
/-- The order in which entries are consumed (R100, R101, R199): batch, micro-batch, and chunks ascending forward, descending
backward. -/
def entryBefore (backward : Bool) (a b : MbKey) : Bool :=
  decide (a.batch.toNat < b.batch.toNat) || (a.batch == b.batch && (decide (a.mb.toNat < b.mb.toNat) || (a.mb == b.mb &&
    (if backward then decide (b.chunk.val < a.chunk.val) else decide (a.chunk.val < b.chunk.val)))))
/-- The entry to consume first. -/
def firstEntry (backward : Bool) : List MbKey → Option MbKey
  | [] => none
  | e :: t => match firstEntry backward t with
    | some f => if entryBefore backward f e then some f else some e
    | none => some e
/-- STAGE_CREDIT_RETURN (R199, R200): the receiver consumes the entry that is next in order and returns its credit; at the sender
the credit arrives. The µs a receiver waited with an empty queue are counted. -/
def State.stageReturn (s : State) (p : Nat) (q : StageQ) (us : Nat) : State :=
  let k := stageKey p q
  let x := s.stage k
  match s.mapping p with
  | none => s
  | some m =>
    if !s.jobRuns p then s
    else if m.takes q then
      match firstEntry q.backward x.entries with
      | some e => s.setStage k { x with entries := x.entries.erase e, starveUs := min (x.starveUs + us) 0xffffffff }
      | none => s.setStage k { x with starveUs := min (x.starveUs + us) 0xffffffff }
    else if m.sends q then s.setStage k { x with credits := min x.depth (x.credits + 1) }
    else s

/-! ## Ends of turns and loads outside their own commands -/

/-- CLOSING_ROUND_DONE and COLL_GROUP_TIMEOUT for an internal collective: its agreed status ends the turn or load (R186,
R187). -/
def State.internalClosed (s : State) (p g q : Nat) (codes : List (BitVec 16)) : State :=
  match s.collAt p g q with
  | none => s
  | some c =>
    if c.st ≠ .closing ∨ !s.jobRuns p then s else
    let st := agreed (c.code :: codes.map (·.toNat))
    if st = 0 then s else
    let load (l : WLoad) : State := if l.name % 2 ^ 32 = q then (s.endLoad p l st).collErr p g q st 3 c.peer else s
    match s.turn p, s.wload p with
    | some t, l =>
      if t.name % 2 ^ 32 = q then
        if t.carving then s.carveFail p t st c.peer else (s.endTurn p t st st).collErr p g q st 3 c.peer
      else match l with
        | some l => load l
        | none => s
    | none, some l => load l
    | none, none => s
/-- COLL_GROUP_TIMEOUT: a member found lost during a Carve ends it (R187, R239, R240). -/
def State.groupTimeout (s : State) (p g q : Nat) (found : ProbeFind) (peer : Nat) : State :=
  match s.turn p, s.collAt p g q with
  | some t, some c =>
    let lost := (c.st == .admitted || c.st == .running) && (found == .noAnswer || (found == .running && c.stale))
    if t.carving ∧ c.internal ∧ g = 0 ∧ q = t.name % 2 ^ 32 ∧ lost ∧ s.jobRuns p then
      (s.carveFail p t 0x4005 (some peer)).collErr p g q 0x4005 3 (some peer)
    else s.collTimeout p g q found peer
  | _, _ => s.collTimeout p g q found peer
/-- PERMUTE: the work scheduler starts an agreed Carve (R193); a core's POST is refused at admission (Table 7-4). -/
def State.permute (s : State) (by_ : Poster) : State :=
  match by_ with
  | .core _ _ _ => s.postKinded 7 by_
  | .sched p q d => match s.turn p.val with
    | some t => if (collDesc d).kind = 7 ∧ q.toNat = t.name % 2 ^ 32 then s.carveStart p.val else s
    | none => s
/-- CLOSING_ROUND_DONE. -/
def State.closingRound (s : State) (p g q : Nat) (codes : List (BitVec 16)) (noise : List (NoiseSum × NoiseSum)) : State :=
  match s.collAt p g q with
  | some c => if c.internal then s.internalClosed p g q codes else s.collClose p g q codes noise
  | none => s
/-- A job reset ends its turn and load (R187, R532): a Carve leaves the slot FREE; the commands complete with
COLL_ABORTED where all waiting commands of the job do. -/
def State.turnAbort (s : State) (p : Nat) : State :=
  let s := match s.turn p with
    | some t => (if t.carving then s.freeStep p t.step else s).endTurn p t 0x4006 0x4006
    | none => s
  match s.wload p with
  | some l => s.endLoad p l 0x4006
  | none => s
/-- The scheduler's state of an ended job: no turn, load, mapping, stage queue or fragment; the phase is IDLE and the pointer unset
(R177, R180, R203). -/
def State.schedForget (s : State) (p : Nat) : State :=
  let gone := (s.sched.frags.filter (fun e => e.1 / 16 / 2 ^ 32 == p)).filterMap (·.2)
  (((gone.foldl (fun (s : State) h => s.dropObj h) s).modSched (fun x => ({
      turns := Tab.set none x.turns p none
      loads := Tab.set none x.loads p none
      stages := x.stages.filter (fun e => e.1 / 128 ≠ p)
      frags := x.frags.filter (fun e => e.1 / 16 / 2 ^ 32 ≠ p)
      maps := Tab.set none x.maps p none } : SchedSt))).setBatches p ⟨[], none⟩).wrs
    [(R.SCHED.TURN_STAT.PHASE p, 0), (R.SCHED.TURN_STAT.STEP_NO p, 0), (R.SCHED.WPTR.STEP p, 0), (R.SCHED.WPTR.VALID p, 0),
     (R.SCHED.WPTR.F4 p, 0), (R.SCHED.WPTR.EVEN_LAY p, 0), (R.SCHED.WPTR.ODD_LAY p, 0)]

end Sys2Proof.Machine
end

