-- ==== Sys2Proof/Machine/Update.lean ====
section
/-! DEFINITION. The parameter update on the Nolmer chips (chapter 08): acceptance (R245 to R249), pass 1 and the norm
(R250 to R254), the update program (R255 to R261), amax, claim, return and publication (R262 to R266). -/
namespace Sys2Proof.Machine

/-! ## Access -/

/-- The update of a partition, in flight or the last one. -/
def State.updOf (s : State) (p : Nat) : Option UpdSt := Tab.get none s.upd p
/-- The update of a partition replaced. -/
def State.setUpd (s : State) (p : Nat) (u : UpdSt) : State := { s with upd := Tab.set none s.upd p (some u) }
/-- The update windows of a partition, by 2 × Nolmer + half (R269). -/
def State.updWindows (s : State) (p : Nat) : List Nat :=
  ((s.halves p).map (fun h => if s.rd (R.NOL.MEM_CFG.SPLIT (h / 2)) = 0 then h / 2 * 2 else h)).dedup
/-- An update code (R268): NOL.UPD_ERR of the windows that `f` holds of, the event, and for a contained class the job's
reset. -/
def State.updErr (s : State) (p code cls layer entry : Nat) (f : Nat → Bool) : State :=
  let s := ((s.updWindows p).filter f).foldl (fun s w => s.recErr (R.UPD.UPD_ERR.VALID w) (R.UPD.UPD_ERR.OVERRUN w)
    [(R.UPD.UPD_ERR.CODE w, code), (R.UPD.UPD_ERR.LAYER w, layer), (R.UPD.UPD_ERR.ENTRY w, entry)]) s
  if cls = 3 then s.contained code p (s.jobId p) 0xffff none else s.event code cls p (s.jobId p) 0xffff none
/-- An update ends: its state, and the completion. -/
def State.updEnd (s : State) (p : Nat) (u : UpdSt) (stage status : Nat) : State :=
  let s := if u.stage = 3 then (s.updWindows p).foldl (fun s w => s.count (R.UPD.UPD_CNT.RUN_US w) (s.uptime - u.runAt)) s else s
  (s.setUpd p { u with stage := stage, lanes := [] }).finishKind p .update status
/-- An update fails with a code of an entry's layer. -/
def State.updFail (s : State) (p : Nat) (u : UpdSt) (code cls layer entry : Nat) : State :=
  let nol := match u.ents[entry]? with | some e => e.nol | none => 0
  (s.updEnd p u 4 code).updErr p code cls layer entry (fun w => w / 2 == nol)

/-! ## The tables -/

/-- A 64-bit word of local memory. -/
def State.wordAt (s : State) (a : Nat) : Word := BitVec.ofNat 64 (s.le a 8)
/-- A tensor entry (Table 8-4), and whether its reserved bits are 0. -/
def State.tensAt (s : State) (a : Nat) : UpdTens × Bool :=
  let w (k : Nat) : Word := s.wordAt (a + 8 * k)
  (⟨fieldOf (w 0) 0 40, fieldOf (w 0) 40 4, fieldOf (w 0) 44 4, fieldOf (w 1) 0 48, fieldOf (w 2) 0 32, fieldOf (w 3) 0 48,
    fieldOf (w 4) 0 48, fieldOf (w 5) 0 48⟩,
   fieldOf (w 0) 48 16 + fieldOf (w 1) 48 16 + fieldOf (w 2) 32 32 + fieldOf (w 3) 48 16 + fieldOf (w 4) 48 16 +
     fieldOf (w 5) 48 16 + (w 6).toNat + (w 7).toNat == 0)
/-- A layer-table entry (Table 8-3) with its tensor table's address and whether its reserved bits are 0. -/
def State.entAt (s : State) (a : Nat) : UpdEnt × Nat × Nat × Bool :=
  let w (k : Nat) : Word := s.wordAt (a + 8 * k)
  (⟨fieldOf (w 0) 0 12, fieldOf (w 0) 16 2, fieldOf (w 0) 18 1 == 1, fieldOf (w 0) 19 1 == 1, fieldOf (w 0) 20 2,
    fieldOf (w 0) 22 1, fieldOf (w 0) 24 12, fieldOf (w 1) 0 32, fieldOf (w 1) 32 32, fieldOf (w 2) 0 48, fieldOf (w 3) 0 48,
    fieldOf (w 4) 0 48, fieldOf (w 5) 0 48, fieldOf (w 6) 0 40, []⟩, fieldOf (w 7) 0 48, fieldOf (w 0) 12 4 + 1,
   fieldOf (w 0) 23 1 + fieldOf (w 0) 36 28 + fieldOf (w 2) 48 16 + fieldOf (w 3) 48 16 + fieldOf (w 4) 48 16 +
     fieldOf (w 5) 48 16 + fieldOf (w 6) 40 24 + fieldOf (w 7) 48 16 == 0)
/-- Bytes of a moment element (R261). -/
def UpdEnt.momBytes (e : UpdEnt) : Nat := if e.mfmt = 0 then 4 else 6
/-- Whether a range lies in the memory of Nolmer `m` that partition `p` holds (R245). -/
def State.inNol (s : State) (p m : Nat) (r : Rng) : Bool :=
  decide (slowBase + m * 0x2000000000 ≤ r.1) && decide (r.1 + r.2 ≤ slowBase + (m + 1) * 0x2000000000) && s.inSlow p r
/-- The last bitmap byte that a tensor piece reads, as a length. -/
def UpdTens.mapBytes (t : UpdTens) : Nat := if t.bitmap = 0 then 0 else (t.toff + t.elems - 1) / t.cols / 8 + 1
/-- The checks of R245, R249 and Tables 8-3, 8-4 and 8-8 on one entry. A row length of 0 fails them. -/
def State.entOk (s : State) (p nlayers : Nat) (e : UpdEnt) (ttab nt : Nat) : Bool :=
  decide (e.layer < nlayers) && decide (e.nmom ≤ 2) && e.elems != 0 && e.grad % 512 == 0 && e.master % 512 == 0 &&
  (e.nmom == 0 || e.mom0 % 512 == 0) && (decide (e.nmom < 2) || e.mom1 % 512 == 0) && ttab % 64 == 0 &&
  s.inNol p e.nol (e.grad, e.elems * 8) && s.inNol p e.nol (e.master, e.elems * 6) &&
  (e.nmom == 0 || s.inNol p e.nol (e.mom0, e.elems * e.momBytes)) &&
  (decide (e.nmom < 2) || s.inNol p e.nol (e.mom1, e.elems * e.momBytes)) && s.inNol p e.nol (ttab, nt * 64) &&
  ((e.tens.map (·.elems)).foldl (· + ·) 0 == e.elems) &&
  e.tens.all (fun t => (t.ofmt == 3 || t.ofmt == 4) && t.cols != 0 && t.scale % 4 == 0 &&
    (t.bitmap == 0 || s.inNol p e.nol (t.bitmap, t.mapBytes)))
/-- What entries of one layer shard share (Table 8-3). -/
def UpdEnt.shared (e : UpdEnt) : Bool × Bool × Nat × Nat × Nat × Nat × Nat :=
  (e.primary, e.wnorm, e.nmom, e.mfmt, e.ggroup, e.aseq, e.lsc)
/-- R247: ascending layers; the entries of a shard agree and name distinct Nolmers. -/
def tableOk : List UpdEnt → Bool
  | [] => true
  | e :: t => t.all (fun x => decide (e.layer ≤ x.layer) && (x.layer != e.layer || (x.nol != e.nol && x.shared == e.shared))) &&
    tableOk t

/-! ## The program -/

/-- The fields of an update instruction (Table 8-5). -/
structure UpdIns where
  op : Nat
  d : Nat
  a : Nat
  b : Nat
  c : Nat
  st : Nat
  rsv : Nat
/-- The fields of the instruction word `w`. -/
def updIns (w : Nat) : UpdIns :=
  ⟨w % 64, w / 64 % 16, w / 1024 % 32, w / 32768 % 32, w / 2 ^ 20 % 32, w / 2 ^ 25 % 8, w / 2 ^ 28 % 16⟩
/-- Table 8-5, R257 and R260 on one instruction: no reserved value, unused fields 0, no store to the gradient. -/
def UpdIns.ok (i : UpdIns) : Bool :=
  i.rsv == 0 && decide (i.op ≤ 13) && decide (i.st ≤ 3) &&
  (match i.op with
   | 0 => i.d == 0 && i.a == 0 && i.b == 0 && i.c == 0 && i.st == 0
   | 1 => i.a == 0 && i.b == 0 && i.c == 0
   | 2 => i.d == 0 && i.b == 0 && i.c == 0 && i.st != 0
   | 6 => i.st == 0
   | 12 => i.st == 0
   | 8 => i.b == 0 && i.c == 0 && i.st == 0
   | 9 => i.b == 0 && i.c == 0 && i.st == 0
   | 13 => i.b == 0 && i.c == 0 && i.st == 0
   | _ => i.c == 0 && i.st == 0)
/-- R257: each stream is loaded at most once and stored at most once, the load first. -/
def progOrder (l : List UpdIns) : Bool :=
  (List.range 4).all (fun q =>
    let ops := (l.filter (fun i => (i.op == 1 || i.op == 2) && i.st == q)).map (·.op)
    ops == [] || ops == [1] || ops == [2] || ops == [1, 2])
/-- Whether the program stays within an entry's moments (R257). -/
def progFits (l : List UpdIns) (nmom : Nat) : Bool :=
  l.all (fun i => !(i.op == 1 || i.op == 2) || decide (i.st < 2 + nmom))

/-! ## Acceptance -/

/-- UPDATE (R248 to R250). -/
def State.updPost (s : State) (post : Post) : State :=
  s.gate post 0x54 [lowMask 49, lowMask 29, lowMask 48, lowMask 14, lowMask 54, lowMask 48] (fun s j =>
    let w := post.p
    let p := j.part
    let nl := fieldOf w.w2 16 13
    let ltab := fieldOf w.w3 0 48
    let nent := fieldOf w.w4 0 14 + 1
    let prog := fieldOf w.w5 0 48
    let plen := fieldOf w.w5 48 6 + 1
    let par := fieldOf w.w6 0 48
    let busy : Bool := match s.updOf p with | some u => u.live | none => false
    if busy then s.done post 0x54 0x5021 0
    else if nl = 0 ∨ nl > 4096 ∨ ltab % 64 ≠ 0 ∨ prog % 8 ≠ 0 ∨ !s.inSlow p (ltab, nent * 64) ∨ !s.inSlow p (prog, plen * 4) ∨
       !s.inSlow p (par, 88) then s.done post 0x54 0x5020 0
    else if s.poisoned ltab (nent * 64) ∨ s.poisoned prog (plen * 4) ∨ s.poisoned par 88 then
      (s.await post 0x54 .update).poisonControl p
    else
      let raw := (List.range nent).map (fun i => s.entAt (ltab + 64 * i))
      let full := raw.map (fun r => ({ r.1 with tens := (List.range r.2.2.1).map (fun k => (s.tensAt (r.2.1 + 64 * k)).1) } : UpdEnt))
      let rsvOk := raw.all (fun r => r.2.2.2 && (List.range r.2.2.1).all (fun k => (s.tensAt (r.2.1 + 64 * k)).2))
      let ins := (List.range plen).map (fun i => s.le (prog + 4 * i) 4)
      let is := ins.map updIns
      let ok := rsvOk && tableOk full && is.all UpdIns.ok && progOrder is && full.all (fun e => progFits is e.nmom) &&
        (List.range nent).all (fun i => match raw[i]?, full[i]? with
          | some r, some e => s.entOk p nl e r.2.1 r.2.2.1
          | _, _ => false)
      if raw.any (fun r => s.inNol p r.1.nol (r.2.1, r.2.2.1 * 64) && s.poisoned r.2.1 (r.2.2.1 * 64)) then
        (s.await post 0x54 .update).poisonControl p
      else if !ok then s.done post 0x54 0x5020 0
      else
        (s.await post 0x54 .update).setUpd p
          { step := fieldOf w.w2 0 16, name := fieldOf w.w1 0 48, nlayers := nl, nfskip := fieldOf w.w1 48 1 == 1, ents := full,
            prog := ins, params := (List.range 11).map (fun i => s.le (par + 8 * i) 6), stage := 1, skipped := false, seen := [],
            own := [], ln := [], gn0 := 0, gn1 := 0, sums := [], poisoned := [], twice := none, lanes := [], progress := [], amax := [], scale := [], runAt := 0,
            claimAt := none })

/-! ## Pass 1 -/

/-- A line of an armed range written twice is UPD_INTAKE (R250): what a command's writes have noted is raised. -/
def State.intakeCheck (s : State) : State :=
  (List.range 8).foldl (fun s p => match s.updOf p with
    | some u => match u.live, u.twice with
      | true, some i => s.updFail p { u with twice := none } 0x5022 3 ((u.ents[i]?.map (·.layer)).getD 0) i
      | _, _ => s
    | none => s) s
/-- GRAD_LINE_INTAKE (R250): a 512-byte line is written into an armed range, and taken in. -/
def State.gradLine (s : State) (p a : Nat) (data : List (Byte × Bool)) : State :=
  match s.updOf p with
  | none => s
  | some u =>
    if !u.live ∨ a % 512 ≠ 0 ∨ data.length ≠ 512 ∨ !s.jobRuns p ∨ !u.ents.any (UpdEnt.hasLine (a / 512)) then s
    else (s.paste a 512 (.ofMarked data)).intakeCheck
/-- The exact sum of squares of the M48 masters of an entry's trained rows (R251): NaN and infinities propagate. -/
def State.squares (s : State) (e : UpdEnt) : Val :=
  (List.range e.elems).foldl (fun a i =>
    if s.trained e i then
      let v := Fmt.m48.decode (s.le (e.master + 6 * i) 6)
      a.add (v.mul v)
    else a) (.zero false)
/-- The entries of a layer. -/
def UpdSt.layerEnts (u : UpdSt) (l : Nat) : List UpdEnt := u.ents.filter (fun e => e.layer == l)
/-- The layers of an update, ascending. -/
def UpdSt.layers (u : UpdSt) : List Nat := (u.ents.map (·.layer)).dedup
/-- Element 2L + j of this member's contribution to the norm collective (R251, R252): partials of its primary layers. -/
def State.ownNorm (s : State) (u : UpdSt) (k : Nat) : Nat × Bool :=
  let es := u.ents.zipIdx.filter (fun e => e.1.layer == k / 2 && e.1.primary)
  if k % 2 = 0 then (noiseValue ((es.map (fun e => u.sum e.2)).foldl noiseJoin noiseZero), es.any (fun e => u.poisoned.contains e.2))
  else (w40 (((es.filter (fun e => e.1.wnorm)).map (fun e => s.squares e.1)).foldl Val.add (.zero false)), false)
/-- Whether the bitmaps of an entry are poisoned where they are read. -/
def State.mapPoison (s : State) (e : UpdEnt) : Bool := e.tens.any (fun t => t.bitmap != 0 && s.poisoned t.bitmap t.mapBytes)
/-- The norm collective's descriptor (R252): an exact-mode SUM ALLREDUCE of 2 × NLAYERS W40 elements. -/
def normDesc (nlayers : Nat) : CollDesc := { CollDesc.empty 3 with exact_ := true, ifmt := 9, elems := 2 * nlayers }
/-- UPD_PASS1_DONE (R251, R252): with every line of every entry seen, the partials are formed and the norm collective is
posted. A poisoned master weight is UPD_STATE_POISON (R259), a poisoned bitmap POISON_CONTROL. -/
def State.pass1Done (s : State) (p : Nat) : State :=
  match s.updOf p with
  | none => s
  | some u =>
    let due := u.ents.all (fun e => (List.range e.lines.2).all (fun k => u.seen.contains (e.lines.1 + k)))
    if u.stage ≠ 1 ∨ !due ∨ !s.jobRuns p then s
    else if u.ents.any s.mapPoison then s.poisonControl p
    else match u.ents.findIdx? (fun e => e.wnorm && s.poisoned e.master (e.elems * 6)) with
      | some i => s.updFail p u 0x5024 3 ((u.ents[i]?.map (·.layer)).getD 0) i
      | none =>
        (s.setUpd p { u with stage := 2, own := (List.range (2 * u.nlayers)).map (s.ownNorm u) }).postInternal p 0
          (u.name % 2 ^ 32) (normDesc u.nlayers)

/-! ## The norm -/

/-- Element `k` of every contribution: the own one, then the peers'. -/
def normColumn (own : List (Nat × Bool)) (peers : List NormPeer) (k : Nat) : List (Nat × Bool) :=
  own.getD k (0, false) :: peers.map (fun m => let x := m.ln.getD k (0, false); (x.1.toNat, x.2))
/-- Whether a member's digest is this one's: NAME, STEP, NLAYERS, NFSKIP and the parameter block (R248). -/
def UpdSt.agrees (u : UpdSt) (m : NormPeer) : Bool :=
  m.name.toNat == u.name && m.step.toNat == u.step && m.nlayers.toNat == u.nlayers && m.nfskip == u.nfskip &&
  m.params.map (·.toNat) == u.params
/-- The batch whose gradients an update applies: the first of which every unit has completed and that no update has applied (R124,
R253, log entry 172). -/
def TrnSt.ripe (t : TrnSt) : Option Nat :=
  (t.units.find? (fun u => t.units.all (fun x => x.batch != u.batch || x.stage == .done))).map (·.batch)
/-- UPD_NORM_DONE (R248, R252 to R254): with the other members of group 0 there, digests are compared, the layer sums are completed
and the branch is taken. -/
def State.normDone (s : State) (p status : Nat) (peers : List NormPeer) : State :=
  match s.updOf p with
  | none => s
  | some u =>
    if u.stage ≠ 2 ∨ !s.jobRuns p then s else
    match s.internal p u.name with
    | none => s
    | some c =>
      let bad := agreed [status, s.internalCode p u.name]
      let same := peers.all u.agrees
      if !c.credit ∨ (bad = 0 ∧ (peers.length + 1 ≠ (s.groupEnt p 0).n ∨ (same ∧ !peers.all (fun m => m.ln.length == 2 * u.nlayers)))) then s
      else
        let q := u.name % 2 ^ 32
        let code := if bad ≠ 0 then bad else if same then 0 else 0x4003
        let s := s.dropInternal p u.name code
        if code ≠ 0 then (s.updEnd p u 4 code).collErr p 0 q code 3 c.peer
        else
          let cols := (List.range (2 * u.nlayers)).map (normColumn u.own peers)
          let ln := cols.map (fun c => exactSum (c.map (fun x => Fmt.w40.decode x.1)))
          if cols.any (fun c => c.any (·.2)) then
            let s := (s.collErr p 0 q 0x4008 2 none).updEnd p { u with ln := ln } 4 0x5023
            let s := s.updErr p 0x5023 2 0 0 (fun _ => true)
            match (s.trn' p).ripe with
            | some b => s.replayBatch p b
            | none => s
          else
            let g (k : Nat) : Nat := exactPartial ((List.range u.nlayers).map (fun l => Fmt.w40.decode (ln.getD (2 * l + k) 0)))
            let odd (x : Nat) : Bool := (Fmt.w40.decode x).isNan || (Fmt.w40.decode x).isInf
            let skipped := u.nfskip && (odd (g 0) || odd (g 1))
            s.setUpd p { u with stage := 3, ln := ln, gn0 := g 0, gn1 := g 1, runAt := s.uptime, skipped := skipped }

/-! ## Pass 2 -/

/-- A value rounded to M48 by RNE, overflow giving an infinity, NaN canonical (R256). -/
def m48 (v : Val) : Nat :=
  let r := Fmt.m48.round (.rne false) false v
  if r.overflow then Fmt.m48.signBit v.sign + 0x7f8000000000 else r.bits
/-- A root or reciprocal root known by bounds, rounded to M48. -/
def m48B (b : Nat → Q × Q) : Nat := (Fmt.m48.roundB (.rne false) false b).bits
/-- The quotient (R256); none where the divisor is zero and the dividend is not, whose quotient the spec does not state. -/
def updDivide (a b : Val) : Option Val :=
  match a, b with
  | .nan, _ => some .nan
  | _, .nan => some .nan
  | .inf _, .inf _ => some .nan
  | .inf x, .fin n q => if q.m = 0 then none else some (.inf (x != (Val.fin n q).sign))
  | .fin n q, .inf y => some (.zero ((Val.fin n q).sign != y))
  | .fin n q, .fin k r =>
    if r.m = 0 then (if q.m = 0 then some .nan else none)
    else if q.m = 0 then some (.zero (n != (Val.fin k r).sign)) else some (.ofQ (q.div r))
/-- √A (R256). -/
def updSqrtBits : Val → Nat
  | .nan => Fmt.m48.nan
  | .inf n => if n then Fmt.m48.nan else m48 (.inf false)
  | .fin n q => if q.m = 0 then m48 (.zero n) else if q.isNeg then Fmt.m48.nan else m48B q.sqrtB
/-- 1 ÷ √A (R256). -/
def updRsqrtBits : Val → Nat
  | .nan => Fmt.m48.nan
  | .inf n => if n then Fmt.m48.nan else m48 (.zero false)
  | .fin _ q => if q.m = 0 then m48 (.inf false) else if q.isNeg then Fmt.m48.nan else m48B q.rsqrtB

/-- The result bits of an operation that writes vD from M48 operands (Table 8-7); a quotient that the spec does not state is an open
function of its operands (R258, log entry 148). -/
def updAlu (op a b c : Nat) : Nat :=
  let x := Fmt.m48.decode a
  let y := Fmt.m48.decode b
  let z := Fmt.m48.decode c
  match op with
  | 3 => m48 (x.add y)
  | 4 => m48 (x.add y.neg)
  | 5 => m48 (x.mul y)
  | 6 => m48 (x.fma y z)
  | 7 => match updDivide x y with | some v => m48 v | none => Fmt.m48.openBits (Config.openValue [7, a, b]).toNat
  | 8 => updSqrtBits x
  | 9 => updRsqrtBits x
  | 10 => extremum .m48 true [a, b]
  | 11 => extremum .m48 false [a, b]
  | 12 => if (Val.zero false).lt x then b else c
  | _ => m48 x.abs

/-- The address, width and format of a stream's element (R261). -/
def UpdEnt.stream (e : UpdEnt) (q i : Nat) : Nat × Nat × Fmt :=
  match q with
  | 0 => (e.grad + 8 * i, 8, .w40)
  | 1 => (e.master + 6 * i, 6, .m48)
  | 2 => (e.mom0 + e.momBytes * i, e.momBytes, if e.mfmt = 0 then .fp32 else .m48)
  | _ => (e.mom1 + e.momBytes * i, e.momBytes, if e.mfmt = 0 then .fp32 else .m48)
/-- An operand selected by Table 8-6, as M48 bits. -/
def UpdSt.operand (u : UpdSt) (e : UpdEnt) (l : UpdLane) (sel : Nat) : Nat :=
  if sel < 16 then Tab.get 0 l.regs sel
  else if sel < 27 then u.params.getD (sel - 16) 0
  else if sel = 27 then m48 (Fmt.fp32.decode e.lsc)
  else if sel = 28 then m48 (Fmt.w40.decode (u.ln.getD (2 * e.layer) 0))
  else if sel = 29 then m48 (Fmt.w40.decode (u.ln.getD (2 * e.layer + 1) 0))
  else m48 (Fmt.w40.decode (if sel = 30 then u.gn0 else u.gn1))
/-- The key of an element. -/
def laneKey (i elem : Nat) : Nat := i * 2 ^ 40 + elem
/-- An element's lane. -/
def UpdSt.lane (u : UpdSt) (i elem : Nat) : UpdLane := Tab.get ⟨0, [], []⟩ u.lanes (laneKey i elem)
/-- An element's lane replaced. -/
def UpdSt.setLane (u : UpdSt) (i elem : Nat) (l : UpdLane) : UpdSt :=
  { u with lanes := Tab.set ⟨0, [], []⟩ u.lanes (laneKey i elem) l }
/-- A vector register written, with whether poison reached it. -/
def UpdLane.put (l : UpdLane) (d v : Nat) (bad : Bool) : UpdLane :=
  { pc := l.pc + 1, regs := Tab.set 0 l.regs d v, bad := if bad then addWord l.bad d else l.bad.filter (· ≠ d) }
/-- One instruction of an element (R255 to R259, Table 8-7). A poisoned load of a master weight or moment is
UPD_STATE_POISON; poison of a gradient follows the data (R456). -/
def State.laneStep (s : State) (p : Nat) (u : UpdSt) (e : UpdEnt) (i elem : Nat) : State :=
  let l := u.lane i elem
  let f := updIns (u.prog.getD l.pc 0)
  let opd (x : Nat) : Nat := u.operand e l x
  let bad (x : Nat) : Bool := decide (x < 16) && l.bad.contains x
  match f.op with
  | 0 => s.setUpd p (u.setLane i elem { l with pc := l.pc + 1 })
  | 1 =>
    let (a, n, fm) := e.stream f.st elem
    if f.st ≠ 0 ∧ s.poisoned a n then s.updFail p u 0x5024 3 e.layer i
    else s.setUpd p (u.setLane i elem (l.put f.d (m48 (fm.decode (s.le a n % 2 ^ fm.width))) (s.poisoned a n)))
  | 2 =>
    let (a, n, fm) := e.stream f.st elem
    let v := (fm.round (.rne false) false (Fmt.m48.decode (opd f.a))).bits
    let d : Piece := ⟨bytesTab (leBytes n v) 0, if bad f.a then [(0, n)] else []⟩
    (s.paste a n d).setUpd p (u.setLane i elem { l with pc := l.pc + 1 })
  | _ =>
    let three := f.op = 6 ∨ f.op = 12
    let two := three ∨ (f.op ≠ 8 ∧ f.op ≠ 9 ∧ f.op ≠ 13)
    let hit := bad f.a || (decide two && bad f.b) || (decide three && bad f.c)
    let v := updAlu f.op (opd f.a) (opd f.b) (opd f.c)
    s.setUpd p (u.setLane i elem (l.put f.d v hit))
/-- Whether pass 2 runs the program over an element (R255): stage RUN, not skipped, a trained row, the layers before it in
table order through. -/
def State.inPass2 (s : State) (u : UpdSt) (e : UpdEnt) (elem : Nat) : Bool :=
  u.stage == 3 && !u.skipped && decide (elem < e.elems) && s.trained e elem && Tab.get 0 u.progress e.layer == 0 &&
  u.layers.all (fun l => decide (e.layer ≤ l) || Tab.get 0 u.progress l != 0)
/-- An update instruction: element `elem` of entry `i` runs its next instruction, if that is operation `op`. -/
def State.updInstr (s : State) (p op i elem : Nat) : State :=
  match s.updOf p with
  | none => s
  | some u =>
    match u.ents[i]? with
    | none => s
    | some e =>
      let pc := (u.lane i elem).pc
      if s.jobRuns p && s.inPass2 u e elem && decide (pc < u.prog.length) && (updIns (u.prog.getD pc 0)).op == op then
        s.laneStep p u e i elem
      else s
/-- What is left of the program of an element; `fuel` bounds it. -/
def State.laneRun (s : State) (p i elem : Nat) : Nat → State
  | 0 => s
  | fuel + 1 =>
    match s.updOf p with
    | none => s
    | some u =>
      match u.ents[i]? with
      | none => s
      | some e =>
        if s.inPass2 u e elem && decide ((u.lane i elem).pc < u.prog.length) then (s.laneStep p u e i elem).laneRun p i elem fuel
        else s

/-! ## Amax, claim, return -/

/-- The largest magnitude of a list, NaN if one is. -/
def maxMag (vs : List Val) : Val :=
  if vs.any Val.isNan then .nan else vs.foldl (fun a v => if a.lt v.abs then v.abs else a) (.zero false)
/-- FP32 bits of a value, by RNE, overflow giving an infinity. -/
def fp32Of (v : Val) : Nat :=
  let r := Fmt.fp32.round (.rne false) false v
  if r.overflow then Fmt.fp32.signBit v.sign + 0x7f800000 else r.bits
/-- The magnitudes that amax of tensor `tid` takes from an entry (R262): what the shard stored to S1; the stored master value
of an untrained row, or of every row when pass 2 is skipped. -/
def State.entMags (s : State) (u : UpdSt) (e : UpdEnt) (tid : Nat) : List Val :=
  let stores := u.prog.any (fun w => (updIns w).op == 2 && (updIns w).st == 1)
  (List.range e.elems).filterMap (fun i => match tensorOf e.tens i with
    | some (t, _) =>
      if t.tid = tid ∧ (stores ∨ u.skipped ∨ !s.trained e i) then some (Fmt.m48.decode (s.le (e.master + 6 * i) 6)) else none
    | none => none)
/-- UPD_SHARD_PASS2_DONE (R255, R262): every element of the layer has run the program; its amax collective is posted in
GGROUP with sequence ASEQ. -/
def State.pass2Done (s : State) (p layer : Nat) : State :=
  match s.updOf p with
  | none => s
  | some u =>
    if u.stage ≠ 3 ∨ !s.jobRuns p ∨ Tab.get 0 u.progress layer ≠ 0 ∨ (u.layerEnts layer).isEmpty ∨
       u.layers.any (fun l => decide (l < layer) && Tab.get 0 u.progress l == 0) then s
    else
      let mine := (List.range u.ents.length).filter (fun i => match u.ents[i]? with | some e => e.layer == layer | none => false)
      let s := mine.foldl (fun s i => match u.ents[i]? with
        | some e => (List.range e.elems).foldl (fun s k => s.laneRun p i k 64) s
        | none => s) s
      match s.updOf p with
      | none => s
      | some u =>
        if u.stage ≠ 3 then s else
        let es := u.layerEnts layer
        let sick (e : UpdEnt) : Bool := s.poisoned e.master (e.elems * 6) && (u.skipped ||
          (List.range e.elems).any (fun i => !s.trained e i && s.poisoned (e.master + 6 * i) 6))
        match mine.find? (fun i => match u.ents[i]? with | some e => sick e | none => false) with
        | some i => s.updFail p u 0x5024 3 layer i
        | none =>
          let amax := (List.range 16).foldl (fun t k => Tab.set 0 t (layer * 16 + k)
            (fp32Of (maxMag (es.flatMap (fun e => s.entMags u e k))))) u.amax
          let lanes := u.lanes.filter (fun x => !mine.contains (x.1 / 2 ^ 40))
          let s := s.setUpd p { u with amax := amax, progress := Tab.set 0 u.progress layer 1, lanes := lanes }
          match es.head? with
          | none => s
          | some e =>
            s.postInternal p e.ggroup e.aseq { CollDesc.empty 3 with op := 1, ifmt := 8, elems := 16 }
/-- The maximum finite value of OFMT. -/
def updMaxFin (ofmt : Nat) : Q := if ofmt = 3 then Fmt.f8a.maxFin else Fmt.f8b.maxFin
/-- UPD_AMAX_DONE (R262, R263): the amax of a layer's tensors, from the own values and those of the other members of GGROUP (16
each), and the scales. -/
def State.amaxDone (s : State) (p layer : Nat) (peers : List (BitVec 32)) : State :=
  match s.updOf p with
  | none => s
  | some u =>
    if u.stage ≠ 3 ∨ !s.jobRuns p ∨ Tab.get 0 u.progress layer ≠ 1 then s else
    match u.ents.findIdx? (fun e => e.layer == layer), (u.layerEnts layer).head? with
    | some i, some e =>
      match s.collAt p e.ggroup e.aseq with
      | none => s
      | some c =>
        if !c.internal ∨ !c.credit ∨ c.st = .closing ∨ peers.length + 16 ≠ 16 * (s.groupEnt p e.ggroup).n then s else
        let all (k : Nat) : Nat := extremum .fp32 true (Tab.get 0 u.amax (layer * 16 + k) ::
          (List.range (peers.length / 16)).map (fun m => (peers.getD (16 * m + k) 0).toNat))
        let amax := (List.range 16).foldl (fun t k => Tab.set 0 t (layer * 16 + k) (all k)) u.amax
        let tens := (u.layerEnts layer).flatMap (·.tens)
        let odd (t : UpdTens) : Bool := (Fmt.fp32.decode (all t.tid)).isNan || (Fmt.fp32.decode (all t.tid)).isInf
        let s := ((s.dropColl c).count (R.COLL.CNT.DONE p) 1).pumpAll
        if tens.any odd then s.updFail p { u with amax := amax } 0x5025 3 layer i
        else
          let scale := tens.foldl (fun t x => Tab.set 0 t (layer * 16 + x.tid)
            (f8Scale (Fmt.fp32.decode (all x.tid)) (updMaxFin x.ofmt))) u.scale
          s.setUpd p { u with amax := amax, scale := scale, progress := Tab.set 0 u.progress layer 2 }
    | _, _ => s
/-- UPD_SLOT_CLAIM (R247, R264): in table order the layer shard arrives at the slot of STEP's parity; the claim is made, or waits. -/
def State.updClaim (s : State) (p layer : Nat) : State :=
  match s.updOf p with
  | none => s
  | some u =>
    if u.stage ≠ 3 ∨ !s.jobRuns p ∨ Tab.get 0 u.progress layer ≠ 2 ∨
       u.layers.any (fun l => decide (l < layer) && decide (Tab.get 0 u.progress l < 3)) then s else
    let t := s.trn' p
    let x := (t.shard layer).arrive u.step (s.batchRefs p u.step)
    let at_ := if !x.updWait.isEmpty && u.claimAt.isNone then some s.uptime else u.claimAt
    (s.setTrn p (t.setShard layer x)).setUpd p { u with progress := Tab.set 0 u.progress layer 3, claimAt := at_ }
/-- The F8 bits of a master weight under a scale (R265). -/
def updF8 (ofmt : Nat) (w : Val) (scale : Nat) : Nat :=
  ((if ofmt = 3 then Fmt.f8a else Fmt.f8b).round (.rne false) false (w.mul (Fmt.fp32.decode scale))).bits
/-- The return of one tensor piece: elements from `first` of the entry on, then the scale. -/
def State.returnTensor (s : State) (p : Nat) (u : UpdSt) (e : UpdEnt) (first : Nat) (t : UpdTens) : State :=
  let sc := Tab.get 0 u.scale (e.layer * 16 + t.tid)
  let base := s.slotBase p u.step
  let bs := (List.range t.elems).map (fun i =>
    BitVec.ofNat 8 (updF8 t.ofmt (Fmt.m48.decode (s.le (e.master + 6 * (first + i)) 6)) sc))
  (s.store (base + t.out) bs).storeLE (base + t.scale) 4 sc
/-- The return of an entry's tensors. -/
def State.returnEnt (s : State) (p : Nat) (u : UpdSt) (e : UpdEnt) (first : Nat) : List UpdTens → State
  | [] => s
  | t :: ts => (s.returnTensor p u e first t).returnEnt p u e (first + t.elems) ts
/-- The first refused access of a return: F8 elements and scales of an entry (R316, R439). -/
def State.returnReach (s : State) (p : Nat) (u : UpdSt) (e : UpdEnt) : Option (Nat × Reach) :=
  e.tens.findSome? (fun t =>
    let a := s.slotBase p u.step + t.out
    let b := s.slotBase p u.step + t.scale
    if t.elems ≠ 0 ∧ s.reach (some p) a t.elems true ≠ .ok then some (a, s.reach (some p) a t.elems true)
    else if s.reach (some p) b 4 true ≠ .ok then some (b, s.reach (some p) b 4 true) else none)
/-- The batch whose gradients an update has applied is through: its units leave the scheduler. -/
def State.applied (s : State) (p : Nat) : State :=
  let t := s.trn' p
  match t.ripe with
  | some b => s.setTrn p { t with units := t.units.filter (fun u => u.batch != b) }
  | none => s
/-- UPD_RETURN_DONE (R264 to R266): under a claim, in table order, the layer's weights and scales are written and the shard
publishes STEP; the last one completes UPDATE, with UPD_SKIPPED where pass 2 was skipped. -/
def State.returnDone (s : State) (p layer : Nat) : State :=
  match s.updOf p with
  | none => s
  | some u =>
    let x := ((s.trn' p).shard layer).slot u.step
    let es := u.layerEnts layer
    if u.stage ≠ 3 ∨ !s.jobRuns p ∨ Tab.get 0 u.progress layer ≠ 3 ∨ x.step ≠ u.step ∨ x.st ≠ 1 ∨
       u.layers.any (fun l => decide (l < layer) && Tab.get 0 u.progress l != 4) then s
    else match u.ents.findIdx? (fun e => e.layer == layer && s.poisoned e.master (e.elems * 6)), es.findSome? (s.returnReach p u) with
      | some i, _ => s.updFail p u 0x5024 3 layer i
      | none, some (a, r) => s.refuseHub p a r
      | none, none =>
        let s := match u.claimAt with
          | some t => (s.updWindows p).foldl (fun (s : State) w => s.count (R.UPD.UPD_CNT.CLAIM_US w) (s.uptime - t)) s
          | none => s
        let s := es.foldl (fun s e => s.returnEnt p u e 0 e.tens) s
        let s := ((s.modShard p layer (fun x => x.publish u.step)).wr (layFld p u.step) 1).turnCheck p
        let u := { u with progress := Tab.set 0 u.progress layer 4, claimAt := none }
        let s := s.setUpd p u
        if u.layers.all (fun l => Tab.get 0 u.progress l == 4) then
          let s := s.applied p
          if u.skipped then ((s.updEnd p u 0 0x5026).updErr p 0x5026 0 0 0 (fun _ => true)).trnGo p
          else (s.updEnd p u 0 0).trnGo p
        else s.trnGo p

/-! ## Ends outside the update's own commands -/

/-- CLOSING_ROUND_DONE: an internal collective of an update that ends with a status ends the update. -/
def State.collClosing (s : State) (p g q : Nat) (codes : List (BitVec 16)) (noise : List (NoiseSum × NoiseSum)) : State :=
  match s.collAt p g q, s.updOf p with
  | some c, some u =>
    let norm : Bool := g == 0 && u.name % 2 ^ 32 == q && u.stage == 2
    let amax : Bool := u.stage == 3 && u.ents.any (fun e => e.ggroup == g && e.aseq == q && Tab.get 0 u.progress e.layer == 1)
    if c.internal ∧ c.st = .closing ∧ s.jobRuns p ∧ (norm ∨ amax) then
      let st := agreed (c.code :: codes.map (·.toNat))
      if st = 0 then s else
      (((s.dropColl c).count (R.COLL.CNT.ABORTED p) 1).updEnd p u 4 st).collErr p g q st 3 c.peer
    else s.closingRound p g q codes noise
  | _, _ => s.closingRound p g q codes noise
/-- A job reset ends an update in flight; the layer in progress stays shown (R259). -/
def State.updAbort (s : State) (p : Nat) : State :=
  match s.updOf p with
  | some u => if u.live then s.updEnd p u 4 0x4006 else s
  | none => s
/-- The update's state of an ended job; UPD_ERR clears (R269). -/
def State.updForget (s : State) (p : Nat) : State :=
  (s.updWindows p).foldl (fun s w => s.wrW (R.UPD.UPD_ERR.REG w).reg 0) { s with upd := Tab.set none s.upd p none }
/-- The layer shown in NOL.UPD_STAT.LAYER: the first that is not published, or the last. -/
def UpdSt.layerNow (u : UpdSt) : Nat :=
  match u.layers.find? (fun l => Tab.get 0 u.progress l != 4) with
  | some l => l
  | none => u.layers.getLast?.getD 0
/-- The partition whose update window `w` shows (R269). -/
def State.updPart (s : State) (w : Nat) : Option Nat := (List.range 8).find? (fun p => (s.part p).valid && (s.updWindows p).contains w)
/-- µs of a run in progress, and of a claim that waits, which the counters show beside what they have counted. -/
def State.updRunning (s : State) (w : Nat) : Nat × Nat :=
  match (s.updPart w).bind s.updOf with
  | some u => (if u.stage = 3 then s.uptime - u.runAt else 0, match u.claimAt with | some t => s.uptime - t | none => 0)
  | none => (0, 0)
/-- NOL.UPD_STAT, UPD_INTAKE, UPD_CNT, UPD_NORM and UPD_AMAX of window `w` (Table 8-11): 0 with no update; window 1 of an unsplit
Nolmer reads 0 throughout. `v` is the stored value of a counter or selector. -/
def State.updView (s : State) (w k : Nat) (v : Word) : Word :=
  if w % 2 = 1 ∧ s.rd (R.NOL.MEM_CFG.SPLIT (w / 2)) = 0 then 0
  else if k = 4 then
    let (run, claim) := s.updRunning w
    BitVec.ofNat 64 (min (fieldOf v 0 32 + run) 0xffffffff + min (fieldOf v 32 32 + claim) 0xffffffff * 2 ^ 32)
  else if 5 ≤ k then v
  else match (s.updPart w) with
  | none => 0
  | some p =>
    match s.updOf p with
    | none => 0
    | some u =>
      let wait := u.stage == 3 && u.layers.any (fun l => ((s.trn' p).shard l).updWait.contains u.step)
      let nl := u.seen.filter (fun l => u.ents.any (fun e => e.nol == w / 2 && e.hasLine l))
      let i := s.rd (R.UPD.UPD_SEL.ENTRY w)
      let layer := (u.ents[i]?.map (·.layer)).getD 0
      let tid := s.rd (R.UPD.UPD_SEL.TID w)
      match k with
      | 0 => BitVec.ofNat 64 (u.stage + (if u.skipped then 8 else 0) + (if wait then 16 else 0) + u.step * 2 ^ 16 +
          u.layerNow * 2 ^ 32 + (u.layers.filter (fun l => Tab.get 0 u.progress l == 4)).length * 2 ^ 48)
      | 1 => BitVec.ofNat 64 nl.length
      | 2 => BitVec.ofNat 64 (u.ln.getD (2 * layer + s.rd (R.UPD.UPD_SEL.SUM w)) 0)
      | _ => if Tab.get 0 u.progress layer < 2 then 0 else
        BitVec.ofNat 64 (Tab.get 0 u.amax (layer * 16 + tid) + Tab.get 0 u.scale (layer * 16 + tid) * 2 ^ 32)

end Sys2Proof.Machine
end

