-- ==== Sys2Proof/Machine/Fabric.lean ====
section
/-! DEFINITION. The fabric (chapter 13): port states and partner discovery (R358 to R362), the topology and reach tables (R363
to R366), waxing (R369, R370), the link layer (R351, R352, R371), received messages (R355 to R357), and remote stores and
atomics at their destination and sender (R360, R440, R522). -/
namespace Sys2Proof.Machine

/-- A code tied to one port (R533). -/
def State.portErr (s : State) (p code cls : Nat) : State :=
  (s.recErr (R.FAB.ERR.VALID p) (R.FAB.ERR.OVERRUN p) [(R.FAB.ERR.CODE p, code)]).event code cls 15 0xffff p none
/-- A code tied to no port (R533). -/
def State.fabErr (s : State) (code cls module : Nat) : State :=
  (s.recErr R.FABG.ERR.VALID R.FABG.ERR.OVERRUN [(R.FABG.ERR.CODE, code), (R.FABG.ERR.MODULE, module)]).event code cls 15
    0xffff 0xffff none

/-! ## Topology and reach -/

/-- A route change (R366); how long it took is open (log entry 54). -/
def State.routed (s : State) : State :=
  (s.wrs [(R.FABG.TOPO_STAT.GEN, s.rd R.FABG.TOPO_STAT.GEN + 1), (R.FABG.TOPO_STAT.LAST_US, s.free 16)]).used 1
/-- Rack members that the link table knows. -/
def State.countMods (s : State) : State := s.wr R.FABG.TOPO_STAT.RACK_MODS s.fab.topo.length
/-- A reach mask with the bit of rack member `m` set or cleared. -/
def maskBit (w m : Nat) (on : Bool) : Nat :=
  if on then (if w / 2 ^ m % 2 = 1 then w else w + 2 ^ m) else (if w / 2 ^ m % 2 = 1 then w - 2 ^ m else w)
/-- The reach table with rack member `m` reaching exactly the racks that satisfy `reaches` (R364). -/
def setReach (t : Tab Nat) (m : Nat) (reaches : Nat → Bool) : Tab Nat :=
  (List.range 1024).foldl (fun t r => Tab.set 0 t r (maskBit (Tab.get 0 t r) m (reaches r))) t
/-- Whether an own system port leads to a rack (R364). -/
def State.reaches (s : State) (rack : Nat) : Bool := (List.range 32).any (s.leadsTo rack)
/-- The ACTIVE tray and rack ports but one (R363). -/
def State.rackPorts (s : State) (but : Nat) : List Nat :=
  (List.range 32).filter (fun p => p != but && s.portState p == 4 && (s.rd (R.FAB.STAT.LEVEL p) == 1 || s.rd (R.FAB.STAT.LEVEL p) == 2))
/-- The own update (R363, R364): its sequence advances, the own entries and reach stand in the tables, and it goes to every
ACTIVE tray and rack partner. -/
def State.flood (s : State) : State :=
  let q := s.fab.updSeq + 1
  let t := Tab.insert (⟨Config.serial.toNat, q, s.ownEnts⟩ : TopoMod) s.fab.topo s.rackPlace
  let s := ({ s with fab := { s.fab with updSeq := q, topo := t, reach := setReach s.fab.reach s.rackPlace s.reaches } } : State).routed.countMods
  (s.rackPorts 32).foldl (fun s p => s.sendPort p 9) s

/-! ## Port states -/

/-- A port leaves ACTIVE or WAX (R359, Table 13-5): its replay buffer and credits go, FAB_PORT_DOWN is raised, a topology
update is sent, and what was not yet sent moves to other ports. -/
def State.portLeave (s : State) (p st : Nat) : State :=
  let x := s.port p
  let s := s.setPort p { PortSt.idle with fails := x.fails, chal := x.chal }
  let s : State := { s with fab := { s.fab with advert := Tab.set none s.fab.advert p none } }
  let s := (s.portTo p st).wrs [(R.FAB.STAT.LEVEL p, 0), (R.FAB.STAT.PTYPE p, 0)]
  let s := ((s.wrW (R.FAB.PARTNER.MODULE p).reg 0).portErr p 0x3002 1).flood
  x.queue.foldl (fun s e => s.forward e.1 e.2) s
/-- Entry to RETRAIN (Table 13-5), counted in LL_CNT and in the lifetime counter of the port (Table 18-4). -/
def State.portRetrain (s : State) (p : Nat) : State :=
  let s := (s.portLeave p 6).count (R.FAB.LL_CNT.RETRAINS p) 1
  { s with clk := { s.clk with life := Tab.set 0 s.clk.life (14 + p) (min (Tab.get 0 s.clk.life (14 + p) + 1) (2 ^ 32 - 1)) } }
/-- Loss of signal (Table 13-5), with the state that follows. -/
def State.portLoss (s : State) (p st : Nat) : State :=
  if s.portUp p then (s.portLeave p st).count (R.FAB.LL_CNT.DOWNS p) 1
  else (s.portTo p st).wr (R.FAB.STAT.QREASON p) 0
/-- PORT_ENABLE (R358): boot without a rack value, and a fatal error, keep every port DISABLED (R513, R469). -/
def State.portEnable (s : State) (p : Nat) : State :=
  if s.boot.portsOff || s.rd R.RAS.STAT.STATE != 0 then s else
  let s := s.wr (R.FAB.CTL.EN p) 1
  if s.portState p = 0 then s.portTo p 1 else s
/-- PORT_DISABLE (R358): any state to DISABLED, as loss of signal. -/
def State.portDisable (s : State) (p : Nat) : State := (s.wr (R.FAB.CTL.EN p) 0).portLoss p 0
/-- SIGNAL_DETECT. -/
def State.signalDetect (s : State) (p : Nat) : State := if s.portState p = 1 then s.portTo p 2 else s
/-- TRAINING_DONE: training or retraining leads to PROBE; a probe with a fresh random challenge goes out (R361). -/
def State.trainingDone (s : State) (p : Nat) : State :=
  if s.portState p = 2 ∨ s.portState p = 6 then
    let x := s.port p
    let ch := s.free 64
    ((s.used 1).setPort p { x with fails := 0, probes := 0, gotProbe := false, gotAck := false, chal := ch }).portTo p 3
  else s
/-- TRAINING_FAIL: back to IDLE; the fourth consecutive failure of TRAINING gives FAILED. -/
def State.trainingFail (s : State) (p : Nat) : State :=
  if s.portState p = 6 then s.portTo p 1
  else if s.portState p = 2 then
    let x := s.port p
    if x.fails ≥ 3 then ((s.setPort p { x with fails := 0 }).portTo p 8).portErr p 0x3003 1
    else (s.setPort p { x with fails := x.fails + 1 }).portTo p 1
  else s
/-- The exchange is refused (R362). -/
def State.quarantine (s : State) (p reason code : Nat) : State :=
  ((s.portTo p 7).wr (R.FAB.STAT.QREASON p) reason).portErr p code 1
/-- The exchange is accepted both ways: the port is ACTIVE, with full credits (Table 13-3), and an update is sent. -/
def State.portActive (s : State) (p : Nat) : State :=
  let x := s.port p
  if !x.gotProbe || !x.gotAck then s else
  let s := s.setPort p { PortSt.idle with chal := x.chal, gotProbe := true, gotAck := true, credits := [(0, 32), (1, 512), (2, 64), (3, 256)] }
  (s.portTo p 4).flood
/-- Why a valid probe is refused (Table 13-7): reason and code. -/
def State.probeRefusal (s : State) (p : Nat) (f : ProbeF) : Option (Nat × Nat) :=
  let v := f.version.toNat
  let m := f.ptype == 1
  if f.fabric.toNat ≠ s.rd R.FABG.ID.FABRIC then some (1, 0x3004)
  else if 0x0700 ≤ v ∧ v ≤ 0x07ff then some (2, 0x3005)
  else if m && f.module.toNat == s.moduleId then some (3, 0x3006)
  else if v ≠ 0x0900 then some (4, 0x3007)
  else if m && (f.module.toNat != f.rack.toNat * 64 + f.tray.toNat * 8 + f.slot.toNat || f.encap != s.on (R.FAB.CTL.ENCAP p)) then
    some (5, 0x3008)
  else none
/-- The level of an accepted partner: 1 tray, 2 rack, 3 system. -/
def State.partnerLevel (s : State) (p : Nat) (f : ProbeF) : Nat :=
  if f.ptype ≠ 1 ∨ s.on (R.FAB.CTL.ENCAP p) ∨ f.rack.toNat ≠ s.rd R.FABG.ID.RACK then 3
  else if f.tray.toNat = s.rd R.FABG.ID.TRAY then 1 else 2
/-- PROBE (R361, R362): the partner's probe is refused, or its fields stand in FAB.PARTNER and it is acknowledged. A reserved
PTYPE is no valid probe. -/
def State.probe (s : State) (p : Nat) (f : ProbeF) (tagOk : Bool) : State :=
  if s.portState p ≠ 3 then s
  else if !tagOk then s.quarantine p 1 0x3004
  else match s.probeRefusal p f with
    | some (r, c) => s.quarantine p r c
    | none =>
      if f.ptype = 0 ∨ f.ptype = 3 then s else
      let s := s.wrs [(R.FAB.STAT.LEVEL p, s.partnerLevel p f), (R.FAB.STAT.PTYPE p, f.ptype.toNat),
        (R.FAB.PARTNER.MODULE p, if f.ptype = 1 then f.module.toNat else 0), (R.FAB.PARTNER.PORT p, f.port.toNat),
        (R.FAB.PARTNER.RACK p, f.rack.toNat), (R.FAB.PARTNER.TRAY p, f.tray.toNat), (R.FAB.PARTNER.SLOT p, f.slot.toNat)]
      (s.setPort p { s.port p with gotProbe := true }).portActive p
/-- PROBE_ACK (R361): a valid acknowledgement of the own challenge. -/
def State.probeAck (s : State) (p : Nat) (chal : Word) (tagOk : Bool) : State :=
  if s.portState p ≠ 3 then s
  else if !tagOk then s.quarantine p 1 0x3004
  else if chal.toNat ≠ (s.port p).chal then s
  else (s.setPort p { s.port p with gotAck := true }).portActive p
/-- PROBE_TIMEOUT. -/
def State.probeTimeout (s : State) (p : Nat) : State :=
  if s.portState p = 3 then ((s.portTo p 1).wrs [(R.FAB.STAT.LEVEL p, 0), (R.FAB.STAT.PTYPE p, 0)]).wrW
    (R.FAB.PARTNER.MODULE p).reg 0 else s
/-- LOSS_OF_SIGNAL: from ACTIVE, WAX and QUARANTINE to IDLE; Table 13-5 gives the other states no such event. -/
def State.lossOfSignal (s : State) (p : Nat) : State :=
  if s.portUp p ∨ s.portState p = 7 then s.portLoss p 1 else s
/-- FEC_ERROR_LIMIT: the FEC codewords of 1 ms. -/
def State.fecErrors (s : State) (p corrected uncorrectable : Nat) : State :=
  let s := (s.count (R.FAB.FEC_CNT.CORR_CW p) corrected).count (R.FAB.FEC_CNT.UNCORR_CW p) uncorrectable
  if s.portState p = 4 ∧ uncorrectable > s.rd (R.FAB.CTL.UNCORR_MAX p) then s.portRetrain p else s
/-- FAILED_HOLDOFF. -/
def State.failedHoldoff (s : State) (p : Nat) : State := if s.portState p = 8 then s.portTo p 1 else s
/-- WAX_DUE (R369): the hold begins, unless another port of the module is in one; VC0 flits move to another ACTIVE port to the
partner. -/
def State.waxDue (s : State) (p : Nat) : State :=
  if s.portState p = 4 && s.on (R.FAB.CTL.WAX_EN p) && (List.range 32).all (fun q => s.portState q != 5) then
    let (small, rest) := (s.port p).queue.partition (fun e => e.1.vc == 0)
    small.foldl (fun s e => s.enqueue p e.1 e.2) ((s.setPort p { s.port p with queue := rest }).portTo p 5)
  else s
/-- WAX_DONE (R369, R370). -/
def State.waxDone (s : State) (p : Nat) (ok : Bool) (ns : Nat) : State :=
  if s.portState p ≠ 5 then s else
  let s := s.wr (R.FAB.WAX.LAST_NS p) ns
  if ok then ((s.count (R.FAB.WAX.COUNT p) 1).portTo p 4).pumpPort p
  else ((s.count (R.FAB.WAX.FAILS p) 1).portErr p 0x300b 0).portRetrain p

/-! ## Updates from others -/

/-- A message dropped under R356: counted, FAB_TAG_FAIL. -/
def State.dropMsg (s : State) (src : Nat) : State := (s.count R.FABG.DROP.TAG_FAIL 1).fabErr 0x3009 0 src
/-- R365: two modules carry the own ID; every port is quarantined with reason 3. -/
def State.quarantineAll (s : State) : State :=
  (List.range 32).foldl (fun s p => if s.portState p = 0 then s else
    ((if s.portUp p then s.portLeave p 7 else s.portTo p 7).wr (R.FAB.STAT.QREASON p) 3)) s
/-- TOPOLOGY_UPDATE (R356, R363 to R366): an update with a higher sequence replaces its originator's entries and reach, and is
forwarded; one ID with two serial numbers raises FAB_DUP_ID; one whose tag fails is dropped. -/
def State.topologyUpdate (s : State) (p : Nat) (u : TopoUpd) (tagOk : Bool) : State :=
  let lvl := s.rd (R.FAB.STAT.LEVEL p)
  let m := u.module.toNat
  if !s.portUp p ∨ (lvl ≠ 1 ∧ lvl ≠ 2) ∨ m / 64 ≠ s.rd R.FABG.ID.RACK then s
  else if !tagOk then s.dropMsg m
  else if m = s.moduleId then
    if u.serial.toNat = Config.serial.toNat then s else (s.fabErr 0x3006 1 m).quarantineAll
  else
    let k := m % 64
    let x := s.topo k
    let known := s.fab.topo.any (fun e => e.1 == k)
    if known ∧ x.serial ≠ u.serial.toNat then s.fabErr 0x3006 1 m
    else if known ∧ u.seq.toNat ≤ x.seq then s
    else
      let r := u.reach.foldl (fun t e => Tab.set 0 t e.1.val (maskBit (Tab.get 0 t e.1.val) k (e.2 != 0))) s.fab.reach
      ({ s with fab := { s.fab with topo := Tab.insert (⟨u.serial.toNat, u.seq.toNat, u.ents⟩ : TopoMod) s.fab.topo k,
                                    reach := r } } : State).routed.countMods |> (fun s =>
        (s.rackPorts p).foldl (fun s q => s.sendPort q 9) s)
/-- REACH_ADVERT (R364): a switch's newer advertisement is merged, and a reach change is flooded. -/
def State.reachAdvert (s : State) (p : Nat) (racks : List Nat) (seq : Nat) : State :=
  if !s.portUp p ∨ s.rd (R.FAB.STAT.PTYPE p) ≠ 2 then s else
  let old : Bool := match Tab.get none s.fab.advert p with | some a => decide (seq ≤ a.seq) | none => false
  if old then s else
  let before := s.fab.reach
  let s : State := { s with fab := { s.fab with advert := Tab.set none s.fab.advert p (some ⟨seq, racks⟩) } }
  if setReach before s.rackPlace s.reaches = before then s else s.flood

/-! ## Link layer -/

/-- A negative acknowledgement: the flits after ACK are sent again; the 16th time without progress the port retrains
(R351). -/
def State.replay (s : State) (p : Nat) : State :=
  let x := s.port p
  let s := ((s.count (R.FAB.LL_CNT.REPLAYS p) 1).portErr p 0x3001 0).setPort p { x with resends := x.resends + 1 }
  if x.resends + 1 ≥ 16 then s.portRetrain p else s
/-- The idle flit that answers a received one (R351, R352): the last SEQ received in order, with NAK where flits are to be sent again,
else with the credit of the buffer that is free again. -/
def PortSt.answer (x : PortSt) (nak : Bool) (vc : Fin 4) : FlitHdr :=
  ⟨0, 0, BitVec.ofNat 12 (x.rxSeq + 4095), nak, vc, if nak then 0 else 1, false, false, true⟩
/-- FLIT_RECEIVE (R351, R352): a flit with a CRC error or out of sequence is discarded and answered with NAK; a good one gives its
acknowledgement and credits, and one with a body advances the sequence and is acknowledged. -/
def State.flit (s : State) (p : Nat) (h : FlitHdr) (crcOk : Bool) : State :=
  if !(s.portUp p || s.portState p == 3) then s else
  let x := s.port p
  if !crcOk || (!h.idle && h.seq.toNat != x.rxSeq) then s.setPort p { x with reply := some (x.answer true 0) } else
  let c := Tab.get 0 x.credits h.crVc.val
  let y : PortSt := { x with
    rxSeq := if h.idle then x.rxSeq else (x.rxSeq + 1) % 4096
    credits := Tab.set 0 x.credits h.crVc.val (c + h.cred.toNat)
    acked := h.ack.toNat
    replay := if x.replay.any (fun f => f.seq == h.ack.toNat) then (x.replay.dropWhile (fun f => f.seq != h.ack.toNat)).drop 1 else x.replay
    resends := if h.ack.toNat = x.acked then x.resends else 0 }
  let s := s.setPort p (if h.idle then y else { y with reply := some (y.answer false h.vc) })
  (if h.nak then s.replay p else s).pumpPort p
/-- ETH_FRAME (R371, Table 13-8): the flits of a good frame enter the link layer; a frame that fails its FCS is lost. -/
def State.ethFrame (s : State) (p : Nat) (ok : Bool) (version : Nat) (flits : List (FlitHdr × Bool)) : State :=
  if s.on (R.FAB.CTL.ENCAP p) && ok && version == 1 && decide (flits.length ≤ 16) then
    flits.foldl (fun s f => s.flit p f.1 f.2) s
  else s
/-- PFC_PAUSE (R371): flow control for the port's priority holds its sender. -/
def State.pfcPause (s : State) (p : Nat) (pcp : BitVec 8) (quanta : Nat) : State :=
  if s.on (R.FAB.CTL.ENCAP p) && pcp.toNat / 2 ^ s.rd (R.FAB.ETH_CFG.PCP p) % 2 == 1 then
    (s.setPort p { s.port p with pause := quanta }).pumpPort p
  else s

/-! ## Received messages -/

/-- What a receiver keeps for a key slot and source. -/
def State.window (s : State) (key src : Nat) : Recv := Tab.get ⟨0, []⟩ s.fab.recv (key * 65536 + src)
/-- Whether a counter was delivered already or lies below the window (R357). -/
def Recv.dup (r : Recv) (ctr : Nat) : Bool := r.seen.contains ctr || decide (ctr + 65536 < r.high)
/-- A delivered counter. -/
def Recv.take (r : Recv) (ctr : Nat) : Recv :=
  let h := max r.high ctr
  ⟨h, (ctr :: r.seen).filter (fun x => decide (h ≤ x + 65536))⟩
/-- Whether a message's slot is loaded for its job (R356). -/
def State.slotFits (s : State) (h : THdr) : Bool :=
  match Tab.get none s.fab.slots h.keyIdx.val with
  | some k => k.job == h.job.toNat
  | none => false
/-- A job message that arrives for this module: dropped where its slot, job or tag is wrong (R356), dropped as a duplicate
(R357), else delivered to `k` with the job. A message for another module is passed on (R367). -/
def State.deliver (s : State) (port : Nat) (h : THdr) (tagOk : Bool) (k : State → Job → State) : State :=
  if !s.portUp port then s
  else if h.dst.toNat ≠ s.moduleId then s.send ⟨h, 0⟩
  else if !s.slotFits h || !tagOk then s.dropMsg h.src.toNat
  else
    let w := s.window h.keyIdx.val h.src.toNat
    if w.dup h.ctr.toNat then s.count R.FABG.DROP.DUP 1
    else
      let s : State := { s with fab := { s.fab with
        recv := Tab.set ⟨0, []⟩ s.fab.recv (h.keyIdx.val * 65536 + h.src.toNat) (w.take h.ctr.toNat) } }
      match s.job h.job.toNat with
      | some j => k s j
      | none => s

/-- The acknowledgement of a chunk to its sender (R236), who frees it; a Carve's names its move. -/
def State.ackChunk (s : State) (j : Job) (h : THdr) (xid : Nat) : State :=
  s.sendJob j.id h.src.toNat 3 (fun m =>
    { m with seq := h.seq, group := h.group, chunk := h.chunk, level := h.level, addr := BitVec.ofNat 48 xid })
/-- The move of a Carve's payload, 0 for any other. -/
def xidOf : ChunkData → Nat
  | .carve xid _ => xid.toNat
  | .elems _ _ _ => 0
  | .piece _ _ _ => 0
  | .contribs _ _ => 0
  | .bytes _ _ => 0
/-- A chunk's payload enters its collective (R222 to R225), or its Carve (R192). -/
def State.takeChunk (s : State) (p g q k src : Nat) : ChunkData → State
  | .elems r n v => s.collData p g q false ⟨k, r, n, 0, [v]⟩
  | .piece r scale b => s.collData p g q false ⟨k, r, 1, scale.toNat, [ofBytes b]⟩
  | .contribs r v => s.collData p g q false ⟨k, r, 1, 0, v⟩
  | .bytes r b => s.collData p g q false ⟨k, r, 1, 0, [ofBytes b]⟩
  | .carve xid b => s.carveData p xid.toNat k src b
/-- CHUNK_ARRIVE (R222, R236): a chunk's payload enters its collective or Carve and is acknowledged; one with a bad tag is requested
again. -/
def State.chunkArrive (s : State) (port : Nat) (h : THdr) (tagOk : Bool) (d : ChunkData) : State :=
  let g := h.group.val
  let q := h.seq.toNat
  let k := h.chunk.toNat
  let s1 := s.deliver port h tagOk (fun s j => (s.takeChunk j.part g q k h.src.toNat d).ackChunk j h (xidOf d))
  if s.portUp port && h.dst.toNat == s.moduleId && s.slotFits h && !tagOk then
    match s.job h.job.toNat with
    | some j => s1.chunkAgain j.part g q k h.src.toNat (xidOf d)
    | none => s1
  else s1
/-- SMALL_TOKEN (R231, R238, R241): small-path data, a closing code, or the abort token of a job reset. -/
def State.smallToken (s : State) (port : Nat) (h : THdr) (tagOk : Bool) (t : SmallTok) : State :=
  s.deliver port h tagOk (fun s j =>
    let g := h.group.val
    let q := h.seq.toNat
    match t with
    | .data r n v => s.collData j.part g q true ⟨0, r, n, 0, v⟩
    | .closing code => match s.collAt j.part g q with
      | some c => if c.st = .running ∧ code ≠ 0 ∧ s.jobRuns j.part then s.collFail c code.toNat (some h.src.toNat) else s
      | none => s
    | .abortJob code origin => s.abortJob j.id code.toNat origin.toNat)
/-- A collective of a job passed through `f`. -/
def State.modColl (s : State) (p g q : Nat) (f : Coll → Coll) : State :=
  match s.collAt p g q with
  | some c => s.setColl (f c)
  | none => s
/-- CHUNK_REQUEST (R236, R355, R367): the stored chunk is sent again, unless its receiver acknowledged it. -/
def State.chunkRequest (s : State) (port : Nat) (h : THdr) (tagOk : Bool) : State :=
  s.deliver port h tagOk (fun s j => match s.collAt j.part h.group.val h.seq.toNat with
    | none => s
    | some c =>
      let k := h.chunk.toNat
      let n := Tab.get 0 c.resent k + 1
      if c.acked.contains (k, h.src.toNat) then s else
      (s.setColl { c with resent := Tab.set 0 c.resent k n }).send
        ⟨{ h with src := h.dst, dst := h.src, kind := 0, bytes := BitVec.ofNat 40 (c.desc.chunkLen * c.desc.wire) }, n⟩)
/-- CHUNK_ACK (R236): the receiver has the chunk; the sender frees it. -/
def State.chunkAck (s : State) (port : Nat) (h : THdr) (tagOk : Bool) : State :=
  s.deliver port h tagOk (fun s j => s.modColl j.part h.group.val h.seq.toNat (fun c =>
    if c.acked.contains (h.chunk.toNat, h.src.toNat) then c else { c with acked := c.acked ++ [(h.chunk.toNat, h.src.toNat)] }))

/-! ## Remote accesses -/

/-- The answer to a remote access leaves under the job's key slot (R355, R440); it carries the counter it answers in ADDR (log
entry 55). -/
def State.answer (s : State) (h : THdr) (a : RemAns) : State :=
  let i := h.keyIdx.val
  let slots := match Tab.get none s.fab.slots i with
    | some k => Tab.set none s.fab.slots i (some { k with ctr := k.ctr + 1 })
    | none => s.fab.slots
  let m : THdr := { h with src := h.dst, dst := h.src, kind := if h.kind = 5 then 7 else 6,
                           ctr := BitVec.ofNat 64 ((Tab.get none s.fab.slots i).elim 0 (·.ctr)), addr := BitVec.ofNat 48 h.ctr.toNat,
                           bytes := if h.kind = 5 then 8 else 0, poisoned := a.poisoned }
  ({ s with fab := { s.fab with slots := slots, lastAns := some a } } : State).send ⟨m, 0⟩
/-- A remote access performed at its place and answered: a store, one to an OFF segment being discarded (R301), or one
indivisible read and write at the word's home (R281, R283). -/
def State.serveRemote (s : State) (m : HeldMsg) : State :=
  let a := m.h.addr.toNat
  match m.op with
  | .store data =>
    let ans : RemAns := ⟨m.h.src.toNat, m.h.ctr.toNat, true, 0, false⟩
    match (if data.isEmpty then Reach.ok else s.reach (some m.part) a data.length true) with
    | .off i => (s.refuseHub m.part a (.off i)).answer m.h ans
    | _ => (s.paste a data.length (.ofMarked data)).answer m.h ans
  | .atomic op operand expected =>
    let old : Word := BitVec.ofNat 64 (s.le a 8)
    if s.poisoned a 8 then s.answer m.h ⟨m.h.src.toNat, m.h.ctr.toNat, true, old, true⟩
    else (s.atomicWrite a op old operand expected).answer m.h ⟨m.h.src.toNat, m.h.ctr.toNat, true, old, false⟩
/-- The bytes that a remote access touches. -/
def HeldMsg.bytes (m : HeldMsg) : Nat := match m.op with | .store data => data.length | .atomic _ _ _ => 8
/-- A remote access that may go on: it waits behind a retrain of its pseudo-channel (R283, R318), and behind a waiting access to
the same bytes, or is performed. -/
def State.takeRemote (s : State) (m : HeldMsg) : State :=
  let mine : Rng := (m.h.addr.toNat, m.bytes)
  if m.bytes ≠ 0 ∧ (s.held mine.1 mine.2 ∨ s.fab.heldMsgs.any (fun q => Rng.overlaps mine (q.h.addr.toNat, q.bytes))) then
    { s with fab := { s.fab with heldMsgs := s.fab.heldMsgs ++ [m] } }
  else s.serveRemote m
/-- A retrain hold has ended: remote accesses that waited are taken again in their order. -/
def State.serveHeld (s : State) : State :=
  s.fab.heldMsgs.foldl State.takeRemote { s with fab := { s.fab with heldMsgs := [] } }
/-- REMOTE_STORE (R440, R521, R522): checked against the partition of the job, then applied or refused. -/
def State.remoteStore (s : State) (port : Nat) (h : THdr) (tagOk : Bool) (data : List (Byte × Bool)) : State :=
  s.deliver port h tagOk (fun s j =>
    let a := h.addr.toNat
    let r := if data.isEmpty then Reach.ok else s.reach (some j.part) a data.length true
    match r with
    | .ok => s.takeRemote ⟨j.part, h, .store data⟩
    | .off _ => s.takeRemote ⟨j.part, h, .store data⟩
    | r => (s.refuseHub j.part a r).answer h ⟨h.src.toNat, h.ctr.toNat, false, 0, false⟩)
/-- REMOTE_ATOMIC (R281, R283, R440): one indivisible read and write at the word's home. -/
def State.remoteAtomic (s : State) (port : Nat) (h : THdr) (tagOk : Bool) (op : AOp) (operand expected : Word) : State :=
  s.deliver port h tagOk (fun s j =>
    let a := h.addr.toNat
    let r : Reach := match placeOf a with
      | .hbm => s.reach (some j.part) a 8 true
      | .slow _ _ => s.reach (some j.part) a 8 true
      | _ => .unmapped
    if r ≠ .ok then (s.refuseHub j.part a r).answer h ⟨h.src.toNat, h.ctr.toNat, false, 0, false⟩
    else s.takeRemote ⟨j.part, h, .atomic op operand expected⟩)

/-- The outstanding remote access that an answer names: key slot, module, and the counter of the message it answers, which the
answer carries in ADDR (log entry 55). -/
def State.remoteOf (s : State) (h : THdr) : Option Remote :=
  s.chip.remotes.find? (fun r => r.key == h.keyIdx.val && r.ctr == h.addr.toNat && r.module == h.src.toNat)
/-- An outstanding access that has ended. -/
def State.endRemote (s : State) (r : Remote) : State :=
  { s with chip := { s.chip with remotes := s.chip.remotes.erase r } }
/-- The end of an access that waits at its core for an answer: a transfer refused at its destination has STATUS 2. -/
def State.refusedRemote (s : State) (r : Remote) : State :=
  match r.kind with
  | .xfer q => match (s.core r.core).xfers.find? (fun x => x.seq == q) with
    | some x => (s.dropXfer r.core q).xferWord r.core x 2
    | none => s
  | .signal => s
  | .atomic _ => s.release r.core
/-- STORE_ACK (R360, R440). -/
def State.storeAck (s : State) (port : Nat) (h : THdr) (tagOk positive : Bool) : State :=
  s.deliver port h tagOk (fun s j => match s.remoteOf h with
    | none => s
    | some r =>
      let s := s.endRemote r
      ((if positive then s else s.refusedRemote r).poke r.core).collPoke j.part)
/-- ATOMIC_RESULT (R281, R283): the old value goes to s[D]; a poisoned word raises ARR_POISON; a refusal ends the atomic. -/
def State.atomicResult (s : State) (port : Nat) (h : THdr) (tagOk positive : Bool) (old : Word) : State :=
  s.deliver port h tagOk (fun s j => match s.remoteOf h with
    | none => s
    | some r => match r.kind with
      | .atomic d =>
        let s := (s.endRemote r).release r.core
        let s := if !positive then s
          else if h.poisoned then s.coreFault r.core 0x1004 3 0 ((s.core r.core).pc - 1) false
          else s.setSreg r.core d old
        (s.poke r.core).collPoke j.part
      | _ => s)
/-- REMOTE_TIMEOUT (R360): sent again three times at most; then the access is lost. -/
def State.remoteTimeout (s : State) (ctr key : Nat) : State :=
  match s.chip.remotes.find? (fun r => r.key == key && r.ctr == ctr) with
  | none => s
  | some r =>
    if r.resends < 3 then
      ({ s with chip := { s.chip with remotes := s.chip.remotes.map (fun x => if x = r then { x with resends := x.resends + 1 } else x) } } : State).send
        ⟨s.remHdr r, r.resends + 1⟩
    else
      let s := s.endRemote r
      let s : State := match r.kind with
        | .xfer q => match (s.core r.core).xfers.find? (fun x => x.seq == q) with
          | some x => s.xferLost r.core x
          | none => s.unreachable r.core r.module
        | .signal => s.unreachable r.core r.module
        | .atomic _ => (s.release r.core).unreachable r.core r.module
      match s.partOfCore r.core with
      | some p => s.collPoke p
      | none => s

end Sys2Proof.Machine
end

