-- ==== Sys2Proof/Machine/Jobs.lean ====
section
/-! DEFINITION. Jobs on the module: writes of the partition windows by the work scheduler (R136, R176, R208, R244),
JOB_START (R386, R434), JOB_ABORT and JOB_END (R387, R441, R532), JOB_TAKEOVER (R392), and the end of a job reset (R241). -/
namespace Sys2Proof.Machine

/-! ## Register windows of a partition -/

/-- The partition windows of Table 21-3 that a job's settings may name. -/
inductive WinBlock where
  | coll | sched | roll | trn
deriving DecidableEq, Repr

/-- The window, partition and offset inside it of a control-space offset. -/
def winOf (off : Nat) : Option (WinBlock × Nat × Nat) :=
  let at_ (b : WinBlock) (base : Nat) : Option (WinBlock × Nat × Nat) :=
    if base ≤ off ∧ off < base + 0x8000 then some (b, (off - base) / 0x1000, (off - base) % 0x1000) else none
  (at_ .coll 0x4000000) <|> (at_ .sched 0x5000000) <|> (at_ .roll 0x6000000) <|> (at_ .trn 0x7000000)
/-- Whether firmware's write of a window register is ignored now (R136, R176, R208, R244). -/
def State.winFrozen (s : State) (b : WinBlock) (p o : Nat) : Bool :=
  match b with
  | .trn => s.on (R.TRN.CTL.EN p) && (o == 0x10 || o == 0x18 || o == 0x20 || o == 0x28 || o == 0x30)
  | .roll => s.on (R.ROLL.CTL.EN p) && (o == 0x8 || o == 0x10 || o == 0x18 || o == 0x20)
  | .coll => s.on (R.COLL.CTL.EN p) && (o == 0x8 || o == 0x10)
  | .sched => s.phase p != 0 && (o == 0x20 || o == 0x28)
/-- The EN bit of a partition's block set or cleared; the scheduler's block has none. -/
def State.winEnable (s : State) (b : WinBlock) (p : Nat) (on : Bool) : State :=
  match b with
  | .trn => if on then s.trnEnable p else s.trnDisable p
  | .roll => if on then s.rollEnable p else s.rollDisable p
  | .coll => if on then s.collEnable p else s.collDisable p
  | .sched => s
/-- Whether a partition's block is enabled. -/
def State.winOn (s : State) (b : WinBlock) (p : Nat) : Bool :=
  match b with
  | .trn => s.on (R.TRN.CTL.EN p)
  | .roll => s.on (R.ROLL.CTL.EN p)
  | .coll => s.on (R.COLL.CTL.EN p)
  | .sched => false
/-- A write by firmware of a register in a partition window, with each register's own checks: of a block's CTL the fields
beside EN are stored, then a change of EN enables or disables the block. -/
def State.winWrite (s : State) (b : WinBlock) (p o off : Nat) (v : Word) : State :=
  if s.winFrozen b p o then s
  else if o = 0 ∧ b ≠ .sched then
    let was := s.winOn b p
    let s := s.regPut s.boot.locked off (BitVec.ofNat 64 (v.toNat / 2 * 2 + (if was then 1 else 0)))
    if (fieldOf v 0 1 == 1) != was then s.winEnable b p (!was) else s
  else s.regPut s.boot.locked off v

/-! ## The job descriptor -/

/-- The 64-bit word at a host address. -/
def State.hostW (s : State) (port a : Nat) : Word := BitVec.ofNat 64 (s.hostLE port a 8)

/-- The fields of a job descriptor (Table 14-7); `ok` says that its reserved bits are 0. -/
structure JobDesc where
  id : Nat
  part : Nat
  seed : BitVec 128
  image : Nat
  imageBytes : Nat
  groups : Nat
  ngroups : Nat
  streams : Nat
  nstreams : Nat
  acctFirst : Nat
  acctN : Nat
  settings : Nat
  nset : Nat
  ok : Bool
/-- The descriptor at a host address. -/
def State.jobDesc (s : State) (port a : Nat) : JobDesc :=
  let w (i : Nat) : Word := s.hostW port (a + 8 * i)
  { id := fieldOf (w 0) 0 16, part := fieldOf (w 0) 16 3, seed := BitVec.ofNat 128 ((w 1).toNat + (w 2).toNat * 2 ^ 64)
    image := (w 3).toNat, imageBytes := fieldOf (w 4) 0 40, groups := (w 5).toNat, ngroups := fieldOf (w 6) 0 12 + 1
    streams := (w 7).toNat, nstreams := fieldOf (w 8) 0 6 + 1, acctFirst := fieldOf (w 9) 0 12
    acctN := fieldOf (w 9) 12 13, settings := (w 10).toNat, nset := fieldOf (w 11) 0 9
    ok := (w 0).toNat / 2 ^ 19 == 0 && (w 4).toNat / 2 ^ 40 == 0 && (w 6).toNat / 2 ^ 12 == 0 &&
          (w 8).toNat / 2 ^ 6 == 0 && (w 9).toNat / 2 ^ 25 == 0 && (w 11).toNat / 2 ^ 9 == 0 &&
          (List.range' 12 20).all (fun i => w i == 0) }

/-- A group definition of a job descriptor with its member list. -/
structure GroupDef where
  group : Nat
  cred : Nat
  sbuf : Nat
  timeout : Nat
  members : List Nat
  ok : Bool
/-- Group definition `i` (R209, R386): credits 1 to 16 by its field, quota at most 256 MiB, timeout at least 100 µs, no module
twice. -/
def State.groupDef (s : State) (port a i : Nat) : GroupDef :=
  let w (k : Nat) : Word := s.hostW port (a + 32 * i + 8 * k)
  let n := fieldOf (w 0) 12 16 + 1
  { group := fieldOf (w 0) 0 12, cred := fieldOf (w 0) 28 4, sbuf := fieldOf (w 0) 32 9, timeout := fieldOf (w 1) 0 32
    members := (List.range n).map (fun r => s.hostLE port ((w 2).toNat + 2 * r) 2)
    ok := (w 0).toNat / 2 ^ 41 == 0 && (w 1).toNat / 2 ^ 32 == 0 && w 3 == 0 && decide (fieldOf (w 0) 32 9 ≤ 256) &&
          decide (100 ≤ fieldOf (w 1) 0 32) && decide ((List.range n).map (fun r => s.hostLE port ((w 2).toNat + 2 * r) 2)).Nodup }

/-- Entry `i` of a stream-ring table, none where it breaks a limit (R386). -/
def State.streamDef (s : State) (port a i : Nat) : Option StreamRing :=
  let w (k : Nat) : Word := s.hostW port (a + 32 * i + 8 * k)
  let lg := (w 1).toNat
  if (w 0).toNat % 4096 = 0 ∧ 8 ≤ lg ∧ lg ≤ 20 ∧ (w 2).toNat % 8 = 0 ∧ w 3 = 0 then
    some ⟨(w 0).toNat, lg, (w 2).toNat, 0, []⟩
  else none

/-- The limits of Tables 6-8 and 6-11 for a value of a SCHED register at offset `o`; the other blocks check theirs when they are
enabled (log entry 174). -/
def schedLimits (o : Nat) (v : Word) : Bool :=
  if o = 0 then decide (1 ≤ fieldOf v 2 24) && decide (1 ≤ fieldOf v 32 16)
  else if o = 0x28 then decide (1 ≤ fieldOf v 0 20)
  else if o = 0x30 then decide (16 ≤ fieldOf v 0 8 ∧ fieldOf v 0 8 ≤ 192)
  else if o = 0x40 then decide (1 ≤ fieldOf v 0 3 ∧ fieldOf v 0 3 ≤ 4)
  else if o = 0x48 then decide (fieldOf v 2 6 ≤ 32)
  else true
/-- Whether a settings entry may stand in a job of partition `p` (R386): a register of its four windows within its limits; not
`COLL.GTAB`, and no entry that would set an EN field (log entry 60). -/
def settingOk (p : Nat) (off v : Word) : Bool :=
  match winOf off.toNat with
  | some (b, q, o) =>
    q == p && (b != .coll || o != 8) && !(b != .sched && o == 0 && fieldOf v 0 1 == 1) && off.toNat % 8 == 0 &&
      (b != .sched || schedLimits o v)
  | none => false

/-- The region of a partition (R314). -/
def State.partRegion (s : State) (p : Nat) : Option Nat :=
  (List.range 8).find? (fun r => s.on (R.HBM0.REGION.VALID r) && s.rd (R.HBM0.REGION.STACKS r) == (s.part p).stackMask)
/-- The local address range of region `r`. -/
def State.regionRange (s : State) (r : Nat) : Rng :=
  (s.rd (R.HBM0.REGION.BASE_GIB r) * 2 ^ 30, s.rd (R.HBM0.REGION.NLOG r) * 2 ^ 30)
/-- The cores of partition `p`. -/
def State.coresOf (s : State) (p : Nat) : List Nat := (List.range 800).filter (fun c => s.partOfCore c == some p)
/-- The control processor that schedules a core (R457). -/
def cpOf (c : Nat) : Nat := c / 200 * 4 + c % 200 / 50
/-- Whether every core of a partition can be scheduled (R65, R416, R459). -/
def State.coresReady (s : State) (p : Nat) : Bool :=
  (s.coresOf p).all (fun c => !(s.core c).offline && s.rd R.RAS.STAT.CP_DOWN / 2 ^ cpOf c % 2 == 0)

/-! ## Placement -/

/-- The lowest level that can hold `n` of the free modules, tray before rack before the whole job: those of the first such tray or
rack (R197). -/
def smallestHome (free : List Nat) (n : Nat) : List Nat :=
  let within (size : Nat) : Option (List Nat) := free.findSome? (fun m =>
    let home := free.filter (fun x => x / size == m / size)
    if n ≤ home.length then some home else none)
  ((within 8).orElse fun _ => within 64).getD free
/-- The talkative groups placed in their order; the map of logical members to modules, and the modules left (R197, log entry
171). -/
def placeTalk : List (List Nat) → List (Nat × Nat) → List Nat → List (Nat × Nat) × List Nat
  | [], m, free => (m, free)
  | g :: gs, m, free =>
    let new := g.filter (fun i => !m.any (fun e => e.1 == i))
    let home := (smallestHome free new.length).take new.length
    placeTalk gs (m ++ new.zip home) (free.filter (fun x => !home.contains x))
/-- The modules of a job by logical member (R197): ascending, with the talkative groups on short links first in mode 1. -/
def placement (short : Bool) (members : List Nat) (talk : List (List Nat)) : List Nat :=
  let ms := members.mergeSort (fun a b => decide (a ≤ b))
  if !short then ms else
  let n := ms.length
  let (m, free) := placeTalk (talk.map (fun g => (g.filter (fun i => decide (i < n))).dedup)) [] ms
  let rest := (List.range n).filter (fun i => !m.any (fun e => e.1 == i))
  let all := m ++ rest.zip free
  (List.range n).map (fun i => ((all.find? (fun e => e.1 == i)).map (·.2)).getD 0)
/-- The ACTIVE ports of a member, where this module knows them: by its own ports, or by the link table of its rack (R363, log entry
171). -/
def State.trainedPorts (s : State) (m : Nat) : Option Nat :=
  if m = s.moduleId then some (((List.range 32).filter (fun p => s.portState p == 4)).length)
  else if m / 64 = s.moduleId / 64 then some (((s.topo (m % 64)).ents.filter (fun e => e.state == 4)).length)
  else none
/-- Whether a job's members are placed on short links: by MODE, or because a member has too few trained ports (R197). -/
def State.shortLinks (s : State) (p : Nat) (members : List Nat) : Bool :=
  s.on (R.SCHED.PLACE_CFG.MODE p) || members.any (fun m => match s.trainedPorts m with
    | some n => decide (n < s.rd (R.SCHED.PLACE_CFG.MIN_PORTS p))
    | none => false)
/-- The group definitions with group 0 ranked by logical member (R197, R209). -/
def State.placed (s : State) (p : Nat) (talk : List (List Nat)) (gs : List GroupDef) : List GroupDef :=
  gs.map (fun g => if g.group = 0 then { g with members := placement (s.shortLinks p g.members) g.members talk } else g)
/-- The members of group 0 of a list of definitions. -/
def groupZero (gs : List GroupDef) : List Nat := (gs.find? (fun g => g.group == 0)).elim [] (·.members)

/-! ## The group table -/

/-- Bytes of the group table (R210). -/
def gtabBytes : Nat := 0x20000
/-- A member list is 64-byte aligned (Table 7-1). -/
def listBytes (g : GroupDef) : Nat := (2 * g.members.length + 63) / 64 * 64
/-- The group table entries and member lists of the groups this module is a member of (R210): the table at `base`, lists
below it. -/
def State.writeGroups (s : State) (base top : Nat) : List GroupDef → State
  | [] => s
  | g :: t =>
    match g.members.findIdx? (· == s.moduleId) with
    | none => s.writeGroups base top t
    | some r =>
      let a := top - listBytes g
      let s := s.store a (g.members.flatMap (leBytes 2))
      let e := base + g.group * 32
      let s := ((s.storeLE e 8 (g.members.length - 1 + r * 2 ^ 16 + g.cred * 2 ^ 32 + 2 ^ 36)).storeLE (e + 8) 8
        (g.sbuf + g.timeout * 2 ^ 16)).storeLE (e + 16) 8 a
      s.writeGroups base a t
/-- The work scheduler builds the job's group table in the last 128 KiB of the partition's region (R210, log entry 61). -/
def State.buildGroups (s : State) (p r : Nat) (gs : List GroupDef) : State :=
  let (lo, n) := s.regionRange r
  let base := lo + n - gtabBytes
  let s := (s.wr (R.COLL.GTAB.BASE p) (base / 4096)).paste base gtabBytes ⟨[], []⟩
  s.writeGroups base base gs

/-! ## The job's link key -/

/-- The fabric key (R435): the provisioned one, else derived from FABRIC_ID. -/
def State.fabricKey (s : State) : BitVec 256 :=
  match s.sec.fabricKey with
  | some k => k
  | none => Config.derive (leBytes 4 (s.rd R.FABG.ID.FABRIC)) [] (ascii "LM9 fabric")
/-- The key-table entries in index order. -/
def State.keyList (s : State) : List (Nat × KeyEnt) :=
  (List.range 64).filterMap (fun i => (Tab.get none s.sec.keys i).map (fun k => (i, k)))
/-- The link key of a job (R434): the KIND 2 entry for it bound to its partition, else derived from the fabric key, the SEED
and the job ID. -/
def State.linkKey (s : State) (p id : Nat) (seed : BitVec 128) : BitVec 256 :=
  match s.keyList.find? (fun e => e.2.kind == 2 && e.2.bind == p && e.2.id % 65536 == id) with
  | some e => e.2.key
  | none => Config.derive (leBytes 32 s.fabricKey.toNat) (leBytes 16 seed.toNat)
      (ascii "LM9 job key" ++ leBytes 2 id)
/-- The lowest empty key slot takes a job's link key (R356, log entry 62). -/
def State.loadKey (s : State) (id : Nat) (key : BitVec 256) : State :=
  match (List.range 16).find? (fun i => (Tab.get none s.fab.slots i).isNone) with
  | none => s
  | some i =>
    ({ s with fab := { s.fab with slots := Tab.set none s.fab.slots i (some ⟨id, key, 0⟩),
                                  recv := s.fab.recv.filter (fun e => e.1 / 65536 ≠ i) } } : State).modJob id
      (fun j => { j with keySlot := some i })
/-- A job's key slot cleared (R387). -/
def State.clearKey (s : State) (j : Job) : State :=
  match j.keySlot with
  | none => s
  | some i => { s with fab := { s.fab with slots := Tab.set none s.fab.slots i none,
                                           recv := s.fab.recv.filter (fun e => e.1 / 65536 ≠ i) } }

/-! ## Waiting commands of a job -/

/-- The waiting commands of a job complete with COLL_ABORTED (R532): an object or adapter they were filling is dropped. -/
def State.abortWaiting (s : State) (id : Nat) : State :=
  let mine := s.host.waiting.filter (fun c => c.job == id)
  let s := mine.foldl (fun s c => match c.kind with
    | .objPut h => s.dropObj h
    | .adapterLoading i _ _ => s.setAslot i ⟨0, 0, 0, 0, 0, []⟩
    | _ => s) s
  s.finish (fun c => c.job == id) 0x4006 0
/-- Whether a core of a partition still completes the half operation whose pair faulted (R46). -/
def State.halfRuns (s : State) (p : Nat) : Bool :=
  (s.coresOf p).any (fun c => let x := s.core c; !x.f.running.isEmpty || !x.d.running.isEmpty || !x.g.running.isEmpty)
/-- JOB_RESET_DONE (R241, R532): the second pass has confirmed that every member stopped; the job's collectives, turn, load,
update, contexts and training work end, and its waiting commands complete. Stream records that an orphaned job could not
write are dropped with it (log entry 63). -/
def State.resetDone (s : State) (id : Nat) : State :=
  match s.job id with
  | none => s
  | some j =>
    if !j.reset ∨ j.resetDone ∨ s.halfRuns j.part then s else
    let p := j.part
    let s := (((s.collAbort p j.origCode j.origModule).turnAbort p).updAbort p).rollAbort p
    let s := (s.setTrn p { s.trn' p with units := [], stall := none, replay := none }).trnRegs p
    let s := s.abortWaiting id
    let s := if j.orphaned then
        s.modRoll (fun r => { r with rings := r.rings.map (fun e =>
          if e.1 / 64 = p then (e.1, e.2.map (fun x => { x with queue := [] })) else e) })
      else s
    s.modJob id (fun x => { x with resetDone := true })

/-! ## JOB_START -/

/-- What a descriptor installs (R386): windows, settings in order, the placement and with it the group table, streams, link key, seed
in every core (R112), EN bits, phase IDLE. -/
def State.installJob (s : State) (port fn r : Nat) (d : JobDesc) (gs : List GroupDef) (rs : List StreamRing)
    (sets : List (Word × Word)) (talk : List (List Nat)) : State :=
  let p := d.part
  let dig := Config.sha384 ((List.range d.imageBytes).map (fun i => Tab.get 0 (s.hostMem port) (d.image + i)))
  let job : Job := ⟨d.id, p, port, fn, d.seed, dig, [], d.acctFirst, d.acctN, false, false, false, false, 0, 0, none, 0,
    [], none⟩
  let s : State := { s with host := { s.host with jobs := s.host.jobs ++ [job] } }
  let s := sets.foldl (fun (s : State) e => match winOf e.1.toNat with
    | some (b, q, o) => s.winWrite b q o e.1.toNat e.2
    | none => s) s
  let short := s.shortLinks p (groupZero gs)
  let s := (s.buildGroups p r (s.placed p talk gs)).wr (R.SCHED.PLACE_CFG.ACTIVE p) (if short then 1 else 0)
  let s := (rs.zipIdx).foldl (fun (s : State) x => s.setSring p x.2 (some x.1)) s
  let s := (s.coresOf p).foldl (fun (s : State) c => s.modCore c (fun x => { x with kcgKey := d.seed })) s
  let s := s.loadKey d.id (s.linkKey p d.id d.seed)
  ((s.trnEnable p).rollEnable p).collEnable p
/-- JOB_START (R386, R390): `dmaFail` says that a host read failed, so that nothing is applied; `talk` is the logical members of each
group that the mapping descriptor marks as talkative (R197, log entry 167). -/
def State.jobStart (s : State) (post : Post) (dmaFail : Bool) (talk : List (List Nat)) : State :=
  s.dispatched (fun s =>
    if !payloadOk post.p [-1] then s.reply post 0xa0 0xa001 else
    let no (code : Nat) : State := s.reply post 0xa0 code
    match s.job post.job.toNat with
    | some j => if j.ending.isSome then no 0xa003 else if j.reset then no 0x4006 else no 0xa004
    | none =>
      if dmaFail then no 0xa005 else
      let port := post.port.val
      let d := s.jobDesc port post.p.w1.toNat
      let gs := (List.range d.ngroups).map (s.groupDef port d.groups)
      let rs := (List.range d.nstreams).map (s.streamDef port d.streams)
      let sets := (List.range d.nset).map (fun i => (s.hostW port (d.settings + 16 * i), s.hostW port (d.settings + 16 * i + 8)))
      if !d.ok ∨ d.id ≠ post.job.toNat ∨ d.id = 0xffff ∨ s.fnPart post.fn.val ≠ some d.part then no 0xa004
      else if (s.jobOf d.part).isSome then no 0xa003
      else if d.acctFirst + d.acctN > 4096 ∨ d.nset > 256 ∨ !gs.all (·.ok) ∨ (gs.head?.map (·.group)) ≠ some 0 ∨
          !(((gs.head?.map (·.members)).getD []).contains s.moduleId) ∨ rs.any (·.isNone) ∨
          !sets.all (fun e => settingOk d.part e.1 e.2) ∨ !s.coresReady d.part then no 0xa004
      else match s.partRegion d.part with
        | none => no 0xa004
        | some r =>
          let s := s.installJob port post.fn.val r d gs (rs.filterMap id) sets talk
          s.done post 0xa0 (match s.job d.id with | some j => if j.reset then j.origCode else 0 | none => 0) 0)

/-! ## Aborting, ending and taking over -/

/-- JOB_ABORT (R387, R532): from the owner or from a PF. -/
def State.jobAbort (s : State) (post : Post) : State :=
  s.dispatched (fun s =>
    if !payloadOk post.p [] then s.reply post 0xa1 0xa001 else
    match s.job post.job.toNat with
    | none => s.reply post 0xa1 0xa002
    | some j =>
      if j.ending.isSome then s.reply post 0xa1 0xa003
      else if !j.ownedBy post.port post.fn && post.fn.val != 0 then s.reply post 0xa1 (if j.reset then 0x4006 else 0xa002)
      else if j.reset then s.reply post 0xa1 0
      else (s.hostContained 0xa00a j).reply post 0xa1 0)

/-- What keeps a job from ending (R387): a context that is not FREE, a micro-batch or collective that is admitted, or a
command that has not completed. -/
def State.jobBusy (s : State) (j : Job) : Bool :=
  !(s.liveCtxs j.part).isEmpty || decide (0 < (s.trn' j.part).inFlight) ||
  s.coll.colls.any (fun c => c.part == j.part && (c.st == .admitted || c.st == .running || c.st == .closing)) ||
  s.host.waiting.any (fun c => c.job == j.id)
/-- JOB_END (R387): the key slot and EN bits clear; the completion waits for the zero-fill. -/
def State.jobEnd (s : State) (post : Post) : State :=
  s.dispatched (fun s =>
    if !payloadOk post.p [] then s.reply post 0xa2 0xa001 else
    match s.job post.job.toNat with
    | none => s.reply post 0xa2 0xa002
    | some j =>
      if j.ending.isSome then s.reply post 0xa2 0xa003
      else if !j.ownedBy post.port post.fn then s.reply post 0xa2 (if j.reset then 0x4006 else 0xa002)
      else if (j.reset && !j.resetDone) || s.jobBusy j then s.reply post 0xa2 0xa003
      else
        let s := s.clearKey j
        let s := (s.trnOff j.part).wrs [(R.ROLL.CTL.EN j.part, 0), (R.COLL.CTL.EN j.part, 0)]
        let c : Cpl := ⟨post.p.w0, 0, 0xa2, j.id, 0⟩
        s.modJob j.id (fun x => { x with ending := some c, endRing := post.ring.val, keySlot := none }))
/-- Zeroes in a partition's region and core windows, every segment ON, no poison (R441). -/
def State.zeroPart (s : State) (p : Nat) : State :=
  let s := match s.partRegion p with
    | some r => s.paste (s.regionRange r).1 (s.regionRange r).2 ⟨[], []⟩
    | none => s
  (s.coresOf p).foldl (fun (s : State) c =>
    let s := (List.range 7).foldl (fun (s : State) i => s.setSeg (c * 8 + i) ⟨0, false⟩) s
    s.paste (winAddr c 0) 0x200000 ⟨[], []⟩) s
/-- What no longer holds of a partition without a job: rollout state (R442 but for its park records and objects, kept under
R336), scheduler, collective, training and update state, the seal (R433) and the keys bound to it (R436). -/
def State.forgetPart (s : State) (p : Nat) : State :=
  let r := s.roll
  let pfxs := r.pfxs.filter (fun e => match e.2 with | some x => x.part ≠ p | none => true)
  let r : RollSt := { r with slots := r.slots.filter (fun e => e.2.part ≠ p), pfxs := pfxs }
  let r : RollSt := { r with stops := r.stops.filter (fun e => e.1 / 256 ≠ p), stall := Tab.set none r.stall p none }
  let r : RollSt := { r with pools := r.pools.filter (fun e => s.partOfCore e.1 != some p), lodged := r.lodged.filter (fun x => x.part ≠ p) }
  let s : State := { s with roll := { r with rings := r.rings.filter (fun e => e.1 / 64 ≠ p) } }
  let s := (((s.schedForget p).collForget p).updForget p).setTrn p TrnSt.reset
  let keys := s.keyList.foldl (fun t e => if e.2.bind = p then Tab.set none t e.1 none else t) s.sec.keys
  let parts := Tab.set ⟨false, 0, false⟩ s.sec.parts p { s.part p with sealedW := false }
  let s : State := { s with sec := { s.sec with keys := keys, parts := parts } }
  ((s.wrW (R.TRN.ERR.CODE p).reg 0).wrW (R.COLL.ERR.CODE p).reg 0).wrW (R.COLL.ERR_PEER.PEER p).reg 0 |>.trnRegs p
/-- JOB_END_ZERO_FILL_DONE (R387, R441): held completions and then that of JOB_END are written, and the job ID is free (log
entry 64). -/
def State.jobEnded (s : State) (p : Nat) : State :=
  match s.jobOf p with
  | none => s
  | some j =>
    match j.ending with
    | none => s
    | some c =>
      let s := (s.zeroPart p).forgetPart p
      let s : State := { s with host := { s.host with jobs := s.host.jobs.filter (fun x => x.id ≠ j.id) } }
      let ring := if j.toRing0 then 0 else j.endRing
      let s := j.held.foldl (fun (s : State) h => s.putCpl j.port j.fn ring h) s
      (s.unreserve j.port j.fn j.endRing).putCpl j.port j.fn ring c

/-- Whether a function may take over a job (R392). -/
def State.mayTake (s : State) (j : Job) (port fn : Nat) (force : Bool) : Bool :=
  (j.orphaned && ((j.port == port && j.fn == fn) || (j.port != port && s.fnPart fn == some j.part))) ||
  (!j.orphaned && force && fn == 0)
/-- JOB_TAKEOVER (R392): ownership moves, held completions are written to ring 0, every stream ring starts again at record
0 of the new table, and then the command completes. -/
def State.jobTakeover (s : State) (post : Post) (dmaFail : Bool) : State :=
  s.dispatched (fun s =>
    let no (code : Nat) : State := s.reply post 0xa3 code
    if !payloadOk post.p [1, -1] then no 0xa001 else
    match s.job post.job.toNat with
    | none => no 0xa002
    | some j =>
      if j.ending.isSome then no 0xa003
      else if j.reset then no 0x4006
      else if !s.mayTake j post.port.val post.fn.val (fieldOf post.p.w1 0 1 == 1) then no 0xa002
      else if dmaFail then no 0xa005
      else
        let old := (List.range 64).filter (fun r => (s.sring j.part r).isSome)
        let rs := old.map (fun i => s.streamDef post.port.val post.p.w2.toNat i)
        if rs.any (·.isNone) then no 0xa004 else
        let taken (x : Job) : Job := { x with port := post.port.val, fn := post.fn.val, toRing0 := true }
        let s := s.modJob j.id (fun x => { taken x with orphaned := false, held := [] })
        let s := (old.zip (rs.filterMap id)).foldl (fun (s : State) x =>
          s.setSring j.part x.1 (some { x.2 with queue := match s.sring j.part x.1 with | some o => o.queue | none => [] })) s
        let s := j.held.foldl (fun (s : State) h => s.putCpl post.port post.fn 0 h) s
        let s := old.foldl (fun (s : State) r => s.flushRing j.part r) s
        let s := s.unreserve post.port post.fn post.ring
        s.putCpl post.port post.fn post.ring ⟨post.p.w0, 0, 0xa3, j.id, 0⟩)

end Sys2Proof.Machine
end

