-- ==== Sys2Proof/Machine/HostIf.lean ====
section
/-! DEFINITION. The host interface: journal rings (R382 to R385, R390), MSI-X hold-off (R388), links and PCIe resets (R391,
R393, R396), the mailbox (R381), BAR2 (R380, R433) and misaligned BAR0 accesses (R524). -/
namespace Sys2Proof.Machine

/-! ## Journal rings -/

/-- A dispatched entry by its opcode (Table 14-4). A mapping is given by no word that the module can read (R531), and no host read
fails: the rows of the commands themselves carry mappings, talkative groups and failed reads (log entry 65). -/
def State.dispatchEntry (s : State) (op : Nat) (post : Post) : State :=
  match op with
  | 0x50 => s.turnPost post (fieldOf post.p.w1 48 1 == 1)
  | 0x51 => s.wptrSet post
  | 0x52 => s.batchClose post
  | 0x53 => s.weightLoad post (some bareMapping)
  | 0x54 => s.updPost post
  | 0x60 => s.admitPost post false
  | 0x61 => s.cancelPost post
  | 0x62 => s.pausePost post
  | 0x63 => s.budgetPost post (fieldOf post.p.w1 12 1)
  | 0x64 => s.adapterLoad post
  | 0x65 => s.adapterUnload post
  | 0x66 => s.prefixCreate post
  | 0x67 => s.prefixRelease post
  | 0x68 => s.stopsetWrite post false
  | 0x90 => s.objPut post false
  | 0x91 => s.objGet post
  | 0x92 => s.objDelete post
  | 0xa0 => s.jobStart post false []
  | 0xa1 => s.jobAbort post
  | 0xa2 => s.jobEnd post
  | 0xa3 => s.jobTakeover post false
  | _ => s.reply post op 0xa001

/-- The entries of a completion ring that are free by the host's count (R385). -/
def State.freeSlots (s : State) (port : Nat) (w j : Nat) : Nat :=
  let r := s.ring w j
  2 ^ s.rd (R.HOST.JR_CFG.LOG2 w j) - (r.written + r.reserved - s.hostLE port (s.rd (R.HOST.CR_TAILW.ADDR w j)) 8)
/-- Up to `n` valid entries of a ring, consumed and dispatched in ring order (R382, R384, R385). -/
def State.pollRing (s : State) (port : Fin 2) (fn : Fin 9) (j : Fin 8) : Nat → State
  | 0 => s
  | n + 1 =>
    let w := hostWin port.val fn.val
    let r := s.ring w j.val
    let size := 2 ^ s.rd (R.HOST.JR_CFG.LOG2 w j.val)
    let a := s.rd (R.HOST.JR_BASE.BASE w j.val) + r.consumed % size * 128
    let word (i : Nat) : Word := s.hostW port.val (a + 8 * i)
    let phase := if r.consumed / size % 2 = 0 then 1 else 0
    if fieldOf (word 0) 63 1 ≠ phase then s
    else if s.freeSlots port.val w j.val = 0 then
      s.count (R.HOST.JR_STAT.CR_STALL_US w j.val) (s.rd (R.HOST.JR_CFG.POLL_US w j.val))
    else
      let s := s.setRing w j.val { r with consumed := r.consumed + 1, reserved := r.reserved + 1 }
      let p : Payload := ⟨word 8, word 9, word 10, word 11, word 12, word 13, word 14, word 15⟩
      let post : Post := ⟨port, fn, j, BitVec.ofNat 16 (fieldOf (word 0) 16 16), p⟩
      let op := fieldOf (word 0) 0 8
      let clean := fieldOf (word 0) 8 8 == 0 && fieldOf (word 0) 32 31 == 0 && (List.range' 1 7).all (fun i => word i == 0)
      let s := if clean then s.dispatchEntry op post else s.reply post op 0xa001
      s.pollRing port fn j n
/-- Whether a ring is polled now: job-ready, no fatal error, link up, EN = 1, a size that R382 allows (log entry 66). -/
def State.ringPolled (s : State) (port fn j : Nat) : Bool :=
  let w := hostWin port fn
  s.polls && s.linkUp port && s.on (R.HOST.JR_CFG.EN w j) &&
    decide (6 ≤ s.rd (R.HOST.JR_CFG.LOG2 w j) ∧ s.rd (R.HOST.JR_CFG.LOG2 w j) ≤ 16)
/-- JOURNAL_POLL (R382 to R385): a poll whose read fails sets ERR (R390); one that consumes entries writes the count of
consumed entries to the head word. -/
def State.journalPoll (s : State) (port : Fin 2) (fn : Fin 9) (j : Fin 8) (readFail : Bool) : State :=
  let w := hostWin port.val fn.val
  if !s.ringPolled port.val fn.val j.val then s
  else if readFail then s.wr (R.HOST.JR_STAT.ERR w j.val) 1
  else
    let was := (s.ring w j.val).consumed
    let s := s.pollRing port fn j 16
    let now := (s.ring w j.val).consumed
    if now = was then s else
    (s.wr (R.HOST.JR_STAT.CONSUMED w j.val) now).hostWords port.val (s.rd (R.HOST.JR_HEADW.ADDR w j.val)) [now]

/-- MSIX_HOLDOFF_END (R388): records written during the hold-off give one message, which starts the next hold-off. -/
def State.holdoffEnd (s : State) (port fn v : Nat) : State :=
  let i := hostWin port fn * 73 + v
  let m := Tab.get (⟨0, false, false⟩ : Msix) s.host.msix i
  let put (m : Msix) : State := { s with host := { s.host with msix := Tab.set ⟨0, false, false⟩ s.host.msix i m } }
  if !m.hold then s
  else if m.pend then put ⟨m.sent + 1, s.rd (R.HOST.FCTL.HOLDOFF_US (hostWin port fn)) != 0, false⟩
  else put { m with hold := false }

/-! ## Links and PCIe resets -/

/-- A port's link set up or down. -/
def State.setLink (s : State) (port : Nat) (up : Bool) : State :=
  if port = 0 then { s with host := { s.host with link0 := up } } else { s with host := { s.host with link1 := up } }
/-- A function's configuration and rings as after reset (R391, R393): its registers but for ERR, its ring counts, vectors and
mailbox. -/
def State.windowReset (s : State) (w : Nat) : State :=
  let base := 0x800000 + w * 0x1000
  let err := (R.HOST.ERR.CODE w).reg
  let regs := s.regs.filter (fun e => !(decide (base ≤ e.1) && decide (e.1 < base + 0x1000) && e.1 != err))
  { s with regs := regs, host := { s.host with rings := s.host.rings.filter (fun e => e.1 / 8 ≠ w),
                                               msix := s.host.msix.filter (fun e => e.1 / 73 ≠ w),
                                               mail := s.host.mail.filter (fun e => e.1 ≠ w) } }
/-- The windows of every function of a port as after reset. -/
def State.portReset (s : State) (port : Nat) : State := (List.range 9).foldl (fun (s : State) fn => s.windowReset (port * 9 + fn)) s
/-- The reset of an orphaned job with HOST_ORPHAN (R391). -/
def State.orphanReset (s : State) (j : Job) : State := s.hostContained 0xa008 j
/-- PCIE_LINK_DOWN (R391): the port goes quiet, HOST_LINK_DOWN is raised, its jobs are orphaned; with ORPHAN_MS = 0 they are
reset at once. -/
def State.linkDown (s : State) (port : Nat) : State :=
  if !s.linkUp port then s else
  let s := s.setLink port false
  let s := (s.hostErr (port * 9) 0xa007 0xffff).event 0xa007 1 15 0xffff 0xffff none
  let hit := s.host.jobs.filter (fun j => j.port == port && !j.orphaned)
  let s := s.mapJobs (fun j => if j.port = port then { j with orphaned := true } else j)
  hit.foldl (fun (s : State) j =>
    if s.rd (R.HOST.FCTL.ORPHAN_MS (hostWin j.port j.fn)) = 0 ∧ !j.reset then s.orphanReset j else s) s
/-- ORPHAN_TIMEOUT (R391): no takeover came within ORPHAN_MS. -/
def State.orphanTimeout (s : State) (id : Nat) : State :=
  match s.job id with
  | some j => if j.orphaned && !j.reset && j.ending.isNone then s.orphanReset j else s
  | none => s
/-- PCIE_LINK_UP (R391): the functions come back with their configuration reset and their rings disabled; PERST# must not be
asserted. -/
def State.linkReturn (s : State) (port : Nat) : State :=
  let perst := if port = 0 then s.host.perst0 else s.host.perst1
  if s.linkUp port || perst || !s.pwr.pwrgd then s else (s.portReset port).setLink port true
/-- FLR (R393): every job of the function is reset with HOST_FLR; its rings are disabled. -/
def State.flrReset (s : State) (port fn : Nat) : State :=
  let hit := s.host.jobs.filter (fun j => j.ownedBy port fn && !j.reset && j.ending.isNone)
  (hit.foldl (fun (s : State) j => s.hostContained 0xa009 j) s).windowReset (hostWin port fn)
/-- HOT_RESET (R393): an FLR of every function of the port. -/
def State.hotReset (s : State) (port : Nat) : State := (List.range 9).foldl (fun (s : State) fn => s.flrReset port fn) s
/-- Whether a port is configuration-ready. -/
def State.cfgReady (s : State) (port : Nat) : Bool := if port = 0 then s.host.cfgReady0 else s.host.cfgReady1
/-- A port's configuration readiness set. -/
def State.setCfgReady (s : State) (port : Nat) (b : Bool) : State :=
  if port = 0 then { s with host := { s.host with cfgReady0 := b } } else { s with host := { s.host with cfgReady1 := b } }
/-- PERST (R393, R396): PERST# deasserts; only that port's PCIe logic is reset, and a link that was up goes down. -/
def State.perst (s : State) (port : Nat) : State :=
  let s := ((s.linkDown port).portReset port).setCfgReady port false
  if port = 0 then { s with host := { s.host with perst0 := false } } else { s with host := { s.host with perst1 := false } }
/-- CONFIGURATION_READY (R396, R509): after PERST# deassertion and power-good, the time it took stands in BOOT.PCIE. -/
def State.configurationReady (s : State) (port ms : Nat) : State :=
  let perst := if port = 0 then s.host.perst0 else s.host.perst1
  if perst || !s.pwr.pwrgd then s else
  (s.setCfgReady port true).wr (if port = 0 then R.BOOT.PCIE.P0_CFG_MS else R.BOOT.PCIE.P1_CFG_MS) ms
/-- The last answer of a port replaced. -/
def State.setAns (s : State) (port : Nat) (a : PcieAns) : State :=
  if port = 0 then { s with host := { s.host with ans0 := some a } } else { s with host := { s.host with ans1 := some a } }
/-- The four bytes at an aligned offset of a function's configuration space: Vendor ID and Device ID at 0, and the class code above a
free revision at 8 (R376); the rest is PCIe's, and free (log entry 67). -/
def State.configWord (s : State) (fn reg : Nat) : Nat :=
  let open_ := s.free 32
  if reg = 0 then Config.vendorId.toNat + (if fn = 0 then 0x0900 else 0x0901) * 2 ^ 16
  else if reg = 8 then open_ % 256 + 0x120000 * 256
  else open_
/-- CONFIG_REQUEST (R11, R376, R377): a read of configuration space. Configuration Retry Status until the port is
configuration-ready; a virtual function whose partition does not exist is not enabled. -/
def State.configRequest (s : State) (port fn reg : Nat) : State :=
  if !s.cfgReady port then s.setAns port .retry
  else if fn ≠ 0 ∧ s.fnPart fn = none then s.setAns port .unsupported
  else (s.used 1).setAns port (.data ((leBytes 4 (s.configWord fn (reg / 4 * 4))).map (fun b => (b, false))))

/-! ## Mailbox, BAR2 and BAR0 -/

/-- Messages of a host-to-module mailbox half whose phase bit matches, from message `taken` on, up to `n` (R381). -/
def mailNew (m : MailSt) : Nat → Nat
  | 0 => 0
  | n + 1 =>
    let i := m.taken + (128 - (n + 1))
    let top := (Tab.get 0 m.inb (i % 128 * 4096 + 7)).toNat / 128
    if top = (if i / 128 % 2 = 0 then 1 else 0) then mailNew m n + 1 else 0
/-- MAILBOX_POLL (R381): the waiting messages are taken in order. What each PLDM message does is a command of its own, with
the function as its path (log entry 68). -/
def State.mailboxPoll (s : State) (port fn : Nat) : State :=
  let w := hostWin port fn
  let m := Tab.get (⟨[], 0⟩ : MailSt) s.host.mail w
  { s with host := { s.host with mail := Tab.set ⟨[], 0⟩ s.host.mail w { m with taken := m.taken + mailNew m 128 } } }

/-- HOST_BAR_RANGE (R380, R524), at a function. -/
def State.barRange (s : State) (port fn : Nat) (detail : Option Nat) : State :=
  let part := (s.fnPart fn).getD 15
  (s.hostErr (hostWin port fn) 0xa00b 0xffff).event 0xa00b 1 part (if part < 8 then s.jobId part else 0xffff) 0xffff detail
/-- Whether a BAR2 access of `n` bytes at a local address may be served (R380, R433): inside its partition's region, not
sealed. -/
def State.bar2Ok (s : State) (fn a n : Nat) : Bool :=
  match s.fnPart fn with
  | none => false
  | some p =>
    (match s.partRegion p with
      | some r => decide ((s.regionRange r).1 ≤ a) && decide (a + n ≤ (s.regionRange r).1 + (s.regionRange r).2)
      | none => false) &&
    !((s.part p).sealedW && Rng.overlaps (a, n) (s.slotRange p))
/-- BAR2_ACCESS (R380, R398, R433, R469): before job-ready and after a fatal error reads get Unsupported Request and writes
nothing; a refused access raises HOST_BAR_RANGE; poisoned bytes carry the poison mark of Table 17-2. -/
def State.bar2Access (s : State) (port fn off : Nat) (op : Bar2Op) : State :=
  let n := match op with | .read n => n | .write d => d.length
  let a := s.rd (R.HOST.BAR2_BASE.BASE (hostWin port fn)) * 2 ^ 30 + off
  let refuse (s : State) : State := match op with | .read _ => s.setAns port .unsupported | .write _ => s
  if !s.linkUp port then s
  else if !s.polls then refuse s
  else if !s.bar2Ok fn a n then refuse (s.barRange port fn none)
  else match op with
    | .read n => s.setAns port (.data ((List.range n).map (fun i => (s.byte (a + i), s.poisoned (a + i) 1))))
    | .write d => s.store a d
/-- BAR0_MISALIGNED (R524): a read completes with Unsupported Request, a write is discarded. -/
def State.bar0Misaligned (s : State) (port fn : Nat) (read : Bool) : State :=
  if !s.linkUp port then s else
  let s := s.barRange port fn none
  if read then s.setAns port .unsupported else s
/-- A write that is ignored and logged (R379): it stands in the list of ignored writes and in the event log as HOST_BAR_RANGE with its
offset (log entry 69). -/
def State.ignoreWrite (s : State) (port fn off : Nat) : State :=
  ({ s with host := { s.host with ignored := s.host.ignored ++ [(port, fn, off)] } } : State).barRange port fn (some off)
/-- A host's write of its own HOST window at offset `o` of it (R395, R524); ring registers but JR_STAT are frozen while the
ring's EN = 1. -/
def State.hostWinWrite (s : State) (port fn o : Nat) (v : Word) : State :=
  let w := hostWin port fn
  let off := 0x800000 + w * 0x1000 + o
  if (regDef off).isNone then s.ignoreWrite port fn off
  else if 0x100 ≤ o ∧ o < 0x300 ∧ o % 0x40 ≠ 0x28 ∧ s.on (R.HOST.JR_CFG.EN w ((o - 0x100) / 0x40)) then s
  else s.regPut s.boot.locked off v
/-- BAR2_BASE_WRITE (R380): every earlier command of the queue has completed, so the new base holds from the next access. -/
def State.bar2BaseWrite (s : State) (port fn : Nat) (v : Word) : State :=
  if s.linkUp port then s.hostWinWrite port fn 0x10 v else s

end Sys2Proof.Machine
end

