-- ==== Sys2Proof/Machine/Brake.lean ====
section
/-! DEFINITION. The power brake (R493 to R495, R514) and ACLK targets (R475, R489). -/
namespace Sys2Proof.Machine

/-! ## The brake -/

/-- A brake cause as a bit: 0 droop, 1 tray input, 2 input (`PWR.CTL.BRAKE_SRC`). -/
abbrev BrakeBit := Fin 3
/-- The causes present for a die. -/
def State.causesOf (s : State) (d : Nat) : Nat := Tab.get 0 s.pwr.causes d
/-- Whether a die is braked or releasing. -/
def State.braked (s : State) (d : Nat) : Bool := s.rd R.PWR.STAT.BRAKED / 2 ^ d % 2 == 1
/-- A die's causes replaced. -/
def State.setCauses (s : State) (d v : Nat) : State := { s with pwr := { s.pwr with causes := Tab.set 0 s.pwr.causes d v } }
/-- The release steps a die has done: 0 halved, 1 to 3 at 5/8, 3/4 and 7/8 of the PLL frequency (R494). -/
def State.setSteps (s : State) (d v : Nat) : State := { s with pwr := { s.pwr with steps := Tab.set 0 s.pwr.steps d v } }
/-- A power code: PWR.ERR and its event, UNIT the die where one applies (Table 19-6). -/
def State.pwrErr (s : State) (code cls : Nat) (die : Option Nat) : State :=
  (s.recErr R.PWR.ERR.VALID R.PWR.ERR.OVERRUN [(R.PWR.ERR.CODE, code), (R.PWR.ERR.UNIT, die.getD 0)]).event code cls 15 0xffff
    (die.getD 0xffff) none
/-- A cause halves the clock of a die (R493); a release in progress starts again at the half (R494). -/
def State.brakeDie (s : State) (b : BrakeBit) (d : Nat) : State :=
  ((s.setCauses d (s.causesOf d ||| 2 ^ b.val)).setSteps d 0).wr R.PWR.STAT.BRAKED (s.rd R.PWR.STAT.BRAKED ||| 2 ^ d)
/-- An enabled cause brakes dies (R493). A die that ran at more than half its clock makes it a brake that is counted and raises
PWR_BRAKE, once for all the dies it brakes (log entry 80). -/
def State.brake (s : State) (b : BrakeBit) (dies : List Nat) : State :=
  if s.rd R.PWR.CTL.BRAKE_SRC / 2 ^ b.val % 2 = 0 then s else
  let new := dies.any (fun d => !s.braked d || Tab.get 0 s.pwr.steps d != 0)
  let s := dies.foldl (fun (s : State) d => s.brakeDie b d) s
  let s := s.wr R.PWR.STAT.CAUSE (dies.foldl (fun n d => n ||| s.causesOf d) 0)
  if new then (s.count R.PWR.CNT.BRAKES 1).pwrErr 0x8001 0 (match dies with | [d] => some d | _ => none) else s
/-- A cause is clear for dies; the brake holds until the release steps (R494). -/
def State.unbrake (s : State) (b : BrakeBit) (dies : List Nat) : State :=
  dies.foldl (fun (s : State) d => s.setCauses d (s.causesOf d &&& (7 - 2 ^ b.val))) s
/-- All four dies. -/
def allDies : List Nat := [0, 1, 2, 3]
/-- BRAKE# asserted while ACLK starts: every die starts braked (R514). -/
def State.pinBrake (s : State) : State := if s.pwr.brakePin && s.pwr.pwrgd then s.brake 1 allDies else s
/-- A write of `PWR.CTL`: LIMIT_W is at most 3,200 W (R489), and a cause that is not enabled is no cause; a BRAKE# that is low
acts as soon as it is enabled. -/
def State.pwrCtlWrite (s : State) (v : Word) : State :=
  let s := s.regPut s.boot.locked R.PWR.CTL.REG.reg v
  let s := s.wr R.PWR.CTL.LIMIT_W (min (s.rd R.PWR.CTL.LIMIT_W) 3200)
  (allDies.foldl (fun (s : State) d => s.setCauses d (s.causesOf d &&& s.rd R.PWR.CTL.BRAKE_SRC)) s).pinBrake
/-- DROOP (R493): the die's core rail lies `mv` below its set point. A deeper drop than DROOP_MV brakes that die; otherwise the
cause is clear. -/
def State.droop (s : State) (d mv : Nat) : State :=
  if !s.pwr.pwrgd then s
  else if mv > s.rd R.PWR.BRAKE_CFG.DROOP_MV then s.brake 0 [d] else s.unbrake 0 [d]
/-- BRAKE_PIN (R493, R514, Table 20-6): BRAKE# low for `ns`. From 50 ns on it brakes all dies, below 20 ns it is ignored, and
between the two no rule says which, so that a free value decides (log entry 81). -/
def State.brakeIn (s : State) (ns : Nat) : State :=
  let seen := decide (50 ≤ ns) || (decide (20 ≤ ns) && s.free 1 == 1)
  let s := if 20 ≤ ns ∧ ns < 50 then s.used 1 else s
  if seen then ({ s with pwr := { s.pwr with brakePin := true } } : State).pinBrake else s
/-- BRAKE_DEASSERT (R494): the tray releases BRAKE#. -/
def State.brakeOut (s : State) : State := ({ s with pwr := { s.pwr with brakePin := false } } : State).unbrake 1 allDies
/-- BRAKE_RELEASE_STEP (R494): with every cause of the die clear, the clock rises by a step; after the fourth the die runs at
the full PLL frequency. -/
def State.brakeRelease (s : State) (d : Nat) : State :=
  if !s.braked d ∨ s.causesOf d ≠ 0 then s else
  let n := Tab.get 0 s.pwr.steps d + 1
  if n < 4 then s.setSteps d n
  else (s.setSteps d 0).wr R.PWR.STAT.BRAKED (s.rd R.PWR.STAT.BRAKED - 2 ^ d)

/-! ## ACLK targets -/

/-- The highest ACLK code, 2.25 GHz (Table 18-1, Table 18-7). -/
def aclkTop : Nat := 66
/-- The frequency code that a die's PLL moves towards: a TARGET above 66 means the top of the range (log entry 82). -/
def State.aclkGoal (s : State) (d : Nat) : Nat := min (s.rd (R.CLK.ACLK_CTL.TARGET d)) aclkTop
/-- SLEWING shows whether the PLL has reached its goal. -/
def State.slewing (s : State) (d : Nat) : State :=
  s.wr (R.CLK.ACLK_CTL.SLEWING d) (if s.rd (R.CLK.ACLK_CTL.CUR d) = s.aclkGoal d then 0 else 1)
/-- A die's target set by the management processor. -/
def State.setTarget (s : State) (d t : Nat) : State := (s.wr (R.CLK.ACLK_CTL.TARGET d) t).slewing d
/-- The target that software last set for a die. -/
def State.wanted (s : State) (d : Nat) : Nat := Tab.get aclkTop s.pwr.want d
/-- ACLK_TARGET_WRITE (R475): the newest value replaces the target, also during a slew; heat holds nothing of it down yet. -/
def State.aclkWrite (s : State) (d : Nat) (v : Word) : State :=
  let t := fieldOf v 0 7
  let p := { s.pwr with want := Tab.set aclkTop s.pwr.want d (min t aclkTop), hotCut := Tab.set 0 s.pwr.hotCut d 0 }
  ({ s with pwr := p } : State).setTarget d t
/-- ACLK_SLEW_STEP (R475): the PLL moves one step of 25 MHz towards its goal. -/
def State.slewStep (s : State) (d : Nat) : State :=
  let c := s.rd (R.CLK.ACLK_CTL.CUR d)
  let g := s.aclkGoal d
  let c' := if c < g then c + 1 else if g < c then c - 1 else c
  (s.wr (R.CLK.ACLK_CTL.CUR d) c').slewing d

end Sys2Proof.Machine
end

