-- ==== Sys2Proof/Machine/Boot.lean ====
section
/-! DEFINITION. Fatal errors (R469, R471), resets (R478, R479), boot stages (R397 to R418), image copies and firmware update
(R402 to R408), and answers to management messages (R381, R407). -/
namespace Sys2Proof.Machine

/-! ## Fatal errors -/

/-- A word of the dump (Table 17-7). -/
def State.dumpSet (s : State) (i v : Nat) : State :=
  { s with ras := { s.ras with dump := Tab.set 0 s.ras.dump i (BitVec.ofNat 64 v) } }
/-- Everything that a fatal error stops (Table 17-6): cores and engines with every job, ports; FAULT# asserts (Table 20-6). -/
def State.fatalStop (s : State) (code : Nat) : State :=
  let s := s.stopCores (fun _ => true)
  let s := s.host.jobs.foldl (fun (s : State) j => s.abortJob j.id code s.moduleId) s
  let s := (List.range 32).foldl (fun (s : State) p => if s.portState p = 0 then s else s.portLoss p 0) s
  { s with pwr := { s.pwr with fault := true } }
/-- A fatal code (R469, R471): it is latched with its unit and time, the state is FATAL_DUMPING, the dump WRITING. A fatal
error that finds an unreleased dump writes only SECOND and SECOND_CAUSE; its record is written at once. -/
def State.fatalErr (s : State) (code unit : Nat) : State :=
  if s.rd R.RAS.DUMP.STATE = 0 then
    let s := s.wrs [(R.RAS.STAT.STATE, 1), (R.RAS.DUMP.STATE, 1), (R.RAS.DUMP.CAUSE, code), (R.RAS.DUMP.SECOND, 0)]
    let s := (({ s with ras := { s.ras with fatal := some code, dump := [] } } : State).dumpSet 1
      (code + unit * 2 ^ 16)).dumpSet 2 s.now
    s.fatalStop code
  else
    let s := s.wrs [(R.RAS.DUMP.SECOND, 1), (R.RAS.STAT.STATE, if s.rd R.RAS.STAT.STATE = 0 then 2 else s.rd R.RAS.STAT.STATE)]
    let w := (Tab.get 0 s.ras.dump 1).toNat
    let s := s.dumpSet 1 (w % 2 ^ 32 + code * 2 ^ 32)
    (({ s with ras := { s.ras with fatal := some code } } : State).event code 4 15 0xffff unit none).fatalStop code

/-! ## Answers -/

/-- An answer leaves by a path; the newest 128 of a path are kept (R381). -/
def State.answerTo (s : State) (path : Path) (a : Answer) : State :=
  let mine := (s.sec.replies.filter (fun r => r.path == path)).take 127
  { s with sec := { s.sec with replies := ⟨path, a⟩ :: mine ++ s.sec.replies.filter (fun r => r.path != path) } }

/-! ## Image copies and configuration -/

/-- Sections lie between 0x1000 and SIG_OFF without overlap (R403). -/
def sectionsOk (end_ : Nat) : List ImgSection → Bool
  | [] => true
  | x :: t => decide (0x1000 ≤ x.offset.toNat ∧ x.offset.toNat + x.bytes.toNat ≤ end_) &&
    t.all (fun y => decide (x.offset.toNat + x.bytes.toNat ≤ y.offset.toNat ∨ y.offset.toNat + y.bytes.toNat ≤ x.offset.toNat)) &&
    sectionsOk end_ t
/-- Step 1 of R403: MAGIC, FMT, reserved bits, NSECT (Table 15-4), SIG_OFF + 4 KiB within 24 MiB, sections. -/
def headerOk (img : ImageCopy) : Bool :=
  img.magic == 0x4c4d3949 && img.fmt == 1 && img.reservedZero && decide (1 ≤ img.sections.length ∧ img.sections.length ≤ 32) &&
  decide (img.sigOff.toNat + 4096 ≤ 24 * 2 ^ 20) && sectionsOk img.sigOff.toNat img.sections
/-- A valid owner block copy: MAGIC, NREC and digest check (R410). -/
def ownerValid (b : OwnerBlock) : Bool :=
  b.magic == 0x4c4d394f && decide (b.nrec.toNat ≤ 4096) && b.digestOk
/-- The reason a copy is refused (R403, Table 15-5), 0 when every step passes; `svnMin` is what step 7 asks. A revoked key
slot fails step 3 (R430). -/
def copyReason (img : ImageCopy) (svnMin revoked : Nat) : Nat :=
  if img.readError then 8
  else if !img.present || !headerOk img then 1
  else if img.stepping ≠ 0xb0 then 2
  else if !img.keyHashOk || revoked / 2 ^ img.keySlot.val % 2 == 1 then 3
  else if !img.ecdsaOk then 4
  else if !img.lmsOk then 5
  else if img.svn.toNat < svnMin then 6
  else 0
/-- A copy of the configuration flash; `b` names copy B. -/
def State.slot (s : State) (b : Bool) : ImgSlot := if b then s.boot.imgB else s.boot.imgA
/-- A copy replaced. -/
def State.setSlot (s : State) (b : Bool) (x : ImgSlot) : State :=
  if b then { s with boot := { s.boot with imgB := x } } else { s with boot := { s.boot with imgA := x } }
/-- The reason of a copy as the ROM considers it (R405, R406). -/
def State.slotReason (s : State) (b : Bool) : Nat :=
  if (s.slot b).tries ≥ 3 then 7 else copyReason (s.slot b).img s.boot.svnMin s.boot.revoked
/-- The running copy. -/
def State.runningImg (s : State) : Option ImageCopy := s.boot.running.map (fun b => (s.slot b).img)
/-- The owner block copy in use (R410): 0 A, 1 B, 2 none. -/
def State.ownerChoice (s : State) : Nat :=
  let a := s.boot.ownA
  let b := s.boot.ownB
  if ownerValid a ∧ (!ownerValid b ∨ b.seq.toNat ≤ a.seq.toNat) then 0 else if ownerValid b then 1 else 2
/-- The owner block in use, a blank one where no copy is valid. -/
def State.owner (s : State) : OwnerBlock :=
  match s.ownerChoice with
  | 0 => s.boot.ownA
  | 1 => s.boot.ownB
  | _ => OwnerBlock.blank

/-- A record of Table 15-7: its w0 and w1. -/
abbrev Rec := BitVec 64 × BitVec 64
/-- TYPE of a record. -/
def recKind (r : Rec) : Nat := fieldOf r.1 0 16
/-- INDEX of a record. -/
def recIndex (r : Rec) : Nat := fieldOf r.1 16 16
/-- The configuration records in the order they apply (R412). -/
def State.cfgRecs (s : State) : List Rec :=
  ((match s.runningImg with | some i => i.cfgRecords | none => []) ++ s.owner.records).filter
    (fun r => decide (0x100 ≤ recKind r ∧ recKind r < 0x200))
/-- The value of a configuration record: the last one of its TYPE and INDEX (R412). -/
def State.cfg (s : State) (type index : Nat) : Option Word :=
  (s.cfgRecs.filter (fun r => recKind r == type && recIndex r == index)).getLast?.map (·.2)
/-- The overlay records of the owner block in use (R411). -/
def State.overlay (s : State) : List Rec :=
  s.owner.records.filter (fun r => decide (1 ≤ recKind r ∧ recKind r < 0x100))
/-- The factory calibration copy in use (R409): 0 first, 1 second, none. -/
def State.calChoice (s : State) : Option Nat :=
  if copyReason s.boot.cal0 0 0 = 0 then some 0 else if copyReason s.boot.cal1 0 0 = 0 then some 1 else none
/-- The factory records. -/
def State.factory (s : State) : List Rec :=
  match s.calChoice with
  | some 0 => s.boot.cal0.cfgRecords
  | some _ => s.boot.cal1.cfgRecords
  | none => []
/-- Whether an overlay record may apply (R411). -/
def overlayOk (fac : List Rec) (r : Rec) : Bool :=
  fac.any (fun f => recKind f == recKind r && recIndex f == recIndex r && fieldOf f.1 32 1 == 1 &&
    decide ((BitVec.ofNat 8 (fieldOf f.1 48 8)).toInt ≤ r.2.toInt) && decide (r.2.toInt ≤ (BitVec.ofNat 8 (fieldOf f.1 56 8)).toInt))
/-- Whether the overlay applies. -/
def State.overlayApplies (s : State) : Bool := !s.overlay.isEmpty && s.overlay.all (overlayOk s.factory)
/-- A calibrated value: the factory record's, plus the later overlay delta where the overlay applies (R411). -/
def State.calibrated (s : State) (type index : Nat) : Option Int :=
  match s.factory.find? (fun r => recKind r == type && recIndex r == index) with
  | none => none
  | some f =>
    let d := if s.overlayApplies then
        (s.overlay.filter (fun r => recKind r == type && recIndex r == index)).getLast?.map (·.2.toInt)
      else none
    some (f.2.toInt + d.getD 0)

/-! ## Partitions -/

/-- The stack mask a PART record gives an index, none without a record. -/
def State.partMask (s : State) (i : Nat) : Option Nat := (s.cfg 0x103 i).map (fun w => w.toNat % 256)
/-- Whether any PART record exists. -/
def State.anyPart (s : State) : Bool := (List.range 9).any (fun i => (s.partMask i).isSome)
/-- R437: disjoint masks; a tenant holds its own stack and none below; the house only beside a tenant. -/
def State.partsOk (s : State) : Bool :=
  let m (i : Nat) : Nat := (s.partMask i).getD 0
  let some_ (i : Nat) : Bool := (s.partMask i).isSome
  (List.range 9).all (fun i => (List.range i).all (fun j => m i &&& m j == 0)) &&
  (List.range 8).all (fun p => !some_ p || (m p / 2 ^ p % 2 == 1 && m p % 2 ^ p == 0)) &&
  (!some_ 8 || (List.range 8).any some_)
/-- Whether a stack mask needs no core that the records leave offline (R65). -/
def State.coresLeft (s : State) (mask : Nat) : Bool :=
  (coreMap s.boot.fields).off.all (fun c => !hasStack mask (coreStack c))
/-- The partitions formed when the stacks in `trained` have trained: none whose record names a failed stack or the stack of a
core left offline (R65, R412, R416, R437). Without records the whole module is partition 0 (log entry 176). -/
def State.formParts (s : State) (trained : Nat) : Tab PartSt :=
  if s.anyPart && s.partsOk then
    (List.range 9).filterMap (fun i => match s.partMask i with
      | some m => if m &&& trained = m ∧ s.coresLeft m then some (i, ⟨true, m, false⟩) else none
      | none => none)
  else [(0, ⟨true, trained, false⟩)]

/-! ## Measurements -/

/-- A digest in six registers, byte 0 in the lowest bits of the first (R418); a digest is numbered with byte 0 lowest. -/
def State.measure (s : State) (i : Nat) (d : BitVec 384) : State :=
  (List.range 6).foldl (fun (s : State) k => s.wr (R.BOOT.MEAS.DIGEST (i * 6 + k)) (d.toNat / 2 ^ (64 * k))) s
/-- The 32 bytes of a field record (Table 15-9). -/
def recBytes (r : FieldRec) : List Byte :=
  let b := leBytes 8 r.w0.toNat ++ leBytes 8 r.time.toNat ++ leBytes 8 0
  b ++ leBytes 8 (Config.crc32 b).toNat

/-! ## Boot stages -/

/-- Recovery mode (R407): the code is fatal, STAGE is 0xE. -/
def State.recovery (s : State) (code detail : Nat) : State :=
  let s := s.recErr R.BOOT.ERR.VALID R.BOOT.ERR.OVERRUN [(R.BOOT.ERR.CODE, code), (R.BOOT.ERR.DETAIL, detail)]
  (s.fatalErr code 0xffff).wr R.BOOT.STAT.STAGE 0xe
/-- Stage 1 ROM is done: fuses are read and every PLL has locked (Table 15-1, R474). FABG.MAC.BASE is RWL: after the lock it
keeps its value until a cold reset (R7, R478). DESIGN CHOICE: when it locks (log entry 177). -/
def State.bootRom (s : State) : State :=
  let s := if s.boot.locked then s else s.wr R.FABG.MAC.BASE Config.macBase.toNat
  s.wrs [(R.BOOT.SVN_MIN.SVN_MIN, s.boot.svnMin), (R.SEC.REVOKE.IMG_SLOTS, s.boot.revoked), (R.CLK.LOCK.PLL, 0x1fffff),
    (R.BOOT.STAT.STAGE, 2)]
/-- Stage 2 IMAGE is done (R403 to R406): the copies in order of SEQ until one is accepted, whose attempt count rises; with
none, recovery mode. -/
def State.bootImage (s : State) : State :=
  let a := s.slotReason false
  let b := s.slotReason true
  let aFirst := decide (s.boot.imgB.img.seq.toNat ≤ s.boot.imgA.img.seq.toNat)
  let pick : Option Bool := if aFirst then (if a = 0 then some false else if b = 0 then some true else none)
    else (if b = 0 then some true else if a = 0 then some false else none)
  let ra := if a = 7 ∨ !(pick = some true ∧ !aFirst) then a else 0
  let rb := if b = 7 ∨ !(pick = some false ∧ aFirst) then b else 0
  let s := s.wrs [(R.BOOT.IMG_STAT.A_REASON, ra), (R.BOOT.IMG_STAT.B_REASON, rb)]
  match pick with
  | none => (s.recovery 0xb002 0).wrs [(R.BOOT.IMG_STAT.A_TRIES, s.boot.imgA.tries), (R.BOOT.IMG_STAT.B_TRIES, s.boot.imgB.tries)]
  | some c =>
    let x := s.slot c
    let s := s.setSlot c { x with tries := x.tries + 1 }
    let s : State := { s with boot := { s.boot with running := some c } }
    let s := s.wrs [(R.BOOT.IMG.FW_VERSION, x.img.fwVersion.toNat), (R.BOOT.IMG.SVN, x.img.svn.toNat),
      (R.BOOT.IMG_STAT.COPY, if c then 1 else 0), (R.BOOT.IMG_STAT.TRIAL, if x.good then 0 else 1),
      (R.BOOT.IMG_STAT.A_TRIES, s.boot.imgA.tries), (R.BOOT.IMG_STAT.B_TRIES, s.boot.imgB.tries),
      (R.BOOT.IMG_STAT.SEQ, x.img.seq.toNat)]
    (s.measure 0 x.img.digest).wr R.BOOT.STAT.STAGE 3
/-- The coordinates are written once, and lock; MODULE is what they make (R361, Table 18-3). -/
def State.setCoord (s : State) (rack tray slot fabric : Nat) : State :=
  let s := if s.boot.locked then s else
    s.wrs [(R.FABG.ID.RACK, rack), (R.FABG.ID.TRAY, tray), (R.FABG.ID.SLOT, slot), (R.FABG.ID.FABRIC, fabric)]
  s.wr R.FABG.ID.MODULE (s.rd R.FABG.ID.RACK * 64 + s.rd R.FABG.ID.TRAY * 8 + s.rd R.FABG.ID.SLOT)
/-- The coordinates of the module (R361, R412, R513, Table 15-8): `strap` holds SLOT_ID in [2:0] and TRAY_ID in [5:3].
FABG.ID locks here. DESIGN CHOICE: FABG.MAC.BASE locks with it, by the same flag (log entry 177). -/
def State.bootCoord (s : State) (strap : BitVec 6) : State :=
  let c := (s.cfg 0x100 0).getD 0
  let fixed := fieldOf c 0 1 == 1
  let rack : Option Nat := if fixed then some (fieldOf c 1 10) else s.pwr.rack
  let tray := if fixed then fieldOf c 11 3 else strap.toNat / 8
  let slot := if fixed then fieldOf c 14 3 else strap.toNat % 8
  let s := s.setCoord (rack.getD 0) tray slot (((s.cfg 0x101 0).getD 0).toNat % 2 ^ 32)
  let s : State := { s with boot := { s.boot with strap := strap, locked := true, portsOff := rack.isNone } }
  if rack.isNone then s.bootErr 0xb00d 0 false else s
/-- The sealing secret, which no measurement changes (R426). -/
def sealingSecret : BitVec 384 := Config.hmac (leBytes 32 Config.deviceSecret.toNat) (ascii "LM9 seal")
/-- The owner key hash and the fabric key that the owner block carries (R429, R435). -/
def State.bootOwnerKeys (s : State) : State :=
  let piece (t i : Nat) : Option Word := s.cfg t i
  let hash : Option (BitVec 384) := if (List.range 6).all (fun i => (piece 0x104 i).isSome) then
      some (BitVec.ofNat 384 (((List.range 6).map (fun i => ((piece 0x104 i).getD 0).toNat * 2 ^ (64 * i))).foldl (· + ·) 0))
    else none
  let fk : Option (BitVec 256) := if (List.range 8).all (fun i => (piece 0x105 i).isSome) then
      some (Config.unwrapKey sealingSecret ((List.range 8).map (fun i => (piece 0x105 i).getD 0)))
    else none
  let s : State := { s with sec := { s.sec with ownerKey := hash, fabricKey := fk } }
  s.wrs [(R.SEC.STAT.OWNED, if hash.isSome then 1 else 0), (R.SEC.STAT.FKEY, if fk.isSome then 1 else 0)]
/-- Partitions from the PART records (R412, R437). -/
def State.bootParts (s : State) : State :=
  let ok := s.anyPart && s.partsOk
  let s : State := { s with sec := { s.sec with parts := s.formParts 255 } }
  let s := s.wrs [(R.SEC.STAT.PARTITIONED, if ok then 1 else 0), (R.SEC.STAT.HOUSE, if ok && (s.partMask 8).isSome then 1 else 0)]
  if s.anyPart && !ok then s.bootErr 0xb008 0 false else s
/-- Stage 3 CAL is done (R409 to R412, R418, R497): without a factory copy, recovery mode. -/
def State.bootCal (s : State) (strap : BitVec 6) : State :=
  let bad0 := copyReason s.boot.cal0 0 0 != 0
  match s.calChoice with
  | none => ((s.bootErr 0xb003 0 false).bootErr 0xb003 1 false).recovery 0xb004 0
  | some c =>
    let s := if bad0 then s.bootErr 0xb003 0 false else s
    let s := s.measure 1 (if c = 0 then s.boot.cal0.digest else s.boot.cal1.digest)
    let s := if ownerValid s.boot.ownA then s else s.bootErr 0xb005 0 false
    let s := if ownerValid s.boot.ownB then s else s.bootErr 0xb005 1 false
    let s := if s.ownerChoice = 2 then s.bootErr 0xb006 0 false else s.measure 2 s.owner.digest
    let ap := s.overlayApplies
    let s := if !s.overlay.isEmpty && !ap then s.bootErr 0xb007 0 false else s
    let s := s.wrs [(R.BOOT.CAL.FCOPY, c), (R.BOOT.CAL.OWNER, s.ownerChoice), (R.BOOT.CAL.OVL_APPLIED, if ap then 1 else 0),
      (R.BOOT.CAL.OVL_RECS, if ap then s.overlay.length else 0), (R.BOOT.CAL.CFG_RECS, s.cfgRecs.length)]
    let s := (List.range 8).foldl (fun (s : State) k => match s.calibrated 6 k with
      | some v => s.wr ⟨R.THM.STACK_THR.REG.reg, 8 * k, 8⟩ (BitVec.ofInt 8 v).toNat
      | none => s) s
    (((s.bootCoord strap).bootOwnerKeys).bootParts).wr R.BOOT.STAT.STAGE 4
/-- The core counts of BOOT.CORES: enabled by die, and the log's retirements by die, which saturate in 5 bits. -/
def State.bootCores (s : State) : State :=
  let on (d : Nat) : Nat := ((List.range 200).filter (fun i => !(s.core (d * 200 + i)).offline)).length
  let rets (d : Nat) : Nat := min ((s.boot.fields.filterMap retireOf).filter (fun c => c / 200 == d)).length 31
  s.wrs [(R.BOOT.CORES.ENABLED, on 0 + on 1 * 2 ^ 8 + on 2 * 2 ^ 16 + on 3 * 2 ^ 24),
         (R.BOOT.CORES.RETIRED, rets 0 + rets 1 * 2 ^ 5 + rets 2 * 2 ^ 10 + rets 3 * 2 ^ 15)]
/-- Stage 4 RECORDS is done (R413, R414, R418): bad slots are reported, cores mapped, cores without a spare offline. -/
def State.bootRecords (s : State) : State :=
  let s := s.boot.fields.foldl (fun (s : State) r => match r with | some _ => s | none => s.bootErr 0xb009 0 false) s
  let m := coreMap s.boot.fields
  let s := m.moved.foldl (fun (s : State) e => s.modCore e.1 (fun x => { x with physical := e.2 })) s
  let s := m.off.foldl (fun (s : State) c => (s.modCore c (fun x => { x with offline := true })).spareExhausted c) s
  ((s.measure 3 (Config.sha384 ((s.boot.fields.filterMap id).flatMap recBytes))).bootCores).wr R.BOOT.STAT.STAGE 5
/-- Stage 5 FIRMWARE is done (R416, R459): processors run, every SRAM reads zero, cores that failed the march test are held
offline and get a CORE_RETIRE record. -/
def State.bootFirmware (s : State) (failed : List Nat) : State :=
  let s := s.wrs [(R.RAS.STAT.CP_DOWN, 0), (R.RAS.STAT.STATE, 0)]
  let s := failed.foldl (fun (s : State) c => if (s.core c).offline then s
    else (s.modCore c (fun x => { x with offline := true })).retireCore c) s
  s.bootCores.wr R.BOOT.STAT.STAGE 6

/-! ## Training -/

/-- An HBM_ROW record without a later HBM_ROW_DONE of the same address is repaired, while its bank has repair rows; a repair
that fails retires the channel (R415). -/
def State.rowRepairs (s : State) : List FieldRec → State
  | [] => s
  | r :: t =>
    let same (q : FieldRec) : Bool := recType q == 3 && fieldOf q.w0 26 31 == fieldOf r.w0 26 31
    let k := fieldOf r.w0 26 3
    let ch := fieldOf r.w0 29 5
    let pc := fieldOf r.w0 34 1
    let bank := fieldOf r.w0 35 4
    let row := fieldOf r.w0 39 18
    let s := if recType r ≠ 2 ∨ t.any same then s
      else if ((s.stk k).rowsOf ch pc bank).length < Config.repairRows then
        (s.setStk k ((s.stk k).addRow ch pc bank row)).appendField (s.fieldNow 3 (rowFields k ch pc bank row))
      else s.appendField (s.fieldNow 4 (rowFields k ch 0 0 0))
    s.rowRepairs t
/-- The channels of a stack that HBM_CH_RETIRE records remove (R415). -/
def State.chRetired (s : State) (k : Nat) : List Nat :=
  ((s.boot.fields.filterMap id).filter (fun r => recType r == 4 && fieldOf r.w0 26 3 == k)).map (fun r => fieldOf r.w0 29 5)
/-- Channel states of a trained stack (R13, R317): the spare is channel 31 while no channel is retired. -/
def State.bootChannels (s : State) (k : Nat) : State :=
  let gone := (s.chRetired k).dedup
  let st (c : Nat) : Nat := if gone.contains c then 5 else if gone.isEmpty && c == 31 then 1 else 0
  let s := (List.range 32).foldl (fun (s : State) c => s.wr (chFld k c) (st c)) s
  s.wrs [(R.HBM.STAT.SPARE_CH k, 31), (R.HBM.STAT.SPARE_FREE k, if gone.isEmpty then 1 else 0),
         (R.HBM.STAT.ACTIVE_PC k, 2 * min 31 (32 - gone.length))]
/-- The active pseudo-channels of a stack in physical order. -/
def State.activePcs (s : State) (k : Nat) : List Nat := (List.range 64).filter (fun q => s.rd (chFld k (q / 2)) == 0)
/-- The channel map of a region (R317): pass j takes the j-th active pseudo-channel of each stack that has one (log entry 70). -/
def State.regionMap (s : State) (mask : Nat) : List Nat :=
  let lists := ((List.range 8).filter (fun k => hasStack mask k)).map (fun k => (k, s.activePcs k))
  (List.range 64).flatMap (fun j => lists.filterMap (fun e => e.2[j]?.map (fun q => e.1 * 64 + q)))
/-- The regions of the partitions, in partition order, packed from address 0 and map entry 0 (log entry 71). -/
def State.bootRegions (s : State) : Nat → Nat → Tab PartSt → State
  | _, _, [] => s
  | r, at_, e :: t =>
    let m := s.regionMap e.2.stackMask
    let s := (m.zipIdx).foldl (fun (s : State) x => s.wr (R.HBM0.CMAP.PPC (at_ + x.2)) x.1) s
    let s := s.wrs [(R.HBM0.REGION.BASE_GIB r, at_), (R.HBM0.REGION.NLOG r, m.length), (R.HBM0.REGION.FIRST r, at_),
      (R.HBM0.REGION.STACKS r, e.2.stackMask), (R.HBM0.REGION.VALID r, 1)]
    s.bootRegions (r + 1) (at_ + m.length) t
/-- Stacks that failed to train leave every region (R416). -/
def State.bootStacks (s : State) (trained : List Nat) : State :=
  let s := (List.range 8).foldl (fun (s : State) k => if trained.contains k then s.bootChannels k else s.bootErr 0xb00b k false) s
  let mask := ((List.range 8).map (fun k => if trained.contains k then 2 ^ k else 0)).foldl (· + ·) 0
  let parts := s.formParts mask
  let s : State := { s with sec := { s.sec with parts := parts } }
  (s.wr R.SEC.STAT.HOUSE (if (s.part 8).valid then 1 else 0)).bootRegions 0 0 parts
/-- The store key of a Nolmer (R426). -/
def storeKey (m : Nat) : BitVec 256 := Config.derive (leBytes 48 sealingSecret.toNat) [] (ascii "LM9 store" ++ leBytes 1 m)
/-- A Nolmer brought up gets its keys of this boot: the lift key of an ECDH exchange and XTS keys are fresh (R334, R422, R426). -/
def State.nolKeys (s : State) (m : Nat) : State :=
  let fresh (i : Nat) : BitVec 512 := Config.freeValue (s.freeCtr + i)
  (s.setNol m { s.nolOf m with keys := some ⟨(fresh 0).truncate 256, storeKey m, fresh 1, fresh 2⟩ }).used 3
/-- Nolmers online or offline, and SPLIT from the region table (R329, R333, R416). -/
def State.bootNols (s : State) (ok : List Nat) : State :=
  (List.range 4).foldl (fun (s : State) m =>
    let whole : Bool := (List.range 9).any (fun p => (s.part p).valid && hasStack (s.part p).stackMask (2 * m) &&
      hasStack (s.part p).stackMask (2 * m + 1))
    let good := ok.contains m
    let s := s.wrs [(R.NOL.MEM_STAT.OFFLINE m, if good then 0 else 1), (R.NOL.MEM_STAT.LINK_UP m, if good then 1 else 0),
      (R.NOL.MEM_CFG.SPLIT m, if whole then 0 else 1), (R.NOL.FL_STAT.MODE m, flashMode (s.rd (R.NOL.FL_STAT.RESERVE m)))]
    if good then s.nolKeys m else s.bootErr 0xb00c m false) s
/-- Whether boot deletes an object (R338, R343, Table 12-1): unsealed, a fragment, or expired, or any with a TTL while the
calendar is not valid. -/
def State.bootDeletes (s : State) (o : Obj) : Bool :=
  !o.sealedO || o.kind == .fragment || (match o.expiry with
    | some t => !s.on R.CLK.CAL_STAT.VALID || decide (t < s.now)
    | none => false)
/-- The directory after boot (R338, R341, R343, R481): one event counts the expired objects. -/
def State.bootObjects (s : State) : State :=
  let live := s.dir.objs.filterMap (fun e => e.2.map (fun o => (e.1, o)))
  let gone := live.filter (fun e => s.bootDeletes e.2)
  let n := (gone.filter (fun e => e.2.sealedO && e.2.kind != .fragment)).length
  let s := if s.on R.CLK.CAL_STAT.VALID then s
    else (s.recErr R.CLK.ERR.VALID R.CLK.ERR.OVERRUN [(R.CLK.ERR.CODE, 0x8081), (R.CLK.ERR.UNIT, 0)]).event 0x8081 1 15 0xffff
      0xffff none
  let s := gone.foldl (fun (s : State) e =>
    let h := e.1 + e.2.gen * 2 ^ 22
    (s.setPark h none).dropObj h) s
  let s : State := { s with dir := { s.dir with objs := s.dir.objs.map (fun e => (e.1, e.2.map (fun o => { o with deleting := false }))) } }
  let s := if n = 0 then s else
    (s.recErr (R.NOL.ERR.VALID 0) (R.NOL.ERR.OVERRUN 0) [(R.NOL.ERR.CODE 0, 0x900e), (R.NOL.ERR.CH 0, 0), (R.NOL.ERR.FLASH 0, 0)]).event
      0x900e 1 15 0xffff 0xffff (some n)
  s.parkRegs
/-- The lifetime counters come from the newest commit record, beside what has been counted since power came up (R485). -/
def State.bootLife (s : State) : State :=
  if s.clk.restored then s.wr R.CLK.LIFE_STAT.SEQ s.clk.savedSeq else
  let life := s.clk.life.foldl (fun (t : Tab Nat) e => Tab.set 0 t e.1 (Tab.get 0 t e.1 + e.2)) s.clk.saved
  ({ s with clk := { s.clk with life := life, restored := true } } : State).wr R.CLK.LIFE_STAT.SEQ s.clk.savedSeq
/-- FAB.CTL.EN of the ports that configuration record 0x102 names, all 32 without it (Table 15-1). -/
def State.bootPorts (s : State) : State :=
  let en := match s.cfg 0x102 0 with | some w => w.toNat | none => 0xffffffff
  (List.range 32).foldl (fun (s : State) p => if en / 2 ^ p % 2 = 1 then s.portEnable p else s) s
/-- Stage 6 TRAIN: FAB.CTL.EN on the enabled ports, repairs, stacks, Nolmers, directory, counters (Table 15-1, R412 to R416). -/
def State.bootTrain (s : State) (trained nolOk : List Nat) : State :=
  let s := s.bootPorts
  let s := s.rowRepairs (s.boot.fields.filterMap id)
  let s := ((((s.bootStacks trained).bootNols nolOk).bootObjects).bootLife)
  { s with boot := { s.boot with trained := true } }
/-- BOOT_STAGE_COMPLETE (R397): the stage in BOOT.STAT.STAGE finishes and the next one begins. -/
def State.bootStage (s : State) (trained nolOk failed : List Nat) (strap : BitVec 6) : State :=
  if !s.pwr.pwrgd then s else
  match s.rd R.BOOT.STAT.STAGE with
  | 0 => s.bootRom
  | 1 => s.bootRom
  | 2 => s.bootImage
  | 3 => s.bootCal strap
  | 4 => s.bootRecords
  | 5 => s.bootFirmware failed
  | 6 => if s.boot.trained then s else s.bootTrain trained nolOk
  | _ => s
/-- JOB_READY (R397, R405, R406, R417): the running copy's good mark is written and its count is 0; a copy that was
rejected or skipped is reported with its reason. -/
def State.jobReady (s : State) (ms : Nat) : State :=
  if s.rd R.BOOT.STAT.STAGE ≠ 6 ∨ !s.boot.trained then s else
  match s.boot.running with
  | none => s
  | some c =>
    let s := s.setSlot c { s.slot c with tries := 0, good := true }
    let other := s.rd (if c then R.BOOT.IMG_STAT.A_REASON else R.BOOT.IMG_STAT.B_REASON)
    let s := s.wrs [(R.BOOT.IMG_STAT.TRIAL, 0), (if c then R.BOOT.IMG_STAT.B_TRIES else R.BOOT.IMG_STAT.A_TRIES, 0),
      (R.BOOT.STAT.STAGE, 7), (R.BOOT.STAT.READY, 1), (R.BOOT.STAT.READY_MS, ms)]
    if other = 0 then s else s.bootErr 0xb001 other true

/-! ## Resets -/

/-- The stored value of a register after a warm reset (Table 18-3): RS and RWL fields stay, every other field takes its
Reset entry. -/
def warmValue (off : Nat) (w : Word) : Word :=
  match regDef off with
  | none => regReset off
  | some d => BitVec.ofNat 64 (d.fields.foldl (fun n f =>
      n + (if f.acc = .rs ∨ f.acc = .rwl then w.toNat / 2 ^ f.lo % 2 ^ f.w else (regReset off).toNat / 2 ^ f.lo % 2 ^ f.w) * 2 ^ f.lo) 0)
/-- Registers that every reset keeps: the calendar and its status (AON), and the flash metadata of the Nolmers (Table 21-5). -/
def keptReg (k : Nat) : Bool :=
  k == R.CLK.CAL.TIME.reg || k == R.CLK.CAL_STAT.VALID.reg || (decide (0x2000000 ≤ k) && decide (k < 0x2400000) &&
    (k % 0x100000 == 0x30 || k % 0x100000 == 0x38 || k % 0x100000 == 0x40))
/-- Registers after a cold reset: the kept ones; a slew in progress ends. -/
def State.keptRegs (s : State) : Tab Word := (s.wr R.CLK.CAL_STAT.SLEWING 0).regs.filter (fun e => keptReg e.1)
/-- Registers after a warm reset: kept ones, UPTIME_US (R484), and RS and RWL fields. -/
def State.warmRegs (s : State) : Tab Word :=
  Tab.mapKeys regReset (fun k v => if keptReg k ∨ k = R.CLK.UPTIME_US.US.reg then v else warmValue k v)
    (s.wr R.CLK.CAL_STAT.SLEWING 0).regs
/-- What is on the module after either reset, with the registers `regs`: power and pins, flash, hosts' memories and the
always-on domain are as they were; park records that lay only in LPDDR5X are lost (R343). Vector 0 of no PF is signalled. -/
def State.afterReset (s : State) (regs : Tab Word) : State :=
  let z := State.reset
  let lose (k : Park) : Park := { k with dram := false, lost := k.lost || k.dram, held := false }
  let parks := s.roll.parks.map (fun e => (e.1, e.2.map lose))
  let hbm := Tab.mapVals HbmSt.reset (fun _ h => { HbmSt.reset with repaired := h.repaired }) s.hbm
  let boot := { s.boot with running := none, trained := false, portsOff := false }
  let pwr := { s.pwr with fault := false, alert := false, causes := [], steps := [], want := [], raised := [], lowSince := none, lowering := [], hotCut := [] }
  let host := { z.host with mem0 := s.host.mem0, mem1 := s.host.mem1, perst0 := s.host.perst0, perst1 := s.host.perst1,
                            ignored := s.host.ignored }
  let base := { z with pending := s.pending, freeCtr := s.freeCtr, regs := regs, host := host, hbm := hbm, dir := s.dir }
  let roll := { z.roll with parks := parks }
  let nol := Tab.mapVals ⟨0, 0, none⟩ (fun _ x => { x with keys := none }) s.nol
  ({ base with blks := s.blks, nol := nol, boot := boot, pwr := pwr, roll := roll } : State).wr R.BOOT.STAT.STAGE 1
/-- COLD_RESET (R478): everything but the always-on domain, flash, configuration flash and fuses is as after reset; RWL locks
open and the dump area is clear. Without internal power nothing happens. -/
def State.coldReset (s : State) : State :=
  if !s.pwr.pwrgd then s else
  let c := { ClkSt.reset with saved := s.clk.saved, savedSeq := s.clk.savedSeq }
  let t := s.afterReset s.keptRegs
  ({ t with clk := c, boot := { t.boot with locked := false } } : State).pinBrake
/-- WARM_RESET (R478): RS fields, RWL values and locks, the dump area, the lifetime counters in RAM and the always-on domain
stay; counter 51 advances (Table 18-4). -/
def State.warmReset (s : State) : State :=
  if !s.pwr.pwrgd then s else
  let life := Tab.set 0 s.clk.life 51 (min (Tab.get 0 s.clk.life 51 + 1) (2 ^ 32 - 1))
  let c := { s.clk with slew := 0, life := life }
  let t := s.afterReset s.warmRegs
  ({ t with clk := c, ras := { t.ras with dump := s.ras.dump, dumpFree := s.ras.dumpFree } } : State).pinBrake
/-- BOOT_WATCHDOG (R400): a boot that is not job-ready is reset; recovery mode has no boot to watch. -/
def State.bootWatchdog (s : State) : State :=
  if s.on R.BOOT.STAT.READY ∨ s.rd R.BOOT.STAT.STAGE = 0xe then s else s.warmReset

/-! ## Firmware update -/

/-- FIRMWARE_UPDATE (R402, R408): the copy that is not running is written, with SEQ one above the running copy's, count 0 and
no good mark; in recovery mode copy A, above both (log entry 72). -/
def State.firmwareUpdate (s : State) (path : Path) (img : ImageCopy) : State :=
  let seq := match s.runningImg with
    | some i => i.seq
    | none => if s.boot.imgB.img.seq.toNat ≤ s.boot.imgA.img.seq.toNat then s.boot.imgA.img.seq else s.boot.imgB.img.seq
  let b := match s.boot.running with | some c => !c | none => false
  (s.setSlot b ⟨{ img with seq := seq + 1 }, 0, false⟩).answerTo path (.status 0)
/-- PLDM_IDENTIFY (R407). -/
def State.pldmIdentify (s : State) (path : Path) : State :=
  s.answerTo path (.identity 0xb0 (s.rd R.BOOT.IMG.FW_VERSION) (s.rd R.BOOT.IMG.SVN))

end Sys2Proof.Machine
end

