-- ==== Sys2Proof/Machine/Sec.lean ====
section
/-! DEFINITION. Security: the owner block and fuses (R429, R430), SPDM (R427, R428), keys (R431, R435, R436), the house region
(R443 to R447) and lift-link authentication (R422). -/
namespace Sys2Proof.Machine

/-- A security code: SEC.ERR. -/
def State.secRec (s : State) (code p : Nat) : State :=
  s.recErr R.SEC.ERR.VALID R.SEC.ERR.OVERRUN [(R.SEC.ERR.CODE, code), (R.SEC.ERR.PART, p)]

/-! ## Paths -/

/-- Whether a path is the physical function's or out of band. -/
def pathMaster : Path → Bool
  | .fn _ f => f.val == 0
  | .oob => true
/-- Whether a path exists: out of band, a PF, or an enabled VF (R377). -/
def State.pathOk (s : State) : Path → Bool
  | .oob => s.pwr.aux
  | .fn _ f => s.pwr.pwrgd && (f.val == 0 || (s.fnPart f.val).isSome)
/-- A management command outside recovery mode (R407): in it, and over a path that does not exist, nothing is done; recovery
mode refuses. -/
def State.served (s : State) (path : Path) (k : State → State) : State :=
  if !s.pathOk path then s
  else if s.rd R.BOOT.STAT.STAGE = 0xe then s.answerTo path .refused
  else k s

/-! ## Ownership -/

/-- The bytes of an owner block without its digest (R410). -/
def ownerBytes (seq : Nat) (recs : List Rec) : List Byte :=
  leBytes 8 0x4c4d394f ++ leBytes 8 seq ++ leBytes 8 recs.length ++ leBytes 40 0 ++
  recs.flatMap (fun r => leBytes 8 r.1.toNat ++ leBytes 8 r.2.toNat)
/-- A block that firmware writes: its header, records and digest (R410). -/
def OwnerBlock.made (seq : Nat) (recs : List Rec) : OwnerBlock :=
  ⟨0x4c4d394f, BitVec.ofNat 13 recs.length, true, BitVec.ofNat 32 seq, recs, Config.sha384 (ownerBytes seq recs)⟩
/-- The copy that is not in use is written with SEQ one above the current copy's (R429). -/
def State.writeOwner (s : State) (f : Nat → OwnerBlock) : State :=
  let c := s.rd R.BOOT.CAL.OWNER
  let seq := if c = 0 then s.boot.ownA.seq.toNat + 1 else if c = 1 then s.boot.ownB.seq.toNat + 1 else 1
  if c = 0 then { s with boot := { s.boot with ownB := f seq } } else { s with boot := { s.boot with ownA := f seq } }
/-- OWNER_WRITE (R429): out of band or by a PF; signed by the current owner key where there is one. A valid block's digest follows
its new SEQ (log entry 72). -/
def State.ownerWrite (s : State) (path : Path) (blk : OwnerBlock) (sigOk : Bool) : State :=
  s.served path (fun s =>
    if !pathMaster path || (s.sec.ownerKey.isSome && !sigOk) then s.answerTo path (.status 0x7007)
    else (s.writeOwner (fun q => if ownerValid blk then OwnerBlock.made q blk.records
      else { blk with seq := BitVec.ofNat 32 q })).answerTo path (.status 0))
/-- SVN_COMMIT (R430): owner-signed, between the present minimum and the running SVN. -/
def State.svnCommit (s : State) (path : Path) (svn : Nat) (sigOk : Bool) : State :=
  s.served path (fun s =>
    if !sigOk || s.sec.ownerKey.isNone || decide (s.rd R.BOOT.IMG.SVN < svn) || decide (svn < s.boot.svnMin) then
      s.answerTo path (.status 0x7007)
    else (({ s with boot := { s.boot with svnMin := svn } } : State).wr R.BOOT.SVN_MIN.SVN_MIN svn).answerTo path (.status 0))
/-- REVOKE (R430): with Realmand's token and the owner's signature, never of the running copy's slot. -/
def State.revoke (s : State) (path : Path) (slot : Nat) (tokenOk ownerOk : Bool) : State :=
  s.served path (fun s =>
    let running : Bool := match s.runningImg with | some i => i.keySlot.val == slot | none => false
    if !tokenOk || !ownerOk || s.sec.ownerKey.isNone || running then s.answerTo path (.status 0x7007)
    else
      let r := s.boot.revoked ||| 2 ^ slot
      (({ s with boot := { s.boot with revoked := r } } : State).wr R.SEC.REVOKE.IMG_SLOTS r).answerTo path (.status 0))

/-! ## SPDM -/

/-- An SPDM error response: counted, SEC_SPDM_ERR (Table 16-7); `limit` is SessionLimitExceeded (R427). -/
def State.spdmError (s : State) (path : Path) (limit : Bool) : State :=
  ((((s.count R.SEC.SPDM_STAT.ERRORS 1).secRec 0x7008 0).event 0x7008 0 15 0xffff 0xffff none)).answerTo path (.error limit)
/-- A digest of BOOT.MEAS. -/
def State.meas (s : State) (i : Nat) : BitVec 384 :=
  BitVec.ofNat 384 (((List.range 6).map (fun k => s.rd (R.BOOT.MEAS.DIGEST (i * 6 + k)) * 2 ^ (64 * k))).foldl (· + ·) 0)
/-- The DeviceID certificate: the DEVID_CERT records of the factory copy in use, in 8-byte pieces from INDEX 0 (R424). -/
def State.devidCert (s : State) : List Byte :=
  let l := s.factory.filter (fun r => recKind r == 0xf0)
  (List.range l.length).flatMap (fun i => match l.find? (fun r => recIndex r == i) with
    | some r => leBytes 8 r.2.toNat
    | none => [])
/-- A signature under the Alias key of this boot (R425, R427). -/
def State.sign (s : State) (b : List Byte) : BitVec 768 :=
  Config.sign (Config.aliasKey Config.deviceSecret ((List.range 4).map s.meas)) b
/-- The certificate chain of slot 0 (R425). -/
def State.chain (s : State) : List Byte := Config.certChain s.devidCert ((List.range 4).map s.meas)
/-- The content of a measurement block (Table 16-3), none for another index. -/
def State.block (s : State) (i : Nat) : Option (List Byte) :=
  if 1 ≤ i ∧ i ≤ 4 then some (leBytes 48 (s.meas (i - 1)).toNat)
  else if i = 5 then some (leBytes 4 (s.rd R.BOOT.IMG.SVN) ++ leBytes 4 (s.rd R.BOOT.IMG.FW_VERSION) ++
    leBytes 8 (s.rdW R.BOOT.SVN_MIN.REG.reg).toNat ++ leBytes 8 (s.rdW R.SEC.REVOKE.REG.reg).toNat)
  else if i = 6 then
    let recs := (List.range 9).flatMap (fun p => match s.cfg 0x103 p with
      | some v => leBytes 8 (0x103 + p * 2 ^ 16) ++ leBytes 8 v.toNat
      | none => [])
    some (leBytes 48 (Config.sha384 (recs ++ leBytes 8 (s.rdW R.SEC.HOUSE_SLOT.REG.reg).toNat)).toNat)
  else if 16 ≤ i ∧ i < 24 then
    match s.jobOf (i - 16) with
    | some j => some (leBytes 48 (Config.sha384 (leBytes 48 j.imageDigest.toNat ++ j.manifests.flatten)).toNat)
    | none => some (leBytes 48 0)
  else if i = 24 then some (leBytes 48 s.sec.houseManifest.toNat)
  else none
/-- Whether a path may see a block (Table 16-3). -/
def State.blockSeen (s : State) (path : Path) (i : Nat) : Bool :=
  decide (i ≤ 6) || pathMaster path ||
  (match path with
    | .fn _ f => (match s.fnPart f.val with
      | some p => i == 16 + p || (i == 24 && s.rd R.SEC.HOUSE_CTL.READ / 2 ^ p % 2 == 1)
      | none => false)
    | .oob => true)
/-- The blocks of a GET_MEASUREMENTS: every one for index 0xFF, else the named one; what the path may not see, and any other
index, is absent (R428). -/
def State.blocks (s : State) (path : Path) (index : Nat) : List (Nat × List Byte) :=
  (if index = 0xff then List.range 25 else [index]).filterMap (fun i =>
    if s.blockSeen path i then (s.block i).map (fun b => (i, b)) else none)
/-- GET_VERSION (R427). -/
def State.getVersion (s : State) (path : Path) : State := s.served path (fun s => s.answerTo path (.version [0x12, 0x13]))
/-- GET_CAPABILITIES. -/
def State.getCapabilities (s : State) (path : Path) : State := s.served path (fun s => s.answerTo path .capabilities)
/-- NEGOTIATE_ALGORITHMS: `offered` says that the requester offers those of Table 16-2. -/
def State.negotiate (s : State) (path : Path) (offered : Bool) : State :=
  s.served path (fun s => if offered then s.answerTo path .algorithms else s.spdmError path false)
/-- GET_DIGESTS. -/
def State.getDigests (s : State) (path : Path) : State :=
  s.served path (fun s => s.answerTo path (.digests (Config.sha384 s.chain)))
/-- GET_CERTIFICATE: slot 0 only; an offset past the chain is an error. -/
def State.getCertificate (s : State) (path : Path) (slot off len : Nat) : State :=
  s.served path (fun s =>
    let c := s.chain
    if slot ≠ 0 ∨ c.length < off then s.spdmError path false
    else s.answerTo path (.certificate ((c.drop off).take len) (c.length - off - min len (c.length - off))))
/-- CHALLENGE: slot 0 only. What SPDM has signed stands for the transcript (log entry 73). -/
def State.challenge (s : State) (path : Path) (slot : Nat) (nonce : BitVec 256) : State :=
  s.served path (fun s =>
    if slot ≠ 0 then s.spdmError path false
    else s.answerTo path (.challengeAuth (s.sign (leBytes 32 nonce.toNat ++ leBytes 48 (Config.sha384 s.chain).toNat))))
/-- GET_MEASUREMENTS with signature (R428). -/
def State.getMeasurements (s : State) (path : Path) (index : Nat) (nonce : BitVec 256) : State :=
  s.served path (fun s =>
    let bs := s.blocks path index
    s.answerTo path (.measurements bs (s.sign (leBytes 32 nonce.toNat ++ bs.flatMap (·.2)))))
/-- The sessions of a path. -/
def State.sessionsOf (s : State) (path : Path) : List Session := s.sec.sessions.filter (fun x => x.path == path)
/-- A session of a path by its number. -/
def State.sessionAt (s : State) (path : Path) (id : Nat) : Option Session := (s.sessionsOf path).find? (fun x => x.id == id)
/-- The sessions replaced. -/
def State.setSessions (s : State) (l : List Session) : State := { s with sec := { s.sec with sessions := l } }
/-- KEY_EXCHANGE (R427): one session of a function, two out of band. -/
def State.keyExchange (s : State) (path : Path) : State :=
  s.served path (fun s =>
    let most := if path = .oob then 2 else 1
    if (s.sessionsOf path).length ≥ most then s.spdmError path true
    else
      let id := s.sec.nextSession
      let s := s.setSessions (s.sec.sessions ++ [⟨path, id, false, 0⟩])
      ({ s with sec := { s.sec with nextSession := id + 1 } } : State).answerTo path (.keyExchangeRsp id))
/-- A request inside a session of its path that FINISH has completed as `finished` says; else an error. -/
def State.inSession (s : State) (path : Path) (id : Nat) (finished : Bool) (k : State → Session → State) : State :=
  s.served path (fun s => match s.sessionAt path id with
    | some x => if x.finished = finished then k s x else s.spdmError path false
    | none => s.spdmError path false)
/-- A session passed through `f`. -/
def State.modSession (s : State) (x : Session) (f : Session → Session) : State :=
  s.setSessions (s.sec.sessions.map (fun y => if y = x then f y else y))
/-- FINISH: a verification that fails is an error and leaves the session unfinished (log entry 73). -/
def State.finishSession (s : State) (path : Path) (id : Nat) (ok : Bool) : State :=
  s.inSession path id false (fun s x => if ok then (s.modSession x (fun y => { y with finished := true })).answerTo path .finishRsp
    else s.spdmError path false)
/-- HEARTBEAT. -/
def State.heartbeat (s : State) (path : Path) (id : Nat) : State :=
  s.inSession path id true (fun s _ => s.answerTo path .heartbeatAck)
/-- KEY_UPDATE: the session goes to its next keys. -/
def State.keyUpdate (s : State) (path : Path) (id : Nat) : State :=
  s.inSession path id true (fun s x => (s.modSession x (fun y => { y with keyEpoch := y.keyEpoch + 1 })).answerTo path .keyUpdateAck)
/-- END_SESSION. -/
def State.endSession (s : State) (path : Path) (id : Nat) : State :=
  s.inSession path id true (fun s x => (s.setSessions (s.sec.sessions.filter (· ≠ x))).answerTo path .endSessionAck)
/-- CHUNK_SEND: pieces arrive in order from 0; another number is an error. The whole request acts as its own command. -/
def State.chunkSend (s : State) (path : Path) (seq : Nat) (last : Bool) (data : List Byte) : State :=
  s.served path (fun s =>
    let cur := (s.sec.chunks.find? (fun c => c.path == path)).getD ⟨path, 0, []⟩
    let rest := s.sec.chunks.filter (fun c => c.path != path)
    let put (l : List ChunkIn) : State := { s with sec := { s.sec with chunks := l } }
    if seq ≠ cur.next then (put rest).spdmError path false
    else if last then (put rest).answerTo path (.chunkSendAck seq)
    else (put (⟨path, seq + 1, cur.data ++ data⟩ :: rest)).answerTo path (.chunkSendAck seq))
/-- CHUNK_GET: a piece of a large response (log entry 73). -/
def State.chunkGet (s : State) (path : Path) (seq : Nat) : State := s.served path (fun s => s.answerTo path (.chunkResponse seq))

/-! ## Keys -/

/-- The binding of a key of a KIND that arrives by a path (R431), none where no rule binds it. -/
def keyBind (path : Path) (kind : Nat) : Option Nat :=
  match path with
  | .fn _ f => if f.val ≠ 0 then some (f.val - 1) else if kind = 1 then some 8 else if kind = 3 then some 15 else none
  | .oob => if kind = 1 then some 8 else if kind = 3 then some 15 else none
/-- The checks of R431 on a KEY_PUT body; a reserved KIND or flag is refused with them (log entry 7). -/
def State.keyPutOk (s : State) (k : KeyBody) : Bool :=
  decide (1 ≤ k.kind.toNat ∧ k.kind.toNat ≤ 3) && decide (k.flags.toNat < 2) &&
  (k.kind != 1 || k.sigOk) && (k.kind != 3 || (k.sigOk && k.byOwner && s.sec.ownerKey.isSome)) &&
  (k.flags == 0 || k.reqDigest != 0)
/-- The owner block in use with a wrapped fabric key (R435). -/
def State.withFabricKey (s : State) (key : BitVec 256) (seq : Nat) : OwnerBlock :=
  let pieces : List Rec := (List.range 8).map (fun i => (BitVec.ofNat 64 (0x105 + i * 2 ^ 16), Config.wrapKey sealingSecret key i))
  let recs := s.owner.records.filter (fun r => recKind r ≠ 0x105) ++ pieces
  OwnerBlock.made seq recs
/-- KEY_PUT (R431, R435): the lowest free entry takes the key; a KIND 3 key bound to the module also goes, wrapped, into the
owner block. -/
def State.keyPut (s : State) (path : Path) (session : Nat) (k : KeyBody) : State :=
  s.inSession path session true (fun s _ =>
    let deny := s.answerTo path (.status 0x7001)
    match keyBind path k.kind.toNat, (List.range 64).find? (fun i => (Tab.get none s.sec.keys i).isNone) with
    | some b, some i =>
      let same : Bool := s.keyList.any (fun e => e.2.kind == k.kind.toNat && e.2.id == k.id.toNat && e.2.bind == b)
      if !s.keyPutOk k || same then deny
      else
        let e : KeyEnt := ⟨k.kind.toNat, b, k.flags.toNat, k.id.toNat, k.notAfter.toNat, k.reqDigest, k.tagChain, k.nseg.toNat,
          k.manifest, k.key⟩
        let s : State := { s with sec := { s.sec with keys := Tab.set none s.sec.keys i (some e) } }
        let s := if b = 15 then s.writeOwner (s.withFabricKey k.key) else s
        s.answerTo path (.status 0)
    | _, _ => deny)
/-- KEY_DEL (R436): the entry of the session's binding goes; without one the request is refused. -/
def State.keyDel (s : State) (path : Path) (session kind id : Nat) : State :=
  s.inSession path session true (fun s _ =>
    match s.keyList.find? (fun e => e.2.kind == kind && e.2.id == id && some e.2.bind == keyBind path kind) with
    | some e => ({ s with sec := { s.sec with keys := Tab.set none s.sec.keys e.1 none } } : State).answerTo path (.status 0)
    | none => s.answerTo path .refused)
/-- KEY_EXPIRY (R436): an entry is removed at its NOT_AFTER. -/
def State.keyExpiry (s : State) (i : Nat) : State :=
  match Tab.get none s.sec.keys i with
  | some k => if k.notAfter ≠ 0 ∧ k.notAfter ≤ s.now then { s with sec := { s.sec with keys := Tab.set none s.sec.keys i none } }
    else s
  | none => s

/-! ## The house region -/

/-- The model key of the house image: KIND 1, bound to the house, with the ID of HOUSE_CTL.IMAGE. -/
def State.houseKey (s : State) : Option KeyEnt :=
  (s.keyList.find? (fun e => e.2.kind == 1 && e.2.bind == 8 && e.2.id == s.rd R.SEC.HOUSE_CTL.IMAGE)).map (·.2)
/-- HOUSE_LOAD (R443): refused while READ is not 0, without a house partition, a sealed object of its region, or the key; else
the load begins. -/
def State.houseLoad (s : State) (path : Path) (h : Nat) : State :=
  s.served path (fun s =>
    if s.rd R.SEC.HOUSE_CTL.READ ≠ 0 ∨ s.houseRegion.isNone ∨ (s.objFor 8 h).isNone then s.answerTo path .refused
    else if s.houseKey.isNone then s.answerTo path (.status 0x7002)
    else
      let s : State := { s with sec := { s.sec with houseObj := h, houseLines := [] } }
      (s.wrs [(R.SEC.HOUSE_STAT.STATE, 1), (R.SEC.HOUSE_STAT.PAUSED, 0), (R.SEC.HOUSE_STAT.PENDING, 0)]).answerTo path (.status 0))
/-- HOUSE_LOAD_COMPLETE (R443): the decrypted image fills the region and STATE is VALID; an object read that stayed poisoned
fails the image's tags, and STATE is EMPTY (log entry 74). -/
def State.houseLoaded (s : State) (data : List (Nat × Byte)) (poisoned : Bool) : State :=
  if s.rd R.SEC.HOUSE_STAT.STATE ≠ 1 then s else
  match s.houseRegion, s.houseKey with
  | some r, some k =>
    if poisoned then s.wr R.SEC.HOUSE_STAT.STATE 0 else
    let d : Tab Byte := data.foldl (fun (t : Tab Byte) e => Tab.set 0 t e.1 e.2) []
    let s := s.paste (s.regionRange r).1 (s.regionRange r).2 ⟨d, []⟩
    let s : State := { s with sec := { s.sec with houseManifest := Config.sha384 k.manifest } }
    s.wr R.SEC.HOUSE_STAT.STATE 2
  | _, _ => s.wr R.SEC.HOUSE_STAT.STATE 0
/-- HOUSE_REBUILD_DONE (R445 to R447): the lowest line that waits is written whole, or, where neither source gave it, the house
is LOST and every job of a reading partition is reset; no line waits any longer then (log entry 74). -/
def State.houseRebuilt (s : State) (a : Nat) (src : RebuildSrc) (data : List Byte) : State :=
  let line := a / 512 * 512
  if s.sec.houseLines.head? ≠ some line then s else
  let rest (l : List Nat) (s : State) : State :=
    ({ s with sec := { s.sec with houseLines := l } } : State).wr R.SEC.HOUSE_STAT.PENDING (min l.length 0xffff)
  let done (s : State) : State :=
    let s := (s.store line data).count R.SEC.HOUSE_STAT.REBUILDS 1
    let s := rest s.sec.houseLines.tail s
    if s.sec.houseLines.isEmpty then s.wrs [(R.SEC.HOUSE_STAT.STATE, 2), (R.SEC.HOUSE_STAT.PAUSED, 0)] else s
  match src with
  | .object => if (s.objFor 8 s.sec.houseObj).isSome then done s else s
  | .peer => done s
  | .none =>
    let readers := (List.range 8).filter (fun p => s.rd R.SEC.HOUSE_CTL.READ / 2 ^ p % 2 == 1)
    let s := rest [] (s.wrs [(R.SEC.HOUSE_STAT.STATE, 4), (R.SEC.HOUSE_STAT.PAUSED, 0)])
    readers.foldl (fun (s : State) p => (s.secRec 0x7006 8).containedPart 0x7006 p) s

/-! ## Lift links -/

/-- LIFT_GMAC (R422): a mismatch raises SEC_LIFT_AUTH, and the Nolmer goes offline as R333 states. -/
def State.liftGmac (s : State) (m : Nat) (ok : Bool) : State :=
  if ok || s.on (R.NOL.MEM_STAT.OFFLINE m) then s
  else s.nolOffline m (fun s p j => (s.secRec 0x7004 p).contained 0x7004 p j 0xffff none)

end Sys2Proof.Machine
end

