-- ==== Sys2Proof/Machine/Ras.lean ====
section
/-! DEFINITION. Control and management processors (R457 to R460), the release of a dump and the automatic reset (R471, R472),
telemetry (Table 17-4, Table 17-11), and the lifetime counters (R484, R485). -/
namespace Sys2Proof.Machine

/-! ## Control processors -/

/-- The partition whose cores control processor `cp` of a die runs (R457): its 50 cores lie beneath one stack. -/
def State.cpPart (s : State) (cp : Nat) : Nat := s.stackPart (cp / 4 * 2 + cp % 4 / 2)
/-- The jobs of a processor's scope end (R454, R459): for a hub processor every job, for another the jobs of its partition. -/
def State.cpScope (s : State) (code cp : Nat) : State :=
  if 16 ≤ cp then s.contained code 15 0xffff cp none
  else
    let p := s.cpPart cp
    if p < 8 then s.contained code p (s.jobId p) cp none else s.event code 3 p 0xffff cp none
/-- The time of a processor's last fault. -/
def State.cpLast (s : State) (cp : Nat) : Option Nat := Tab.get none s.ras.cpFault cp
/-- Whether a processor is out of service. -/
def State.cpOut (s : State) (cp : Nat) : Bool := s.ras.cpHalted.contains cp || s.rd R.RAS.STAT.CP_DOWN / 2 ^ cp % 2 == 1
/-- A fault of a control processor (R459): it halts, its scope is reset, and its reload begins. -/
def State.cpFaulted (s : State) (code cp : Nat) : State :=
  let f := Tab.set none (Tab.set none s.ras.cpFault (18 + cp) (s.cpLast cp)) cp (some s.uptime)
  let s : State := { s with ras := { s.ras with cpFault := f, cpHalted := addWord s.ras.cpHalted cp } }
  (s.recErr R.RAS.ERR.VALID R.RAS.ERR.OVERRUN [(R.RAS.ERR.CODE, code), (R.RAS.ERR.UNIT, cp)]).cpScope code cp
/-- CP_MEMORY_ERROR (R459). -/
def State.cpMemoryError (s : State) (cp : Nat) : State := if s.cpOut cp then s else s.cpFaulted 0x1011 cp
/-- CP_WATCHDOG (R458). -/
def State.cpWatchdog (s : State) (cp : Nat) : State :=
  if s.cpOut cp then s else (s.count R.RAS.CP_CNT.WDT 1).cpFaulted 0x1012 cp
/-- CP_AUDIT (R458): an audit that finds every invariant of Table 17-3 changes nothing. -/
def State.cpAudit (s : State) (cp : Nat) (mismatch : Bool) : State :=
  if s.cpOut cp ∨ !mismatch then s else (s.count R.RAS.CP_CNT.AUDIT 1).cpFaulted 0x1013 cp
/-- A scrub visit to any target: a corrected word of a control processor's memories is CP_CORR (R457), an uncorrectable one
CP_UNCORR (R459). -/
def State.scrubAny (s : State) (t : ScrubTarget) (raw : BitVec 288) : State :=
  match t with
  | .cp cp =>
    if s.cpOut cp.val then s else
    let st := (lcDecode (lcSyms raw)).2
    if st = 1 then ((s.count R.RAS.SCRUB_CNT.CORR 1).count R.RAS.CP_CNT.CORR 1).rasErr 0x1010 0 15 0xffff cp.val
    else if st = 0 then s
    else (if st = 3 then s.count R.RAS.SCRUB_CNT.UNCORR 1 else s).cpFaulted 0x1011 cp.val
  | _ => s.scrubVisit t raw
/-- Whether the processor's last fault is a second one within 1 h (R459). -/
def State.cpRepeat (s : State) (cp : Nat) : Bool :=
  match s.cpLast cp, s.cpLast (18 + cp) with
  | some t, some u => decide (t < u + 3600000000)
  | _, _ => false
/-- CP_RELOAD_DONE (R459): the processor returns to service, or after a second fault within 1 h stays down with
CP_RELOAD_FAIL, which for a hub processor is fatal. -/
def State.cpReloadDone (s : State) (cp : Nat) : State :=
  if !s.ras.cpHalted.contains cp then s else
  let rep := s.cpRepeat cp
  let s : State := { s with ras := { s.ras with cpHalted := s.ras.cpHalted.filter (· ≠ cp) } }
  if !rep then s.count R.RAS.CP_CNT.RELOADS 1
  else
    let s := s.wr R.RAS.STAT.CP_DOWN (s.rd R.RAS.STAT.CP_DOWN ||| 2 ^ cp)
    if cp < 16 then s.rasErr 0x1014 1 15 0xffff cp
    else (s.recErr R.RAS.ERR.VALID R.RAS.ERR.OVERRUN [(R.RAS.ERR.CODE, 0x1014), (R.RAS.ERR.UNIT, cp)]).fatalErr 0x1014 cp
/-- MP_WATCHDOG (R460): MP_FAULT is fatal; the management processor alone is reset, and its boot ROM runs the dump path. -/
def State.mpWatchdog (s : State) : State :=
  (s.recErr R.RAS.ERR.VALID R.RAS.ERR.OVERRUN [(R.RAS.ERR.CODE, 0x1015), (R.RAS.ERR.UNIT, 0xffff)]).fatalErr 0x1015 0xffff

/-! ## The dump's release and the automatic reset -/

/-- DUMP_RELEASE (R471): from a PF's mailbox or out of band a written dump is released; the dump area is empty again. -/
def State.dumpRelease (s : State) (path : Path) : State :=
  s.served path (fun s =>
    if !pathMaster path ∨ s.rd R.RAS.DUMP.STATE < 2 then s.answerTo path .refused
    else (({ s with ras := { s.ras with dump := [], dumpFree := 0 } } : State).wrW R.RAS.DUMP.REG.reg 0).answerTo path (.status 0))
/-- AUTO_RESET_TIMER (R472): HOLD_S after the dump is written a warm reset follows where AUTO_RESET = 1. -/
def State.autoReset (s : State) : State :=
  if s.on R.RAS.CTL.AUTO_RESET ∧ s.rd R.RAS.STAT.STATE = 2 then s.warmReset else s

/-! ## Telemetry -/

/-- The temperature of a die in `THM.DIE_C`, the hub's for 4 (Table 19-7). -/
def State.dieTemp (s : State) (d : Nat) : Nat := s.rd R.THM.DIE_C.TEMP / 2 ^ (8 * d) % 256
/-- The largest of some readings. -/
def hottest (l : List Nat) : Nat := l.foldl max 0
/-- TELEMETRY_SAMPLE (R461, Table 17-11): the input power and the hottest readings, as the sensors' registers show them. -/
def State.telemetry (s : State) (watts : Nat) : State :=
  let nol := (List.range 4).flatMap (fun m => [s.rd (R.NOL.MEM_STAT.TEMP_C m), s.rd (R.NOL.MEM_STAT.DRAM_C m),
    s.rd (R.NOL.MEM_STAT.FLASH_C m)])
  s.wrs [(R.TEL.SNAP.POWER_W, watts), (R.TEL.SNAP.DIE_C, hottest ((List.range 5).map s.dieTemp)),
    (R.TEL.SNAP.HBM_C, hottest ((List.range 8).map (fun k => s.rd (R.HBM.STAT.TEMP_C k)))), (R.TEL.SNAP.NOL_C, hottest nol),
    (R.TEL.SNAP.SAMPLES, s.rd R.TEL.SNAP.SAMPLES + 1)]

/-! ## Lifetime counters -/

/-- The width of a lifetime counter (Table 18-4). -/
def lifeWidth (i : Nat) : Nat := if i = 0 then 40 else if 10 ≤ i ∧ i < 14 then 48 else if 46 ≤ i ∧ i < 50 then 8 else 32
/-- A lifetime counter now: what is counted since the restore, beside the record's where none has been restored yet; the flash
cycles of a Nolmer are the sum over its blocks (Table 18-4). -/
def State.lifeVal (s : State) (i : Nat) : Nat :=
  let v := if 10 ≤ i ∧ i < 14 then ((s.blocksOf (i - 10)).map (fun b => b.pe)).foldl (· + ·) 0
    else if s.clk.restored then Tab.get 0 s.clk.life i else Tab.get 0 s.clk.saved i + Tab.get 0 s.clk.life i
  min v (2 ^ lifeWidth i - 1)
/-- A lifetime counter advanced in hub RAM. -/
def State.lifeCount (s : State) (i n : Nat) : State :=
  let v := min (Tab.get 0 s.clk.life i + n) (2 ^ lifeWidth i - 1)
  { s with clk := { s.clk with life := Tab.set 0 s.clk.life i v } }
/-- All counters as a commit record holds them. -/
def State.lifeAll (s : State) : Tab Nat := (List.range 53).foldl (fun t i => Tab.set 0 t i (s.lifeVal i)) []
/-- A commit record that is written and passes its check (R485). -/
def State.commit (s : State) : State :=
  ({ s with clk := { s.clk with saved := s.lifeAll, savedSeq := s.clk.savedSeq + 1 } } : State).wr R.CLK.LIFE_STAT.SEQ
    (s.clk.savedSeq + 1)
/-- A clock code: CLK.ERR, with the PLL's bit position where one applies, and its event (Table 18-7). -/
def State.clkErr (s : State) (code cls : Nat) (pll : Option Nat) : State :=
  (s.recErr R.CLK.ERR.VALID R.CLK.ERR.OVERRUN [(R.CLK.ERR.CODE, code), (R.CLK.ERR.UNIT, pll.getD 0)]).event code cls 15 0xffff
    (pll.getD 0xffff) none
/-- LIFETIME_COMMIT (R485): a record that fails its verification raises LIFE_COMMIT_FAIL and is not the last one (log
entry 83). -/
def State.lifetimeCommit (s : State) (verified : Bool) : State :=
  if !s.pwr.pwrgd then s
  else if verified then s.commit
  else (s.count R.CLK.LIFE_STAT.FAILS 1).clkErr 0x8084 1 none

end Sys2Proof.Machine
end

