-- ==== Sys2Proof/Machine/Clk.lean ====
section
/-! DEFINITION. Clocks and time: PLL lock (R476), the calendar and its settings (R480 to R483), loss of the always-on supply and
of power (R481, R486, R510), and what one tick of the always-on clock counts (R480, R484). -/
namespace Sys2Proof.Machine

/-! ## PLLs -/

/-- The tenant partitions that own a core of a die (R437). -/
def State.dieParts (s : State) (d : Nat) : List Nat := (s.nolParts d).filter (fun p => (s.jobOf p).isSome)
/-- CLK_PLL_UNLOCK of an ACLK PLL (R476): the die's cores stop, and every job with a core on the die is reset; one record for
each job, or one of the module. -/
def State.aclkUnlock (s : State) (d : Nat) : State :=
  let s := s.recErr R.CLK.ERR.VALID R.CLK.ERR.OVERRUN [(R.CLK.ERR.CODE, 0x8080), (R.CLK.ERR.UNIT, d)]
  let s := s.stopCores (fun c => c / 200 == d)
  match s.dieParts d with
  | [] => s.event 0x8080 3 15 0xffff d none
  | ps => ps.foldl (fun (s : State) p => s.contained 0x8080 p (s.jobId p) d none) s
/-- PLL_UNLOCK (R453, R476): by the PLL's domain contained, fatal, or corrected at module level; a PCLK PLL takes its port's
link down (R391), accesses to the stack of an MCLK PLL or over the lift link of a TCLK PLL wait until it locks again. A PLL that is not locked cannot lose lock. -/
def State.pllUnlock (s : State) (b : Nat) : State :=
  if !s.pllLocked b then s else
  let s := s.wr R.CLK.LOCK.PLL (s.rd R.CLK.LOCK.PLL - 2 ^ b)
  if b < 4 then s.aclkUnlock b
  else if b = 4 ∨ b = 13 ∨ b = 20 then
    (s.recErr R.CLK.ERR.VALID R.CLK.ERR.OVERRUN [(R.CLK.ERR.CODE, 0x8080), (R.CLK.ERR.UNIT, b)]).fatalErr 0x8080 b
  else
    let s := s.clkErr 0x8080 1 (some b)
    if b = 14 ∨ b = 15 then s.linkDown (b - 14) else s
/-- PLL_RELOCK (R476): the PLL locks again. In STANDBY the ACLK and MCLK PLLs are off (R491). -/
def State.pllRelock (s : State) (b : Nat) : State :=
  if !s.pwr.pwrgd ∨ (s.rd R.PWR.STAT.STATE = 1 ∧ standbyPlls / 2 ^ b % 2 = 1) then s
  else
    let s := s.wr R.CLK.LOCK.PLL (s.rd R.CLK.LOCK.PLL ||| 2 ^ b)
    if 5 ≤ b ∧ b < 13 then s.nextRetrain (b - 5) else s

/-! ## The calendar -/

/-- Whether the always-on supply holds: the auxiliary rail, or the supercapacitor until it is depleted (R481). -/
def State.aon (s : State) : Bool := s.pwr.aux || s.on R.CLK.CAL_STAT.VALID
/-- A correction in ticks as `CAL_STAT.LAST_CORR_US` shows it. -/
def corrUs (d : Int) : Nat := (BitVec.ofInt 32 (d * 1000000 / 32768)).toNat
/-- The calendar set to a value at once; a slew in progress ends. -/
def State.calStep (s : State) (v : Int) (src : Nat) : State :=
  let d := v - (s.now : Int)
  let s : State := { s with clk := { s.clk with slew := 0 } }
  s.wrs [(R.CLK.CAL.TIME, (BitVec.ofInt 64 v).toNat), (R.CLK.CAL_STAT.VALID, 1), (R.CLK.CAL_STAT.SRC, src),
    (R.CLK.CAL_STAT.SLEWING, 0), (R.CLK.CAL_STAT.LAST_CORR_US, corrUs d)]
/-- A correction of at most 1 s is slewed (R483). -/
def State.calSlew (s : State) (d : Int) (src : Nat) : State :=
  let s : State := { s with clk := { s.clk with slew := d } }
  s.wrs [(R.CLK.CAL_STAT.SRC, src), (R.CLK.CAL_STAT.SLEWING, if d = 0 then 0 else 1), (R.CLK.CAL_STAT.LAST_CORR_US, corrUs d)]
/-- Whether a setting to `v` is refused (R483): a backward correction of more than 1 s without FORCE while VALID is set. -/
def State.calRefused (s : State) (v : Int) (force : Bool) : Bool :=
  s.on R.CLK.CAL_STAT.VALID && !force && decide (v - (s.now : Int) < -32768)
/-- A setting of the calendar to `v` (R483). -/
def State.calSet (s : State) (v : Int) (src : Nat) (force : Bool) : State :=
  let d := v - (s.now : Int)
  if s.calRefused v force then s.clkErr 0x8082 1 none
  else if s.on R.CLK.CAL_STAT.VALID ∧ -32768 ≤ d ∧ d ≤ 32768 then s.calSlew d src
  else s.calStep v src
/-- SET_DATE_TIME (R482, R483): out of band it sets the calendar; a PF's mailbox message carries the offset, in calendar ticks
and two's complement, from PTM master time to UTC (log entry 84). -/
def State.setDateTime (s : State) (path : Path) (time : Word) (force : Bool) : State :=
  s.served path (fun s => match path with
    | .oob =>
      let code := if s.calRefused time.toNat force then 0x8082 else 0
      let s : State := { s with clk := { s.clk with mgmtAt := some time.toNat } }
      (s.calSet time.toNat 3 force).answerTo path (.status code)
    | .fn _ f =>
      if f.val ≠ 0 then s.answerTo path .refused
      else ({ s with clk := { s.clk with offset := some time.toInt } } : State).answerTo path (.status 0))
/-- The port PTM exchanges run on (R482). -/
def State.ptmPort (s : State) : Nat := if s.host.link0 then 0 else 1
/-- PTM_EXCHANGE (R482, R483): an exchange on the port in use corrects the calendar to master time plus offset, or fails. A
management setting in the same tick discards the sample. -/
def State.ptmExchange (s : State) (port : Nat) (master : Option Word) : State :=
  match s.clk.offset with
  | none => s
  | some o =>
    if !s.on R.CLK.PTM_CFG.EN ∨ port ≠ s.ptmPort ∨ !s.linkUp port then s else
    match master with
    | none => (s.count R.CLK.PTM_STAT.FAILS 1).clkErr 0x8083 0 none
    | some m =>
      let s := s.count R.CLK.PTM_STAT.EXCH 1
      if s.clk.mgmtAt.isSome then s else s.calSet (m.toNat + o) (1 + port) false
/-- SUPERCAP_DEPLETED (R481): without the auxiliary rail the always-on supply is lost; VALID clears, and the count it held is a
free value. -/
def State.supercapDepleted (s : State) : State :=
  if s.pwr.aux then s else
  let t := s.free 64
  (s.used 1).wrs [(R.CLK.CAL.TIME, t), (R.CLK.CAL_STAT.VALID, 0), (R.CLK.CAL_STAT.SRC, 0), (R.CLK.CAL_STAT.LAST_CORR_US, 0)]

/-! ## Loss of power -/

/-- The one commit record of a shutdown (R486, R510): `lost` counts a power loss first; a commit that cannot finish leaves the
record before it. -/
def State.shutdownCommit (s : State) (lost finished : Bool) : State :=
  if !s.pwr.pwrgd ∨ s.clk.shutCommit then s else
  let s := if lost then s.lifeCount 50 1 else s
  let s := if finished then s.commit else s
  { s with clk := { s.clk with shutCommit := true } }
/-- The converters are off: what flash, configuration flash, fuses, hosts and the always-on domain hold stays (R486, R510). -/
def State.powerOff (s : State) : State :=
  let c := { ClkSt.reset with saved := s.clk.saved, savedSeq := s.clk.savedSeq, shutCommit := s.clk.shutCommit }
  let t := s.afterReset s.keptRegs
  let p := { t.pwr with started := false, pwrgd := false }
  ({ t with clk := c, boot := { t.boot with locked := false }, pwr := p } : State).wrs
    [(R.BOOT.STAT.STAGE, 0), (R.PWR.STAT.STATE, 2)]
/-- The shutdown of a module that runs (R486, R510). -/
def State.shutdown (s : State) (lost finished : Bool) : State :=
  if s.pwr.started then (s.shutdownCommit lost finished).powerOff else s
/-- VIN_LOW (R486): the input falls below the shutdown threshold. -/
def State.vinLow (s : State) (finished : Bool) : State :=
  let s := s.shutdown true finished
  { s with pwr := { s.pwr with vin1 := false, vin2 := false } }
/-- AUX_RAIL_LOSS (R486, R510, R513): the module switches off, and the rack ID and the bus mode are lost. -/
def State.auxRailLoss (s : State) (finished : Bool) : State :=
  let s := s.shutdown true finished
  { s with pwr := { s.pwr with aux := false, rack := none, i3c := none, alert := false } }
/-- PWR_EN_DEASSERT (R510). -/
def State.pwrEnDeassert (s : State) (finished : Bool) : State :=
  let s := s.shutdown false finished
  { s with pwr := { s.pwr with pwrEn := false } }

/-! ## A tick of the always-on clock -/

/-- The calendar's advance in a tick (R480, R483): one, and where a correction is slewed one more or none in every thousandth
tick of a second (log entry 85). -/
def State.calTick (s : State) : State :=
  let s : State := { s with clk := { s.clk with mgmtAt := none } }
  if !s.aon then s else
  let due := s.clk.slew ≠ 0 ∧ s.clk.secFrac % 1000 = 999
  if !due then s.wr R.CLK.CAL.TIME (s.now + 1)
  else
    let up := decide (0 < s.clk.slew)
    let left := if up then s.clk.slew - 1 else s.clk.slew + 1
    let s := ({ s with clk := { s.clk with slew := left } } : State).wr R.CLK.CAL_STAT.SLEWING (if left = 0 then 0 else 1)
    if up then s.wr R.CLK.CAL.TIME (s.now + 2) else s
/-- The seconds that lifetime counters count (Table 18-4): power-on time, and each stack's time above 85 °C. -/
def State.secondTick (s : State) : State :=
  (List.range 8).foldl (fun (s : State) k => if s.rd (R.HBM.STAT.TEMP_C k) > 85 then s.lifeCount (2 + k) 1 else s) (s.lifeCount 0 1)
/-- Uptime in a tick: 1 s ÷ 32,768 = 15,625 ÷ 512 µs (R484); µs with a die braked count with it (Table 19-6). -/
def State.upTick (s : State) : State :=
  if !s.pwr.pwrgd then s else
  let n := s.clk.usFrac + 15625
  let us := n / 512
  let f := s.clk.secFrac + 1
  let s : State := { s with clk := { s.clk with usFrac := n % 512, secFrac := f % 32768 } }
  let s := s.wr R.CLK.UPTIME_US.US (s.uptime + us)
  let s := if s.rd R.PWR.STAT.BRAKED ≠ 0 then s.count R.PWR.CNT.BRAKE_US us else s
  if f = 32768 then s.secondTick else s
/-- One tick of the always-on clock, which is what a step does where no command waits (log entry 86). -/
def State.tick (s : State) : State :=
  [0, 1, 2, 3].foldl (fun s d => s.govTime d ((s.gov d).cycle + 128)) s.upTick.calTick

end Sys2Proof.Machine
end

