-- ==== Sys2Proof/Machine/Power.lean ====
section
/-! DEFINITION. The power controller (R489, R490), thermal limits and throttling (R496 to R498), and the module's supply and
management pins (R507 to R514). -/
namespace Sys2Proof.Machine

/-! ## Input power -/

/-- Whether the input has stayed below 46 V for 1 ms, and since when it lies below (R493). -/
def State.lowInput (s : State) (mv : Nat) : Bool × Option Nat :=
  if 46000 ≤ mv then (false, none)
  else match s.pwr.lowSince with
    | none => (false, some s.uptime)
    | some t => (decide (t + 1000 ≤ s.uptime), some t)
/-- POWER_SAMPLE (R489, R493): above 3,500 W, or below 46 V for 1 ms, all dies are braked; the cause is clear at a sample that is
neither above nor below. -/
def State.powerSample (s : State) (watts mv : Nat) : State :=
  if !s.pwr.pwrgd then s else
  let low := s.lowInput mv
  let s : State := { s with pwr := { s.pwr with lowSince := low.2 } }
  let s := s.wrs [(R.PWR.STAT.INPUT_W, watts), (R.PWR.STAT.INPUT_MV, mv)]
  if watts > 3500 ∨ low.1 then s.brake 2 allDies
  else if low.2.isNone then s.unbrake 2 allDies
  else s
/-- A die's target. -/
def State.target (s : State) (d : Nat) : Nat := s.rd (R.CLK.ACLK_CTL.TARGET d)
/-- POWER_LIMIT_STEP (R489): above LIMIT_W every target goes down one step with PWR_LIMIT; below LIMIT_W − 100 W every target that
power holds down goes up one step. -/
def State.powerLimitStep (s : State) (average : Nat) : State :=
  if !s.pwr.pwrgd then s else
  let lim := s.rd R.PWR.CTL.LIMIT_W
  if average > lim then
    if allDies.all (fun d => s.target d == 0) then s else
    (allDies.foldl (fun (s : State) d => s.setTarget d (s.target d - 1)) s).pwrErr 0x8002 0 none
  else if average + 100 < lim then
    allDies.foldl (fun (s : State) d =>
      if s.target d + Tab.get 0 s.pwr.hotCut d < s.wanted d then s.setTarget d (s.target d + 1) else s) s
  else s
/-- STANDBY_ENTER (R490, R491): without a job the ACLK and MCLK PLLs go off; with one the request is refused. -/
def State.standbyEnter (s : State) : State :=
  if !s.pwr.pwrgd then s
  else if !s.host.jobs.isEmpty then s.answerTo .oob (.status 0x8003)
  else if s.rd R.PWR.STAT.STATE ≠ 0 then s.answerTo .oob (.status 0)
  else
    let lock := s.rd R.CLK.LOCK.PLL
    (s.wrs [(R.PWR.STAT.STATE, 1), (R.PWR.STATE_REQ.REQ, 1), (R.CLK.LOCK.PLL, lock - (lock &&& standbyPlls))]).answerTo .oob
      (.status 0)
/-- A write of `PWR.STATE_REQ`: it requests a state (Table 19-6); the codes 2 and 3 are reserved and request none. -/
def State.stateReqWrite (s : State) (v : Word) : State :=
  match fieldOf v 0 2 with
  | 0 => (s.wr R.PWR.STATE_REQ.REQ 0).standbyExit
  | 1 => s.standbyEnter
  | _ => s

/-! ## Temperatures -/

/-- A thermal code: THM.ERR and its event, UNIT the stack or die where one applies (Table 19-7). -/
def State.thmErr (s : State) (code cls part : Nat) (unit : Option Nat) : State :=
  (s.recErr R.THM.ERR.VALID R.THM.ERR.OVERRUN [(R.THM.ERR.CODE, code), (R.THM.ERR.UNIT, unit.getD 0)]).event code cls part
    (s.partJob part) (unit.getD 0xffff) none
/-- THM_CRIT (R496). -/
def State.thmCrit (s : State) (unit : Option Nat) : State :=
  (s.recErr R.THM.ERR.VALID R.THM.ERR.OVERRUN [(R.THM.ERR.CODE, 0x8005), (R.THM.ERR.UNIT, unit.getD 0)]).fatalErr 0x8005
    (unit.getD 0xffff)
/-- A die's reading in `THM.DIE_C`, the hub's for 4. -/
def dieField (d : Nat) : Fld := ⟨R.THM.DIE_C.REG.reg, 8 * d, 8⟩
/-- A bit of `THM.STAT.DIE_HOT`. -/
def dieHot (d : Nat) : Fld := ⟨R.THM.STAT.REG.reg, 16 + d, 1⟩
/-- A stack's level in `THM.STAT.LEVEL`. -/
def levelFld (k : Nat) : Fld := ⟨R.THM.STAT.REG.reg, 2 * k, 2⟩
/-- The threshold Tt of a stack in `THM.STACK_THR`. -/
def thrFld (k : Nat) : Fld := ⟨R.THM.STACK_THR.REG.reg, 8 * k, 8⟩
/-- Heat takes a step off a die's target (Table 19-3). -/
def State.heatLower (s : State) (d : Nat) : State :=
  let p := { s.pwr with lowering := addWord s.pwr.lowering d }
  let s : State := { s with pwr := p }
  if s.target d = 0 then s else
  let s : State := { s with pwr := { s.pwr with hotCut := Tab.set 0 s.pwr.hotCut d (Tab.get 0 s.pwr.hotCut d + 1) } }
  s.setTarget d (s.target d - 1)
/-- A cooled die gets a step back, one every 10 ms (Table 19-3). -/
def State.heatRaise (s : State) (d : Nat) : State :=
  let s : State := { s with pwr := { s.pwr with lowering := s.pwr.lowering.filter (· ≠ d) } }
  let cut := Tab.get 0 s.pwr.hotCut d
  if cut = 0 ∨ s.uptime < Tab.get 0 s.pwr.raised d + 10000 then s else
  let p := { s.pwr with hotCut := Tab.set 0 s.pwr.hotCut d (cut - 1), raised := Tab.set 0 s.pwr.raised d s.uptime }
  ({ s with pwr := p } : State).setTarget d (s.target d + 1)
/-- A compute die's reading (Table 19-3): from DIE_HOT_C on its target goes down until 2 °C below. -/
def State.dieReading (s : State) (d t : Nat) : State :=
  let hot := s.rd R.THM.CTL.DIE_HOT_C
  let s := s.wrs [(dieField d, t), (dieHot d, if hot ≤ t then 1 else 0)]
  if hot ≤ t ∨ (s.pwr.lowering.contains d ∧ hot < t + 2) then s.heatLower d
  else if t + 2 ≤ hot then s.heatRaise d else s
/-- The hub die's reading. -/
def State.hubReading (s : State) (t : Nat) : State :=
  s.wrs [(dieField 4, t), (R.THM.STAT.HUB_HOT, if 100 ≤ t then 1 else 0)]
/-- The level that a stack's reading gives (R497): up to the highest level whose entry temperature is reached, or down one level
when it lies HYST_C below the level's entry. -/
def stackLevel (old thr hyst t : Nat) : Nat :=
  let up := if thr + 6 ≤ t then 3 else if thr + 3 ≤ t then 2 else if thr ≤ t then 1 else 0
  if old < up then up
  else if 0 < old ∧ t + hyst < thr + 3 * (old - 1) then old - 1
  else old
/-- A stack's reading (R312, R497, R498): a level entered raises THM_THROTTLE; entries from level 0 are counted (log entry 87). -/
def State.stackReading (s : State) (k t : Nat) : State :=
  let old := s.rd (levelFld k)
  let new := stackLevel old (s.rd (thrFld k)) (s.rd R.THM.CTL.HYST_C) t
  let s := s.wrs [(R.HBM.STAT.TEMP_C k, t), (R.HBM.STAT.HOT k, if t > 85 then 1 else 0), (levelFld k, new)]
  let s := if old = 0 ∧ new ≠ 0 then s.count (R.THM.THR_CNT.EVENTS k) 1 else s
  if new ≠ old ∧ new ≠ 0 then s.thmErr 0x8004 0 (s.stackPart k) (some k) else s
/-- A ms at level 1 or higher counts for each stack (Table 19-7). -/
def State.levelMs (s : State) : State :=
  (List.range 8).foldl (fun (s : State) k => if s.rd (levelFld k) = 0 then s else s.count (R.THM.THR_CNT.MS k) 1) s
/-- A Nolmer's readings: die, LPDDR5X and flash. -/
def State.nolReading (s : State) (m t dram flash : Nat) : State :=
  s.wrs [(R.NOL.MEM_STAT.TEMP_C m, t), (R.NOL.MEM_STAT.DRAM_C m, dram), (R.NOL.MEM_STAT.FLASH_C m, flash)]
/-- A reading of a list. -/
def reading (l : List (BitVec 8)) (i : Nat) : Nat := (l.getD i 0).toNat
/-- The first part at or above its critical value (Table 19-3), with the unit where one applies. -/
def critical (t : Temps) : Option (Option Nat) :=
  match allDies.find? (fun d => decide (110 ≤ reading t.die d)) with
  | some d => some (some d)
  | none =>
    if 110 ≤ t.hub.toNat then some none else
    match (List.range 8).find? (fun k => decide (105 ≤ reading t.stack k)) with
    | some k => some (some k)
    | none =>
      if allDies.any (fun m => decide (115 ≤ reading t.nol m) || decide (105 ≤ reading t.dram m) || decide (85 ≤ reading t.flash m))
      then some none else none
/-- A thermal cycle (Table 18-4, counter 1): the hottest die above 85 °C and back below 45 °C. -/
def State.thermalCycle (s : State) (hot : Nat) : State :=
  if 85 < hot then { s with clk := { s.clk with cycleHot := true } }
  else if s.clk.cycleHot ∧ hot < 45 then ({ s with clk := { s.clk with cycleHot := false } } : State).lifeCount 1 1
  else s
/-- THERMAL_SAMPLE (R496 to R498): every reading acts on its part; a critical one is fatal. -/
def State.thermalSample (s : State) (t : Temps) : State :=
  if !s.pwr.pwrgd then s else
  let s := s.levelMs
  let s := allDies.foldl (fun (s : State) d => s.dieReading d (reading t.die d)) s
  let s := s.hubReading t.hub.toNat
  let s := (List.range 8).foldl (fun (s : State) k => s.stackReading k (reading t.stack k)) s
  let s := allDies.foldl (fun (s : State) m => s.nolReading m (reading t.nol m) (reading t.dram m) (reading t.flash m)) s
  let s := s.thermalCycle (hottest (allDies.map (reading t.die)))
  match critical t with
  | some u => s.thmCrit u
  | none => s
/-- THM_SENSOR_FAIL (Table 19-5): the part is treated as at its throttle temperature (Table 19-3). -/
def State.sensorFail (s : State) (x : Sensor) : State :=
  if !s.pwr.pwrgd then s else
  match x with
  | .die d => (s.thmErr 0x8006 1 15 (some d.val)).dieReading d.val (s.rd R.THM.CTL.DIE_HOT_C)
  | .hub => (s.thmErr 0x8006 1 15 none).hubReading 100
  | .stack k => (s.thmErr 0x8006 1 (s.stackPart k.val) (some k.val)).stackReading k.val (s.rd (thrFld k.val))
  | .nol m => (s.thmErr 0x8006 1 15 none).wr (R.NOL.MEM_STAT.TEMP_C m.val) 100
  | .dram m => (s.thmErr 0x8006 1 15 none).wr (R.NOL.MEM_STAT.DRAM_C m.val) 85
  | .flash m => (s.thmErr 0x8006 1 15 none).wr (R.NOL.MEM_STAT.FLASH_C m.val) 75

/-! ## Supply and management pins -/

/-- The converters start when the auxiliary rail is in range, VIN is above the start threshold on both connectors and PWR_EN is
asserted (R507). -/
def State.start (s : State) : State :=
  if s.pwr.aux ∧ s.pwr.vin1 ∧ s.pwr.vin2 ∧ s.pwr.pwrEn then { s with pwr := { s.pwr with started := true } } else s
/-- AUX_RAIL_UP (R507, R508): the always-on and management domains leave reset; the bus mode is open again (R512). -/
def State.auxRailUp (s : State) : State :=
  if s.pwr.aux then s else ({ s with pwr := { s.pwr with aux := true, i3c := none } } : State).start
/-- MGMT_BUS_SELECT (R512): the bus controller's first transaction after the auxiliary rail comes up. -/
def State.mgmtBusSelect (s : State) (i3c : Bool) : State :=
  if s.pwr.aux ∧ s.pwr.i3c.isNone then { s with pwr := { s.pwr with i3c := some i3c } } else s
/-- The static 7-bit address of the management bus (R512). -/
def State.busAddress (s : State) : Nat := 0x60 + s.boot.strap.toNat % 8
/-- SET_RACK (R513): kept until the auxiliary rail is lost. -/
def State.setRack (s : State) (path : Path) (rack : Nat) : State :=
  if !s.pwr.aux then s else
  s.served path (fun s => ({ s with pwr := { s.pwr with rack := some rack } } : State).answerTo path (.status 0))
/-- PWR_INPUT_FAULT (R507), UNIT 1 for J1 or 2 for J2. -/
def State.inputFault (s : State) (unit : Nat) : State := s.pwrErr 0x8007 1 (some unit)
/-- PWR_EN_ASSERT (R507): `j1` and `j2` say that VIN is above the start threshold there. -/
def State.pwrEnAssert (s : State) (j1 j2 : Bool) : State :=
  if s.pwr.started then { s with pwr := { s.pwr with pwrEn := true } } else
  let s := ({ s with pwr := { s.pwr with pwrEn := true, vin1 := j1, vin2 := j2 } } : State).start
  if !s.pwr.aux then s else
  let s := if j1 then s else s.inputFault 1
  if j2 then s else s.inputFault 2
/-- VIN_RISING (R507). -/
def State.vinRising (s : State) (j1 j2 : Bool) : State :=
  ({ s with pwr := { s.pwr with vin1 := s.pwr.vin1 || j1, vin2 := s.pwr.vin2 || j2 } } : State).start
/-- MOD_PWRGD (R508, R514): every rail is in regulation, and a cold reset begins; BRAKE# low then starts every die braked. -/
def State.modPwrgd (s : State) (brakePinLow : Bool) : State :=
  if !s.pwr.started ∨ s.pwr.pwrgd then s else
  ({ s with pwr := { s.pwr with pwrgd := true, brakePin := brakePinLow } } : State).coldReset

end Sys2Proof.Machine
end

