-- ==== Sys2Proof/Machine/Views.lean ====
section
/-! DEFINITION. What a read of a control register gives (R525 to R528): registers that show state held elsewhere are computed
here, the others come from the register file; the fatal dump (R469 to R471, Tables 17-7 and 17-8); and the reads that a function
may make (R379, R378). -/
namespace Sys2Proof.Machine

/-- A bit of a word under construction. -/
def bitAt (b : Bool) (k : Nat) : Nat := if b then 2 ^ k else 0

/-! ## Views by block -/

/-- GLB (Table 21-4): identity, and mirrors of their sources. -/
def State.glbView (s : State) (off : Nat) : Word :=
  match off with
  | 0 => BitVec.ofNat 64 (0x900 + 0xb0 * 2 ^ 16 + (if Config.isL32 then 0x20 else 8) * 2 ^ 24 + s.rd R.FABG.ID.MODULE * 2 ^ 32)
  | 8 => Config.serial
  | 0x10 =>
    let cores := ((List.range 800).filter (fun c => !(s.core c).offline)).length
    let gib := ((List.range 8).map (fun r => if s.on (R.HBM0.REGION.VALID r) then s.rd (R.HBM0.REGION.NLOG r) else 0)).foldl (· + ·) 0
    BitVec.ofNat 64 (s.rd R.BOOT.STAT.STAGE + s.rd R.BOOT.STAT.READY * 2 ^ 4 + s.rd R.RAS.STAT.STATE * 2 ^ 5 +
      s.rd R.SEC.STAT.PARTITIONED * 2 ^ 7 + cores * 2 ^ 8 + gib * 2 ^ 18)
  | 0x18 => BitVec.ofNat 64 (s.rd R.BOOT.IMG.FW_VERSION + s.rd R.BOOT.IMG.SVN * 2 ^ 32)
  | _ => 0
/-- SEC.PART of the selected partition (Table 16-8). -/
def State.partView (s : State) : Word :=
  let p := s.rd R.SEC.PART_SEL.PART
  let x := s.part p
  let j := if p < 8 then s.jobOf p else none
  BitVec.ofNat 64 (x.stackMask + bitAt x.valid 8 + bitAt j.isSome 9 + (match j with | some j => j.id * 2 ^ 10 | none => 0) +
    bitAt x.sealedW 26)
/-- SEC.KEY_ENT of the selected entry: no key (Table 16-8). -/
def State.keyView (s : State) : Word :=
  match Tab.get none s.sec.keys (s.rd R.SEC.KEY_SEL.ENTRY) with
  | some k => BitVec.ofNat 64 (k.kind + k.bind * 4 + bitAt (k.flags % 2 == 1) 6 + k.id * 2 ^ 32)
  | none => 0
/-- SEC registers that show the partitions, the key table and the sessions. -/
def State.secView (s : State) (off : Nat) (w : Word) : Word :=
  if off = R.SEC.STAT.REG.reg then R.SEC.STAT.KEYS.put w s.keyList.length
  else if off = R.SEC.PART.REG.reg then s.partView
  else if off = R.SEC.KEY_ENT.REG.reg then s.keyView
  else if off = R.SEC.SPDM_STAT.REG.reg then R.SEC.SPDM_STAT.SESSIONS.put w s.sec.sessions.length
  else w
/-- HOST.FSTAT of a window (Table 14-11). -/
def State.fstatView (s : State) (w : Nat) : Word :=
  let p := s.fnPart (w % 9)
  let jobs := (s.host.jobs.filter (fun j => j.ownedBy (w / 9) (w % 9))).length
  BitVec.ofNat 64 (bitAt p.isSome 0 + p.getD 0 * 2 + bitAt (s.linkUp (w / 9)) 4 + jobs * 2 ^ 8)
/-- FABG.TOPO_ENT and FABG.REACH of what TOPO_SEL names (Table 13-14). -/
def State.topoView (s : State) : Word :=
  match (s.topo (s.rd R.FABG.TOPO_SEL.MODULE)).ents[s.rd R.FABG.TOPO_SEL.PORT]? with
  | some e => BitVec.ofNat 64 (e.module.toNat + e.port.toNat * 2 ^ 16 + e.state.toNat * 2 ^ 21 + e.ptype.toNat * 2 ^ 25)
  | none => 0
/-- COLL.GRP_STAT of the selected group: ACTIVE while it has a collective that is not DONE (Table 7-14). -/
def State.grpView (s : State) (p : Nat) : Word :=
  let g := s.rd (R.COLL.GRP_SEL.GROUP p)
  let mine := s.coll.colls.filter (fun c => c.part == p && c.group == g)
  let x := s.grp p g
  let st := if x.failed then 2 else if mine.isEmpty then 0 else 1
  BitVec.ofNat 64 (x.next % 2 ^ 32 + (mine.filter (·.credit)).length * 2 ^ 32 +
    (mine.filter (fun c => c.st == .held)).length * 2 ^ 37 + st * 2 ^ 46)
/-- COLL.ENG_STAT of the module; a Carve's share is counted once (R193). -/
def State.engView (s : State) : Word :=
  let sbuf := ((s.coll.colls.filter (·.credit)).map (·.share)).foldl (· + ·) 0
  BitVec.ofNat 64 (s.admittedColls + s.heldPosts * 2 ^ 8 + sbuf * 2 ^ 24)
/-- The stage queue that STAGE_SEL names. -/
def State.stageSel (s : State) (p : Nat) : Nat := (p * 64 + s.rd (R.SCHED.STAGE_SEL.BOUNDARY p)) * 2 + s.rd (R.SCHED.STAGE_SEL.DIR p)
/-- SCHED.STAGE_CNT and STAGE_OCC of the selected queue (Table 6-12). -/
def State.schedView (s : State) (p o : Nat) (w : Word) : Word :=
  let q := s.stage (s.stageSel p)
  if o = 0x58 then BitVec.ofNat 64 (min q.stallUs 0xffffffff + min q.starveUs 0xffffffff * 2 ^ 32)
  else if o = 0x60 then BitVec.ofNat 64 (q.depth + q.entries.length * 2 ^ 8 + q.peak * 2 ^ 16)
  else w
/-- ROLL registers that show a context, an account or the tallies (Table 5-12). A context of another partition shows
nothing. -/
def State.rollView (s : State) (p o : Nat) (w : Word) : Word :=
  let n := s.rd (R.ROLL.CTX_SEL.CTX p)
  let x := s.ctx n
  let mine := x.st != 0 && x.part == p
  let a := s.rd (R.ROLL.ACCT_SEL.ACCT p)
  let live := s.liveCtxs p
  if o = 0x30 then
    if mine then BitVec.ofNat 64 (x.st + x.gen % 2 ^ 18 * 2 ^ 4 + x.len * 2 ^ 22 + x.offLeft * 2 ^ 26 + x.zeroRun * 2 ^ 33 +
      x.acct * 2 ^ 36 + x.adapter * 2 ^ 48)
    else BitVec.ofNat 64 ((if x.st = 0 then x.gen % 2 ^ 18 * 2 ^ 4 else 0) + 0xffff * 2 ^ 48)
  else if o = 0x38 then (if mine then BitVec.ofNat 64 (x.toks.length % 2 ^ 22 + x.out % 2 ^ 22 * 2 ^ 24) else 0)
  else if o = 0x48 then BitVec.ofNat 64 (s.balance a % 2 ^ 48 +
    (live.filter (fun c => (s.ctx c).acct == a)).length * 2 ^ 48)
  else if o = 0x60 then BitVec.ofNat 64 (live.length +
    (live.filter (fun c => (s.ctx c).st == 5 || (s.ctx c).st == 6)).length * 2 ^ 16 +
    (live.filter (fun c => (s.ctx c).st == 1)).length * 2 ^ 32)
  else w
/-- TRN.VER_STAT and VER_REFS of the selected shard (Table 4-11); they read 0 for a shard that another module owns. -/
def State.trnView (s : State) (p o : Nat) (w : Word) : Word :=
  let x := (s.trn' p).shard (s.rd (R.TRN.VER_SEL.SHARD p))
  let far := (s.trn' p).foreign.contains (s.rd (R.TRN.VER_SEL.SHARD p))
  if (o = 0x58 ∨ o = 0x60) ∧ far then 0
  else if o = 0x58 then BitVec.ofNat 64 (x.even.step % 2 ^ 16 + x.odd.step % 2 ^ 16 * 2 ^ 16 + x.even.st * 2 ^ 32 + x.odd.st * 2 ^ 35 +
    bitAt (!x.updWait.isEmpty) 38)
  else if o = 0x60 then BitVec.ofNat 64 (x.even.refs % 2 ^ 16 + x.odd.refs % 2 ^ 16 * 2 ^ 16)
  else w
/-- MBIST.PWR with the current states of a window's segments (Table 10-7). -/
def State.mbistView (s : State) (win : Nat) (w : Word) : Word :=
  R.MBIST.PWR.AB_CUR win |>.put ((R.MBIST.PWR.SP_CUR win).put w (s.segCur win false)) (s.segCur win true)

/-! ## The fatal dump -/

/-- The base of the DUMP block (Table 21-3). -/
def dumpBase : Nat := 0xa000000
/-- Word `i` of the dump area (Tables 17-7, 17-8). The sections of the processors, and every section of a PARTIAL dump, are free
values: no rule gives their contents (log entry 88). -/
def State.dumpWord (s : State) (i : Nat) : Word :=
  let st := s.rd R.RAS.DUMP.STATE
  if st = 0 then 0
  else if i = 0 then BitVec.ofNat 64 (0x4c4d3944 + 2 ^ 32 + st * 2 ^ 48 + s.rd R.RAS.DUMP.SECOND * 2 ^ 50)
  else if i < 512 then Tab.get 0 s.ras.dump i
  else if st = 1 ∨ 0x471000 / 8 ≤ i then 0
  else if st = 3 ∨ 0x131000 / 8 ≤ i then
    BitVec.ofNat 64 ((Config.freeValue (s.ras.dumpFree + i / 8)).toNat / 2 ^ (64 * (i % 8)))
  else Tab.get 0 s.ras.dump i

/-! ## Register reads -/

/-- What module firmware reads at a control-space offset: 0 at a reserved one (R8, R524). -/
def State.regView (s : State) (off : Nat) : Word :=
  if dumpBase ≤ off ∧ off < dumpBase + 0xf00000 ∧ off % 8 = 0 then s.dumpWord ((off - dumpBase) / 8)
  else if (regDef off).isNone then 0
  else
    let w := s.rdW off
    let win := off / 0x1000 % 8
    let o := off % 0x1000
    if off < 0x100000 then s.glbView off
    else if off = R.CLK.LIFE_VAL.REG.reg then BitVec.ofNat 64 (s.lifeVal (s.rd R.CLK.LIFE_SEL.INDEX))
    else if off = R.RAS.BG_STAT.REG.reg then
      let a := s.rd R.RAS.BG_SEL.ACT
      BitVec.ofNat 64 (Tab.get 0 s.ras.levels a + min (Tab.get 0 s.ras.ages a) 0xffffffff * 2 ^ 8)
    else if 0x700000 ≤ off ∧ off < 0x800000 then s.secView off w
    else if 0x800000 ≤ off ∧ off < 0x812000 then (if o = 8 then s.fstatView ((off - 0x800000) / 0x1000) else w)
    else if 0x2000000 ≤ off ∧ off < 0x2400000 ∧ 0x80000 ≤ off % 0x100000 then
      let u := (off - 0x2000000) / 0x100000 * 2 + (off % 0x100000 - 0x80000) / 0x1000
      match o with
      | 0 => s.updView u 0 w
      | 8 => s.updView u 1 w
      | 0x10 => s.updView u 4 w
      | 0x18 => s.updView u 5 w
      | 0x20 => s.updView u 2 w
      | 0x28 => s.updView u 3 w
      | 0x30 => s.updView u 6 w
      | _ => w
    else if off = R.FABG.TOPO_ENT.REG.reg then s.topoView
    else if off = R.FABG.REACH.REG.reg then BitVec.ofNat 64 (Tab.get 0 s.fab.reach (s.rd R.FABG.TOPO_SEL.RACK))
    else if off = R.COLLM.ENG_STAT.REG.reg then s.engView
    else if 0x4000000 ≤ off ∧ off < 0x4008000 then (if o = 0x20 then s.grpView win else w)
    else if 0x5000000 ≤ off ∧ off < 0x5008000 then s.schedView win o w
    else if 0x6000000 ≤ off ∧ off < 0x6008000 then s.rollView win o w
    else if 0x7000000 ≤ off ∧ off < 0x7008000 then s.trnView win o w
    else if 0x8000000 ≤ off ∧ off < 0x8320000 then s.coreReg ((off - 0x8000000) / 0x1000) o
    else if 0x9000000 ≤ off ∧ off < 0x900c800 then
      (if off % 0x40 = 0 then s.mbistView ((off - 0x9000000) / 0x40) w else w)
    else if off = (R.MBIST.PWR.REG 800).reg then s.mbistView 800 w
    else w

/-- The CORE registers that a function may read (R379): ID, STATUS, AFAULT and the ASTALL registers. -/
def coreReadable (o : Nat) : Bool := o == 0 || o == 0x10 || o == 0x18 || o == 0x38 || o == 0x40 || o == 0x48
/-- Whether a function may read a register through BAR0 (R379, Table 21-3). -/
def State.mayRead (s : State) (port fn off : Nat) : Bool :=
  let own := off / 0x1000 * 0x1000 == 0x800000 + hostWin port fn * 0x1000
  let core := decide (0x8000000 ≤ off ∧ off < 0x8320000) && coreReadable (off % 0x1000)
  if fn = 0 then decide (off < 0x100000) || decide (0x400000 ≤ off ∧ off < 0x500000) || decide (0x600000 ≤ off ∧ off < 0x700000) ||
    own || core
  else match s.fnPart fn with
    | none => off == 0 || off == 8 || own
    | some p =>
      let window := (off / 0x1000000 == 4 || off / 0x1000000 == 5 || off / 0x1000000 == 6 || off / 0x1000000 == 7) &&
        off % 0x1000000 / 0x1000 == p
      let upd := decide (0x2000000 ≤ off ∧ off < 0x2400000 ∧ 0x80000 ≤ off % 0x100000 ∧ off % 0x100000 < 0x82000) &&
        (s.halves p).contains ((off - 0x2000000) / 0x100000 * 2 + (off % 0x100000 - 0x80000) / 0x1000)
      off == 0 || off == 8 || own || window || upd ||
        (core && s.partOfCore ((off - 0x8000000) / 0x1000) == some p)
/-- An aligned 8-byte read of BAR0 by a function: what it may not read is 0 (R379, R524). -/
def State.bar0Read (s : State) (port fn off : Nat) : Word := if s.mayRead port fn off then s.regView off else 0
/-- An 8-byte read of the dump range of BAR4: a VF reads 0 (R378). -/
def State.dumpRead (s : State) (fn i : Nat) : Word := if fn = 0 then s.dumpWord i else 0

/-! ## Writing the dump -/

/-- The event log, oldest record first (Table 17-7): four words a record. -/
def State.logWords (s : State) : List Word :=
  let head := s.rd R.TEL.EVT_HEAD.SEQ
  let slots := ((List.range 4096).map (fun i => (head + i) % 4096)).filter (fun n => s.rd (evtFld n 0) ≠ 0)
  slots.flatMap (fun n => [s.rdW (evtFld n 0).reg, s.rdW (evtFld n 1).reg, s.rdW (evtFld n 2).reg, s.rdW (evtFld n 3).reg])
/-- The register snapshot (Table 17-7): offset and value of the first 65,536 implemented registers in ascending order, without
SEC.KEY_ENT (log entry 89). `n` bounds the offsets, in registers. -/
def State.snapWords (s : State) (n : Nat) : List Word :=
  (((List.range n).filter (fun i => (regDef (8 * i)).isSome && 8 * i != R.SEC.KEY_ENT.REG.reg)).take 65536).flatMap
    (fun i => [BitVec.ofNat 64 (8 * i), s.regView (8 * i)])
/-- The core table (Table 17-7): 64 bytes a core. -/
def State.coreWords (s : State) : List Word :=
  (List.range 800).flatMap (fun c => [s.coreReg c 0, s.coreReg c 0x10, s.coreReg c 0x18, s.coreReg c 0x38, s.coreReg c 0x40,
    s.coreReg c 0x48, 0, 0])
/-- Words entered in the dump from word `i` on. -/
def State.dumpList (s : State) (i : Nat) (ws : List Word) : State :=
  { s with ras := { s.ras with dump := (ws.zipIdx i).foldl (fun t e => Tab.set 0 t e.2 e.1) s.ras.dump } }
/-- The header's words 3 to 5 (Table 17-8): serial number, running release, bytes written and their CRC-32. -/
def State.dumpHeader (s : State) (bytes : Nat) : State :=
  let crc := Config.crc32 ((List.range bytes).map (fun k =>
    BitVec.ofNat 8 ((s.dumpWord (512 + k / 8)).toNat / 2 ^ (8 * (k % 8)))))
  ((s.dumpSet 3 Config.serial.toNat).dumpSet 4 (s.rd R.BOOT.IMG.FW_VERSION + s.rd R.BOOT.IMG.SVN * 2 ^ 32)).dumpSet 5
    (bytes + crc.toNat * 2 ^ 32)
/-- DUMP_WRITTEN (R469, R470, Table 17-6): the sections are written, the header says COMPLETE or PARTIAL, the fatal event is
logged with vector 0, and the module waits for a reset. -/
def State.dumpWritten (s : State) (complete : Bool) (bytes : Nat) : State :=
  if s.rd R.RAS.DUMP.STATE ≠ 1 then s else
  let w1 := (Tab.get 0 s.ras.dump 1).toNat
  let s := if complete then
      (((s.dumpList (0x1000 / 8) s.logWords).dumpList (0x21000 / 8) (s.snapWords 0x1400000)).dumpList (0x121000 / 8) s.coreWords)
    else s
  let s := ({ s with ras := { s.ras with dumpFree := s.freeCtr } } : State).used (0x471000 / 64)
  let s := s.wrs [(R.RAS.DUMP.STATE, if complete then 2 else 3), (R.RAS.DUMP.BYTES, bytes), (R.RAS.STAT.STATE, 2)]
  ((s.dumpHeader bytes).lifeCount 52 1).event (w1 % 65536) 4 15 0xffff (w1 / 65536 % 65536) none

end Sys2Proof.Machine
end

