-- ==== Sys2Proof/Machine/RegWrite.lean ====
section
/-! DEFINITION. REGISTER_WRITE: a write of a control register by a host through BAR0 (R379, R395, R524) or by module firmware,
with the effect that the register's chapter gives it. -/
namespace Sys2Proof.Machine

/-- Whether a job is on a partition that holds a half of Nolmer `m` (R349). -/
def State.nolHeld (s : State) (m : Nat) : Bool := (s.nolParts m).any (fun p => (s.jobOf p).isSome)
/-- A firmware write of a Nolmer register: SPLIT and PARK_CFG change only while no job holds the Nolmer's halves (R349). -/
def State.nolWrite (s : State) (m o off : Nat) (v : Word) : State :=
  if o = 0x20 ∧ s.nolHeld m then s
  else
    let old := s.rd (R.NOL.MEM_CFG.SPLIT m)
    let held := s.nolHeld m
    let s := s.regPut s.boot.locked off v
    if o = 0 ∧ held then s.wr (R.NOL.MEM_CFG.SPLIT m) old else s
/-- A firmware write of a fabric port's register: EN enables or disables the port (R358); the encapsulation fields change only
while the port is DISABLED (R374). -/
def State.fabWrite (s : State) (p o off : Nat) (v : Word) : State :=
  if (o = 0x38 ∨ o = 0x40) ∧ s.portState p ≠ 0 then s
  else if o = 0 then
    let old := s.rdW off
    let was := s.on (R.FAB.CTL.EN p)
    let frozen := decide (s.portState p ≠ 0)
    let s := s.regPut s.boot.locked off v
    let s := s.wr (R.FAB.CTL.EN p) (if was then 1 else 0)
    let s := if frozen then s.wrs [(R.FAB.CTL.ENCAP p, (R.FAB.CTL.ENCAP p).get old), (R.FAB.CTL.FLITS p, (R.FAB.CTL.FLITS p).get old)]
      else s
    if (fieldOf v 0 1 == 1) = was then s else if was then s.portDisable p else s.portEnable p
  else s.regPut s.boot.locked off v
/-- A firmware write of a core's register: RUN starts or stops the core (R62), IMEM_CMD loads instruction memory (R58). -/
def State.coreWrite (s : State) (c o off : Nat) (v : Word) : State :=
  if o = 8 then
    let run := s.rd (R.CORE.CTL.RUN c)
    let on := [0, 1, 2].filter (fun i => s.arrOn c i)
    let s := (s.regPut s.boot.locked off v).wr (R.CORE.CTL.RUN c) run
    let s := (on.filter (fun i => !s.arrOn c i)).foldl (fun s i => s.disableArr c i) s
    if fieldOf v 0 1 = 1 then s.coreRun c else s.coreStop c
  else if off = (R.CORE.IMEM_CMD.REG c).reg then s.imemLoadGo c v
  else s.regPut s.boot.locked off v
/-- A firmware write of an HBM stack's register. -/
def State.hbmWrite (s : State) (k off : Nat) (v : Word) : State :=
  if off = (R.HBM.MIG.REG k).reg then s.hbmMigGo k v
  else if off = (R.HBM.RPR_CMD.REG k).reg then s.rprWrite k v
  else if off = (R.HBM.TG_CTL.REG k).reg then s.tgWrite k v
  else s.regPut s.boot.locked off v
/-- A firmware write of a window of MBIST. -/
def State.mbistWrite (s : State) (w off : Nat) (v : Word) : State :=
  if off = (R.MBIST.PWR.REG w).reg then s.segRequest w v
  else if off = (R.MBIST.MT_CTL.REG w).reg then s.marchWrite w v
  else s.regPut s.boot.locked off v
/-- A firmware write of a scheduler window: the counters of the selected stage queue are that queue's (Table 6-12). -/
def State.schedWrite (s : State) (p o off : Nat) (v : Word) : State :=
  let put (f : StageSt → StageSt) : State :=
    { s with sched := { s.sched with stages := Tab.set ⟨0, 0, 0, 0, 0, []⟩ s.sched.stages (s.stageSel p) (f (s.stage (s.stageSel p))) } }
  if o = 0x58 then put (fun q => { q with stallUs := fieldOf v 0 32, starveUs := fieldOf v 32 32 })
  else if o = 0x60 then put (fun q => { q with peak := fieldOf v 16 7 })
  else s.winWrite .sched p o off v
/-- A firmware write of a control register; GLB and the dump are read-only, and a reserved offset takes nothing. -/
def State.fwWrite (s : State) (off : Nat) (v : Word) : State :=
  if (regDef off).isNone then s
  else if 0x200000 ≤ off ∧ off < 0x200020 then s.aclkWrite ((off - 0x200000) / 8) v
  else if off = R.PWR.CTL.REG.reg then (s.pwrCtlWrite v).pinBrake
  else if off = R.PWR.STATE_REQ.REG.reg then s.stateReqWrite v
  else if (off = R.SEC.HOUSE_CTL.REG.reg ∨ off = R.SEC.HOUSE_SLOT.REG.reg) ∧ s.rd R.SEC.HOUSE_STAT.STATE = 2 ∧
      s.rd R.SEC.HOUSE_CTL.READ ≠ 0 then s
  else if 0x1000000 ≤ off ∧ off < 0x1800000 then s.hbmWrite ((off - 0x1000000) / 0x100000) off v
  else if 0x2000000 ≤ off ∧ off < 0x2400000 then s.nolWrite ((off - 0x2000000) / 0x100000) (off % 0x100000) off v
  else if 0x3000000 ≤ off ∧ off < 0x3200000 then s.fabWrite ((off - 0x3000000) / 0x10000) (off % 0x10000) off v
  else if 0x8000000 ≤ off ∧ off < 0x8320000 then s.coreWrite ((off - 0x8000000) / 0x1000) (off % 0x1000) off v
  else if 0x9000000 ≤ off ∧ off < 0x900c800 then s.mbistWrite ((off - 0x9000000) / 0x40) off v
  else if 0x90f0000 ≤ off then s.mbistWrite 800 off v
  else match winOf off with
    | some (.sched, p, o) => s.schedWrite p o off v
    | some (b, p, o) => s.winWrite b p o off v
    | none => s.regPut s.boot.locked off v
/-- A host's aligned 8-byte write through BAR0 (R379, R395, R524): its own HOST window takes it; every other write is ignored
and logged. After a fatal error BAR0 serves reads only (Table 17-6). -/
def State.hostWrite (s : State) (port fn off : Nat) (v : Word) : State :=
  if !s.linkUp port ∨ s.rd R.RAS.STAT.STATE ≠ 0 then s
  else if off % 8 ≠ 0 then s.bar0Misaligned port fn false
  else if off / 0x1000 = 0x800 + hostWin port fn then s.hostWinWrite port fn (off % 0x1000) v
  else s.ignoreWrite port fn off
/-- REGISTER_WRITE. -/
def State.registerWrite (s : State) (who : Writer) (off : Nat) (v : Word) : State :=
  match who with
  | .host p f => s.hostWrite p.val f.val off v
  | .firmware => s.fwWrite off v

end Sys2Proof.Machine
end

