-- ==== Sys2Proof/Machine/CmdBoot.lean ====
section
/-! DEFINITION. Resets, boot, images and field records (chapter 15). -/
namespace Sys2Proof.Machine

/-- COLD_RESET (R478). -/
def execColdReset (s : State) : Host.Outcome State Fault Refusal :=
  .next (s.coldReset)
/-- WARM_RESET (R478). -/
def execWarmReset (s : State) : Host.Outcome State Fault Refusal :=
  .next (s.warmReset)
/-- JOB_READY (R397). -/
def execJobReady (ms : BitVec 32) (s : State) : Host.Outcome State Fault Refusal :=
  .next (s.jobReady ms.toNat)
/-- BOOT_WATCHDOG (R400). -/
def execBootWatchdog (s : State) : Host.Outcome State Fault Refusal :=
  .next (s.bootWatchdog)
/-- FIRMWARE_UPDATE (R408). -/
def execFirmwareUpdate (path : Path) (img : ImageCopy) (s : State) : Host.Outcome State Fault Refusal :=
  .next (s.firmwareUpdate path img)
/-- PLDM_IDENTIFY (R407). -/
def execPldmIdentify (path : Path) (s : State) : Host.Outcome State Fault Refusal :=
  .next (s.pldmIdentify path)
/-- FIELD_RECORD_APPEND (R413). -/
def execFieldRecordAppend (r : FieldRec) (s : State) : Host.Outcome State Fault Refusal :=
  .next (s.appendField r)
/-- BOOT_STAGE_COMPLETE (R397). -/
def execBootStageComplete (trained : List (Fin 8)) (nolOk : List (Fin 4)) (marchFailed : List CoreId) (strap : BitVec 6) (s : State) : Host.Outcome State Fault Refusal :=
  .next (s.bootStage (trained.map Fin.val) (nolOk.map Fin.val) (marchFailed.map Fin.val) strap)

end Sys2Proof.Machine
end

