-- ==== Sys2Proof/Machine/CmdClk.lean ====
section
/-! DEFINITION. Clocks and the calendar (chapter 18). -/
namespace Sys2Proof.Machine

/-- ACLK_TARGET_WRITE (R475). -/
def execAclkTargetWrite (die : Fin 4) (value : Word) (s : State) : Host.Outcome State Fault Refusal :=
  .next (s.aclkWrite die.val value)
/-- ACLK_SLEW_STEP (R475). -/
def execAclkSlewStep (die : Fin 4) (s : State) : Host.Outcome State Fault Refusal :=
  .next (s.slewStep die.val)
/-- PLL_UNLOCK (R476). -/
def execPllUnlock (pll : Fin 21) (s : State) : Host.Outcome State Fault Refusal :=
  .next (s.pllUnlock pll.val)
/-- PLL_RELOCK (R476). -/
def execPllRelock (pll : Fin 21) (s : State) : Host.Outcome State Fault Refusal :=
  .next (s.pllRelock pll.val)
/-- SET_DATE_TIME (R483). -/
def execSetDateTime (path : Path) (time : Word) (force : Bool) (s : State) : Host.Outcome State Fault Refusal :=
  .next (s.setDateTime path time force)
/-- PTM_EXCHANGE (R482). -/
def execPtmExchange (port : Fin 2) (master : Option Word) (s : State) : Host.Outcome State Fault Refusal :=
  .next (s.ptmExchange port.val master)
/-- SUPERCAP_DEPLETED (R481). -/
def execSupercapDepleted (s : State) : Host.Outcome State Fault Refusal :=
  .next (s.supercapDepleted)
/-- VIN_LOW (R486). -/
def execVinLow (finished : Bool) (s : State) : Host.Outcome State Fault Refusal :=
  .next (s.vinLow finished)
/-- AUX_RAIL_LOSS (R510). -/
def execAuxRailLoss (finished : Bool) (s : State) : Host.Outcome State Fault Refusal :=
  .next (s.auxRailLoss finished)

end Sys2Proof.Machine
end

