-- ==== Sys2Proof/Machine/CmdColl.lean ====
section
/-! DEFINITION. Collectives (chapter 07). -/
namespace Sys2Proof.Machine

/-- COLL_READY (R215). -/
def execCollReady (c : CoreId) (w0 w1 : Word) (s : State) : Host.Outcome State Fault Refusal :=
  .next ((s.collIssue c.val w0 w1 1).intakeCheck)
/-- BARRIER (R232). -/
def execBarrier (by_ : Poster) (s : State) : Host.Outcome State Fault Refusal :=
  .next ((s.postKinded 0 by_).intakeCheck)
/-- BCAST (R216). -/
def execBcast (by_ : Poster) (s : State) : Host.Outcome State Fault Refusal :=
  .next ((s.postKinded 1 by_).intakeCheck)
/-- REDUCE (R224). -/
def execReduce (by_ : Poster) (s : State) : Host.Outcome State Fault Refusal :=
  .next ((s.postKinded 2 by_).intakeCheck)
/-- ALLREDUCE (R224). -/
def execAllreduce (by_ : Poster) (s : State) : Host.Outcome State Fault Refusal :=
  .next ((s.postKinded 3 by_).intakeCheck)
/-- REDUCE_SCATTER (R217). -/
def execReduceScatter (by_ : Poster) (s : State) : Host.Outcome State Fault Refusal :=
  .next ((s.postKinded 4 by_).intakeCheck)
/-- ALLGATHER (R216). -/
def execAllgather (by_ : Poster) (s : State) : Host.Outcome State Fault Refusal :=
  .next ((s.postKinded 5 by_).intakeCheck)
/-- SNAPSHOT (R234). -/
def execSnapshot (by_ : Poster) (s : State) : Host.Outcome State Fault Refusal :=
  .next ((s.postKinded 6 by_).intakeCheck)
/-- PERMUTE (R193). -/
def execPermute (by_ : Poster) (s : State) : Host.Outcome State Fault Refusal :=
  .next ((s.permute by_).intakeCheck)
/-- COLL_ADMIT (R220). -/
def execCollAdmit (k : CollKey) (s : State) : Host.Outcome State Fault Refusal :=
  .next ((s.collAdmit k.part.val k.group.val k.seq.toNat).intakeCheck)
/-- COLL_OPEN_EXCHANGE (R220). -/
def execCollOpenExchange (k : CollKey) (agree : Bool) (peer : BitVec 16) (peers : List OpenPeer) (s : State) : Host.Outcome State Fault Refusal :=
  .next ((s.openExchange k.part.val k.group.val k.seq.toNat agree peer.toNat peers).intakeCheck)
/-- CHUNK_ARRIVE (R222). -/
def execChunkArrive (port : Port) (h : THdr) (tagOk : Bool) (data : ChunkData) (s : State) : Host.Outcome State Fault Refusal :=
  .next ((s.chunkArrive port.val h tagOk data).intakeCheck)
/-- CHUNK_TIMEOUT (R236). -/
def execChunkTimeout (k : CollKey) (chunk : BitVec 24) (peer : BitVec 16) (xid : BitVec 32) (s : State) : Host.Outcome State Fault Refusal :=
  .next ((s.chunkAgain k.part.val k.group.val k.seq.toNat chunk.toNat peer.toNat xid.toNat).intakeCheck)
/-- CLOSING_ROUND_DONE (R238). -/
def execClosingRoundDone (k : CollKey) (codes : List (BitVec 16)) (noise : List (NoiseSum × NoiseSum)) (s : State) : Host.Outcome State Fault Refusal :=
  .next ((s.collClosing k.part.val k.group.val k.seq.toNat codes noise).intakeCheck)
/-- COLL_GROUP_TIMEOUT (R239). -/
def execCollGroupTimeout (k : CollKey) (found : ProbeFind) (peer : BitVec 16) (s : State) : Host.Outcome State Fault Refusal :=
  .next ((s.groupTimeout k.part.val k.group.val k.seq.toNat found peer.toNat).intakeCheck)
/-- JOB_RESET (R241). -/
def execJobReset (job : BitVec 16) (code : BitVec 16) (origin : BitVec 16) (s : State) : Host.Outcome State Fault Refusal :=
  .next (s.abortJob job.toNat code.toNat origin.toNat)
/-- JOB_RESET_DONE (R532). -/
def execJobResetDone (job : BitVec 16) (s : State) : Host.Outcome State Fault Refusal :=
  .next ((s.resetDone job.toNat).intakeCheck)
/-- COLL_ENABLE (R211). -/
def execCollEnable (p : Part) (s : State) : Host.Outcome State Fault Refusal :=
  .next (s.collEnable p.val)
/-- COLL_DISABLE (R244). -/
def execCollDisable (p : Part) (s : State) : Host.Outcome State Fault Refusal :=
  .next (s.collDisable p.val)

end Sys2Proof.Machine
end

