-- ==== Sys2Proof/Machine/CmdCore.lean ====
section
/-! DEFINITION. The commands of a core: array operations and ramps (R36 to R50), CTL instructions (Table 2-12), transfers, instruction-memory loads, start, stop and retirement. -/
namespace Sys2Proof.Machine

/-- ARRAY_OPERATION (R36). -/
def execArrayOperation (c : CoreId) (w0 w1 w2 w3 : Word) (s : State) : Host.Outcome State Fault Refusal :=
  .next (s.arrayOperation c.val w0 w1 w2 w3)
/-- ARRAY_OP_START (R36). -/
def execArrayOpStart (c : CoreId) (arr : Fin 3) (cycle : Nat) (s : State) : Host.Outcome State Fault Refusal :=
  .next (s.arrayOpStart c.val arr.val cycle)
/-- ARRAY_RAMP_DONE (R39). -/
def execArrayRampDone (c : CoreId) (arr : Fin 3) (steps : Fin 9) (cycle : Nat) (s : State) : Host.Outcome State Fault Refusal :=
  .next (s.arrayRampDone c.val arr.val steps.val cycle)
/-- ARRAY_RAMP_DOWN (R39). -/
def execArrayRampDown (c : CoreId) (arr : Fin 3) (cycle : Nat) (s : State) : Host.Outcome State Fault Refusal :=
  .next (s.arrayRampDown c.val arr.val cycle)
/-- ARRAY_OP_DRAIN (R29). -/
def execArrayOpDrain (c : CoreId) (arr : Fin 3) (half : Fin 3) (rows : Option Nat) (stash : Option MbKey) (house : Bool) (s : State) : Host.Outcome State Fault Refusal :=
  .next ((s.drainOp c.val arr.val half.val rows stash house).intakeCheck)
/-- WARM (R40). -/
def execWarm (c : CoreId) (w : Word) (s : State) : Host.Outcome State Fault Refusal :=
  .next (s.warm c.val w)
/-- WARM_HOLD_EXPIRY (R40). -/
def execWarmHoldExpiry (c : CoreId) (arr : Fin 3) (s : State) : Host.Outcome State Fault Refusal :=
  .next (s.warmHoldExpiry c.val arr.val)
/-- RESERVED_INSTRUCTION (R51). -/
def execReservedInstruction (c : CoreId) (w : Word) (s : State) : Host.Outcome State Fault Refusal :=
  .next (s.reservedInstr c.val w)
/-- NOP (R54): none. -/
def execNop (c : CoreId) (w : Word) (cell : Option (BitVec 288)) (s : State) : Host.Outcome State Fault Refusal :=
  .next (s.nop c.val w cell)
/-- HALT (R54). -/
def execHalt (c : CoreId) (w : Word) (s : State) : Host.Outcome State Fault Refusal :=
  .next (s.halt c.val w)
/-- MOVI (R54): the sign-extended immediate. -/
def execMovi (c : CoreId) (w : Word) (s : State) : Host.Outcome State Fault Refusal :=
  .next (s.alu c.val 0x2 w (fun _ _ imm => imm.signExtend 64))
/-- MOVHI (R54): the upper half; the lower half stays. -/
def execMovhi (c : CoreId) (w : Word) (s : State) : Host.Outcome State Fault Refusal :=
  .next (s.ctl c.val 0x3 w (fun f s _ => s.setSreg c.val f.d (BitVec.ofNat 64 ((s.sreg c.val f.d).toNat % 2 ^ 32 + f.imm.toNat * 2 ^ 32))))
/-- ADD (R54). -/
def execAdd (c : CoreId) (w : Word) (s : State) : Host.Outcome State Fault Refusal :=
  .next (s.alu c.val 0x4 w (fun a b _ => a + b))
/-- ADDI (R54). -/
def execAddi (c : CoreId) (w : Word) (s : State) : Host.Outcome State Fault Refusal :=
  .next (s.alu c.val 0x5 w (fun a _ imm => a + imm.signExtend 64))
/-- SUB (R54). -/
def execSub (c : CoreId) (w : Word) (s : State) : Host.Outcome State Fault Refusal :=
  .next (s.alu c.val 0x6 w (fun a b _ => a - b))
/-- AND (R54). -/
def execAnd (c : CoreId) (w : Word) (s : State) : Host.Outcome State Fault Refusal :=
  .next (s.alu c.val 0x7 w (fun a b _ => a &&& b))
/-- OR (R54). -/
def execOr (c : CoreId) (w : Word) (s : State) : Host.Outcome State Fault Refusal :=
  .next (s.alu c.val 0x8 w (fun a b _ => a ||| b))
/-- XOR (R54). -/
def execXor (c : CoreId) (w : Word) (s : State) : Host.Outcome State Fault Refusal :=
  .next (s.alu c.val 0x9 w (fun a b _ => a ^^^ b))
/-- SHL (R54): by s[b] mod 64. -/
def execShl (c : CoreId) (w : Word) (s : State) : Host.Outcome State Fault Refusal :=
  .next (s.alu c.val 0xa w (fun a b _ => a <<< (b.toNat % 64)))
/-- SHR (R54): logical, by s[b] mod 64. -/
def execShr (c : CoreId) (w : Word) (s : State) : Host.Outcome State Fault Refusal :=
  .next (s.alu c.val 0xb w (fun a b _ => a >>> (b.toNat % 64)))
/-- MUL (R54): the low 64 bits. -/
def execMul (c : CoreId) (w : Word) (s : State) : Host.Outcome State Fault Refusal :=
  .next (s.alu c.val 0xc w (fun a b _ => a * b))
/-- JMP (R54). -/
def execJmp (c : CoreId) (w : Word) (s : State) : Host.Outcome State Fault Refusal :=
  .next (s.branch c.val 0x10 w (fun _ _ => true))
/-- BNZ (R54). -/
def execBnz (c : CoreId) (w : Word) (s : State) : Host.Outcome State Fault Refusal :=
  .next (s.branch c.val 0x11 w (fun a _ => a != 0))
/-- BZ (R54). -/
def execBz (c : CoreId) (w : Word) (s : State) : Host.Outcome State Fault Refusal :=
  .next (s.branch c.val 0x12 w (fun a _ => a == 0))
/-- BLT (R54): signed. -/
def execBlt (c : CoreId) (w : Word) (s : State) : Host.Outcome State Fault Refusal :=
  .next (s.branch c.val 0x13 w (fun a b => a.slt b))
/-- MTCR (R55). -/
def execMtcr (c : CoreId) (w : Word) (s : State) : Host.Outcome State Fault Refusal :=
  .next (s.mtcr c.val w)
/-- MFCR (R54). -/
def execMfcr (c : CoreId) (w : Word) (s : State) : Host.Outcome State Fault Refusal :=
  .next (s.ctl c.val 0x19 w (fun f s _ => s.setSreg c.val f.d (s.coreReg c.val (f.imm.toNat % 4096))))
/-- ASTAT (R54): the stream waits. -/
def execAstat (c : CoreId) (w : Word) (s : State) : Host.Outcome State Fault Refusal :=
  .next (s.astat c.val w)
/-- ASTAT_DONE (R54). -/
def execAstatDone (c : CoreId) (s : State) : Host.Outcome State Fault Refusal :=
  .next (s.astatDone c.val)
/-- XFER (R56). -/
def execXfer (c : CoreId) (w0 w1 : Word) (s : State) : Host.Outcome State Fault Refusal :=
  .next (s.xfer c.val w0 w1)
/-- XFER_COMPLETE (R285). -/
def execXferComplete (c : CoreId) (index : Nat) (how : XferEnd) (s : State) : Host.Outcome State Fault Refusal :=
  .next ((s.xferComplete c.val index how).intakeCheck)
/-- IMEM_LOAD_GO (R58). -/
def execImemLoadGo (c : CoreId) (value : Word) (s : State) : Host.Outcome State Fault Refusal :=
  .next (s.imemLoadGo c.val value)
/-- IMEM_LOAD_DONE (R58). -/
def execImemLoadDone (c : CoreId) (s : State) : Host.Outcome State Fault Refusal :=
  .next (s.imemLoadDone c.val)
/-- CORE_RUN (R62). -/
def execCoreRun (c : CoreId) (s : State) : Host.Outcome State Fault Refusal :=
  .next (s.coreRun c.val)
/-- CORE_STOP (R62). -/
def execCoreStop (c : CoreId) (s : State) : Host.Outcome State Fault Refusal :=
  .next (s.coreStop c.val)
/-- CORE_RETIREMENT_REQUEST (R64). -/
def execCoreRetirementRequest (c : CoreId) (s : State) : Host.Outcome State Fault Refusal :=
  .next (s.retireCore c.val)

end Sys2Proof.Machine
end

