-- ==== Sys2Proof/Machine/CmdFabric.lean ====
section
/-! DEFINITION. Fabric ports, discovery and messages (chapter 13). -/
namespace Sys2Proof.Machine

/-- FLIT_RECEIVE (R351). -/
def execFlitReceive (port : Port) (h : FlitHdr) (crcOk : Bool) (s : State) : Host.Outcome State Fault Refusal :=
  .next (s.flit port.val h crcOk)
/-- PORT_ENABLE (R358). -/
def execPortEnable (port : Port) (s : State) : Host.Outcome State Fault Refusal :=
  .next (s.portEnable port.val)
/-- PORT_DISABLE (R358). -/
def execPortDisable (port : Port) (s : State) : Host.Outcome State Fault Refusal :=
  .next (s.portDisable port.val)
/-- SIGNAL_DETECT (R358). -/
def execSignalDetect (port : Port) (s : State) : Host.Outcome State Fault Refusal :=
  .next (s.signalDetect port.val)
/-- TRAINING_DONE (R358). -/
def execTrainingDone (port : Port) (s : State) : Host.Outcome State Fault Refusal :=
  .next (s.trainingDone port.val)
/-- TRAINING_FAIL (R358). -/
def execTrainingFail (port : Port) (s : State) : Host.Outcome State Fault Refusal :=
  .next (s.trainingFail port.val)
/-- PROBE (R361). -/
def execProbe (port : Port) (f : ProbeF) (tagOk : Bool) (s : State) : Host.Outcome State Fault Refusal :=
  .next (s.probe port.val f tagOk)
/-- PROBE_ACK (R361). -/
def execProbeAck (port : Port) (challenge : Word) (tagOk : Bool) (s : State) : Host.Outcome State Fault Refusal :=
  .next (s.probeAck port.val challenge tagOk)
/-- PROBE_TIMEOUT (R358). -/
def execProbeTimeout (port : Port) (s : State) : Host.Outcome State Fault Refusal :=
  .next (s.probeTimeout port.val)
/-- LOSS_OF_SIGNAL (R358). -/
def execLossOfSignal (port : Port) (s : State) : Host.Outcome State Fault Refusal :=
  .next (s.lossOfSignal port.val)
/-- FEC_ERROR_LIMIT (R358). -/
def execFecErrorLimit (port : Port) (corrected uncorrectable : BitVec 32) (s : State) : Host.Outcome State Fault Refusal :=
  .next (s.fecErrors port.val corrected.toNat uncorrectable.toNat)
/-- FAILED_HOLDOFF (R358). -/
def execFailedHoldoff (port : Port) (s : State) : Host.Outcome State Fault Refusal :=
  .next (s.failedHoldoff port.val)
/-- WAX_DUE (R369). -/
def execWaxDue (port : Port) (s : State) : Host.Outcome State Fault Refusal :=
  .next (s.waxDue port.val)
/-- WAX_DONE (R369). -/
def execWaxDone (port : Port) (ok : Bool) (holdNs : BitVec 16) (s : State) : Host.Outcome State Fault Refusal :=
  .next (s.waxDone port.val ok holdNs.toNat)
/-- TOPOLOGY_UPDATE (R363). -/
def execTopologyUpdate (port : Port) (u : TopoUpd) (tagOk : Bool) (s : State) : Host.Outcome State Fault Refusal :=
  .next (s.topologyUpdate port.val u tagOk)
/-- REACH_ADVERT (R364). -/
def execReachAdvert (port : Port) (racks : List (Fin 1024)) (seq : BitVec 32) (s : State) : Host.Outcome State Fault Refusal :=
  .next (s.reachAdvert port.val (racks.map Fin.val) seq.toNat)
/-- SMALL_TOKEN (R231). -/
def execSmallToken (port : Port) (h : THdr) (tagOk : Bool) (tok : SmallTok) (s : State) : Host.Outcome State Fault Refusal :=
  .next ((s.smallToken port.val h tagOk tok).intakeCheck)
/-- CHUNK_REQUEST (R236). -/
def execChunkRequest (port : Port) (h : THdr) (tagOk : Bool) (s : State) : Host.Outcome State Fault Refusal :=
  .next (s.chunkRequest port.val h tagOk)
/-- CHUNK_ACK (R236). -/
def execChunkAck (port : Port) (h : THdr) (tagOk : Bool) (s : State) : Host.Outcome State Fault Refusal :=
  .next (s.chunkAck port.val h tagOk)
/-- REMOTE_STORE (R440). -/
def execRemoteStore (port : Port) (h : THdr) (tagOk : Bool) (data : List (Byte × Bool)) (s : State) : Host.Outcome State Fault Refusal :=
  .next ((s.remoteStore port.val h tagOk data).intakeCheck)
/-- REMOTE_ATOMIC (R440). -/
def execRemoteAtomic (port : Port) (h : THdr) (tagOk : Bool) (op : AOp) (operand expected : Word) (s : State) : Host.Outcome State Fault Refusal :=
  .next ((s.remoteAtomic port.val h tagOk op operand expected).intakeCheck)
/-- STORE_ACK (R360). -/
def execStoreAck (port : Port) (h : THdr) (tagOk positive : Bool) (s : State) : Host.Outcome State Fault Refusal :=
  .next ((s.storeAck port.val h tagOk positive).intakeCheck)
/-- ATOMIC_RESULT (R281). -/
def execAtomicResult (port : Port) (h : THdr) (tagOk positive : Bool) (old : Word) (s : State) : Host.Outcome State Fault Refusal :=
  .next ((s.atomicResult port.val h tagOk positive old).intakeCheck)
/-- REMOTE_TIMEOUT (R360). -/
def execRemoteTimeout (ctr : Word) (key : Fin 16) (s : State) : Host.Outcome State Fault Refusal :=
  .next ((s.remoteTimeout ctr.toNat key.val).intakeCheck)
/-- ETH_FRAME (R371). -/
def execEthFrame (port : Port) (dstOk etypeOk fcsOk : Bool) (version : BitVec 4) (flits : List (FlitHdr × Bool)) (s : State) : Host.Outcome State Fault Refusal :=
  .next (s.ethFrame port.val (dstOk && etypeOk && fcsOk) version.toNat flits)
/-- PFC_PAUSE (R371). -/
def execPfcPause (port : Port) (pcp : BitVec 8) (quanta : BitVec 16) (s : State) : Host.Outcome State Fault Refusal :=
  .next (s.pfcPause port.val pcp quanta.toNat)

end Sys2Proof.Machine
end

