-- ==== Sys2Proof/Machine/CmdHbm.lean ====
section
/-! DEFINITION. HBM stacks (chapter 11). -/
namespace Sys2Proof.Machine

/-- HBM_TEMP_SAMPLE (R312). -/
def execHbmTempSample (temps : List (BitVec 8)) (s : State) : Host.Outcome State Fault Refusal :=
  .next (s.hbmTempSample temps)
/-- HBM_RETRAIN (R318). -/
def execHbmRetrain (stack : Fin 8) (pc : Fin 64) (s : State) : Host.Outcome State Fault Refusal :=
  .next (s.hbmRetrain stack.val pc.val)
/-- HBM_RETRAIN_DONE (R318). -/
def execHbmRetrainDone (stack : Fin 8) (ok : Bool) (holdNs : BitVec 16) (s : State) : Host.Outcome State Fault Refusal :=
  .next ((s.hbmRetrainDone stack.val ok holdNs).serveHeld.pokeCores.intakeCheck)
/-- HBM_RETRAIN_RETRY (R319). -/
def execHbmRetrainRetry (stack : Fin 8) (pc : Fin 64) (ok : Bool) (s : State) : Host.Outcome State Fault Refusal :=
  .next (s.hbmRetrainRetry stack.val pc.val ok)
/-- HBM_MIG_GO (R320). -/
def execHbmMigGo (stack : Fin 8) (value : Word) (s : State) : Host.Outcome State Fault Refusal :=
  .next (s.hbmMigGo stack.val value)
/-- HBM_MIG_SWITCH (R320). -/
def execHbmMigSwitch (stack : Fin 8) (ok : Bool) (s : State) : Host.Outcome State Fault Refusal :=
  .next (s.hbmMigSwitch stack.val ok)
/-- HBM_PPR_DONE (R323). -/
def execHbmPprDone (stack : Fin 8) (ok : Bool) (pc : Fin 2) (bank : Fin 16) (row : BitVec 18) (s : State) : Host.Outcome State Fault Refusal :=
  .next (s.hbmPprDone stack.val ok pc.val bank.val row.toNat)
/-- RPR_QUERY (R324): a write with OP = 0. -/
def execRprQuery (stack : Fin 8) (value : Word) (s : State) : Host.Outcome State Fault Refusal :=
  .next (if fieldOf value 28 2 = 0 then s.rprWrite stack.val value else s)
/-- RPR_HARD_REPAIR (R324): a write with OP = 1. -/
def execRprHardRepair (stack : Fin 8) (value : Word) (s : State) : Host.Outcome State Fault Refusal :=
  .next (if fieldOf value 28 2 = 1 then s.rprWrite stack.val value else s)
/-- RPR_NEXT_ROW (R324): a write with OP = 2. -/
def execRprNextRow (stack : Fin 8) (value : Word) (s : State) : Host.Outcome State Fault Refusal :=
  .next (if fieldOf value 28 2 = 2 then s.rprWrite stack.val value else s)
/-- RPR_COMPLETE (R324). -/
def execRprComplete (stack : Fin 8) (ok : Bool) (s : State) : Host.Outcome State Fault Refusal :=
  .next (s.rprComplete stack.val ok)
/-- TG_WRITE (R325): a write with OP = 0. -/
def execTgWrite (stack : Fin 8) (value : Word) (s : State) : Host.Outcome State Fault Refusal :=
  .next (if fieldOf value 3 2 = 0 then s.tgWrite stack.val value else s)
/-- TG_READ_CHECK (R325): a write with OP = 1. -/
def execTgReadCheck (stack : Fin 8) (value : Word) (s : State) : Host.Outcome State Fault Refusal :=
  .next (if fieldOf value 3 2 = 1 then s.tgWrite stack.val value else s)
/-- TG_WRITE_READ_CHECK (R325): a write with OP = 2. -/
def execTgWriteReadCheck (stack : Fin 8) (value : Word) (s : State) : Host.Outcome State Fault Refusal :=
  .next (if fieldOf value 3 2 = 2 then s.tgWrite stack.val value else s)
/-- TG_ABORT (R325). -/
def execTgAbort (stack : Fin 8) (s : State) : Host.Outcome State Fault Refusal :=
  .next (s.tgAbortWrite stack.val)
/-- TG_DONE (R325). -/
def execTgDone (stack : Fin 8) (mismatches : BitVec 32) (line : BitVec 21) (byte : BitVec 9) (mbps : BitVec 16) (s : State) : Host.Outcome State Fault Refusal :=
  .next (s.tgDone stack.val mismatches.toNat line.toNat byte.toNat mbps.toNat)

end Sys2Proof.Machine
end

