-- ==== Sys2Proof/Machine/CmdHost.lean ====
section
/-! DEFINITION. The host interface and control registers (chapter 14, R379, R395, R524). -/
namespace Sys2Proof.Machine

/-- CONFIG_REQUEST (R11). -/
def execConfigRequest (port : Fin 2) (fn : Fin 9) (reg : BitVec 12) (s : State) : Host.Outcome State Fault Refusal :=
  .next (s.configRequest port.val fn.val reg.toNat)
/-- JOURNAL_POLL (R382). -/
def execJournalPoll (port : Fin 2) (fn : Fin 9) (ring : Fin 8) (readFail : Bool) (s : State) : Host.Outcome State Fault Refusal :=
  .next (s.journalPoll port fn ring readFail)
/-- JOB_START (R386). -/
def execJobStart (post : Post) (dmaFail : Bool) (talk : List (List Nat)) (s : State) : Host.Outcome State Fault Refusal :=
  .next (s.jobStart post dmaFail talk)
/-- JOB_ABORT (R387). -/
def execJobAbort (post : Post) (s : State) : Host.Outcome State Fault Refusal :=
  .next (s.jobAbort post)
/-- JOB_END (R387). -/
def execJobEnd (post : Post) (s : State) : Host.Outcome State Fault Refusal :=
  .next (s.jobEnd post)
/-- JOB_END_ZERO_FILL_DONE (R441). -/
def execJobEndZeroFillDone (p : Part) (s : State) : Host.Outcome State Fault Refusal :=
  .next (s.jobEnded p.val)
/-- JOB_TAKEOVER (R392). -/
def execJobTakeover (post : Post) (dmaFail : Bool) (s : State) : Host.Outcome State Fault Refusal :=
  .next (s.jobTakeover post dmaFail)
/-- MSIX_HOLDOFF_END (R388). -/
def execMsixHoldoffEnd (port : Fin 2) (fn : Fin 9) (vec : Fin 73) (s : State) : Host.Outcome State Fault Refusal :=
  .next (s.holdoffEnd port.val fn.val vec.val)
/-- PCIE_LINK_DOWN (R391). -/
def execPcieLinkDown (port : Fin 2) (s : State) : Host.Outcome State Fault Refusal :=
  .next (s.linkDown port.val)
/-- ORPHAN_TIMEOUT (R391). -/
def execOrphanTimeout (job : BitVec 16) (s : State) : Host.Outcome State Fault Refusal :=
  .next (s.orphanTimeout job.toNat)
/-- PCIE_LINK_UP (R391). -/
def execPcieLinkUp (port : Fin 2) (s : State) : Host.Outcome State Fault Refusal :=
  .next (s.linkReturn port.val)
/-- FLR (R393). -/
def execFlr (port : Fin 2) (fn : Fin 9) (s : State) : Host.Outcome State Fault Refusal :=
  .next (s.flrReset port.val fn.val)
/-- HOT_RESET (R393). -/
def execHotReset (port : Fin 2) (s : State) : Host.Outcome State Fault Refusal :=
  .next (s.hotReset port.val)
/-- PERST (R396). -/
def execPerst (port : Fin 2) (s : State) : Host.Outcome State Fault Refusal :=
  .next (s.perst port.val)
/-- MAILBOX_POLL (R381). -/
def execMailboxPoll (port : Fin 2) (fn : Fin 9) (s : State) : Host.Outcome State Fault Refusal :=
  .next (s.mailboxPoll port.val fn.val)
/-- BAR2_ACCESS (R380). -/
def execBar2Access (port : Fin 2) (fn : Fin 9) (off : BitVec 36) (op : Bar2Op) (s : State) : Host.Outcome State Fault Refusal :=
  .next ((s.bar2Access port.val fn.val off.toNat op).intakeCheck)
/-- BAR2_BASE_WRITE (R380). -/
def execBar2BaseWrite (port : Fin 2) (fn : Fin 9) (value : Word) (s : State) : Host.Outcome State Fault Refusal :=
  .next (s.bar2BaseWrite port.val fn.val value)
/-- BAR0_MISALIGNED (R524). -/
def execBar0Misaligned (port : Fin 2) (fn : Fin 9) (read : Bool) (s : State) : Host.Outcome State Fault Refusal :=
  .next (s.bar0Misaligned port.val fn.val read)
/-- REGISTER_WRITE (R7). -/
def execRegisterWrite (who : Writer) (off : BitVec 28) (value : Word) (s : State) : Host.Outcome State Fault Refusal :=
  .next (s.registerWrite who off.toNat value)
/-- CONFIGURATION_READY (R396). -/
def execConfigurationReady (port : Fin 2) (ms : BitVec 16) (s : State) : Host.Outcome State Fault Refusal :=
  .next (s.configurationReady port.val ms.toNat)

end Sys2Proof.Machine
end

