-- ==== Sys2Proof/Machine/CmdPower.lean ====
section
/-! DEFINITION. Power, temperature and the module's pins (chapters 19 and 20). -/
namespace Sys2Proof.Machine

/-- POWER_SAMPLE (R489). -/
def execPowerSample (watts : BitVec 16) (mv : BitVec 16) (s : State) : Host.Outcome State Fault Refusal :=
  .next (s.powerSample watts.toNat mv.toNat)
/-- POWER_LIMIT_STEP (R489). -/
def execPowerLimitStep (average : BitVec 16) (s : State) : Host.Outcome State Fault Refusal :=
  .next (s.powerLimitStep average.toNat)
/-- STANDBY_ENTER (R490). -/
def execStandbyEnter (s : State) : Host.Outcome State Fault Refusal :=
  .next (s.standbyEnter)
/-- STANDBY_EXIT (R491). -/
def execStandbyExit (s : State) : Host.Outcome State Fault Refusal :=
  .next (s.standbyExit)
/-- DROOP (R493). -/
def execDroop (die : Fin 4) (mv : BitVec 8) (s : State) : Host.Outcome State Fault Refusal :=
  .next (s.droop die.val mv.toNat)
/-- BRAKE_PIN (R493). -/
def execBrakePin (ns : Nat) (s : State) : Host.Outcome State Fault Refusal :=
  .next (s.brakeIn ns)
/-- BRAKE_RELEASE_STEP (R494). -/
def execBrakeReleaseStep (die : Fin 4) (s : State) : Host.Outcome State Fault Refusal :=
  .next (s.brakeRelease die.val)
/-- THERMAL_SAMPLE (R496). -/
def execThermalSample (t : Temps) (s : State) : Host.Outcome State Fault Refusal :=
  .next (s.thermalSample t)
/-- THM_SENSOR_FAIL (R496). -/
def execThmSensorFail (sensor : Sensor) (s : State) : Host.Outcome State Fault Refusal :=
  .next (s.sensorFail sensor)
/-- AUX_RAIL_UP (R508). -/
def execAuxRailUp (s : State) : Host.Outcome State Fault Refusal :=
  .next (s.auxRailUp)
/-- MGMT_BUS_SELECT (R512). -/
def execMgmtBusSelect (i3c : Bool) (s : State) : Host.Outcome State Fault Refusal :=
  .next (s.mgmtBusSelect i3c)
/-- SET_RACK (R513). -/
def execSetRack (path : Path) (rack : BitVec 10) (s : State) : Host.Outcome State Fault Refusal :=
  .next (s.setRack path rack.toNat)
/-- PWR_EN_ASSERT (R507). -/
def execPwrEnAssert (j1 j2 : Bool) (s : State) : Host.Outcome State Fault Refusal :=
  .next (s.pwrEnAssert j1 j2)
/-- MOD_PWRGD (R508). -/
def execModPwrgd (brakePinLow : Bool) (s : State) : Host.Outcome State Fault Refusal :=
  .next (s.modPwrgd brakePinLow)
/-- PWR_EN_DEASSERT (R510). -/
def execPwrEnDeassert (finished : Bool) (s : State) : Host.Outcome State Fault Refusal :=
  .next (s.pwrEnDeassert finished)
/-- VIN_RISING (R507). -/
def execVinRising (j1 j2 : Bool) (s : State) : Host.Outcome State Fault Refusal :=
  .next (s.vinRising j1 j2)
/-- BRAKE_DEASSERT (R494). -/
def execBrakeDeassert (s : State) : Host.Outcome State Fault Refusal :=
  .next (s.brakeOut)

end Sys2Proof.Machine
end

