-- ==== Sys2Proof/Machine/CmdRas.lean ====
section
/-! DEFINITION. Reliability, telemetry and lifetime counters (chapters 17 and 18). -/
namespace Sys2Proof.Machine

/-- DUMP_RELEASE (R471). -/
def execDumpRelease (path : Path) (s : State) : Host.Outcome State Fault Refusal :=
  .next (s.dumpRelease path)
/-- CP_MEMORY_ERROR (R459). -/
def execCpMemoryError (cp : Fin 18) (s : State) : Host.Outcome State Fault Refusal :=
  .next (s.cpMemoryError cp.val)
/-- CP_WATCHDOG (R458). -/
def execCpWatchdog (cp : Fin 18) (s : State) : Host.Outcome State Fault Refusal :=
  .next (s.cpWatchdog cp.val)
/-- CP_AUDIT (R458). -/
def execCpAudit (cp : Fin 18) (mismatch : Bool) (s : State) : Host.Outcome State Fault Refusal :=
  .next (s.cpAudit cp.val mismatch)
/-- CP_RELOAD_DONE (R459). -/
def execCpReloadDone (cp : Fin 18) (s : State) : Host.Outcome State Fault Refusal :=
  .next (s.cpReloadDone cp.val)
/-- MP_WATCHDOG (R460). -/
def execMpWatchdog (s : State) : Host.Outcome State Fault Refusal :=
  .next (s.mpWatchdog)
/-- DUMP_WRITTEN (R469). -/
def execDumpWritten (complete : Bool) (bytes : BitVec 32) (s : State) : Host.Outcome State Fault Refusal :=
  .next (s.dumpWritten complete bytes.toNat)
/-- AUTO_RESET_TIMER (R472). -/
def execAutoResetTimer (s : State) : Host.Outcome State Fault Refusal :=
  .next (s.autoReset)
/-- TELEMETRY_SAMPLE (R461). -/
def execTelemetrySample (watts : BitVec 16) (s : State) : Host.Outcome State Fault Refusal :=
  .next (s.telemetry watts.toNat)
/-- LIFETIME_COMMIT (R485). -/
def execLifetimeCommit (verified : Bool) (s : State) : Host.Outcome State Fault Refusal :=
  .next (s.lifetimeCommit verified)

end Sys2Proof.Machine
end

