-- ==== Sys2Proof/Machine/CmdRoll.lean ====
section
/-! DEFINITION. Rollout: posted commands, contexts, adapters, prefixes and park records (chapter 05). -/
namespace Sys2Proof.Machine

/-- ADMIT (R148). -/
def execAdmitSeq (post : Post) (dmaFail : Bool) (s : State) : Host.Outcome State Fault Refusal :=
  .next (s.admitPost post dmaFail)
/-- CANCEL (R161). -/
def execCancel (post : Post) (s : State) : Host.Outcome State Fault Refusal :=
  .next (s.cancelPost post)
/-- PAUSE (R167). -/
def execPause (post : Post) (s : State) : Host.Outcome State Fault Refusal :=
  .next (s.pausePost post)
/-- BUDGET_SET (R160). -/
def execBudgetSet (post : Post) (s : State) : Host.Outcome State Fault Refusal :=
  .next (s.budgetPost post 0)
/-- BUDGET_ADD (R160). -/
def execBudgetAdd (post : Post) (s : State) : Host.Outcome State Fault Refusal :=
  .next (s.budgetPost post 1)
/-- ADAPTER_LOAD (R164). -/
def execAdapterLoad (post : Post) (s : State) : Host.Outcome State Fault Refusal :=
  .next (s.adapterLoad post)
/-- ADAPTER_LOAD_DISPATCH (R164). -/
def execAdapterLoadDispatch (p : Part) (s : State) : Host.Outcome State Fault Refusal :=
  .next (s.adapterDispatch p.val)
/-- ADAPTER_LOAD_COMPLETE (R163). -/
def execAdapterLoadComplete (slot : Fin 1024) (s : State) : Host.Outcome State Fault Refusal :=
  .next (s.adapterComplete slot.val)
/-- ADAPTER_UNLOAD (R163). -/
def execAdapterUnload (post : Post) (s : State) : Host.Outcome State Fault Refusal :=
  .next (s.adapterUnload post)
/-- PREFIX_CREATE (R145). -/
def execPrefixCreate (post : Post) (s : State) : Host.Outcome State Fault Refusal :=
  .next (s.prefixCreate post)
/-- PREFIX_RELEASE (R147). -/
def execPrefixRelease (post : Post) (s : State) : Host.Outcome State Fault Refusal :=
  .next (s.prefixRelease post)
/-- STOPSET_WRITE (R173). -/
def execStopsetWrite (post : Post) (dmaFail : Bool) (s : State) : Host.Outcome State Fault Refusal :=
  .next (s.stopsetWrite post dmaFail)
/-- CONTEXT_TAKE (R137). -/
def execContextTake (ctx : CtxId) (s : State) : Host.Outcome State Fault Refusal :=
  .next (s.contextTake ctx.val)
/-- RESTORE_COMPLETE (R140). -/
def execRestoreComplete (ctx : CtxId) (s : State) : Host.Outcome State Fault Refusal :=
  .next ((s.restoreComplete ctx.val).intakeCheck)
/-- PREFILL_COMPLETE (R137). -/
def execPrefillComplete (ctx : CtxId) (what : PrefillEnd) (adapterPoison : Bool) (s : State) : Host.Outcome State Fault Refusal :=
  .next (s.prefillComplete ctx.val what adapterPoison)
/-- SHIP_COMPLETE (R138). -/
def execShipComplete (ctx : CtxId) (how : ShipEnd) (s : State) : Host.Outcome State Fault Refusal :=
  .next ((s.shipComplete ctx.val how).intakeCheck)
/-- VERIFY_ROUND (R155). -/
def execVerifyRound (ctx : CtxId) (draft logits : List (List (BitVec 32))) (kvPoison adapterPoison housePoison : Bool) (s : State) : Host.Outcome State Fault Refusal :=
  .next (s.verifyRound ctx.val draft logits kvPoison adapterPoison housePoison)
/-- DECODE_STEP_BOUNDARY (R141). -/
def execDecodeStepBoundary (p : Part) (s : State) : Host.Outcome State Fault Refusal :=
  .next (s.decodeBoundary p.val)
/-- DRAFT_REPROBE (R156). -/
def execDraftReprobe (ctx : CtxId) (s : State) : Host.Outcome State Fault Refusal :=
  .next (s.draftReprobe ctx.val)
/-- PARK_COMPLETE (R340). -/
def execParkComplete (ctx : CtxId) (far : List (Byte × Bool)) (s : State) : Host.Outcome State Fault Refusal :=
  .next (s.parkComplete ctx.val far)
/-- CONTEXT_CLOSE (R140). -/
def execContextClose (ctx : CtxId) (s : State) : Host.Outcome State Fault Refusal :=
  .next (s.contextClose ctx.val)
/-- STREAM_RING_ROOM (R172). -/
def execStreamRingRoom (p : Part) (ring : Fin 64) (s : State) : Host.Outcome State Fault Refusal :=
  .next (s.streamRoom p.val ring.val)
/-- PARK_EXPIRY (R341). -/
def execParkExpiry (ticket : BitVec 32) (s : State) : Host.Outcome State Fault Refusal :=
  .next (s.parkExpiry ticket.toNat)
/-- ROLL_ENABLE (R176). -/
def execRollEnable (p : Part) (s : State) : Host.Outcome State Fault Refusal :=
  .next (s.rollEnable p.val)
/-- ROLL_DISABLE (R176). -/
def execRollDisable (p : Part) (s : State) : Host.Outcome State Fault Refusal :=
  .next (s.rollDisable p.val)

end Sys2Proof.Machine
end

