-- ==== Sys2Proof/Machine/CmdSec.lean ====
section
/-! DEFINITION. Security: ownership, SPDM, keys and the house region (chapter 16). -/
namespace Sys2Proof.Machine

/-- OWNER_WRITE (R429). -/
def execOwnerWrite (path : Path) (blk : OwnerBlock) (sigOk : Bool) (s : State) : Host.Outcome State Fault Refusal :=
  .next (s.ownerWrite path blk sigOk)
/-- SVN_COMMIT (R430). -/
def execSvnCommit (path : Path) (svn : BitVec 32) (sigOk : Bool) (s : State) : Host.Outcome State Fault Refusal :=
  .next (s.svnCommit path svn.toNat sigOk)
/-- REVOKE (R430). -/
def execRevoke (path : Path) (slot : Fin 4) (tokenOk ownerOk : Bool) (s : State) : Host.Outcome State Fault Refusal :=
  .next (s.revoke path slot.val tokenOk ownerOk)
/-- GET_VERSION (R427). -/
def execGetVersion (path : Path) (s : State) : Host.Outcome State Fault Refusal :=
  .next (s.getVersion path)
/-- GET_CAPABILITIES (R427). -/
def execGetCapabilities (path : Path) (s : State) : Host.Outcome State Fault Refusal :=
  .next (s.getCapabilities path)
/-- NEGOTIATE_ALGORITHMS (R427). -/
def execNegotiateAlgorithms (path : Path) (offered : Bool) (s : State) : Host.Outcome State Fault Refusal :=
  .next (s.negotiate path offered)
/-- GET_DIGESTS (R427). -/
def execGetDigests (path : Path) (s : State) : Host.Outcome State Fault Refusal :=
  .next (s.getDigests path)
/-- GET_CERTIFICATE (R427). -/
def execGetCertificate (path : Path) (slot : Nat) (offset length : Nat) (s : State) : Host.Outcome State Fault Refusal :=
  .next (s.getCertificate path slot offset length)
/-- CHALLENGE (R427). -/
def execChallenge (path : Path) (slot : Nat) (nonce : BitVec 256) (s : State) : Host.Outcome State Fault Refusal :=
  .next (s.challenge path slot nonce)
/-- GET_MEASUREMENTS (R428). -/
def execGetMeasurements (path : Path) (index : BitVec 8) (nonce : BitVec 256) (s : State) : Host.Outcome State Fault Refusal :=
  .next (s.getMeasurements path index.toNat nonce)
/-- KEY_EXCHANGE (R427): the secret that SHARE gives shows in no state. -/
def execKeyExchange (path : Path) (share : BitVec 768) (s : State) : Host.Outcome State Fault Refusal :=
  .next (let _ := share; s.keyExchange path)
/-- FINISH (R427). -/
def execFinish (path : Path) (session : BitVec 32) (verifyOk : Bool) (s : State) : Host.Outcome State Fault Refusal :=
  .next (s.finishSession path session.toNat verifyOk)
/-- HEARTBEAT (R427). -/
def execHeartbeat (path : Path) (session : BitVec 32) (s : State) : Host.Outcome State Fault Refusal :=
  .next (s.heartbeat path session.toNat)
/-- KEY_UPDATE (R427). -/
def execKeyUpdate (path : Path) (session : BitVec 32) (s : State) : Host.Outcome State Fault Refusal :=
  .next (s.keyUpdate path session.toNat)
/-- END_SESSION (R427). -/
def execEndSession (path : Path) (session : BitVec 32) (s : State) : Host.Outcome State Fault Refusal :=
  .next (s.endSession path session.toNat)
/-- CHUNK_SEND (R427). -/
def execChunkSend (path : Path) (seq : BitVec 16) (last : Bool) (data : List Byte) (s : State) : Host.Outcome State Fault Refusal :=
  .next (s.chunkSend path seq.toNat last data)
/-- CHUNK_GET (R427). -/
def execChunkGet (path : Path) (seq : BitVec 16) (s : State) : Host.Outcome State Fault Refusal :=
  .next (s.chunkGet path seq.toNat)
/-- KEY_PUT (R431). -/
def execKeyPut (path : Path) (session : BitVec 32) (k : KeyBody) (s : State) : Host.Outcome State Fault Refusal :=
  .next (s.keyPut path session.toNat k)
/-- KEY_DEL (R436). -/
def execKeyDel (path : Path) (session : BitVec 32) (kind : BitVec 8) (id : BitVec 32) (s : State) : Host.Outcome State Fault Refusal :=
  .next (s.keyDel path session.toNat kind.toNat id.toNat)
/-- KEY_EXPIRY (R436). -/
def execKeyExpiry (entry : Fin 64) (s : State) : Host.Outcome State Fault Refusal :=
  .next (s.keyExpiry entry.val)
/-- HOUSE_LOAD (R443). -/
def execHouseLoad (path : Path) (handle : BitVec 32) (s : State) : Host.Outcome State Fault Refusal :=
  .next (s.houseLoad path handle.toNat)
/-- HOUSE_REBUILD_DONE (R446). -/
def execHouseRebuildDone (addr : BitVec 48) (src : RebuildSrc) (data : List Byte) (s : State) : Host.Outcome State Fault Refusal :=
  .next (s.houseRebuilt addr.toNat src data)
/-- HOUSE_LOAD_COMPLETE (R443). -/
def execHouseLoadComplete (data : List (Nat × Byte)) (poisoned : Bool) (s : State) : Host.Outcome State Fault Refusal :=
  .next (s.houseLoaded data poisoned)

end Sys2Proof.Machine
end

