-- ==== Sys2Proof/Machine/CmdSlow.lean ====
section
/-! DEFINITION. The slow tier: objects, park records, flash and lift links (chapter 12). -/
namespace Sys2Proof.Machine

/-- OBJ_PUT (R337). -/
def execObjPut (post : Post) (dmaFail : Bool) (s : State) : Host.Outcome State Fault Refusal :=
  .next (s.objPut post dmaFail)
/-- OBJ_SEALED (R338). -/
def execObjSealed (handle : BitVec 32) (s : State) : Host.Outcome State Fault Refusal :=
  .next (s.objSealed handle.toNat)
/-- OBJ_GET (R337). -/
def execObjGet (post : Post) (s : State) : Host.Outcome State Fault Refusal :=
  .next (s.objGet post)
/-- OBJ_DELETE (R339). -/
def execObjDelete (post : Post) (s : State) : Host.Outcome State Fault Refusal :=
  .next (s.objDelete post)
/-- PARK_DEMOTE (R340). -/
def execParkDemote (ticket : BitVec 32) (s : State) : Host.Outcome State Fault Refusal :=
  .next (s.parkDemote ticket.toNat)
/-- FLASH_PAGE_READ (R344): a failed read of a park record loses the record. -/
def execFlashPageRead (m : Fin 4) (ch : Fin 8) (block : BitVec 19) (how : PageRead) (park : Option (BitVec 32)) (s : State) : Host.Outcome State Fault Refusal :=
  .next (s.flashRead m.val ch.val block.toNat how park)
/-- FLASH_MOVE (R345). -/
def execFlashMove (m : Fin 4) (why : MoveWhy) (block target : BitVec 19) (held : List (BitVec 32)) (s : State) : Host.Outcome State Fault Refusal :=
  .next (s.flashMove m.val why block.toNat target.toNat (held.map (·.toNat)))
/-- FLASH_BLOCK_FAIL (R346). -/
def execFlashBlockFail (m : Fin 4) (block target : BitVec 19) (s : State) : Host.Outcome State Fault Refusal :=
  .next (s.flashBlockFail m.val block.toNat target.toNat)
/-- LIFT_FRAME (R332). -/
def execLiftFrame (m : Fin 4) (raw : BitVec 288) (s : State) : Host.Outcome State Fault Refusal :=
  .next (s.liftFrame m.val raw)
/-- LIFT_GMAC (R422). -/
def execLiftGmac (m : Fin 4) (ok : Bool) (s : State) : Host.Outcome State Fault Refusal :=
  .next (s.liftGmac m.val ok)
/-- LIFT_RECAL (R333). -/
def execLiftRecal (m : Fin 4) (ok retrainOk : Bool) (s : State) : Host.Outcome State Fault Refusal :=
  .next (s.liftRecal m.val ok retrainOk)
/-- OBJ_GET_COMPLETE (R337). -/
def execObjGetComplete (handle : BitVec 32) (failed : List (BitVec 28)) (s : State) : Host.Outcome State Fault Refusal :=
  .next ((s.objGetComplete handle.toNat (failed.map (·.toNat))).intakeCheck)
/-- OBJECT_EXPIRY (R346). -/
def execObjectExpiry (handle : BitVec 32) (s : State) : Host.Outcome State Fault Refusal :=
  .next (s.objectExpiry handle.toNat)
/-- FLASH_ZQ_CALIBRATION (R347): the interface's requests wait; nothing that the state holds changes. -/
def execFlashZqCalibration (m : Fin 4) (s : State) : Host.Outcome State Fault Refusal :=
  .next (let _ := m; s)

end Sys2Proof.Machine
end

