-- ==== Sys2Proof/Machine/CmdSram.lean ====
section
/-! DEFINITION. On-chip memories and scrubbing (chapters 10 and 17). -/
namespace Sys2Proof.Machine

/-- SEGMENT_POWER_REQUEST (R301). -/
def execSegmentPowerRequest (win : MWin) (value : Word) (s : State) : Host.Outcome State Fault Refusal :=
  .next (s.segRequest (mwin win) value)
/-- SEGMENT_POWER_CHANGE (R301). -/
def execSegmentPowerChange (win : MWin) (ab : Bool) (seg : Fin 4) (s : State) : Host.Outcome State Fault Refusal :=
  .next (s.segChange (mwin win) ab seg.val)
/-- SEGMENT_IDLE_RETURN (R301). -/
def execSegmentIdleReturn (win : MWin) (ab : Bool) (seg : Fin 4) (s : State) : Host.Outcome State Fault Refusal :=
  .next (s.segReturn (mwin win) ab seg.val)
/-- MARCH_GO (R304). -/
def execMarchGo (win : MWin) (value : Word) (s : State) : Host.Outcome State Fault Refusal :=
  .next (s.marchWrite (mwin win) value)
/-- MARCH_ABORT (R305). -/
def execMarchAbort (win : MWin) (s : State) : Host.Outcome State Fault Refusal :=
  .next (s.marchAbort (mwin win))
/-- MARCH_DONE (R307). -/
def execMarchDone (win : MWin) (fails : List MarchFail) (cycles : BitVec 32) (s : State) : Host.Outcome State Fault Refusal :=
  .next (s.marchDone (mwin win) fails cycles.toNat)
/-- SCRUB_VISIT (R465). -/
def execScrubVisit (target : ScrubTarget) (raw : BitVec 288) (s : State) : Host.Outcome State Fault Refusal :=
  .next (s.scrubAny target raw)
/-- SCRUB_PROMOTE (R463). -/
def execScrubPromote (act : Fin 10) (ageMs : Nat) (s : State) : Host.Outcome State Fault Refusal :=
  .next (s.scrubPromote act.val ageMs)
/-- SCRUB_LATE (R463). -/
def execScrubLate (act : Fin 10) (s : State) : Host.Outcome State Fault Refusal :=
  .next (s.scrubLate act.val)

end Sys2Proof.Machine
end

