-- ==== Sys2Proof/Machine/CmdSync.lean ====
section
/-! DEFINITION. Synchronisation instructions (chapter 09). -/
namespace Sys2Proof.Machine

/-- FENCE (R277). -/
def execFence (c : CoreId) (w : Word) (s : State) : Host.Outcome State Fault Refusal :=
  .next (s.fence c.val w)
/-- FENCE_DONE (R277). -/
def execFenceDone (c : CoreId) (s : State) : Host.Outcome State Fault Refusal :=
  .next (s.fenceDone c.val)
/-- WAIT (R279). -/
def execWait (c : CoreId) (w : Word) (s : State) : Host.Outcome State Fault Refusal :=
  .next (s.waitOp c.val w)
/-- WAIT_SATISFIED (R279). -/
def execWaitSatisfied (c : CoreId) (s : State) : Host.Outcome State Fault Refusal :=
  .next (s.waitSatisfied c.val)
/-- SYNC_TIMEOUT (R279). -/
def execSyncTimeout (c : CoreId) (s : State) : Host.Outcome State Fault Refusal :=
  .next (s.syncTimeout c.val)
/-- SIGNAL (R278). -/
def execSignal (c : CoreId) (w : Word) (s : State) : Host.Outcome State Fault Refusal :=
  .next ((s.signalOp c.val w).intakeCheck)
/-- ATOMIC_ADD (R281). -/
def execAtomicAdd (c : CoreId) (w : Word) (s : State) : Host.Outcome State Fault Refusal :=
  .next ((s.atomicOp c.val .add w).intakeCheck)
/-- ATOMIC_SWAP (R281). -/
def execAtomicSwap (c : CoreId) (w : Word) (s : State) : Host.Outcome State Fault Refusal :=
  .next ((s.atomicOp c.val .swap w).intakeCheck)
/-- ATOMIC_CAS (R281). -/
def execAtomicCas (c : CoreId) (w : Word) (s : State) : Host.Outcome State Fault Refusal :=
  .next ((s.atomicOp c.val .cas w).intakeCheck)
/-- ATOMIC_AND (R281). -/
def execAtomicAnd (c : CoreId) (w : Word) (s : State) : Host.Outcome State Fault Refusal :=
  .next ((s.atomicOp c.val .and w).intakeCheck)
/-- ATOMIC_OR (R281). -/
def execAtomicOr (c : CoreId) (w : Word) (s : State) : Host.Outcome State Fault Refusal :=
  .next ((s.atomicOp c.val .or w).intakeCheck)
/-- ATOMIC_UMAX (R281). -/
def execAtomicUmax (c : CoreId) (w : Word) (s : State) : Host.Outcome State Fault Refusal :=
  .next ((s.atomicOp c.val .umax w).intakeCheck)
/-- ATOMIC_UMIN (R281). -/
def execAtomicUmin (c : CoreId) (w : Word) (s : State) : Host.Outcome State Fault Refusal :=
  .next ((s.atomicOp c.val .umin w).intakeCheck)

end Sys2Proof.Machine
end

