-- ==== Sys2Proof/Machine/CmdTrain.lean ====
section
/-! DEFINITION. Training: micro-batches, version slots and the block's enable (chapter 04). -/
namespace Sys2Proof.Machine

/-- MB_ADMIT (R100). -/
def execMbAdmit (p : Part) (k : MbKey) (h : MbHeader) (s : State) : Host.Outcome State Fault Refusal :=
  .next (s.mbAdmit p.val k h)
/-- FWD_COMPLETE (R118). -/
def execFwdComplete (p : Part) (k : MbKey) (what : FwdEnd) (s : State) : Host.Outcome State Fault Refusal :=
  .next ((s.fwdComplete p.val k what).intakeCheck)
/-- BWD_START (R101). -/
def execBwdStart (p : Part) (k : MbKey) (dyArrived : Bool) (s : State) : Host.Outcome State Fault Refusal :=
  .next (s.bwdStart p.val k dyArrived)
/-- BWD_COMPLETE (R117). -/
def execBwdComplete (p : Part) (k : MbKey) (what : BwdEnd) (s : State) : Host.Outcome State Fault Refusal :=
  .next ((s.bwdComplete p.val k what).intakeCheck)
/-- VERSION_TIMEOUT (R129). -/
def execVersionTimeout (p : Part) (what : VerWait) (s : State) : Host.Outcome State Fault Refusal :=
  .next (s.versionTimeout p.val what)
/-- SLOT_CLAIM (R126). -/
def execSlotClaim (p : Part) (shard : Fin 4096) (step : BitVec 16) (s : State) : Host.Outcome State Fault Refusal :=
  .next (s.slotClaim p.val shard.val step.toNat)
/-- TRN_ENABLE (R136). -/
def execTrnEnable (p : Part) (s : State) : Host.Outcome State Fault Refusal :=
  .next (s.trnEnable p.val)
/-- TRN_DISABLE (R136). -/
def execTrnDisable (p : Part) (s : State) : Host.Outcome State Fault Refusal :=
  .next (s.trnDisable p.val)
/-- VERSION_REPORT (R125). -/
def execVersionReport (p : Part) (shard : Fin 4096) (step : BitVec 16) (what : VerReport) (s : State) : Host.Outcome State Fault Refusal :=
  .next (s.versionReport p.val shard.val step.toNat what)

end Sys2Proof.Machine
end

