-- ==== Sys2Proof/Machine/CmdTurn.lean ====
section
/-! DEFINITION. Turns, mapping, weight movement and stage queues (chapter 06). -/
namespace Sys2Proof.Machine

/-- TURN_TO_LEARNING (R185). -/
def execTurnToLearning (post : Post) (s : State) : Host.Outcome State Fault Refusal :=
  .next ((s.turnPost post false).intakeCheck)
/-- TURN_TO_ROLLOUT (R188). -/
def execTurnToRollout (post : Post) (s : State) : Host.Outcome State Fault Refusal :=
  .next ((s.turnPost post true).intakeCheck)
/-- TURN_QUIESCED (R185). -/
def execTurnQuiesced (p : Part) (s : State) : Host.Outcome State Fault Refusal :=
  .next (s.turnQuiesced p.val)
/-- TURN_QUIESCE_TIMEOUT (R185). -/
def execTurnQuiesceTimeout (p : Part) (s : State) : Host.Outcome State Fault Refusal :=
  .next (s.turnTimeout p.val)
/-- TURN_VOTE_BARRIER (R186). -/
def execTurnVoteBarrier (p : Part) (votes : List Vote) (s : State) : Host.Outcome State Fault Refusal :=
  .next ((s.turnVote p.val votes).intakeCheck)
/-- CARVE_ROUND_BARRIER (R192). -/
def execCarveRoundBarrier (p : Part) (status : BitVec 16) (s : State) : Host.Outcome State Fault Refusal :=
  .next ((s.carveBarrier p.val status.toNat).intakeCheck)
/-- CARVE_ROUND_WRITES_DONE (R192). -/
def execCarveRoundWritesDone (p : Part) (s : State) : Host.Outcome State Fault Refusal :=
  .next (s.carveWrites p.val)
/-- TURN_INSTALL (R185). -/
def execTurnInstall (p : Part) (m : Option Mapping) (s : State) : Host.Outcome State Fault Refusal :=
  .next ((s.turnInstall p.val m).intakeCheck)
/-- TURN_FINAL_BARRIER (R185). -/
def execTurnFinalBarrier (p : Part) (status : BitVec 16) (s : State) : Host.Outcome State Fault Refusal :=
  .next ((s.turnFinal p.val status.toNat).intakeCheck)
/-- WPTR_SET (R182). -/
def execWptrSet (post : Post) (s : State) : Host.Outcome State Fault Refusal :=
  .next (s.wptrSet post)
/-- BATCH_CLOSE (R181). -/
def execBatchClose (post : Post) (s : State) : Host.Outcome State Fault Refusal :=
  .next (s.batchClose post)
/-- WEIGHT_LOAD (R201). -/
def execWeightLoad (post : Post) (m : Option Mapping) (s : State) : Host.Outcome State Fault Refusal :=
  .next ((s.weightLoad post m).intakeCheck)
/-- GONDOLA_SEGMENT (R202). -/
def execGondolaSegment (p : Part) (seg : BitVec 32) (how : SegFrom) (s : State) : Host.Outcome State Fault Refusal :=
  .next ((s.gondola p.val seg.toNat how).intakeCheck)
/-- WEIGHT_LOAD_PUBLISH (R432). -/
def execWeightLoadPublish (p : Part) (codes : List (BitVec 16)) (s : State) : Host.Outcome State Fault Refusal :=
  .next ((s.loadPublish p.val codes).intakeCheck)
/-- GATHER_START (R194). -/
def execGatherStart (p : Part) (k : MbKey) (layer tensor computing : Nat) (seq : BitVec 32) (s : State) : Host.Outcome State Fault Refusal :=
  .next ((s.gatherStart p.val k layer tensor computing seq.toNat).intakeCheck)
/-- STAGE_ENTRY_SEND (R199). -/
def execStageEntrySend (p : Part) (q : StageQ) (k : MbKey) (waitedUs : BitVec 32) (s : State) : Host.Outcome State Fault Refusal :=
  .next (s.stageSend p.val q k waitedUs.toNat)
/-- STAGE_CREDIT_RETURN (R199). -/
def execStageCreditReturn (p : Part) (q : StageQ) (starvedUs : BitVec 32) (s : State) : Host.Outcome State Fault Refusal :=
  .next (s.stageReturn p.val q starvedUs.toNat)
/-- STAGE_ENTRY_ARRIVE (R199). -/
def execStageEntryArrive (p : Part) (q : StageQ) (k : MbKey) (s : State) : Host.Outcome State Fault Refusal :=
  .next (s.stageArrive p.val q k)

end Sys2Proof.Machine
end

