-- ==== Sys2Proof/Machine/CmdUpdate.lean ====
section
/-! DEFINITION. The parameter update on the Nolmer chips (chapter 08). -/
namespace Sys2Proof.Machine

/-- UPDATE (R248). -/
def execUpdate (post : Post) (s : State) : Host.Outcome State Fault Refusal :=
  .next (s.updPost post)
/-- GRAD_LINE_INTAKE (R250). -/
def execGradLineIntake (p : Part) (addr : BitVec 48) (data : List (Byte × Bool)) (s : State) : Host.Outcome State Fault Refusal :=
  .next (s.gradLine p.val addr.toNat data)
/-- UPD_PASS1_DONE (R252). -/
def execUpdPass1Done (p : Part) (s : State) : Host.Outcome State Fault Refusal :=
  .next (s.pass1Done p.val)
/-- UPD_NORM_DONE (R254). -/
def execUpdNormDone (p : Part) (status : BitVec 16) (peers : List NormPeer) (s : State) : Host.Outcome State Fault Refusal :=
  .next (s.normDone p.val status.toNat peers)
/-- UPD_SHARD_PASS2_DONE (R262). -/
def execUpdShardPass2Done (p : Part) (layer : Fin 4096) (s : State) : Host.Outcome State Fault Refusal :=
  .next (s.pass2Done p.val layer.val)
/-- UPD_AMAX_DONE (R263). -/
def execUpdAmaxDone (p : Part) (layer : Fin 4096) (amax : List (BitVec 32)) (s : State) : Host.Outcome State Fault Refusal :=
  .next (s.amaxDone p.val layer.val amax)
/-- UPD_SLOT_CLAIM (R264). -/
def execUpdSlotClaim (p : Part) (layer : Fin 4096) (s : State) : Host.Outcome State Fault Refusal :=
  .next (s.updClaim p.val layer.val)
/-- UPD_RETURN_DONE (R265). -/
def execUpdReturnDone (p : Part) (layer : Fin 4096) (s : State) : Host.Outcome State Fault Refusal :=
  .next (s.returnDone p.val layer.val)
/-- UPD_NOP (R260). -/
def execUpdNop (p : Part) (entry : Fin 16384) (elem : BitVec 40) (s : State) : Host.Outcome State Fault Refusal :=
  .next (s.updInstr p.val 0 entry.val elem.toNat)
/-- UPD_LD (R257). -/
def execUpdLd (p : Part) (entry : Fin 16384) (elem : BitVec 40) (s : State) : Host.Outcome State Fault Refusal :=
  .next (s.updInstr p.val 1 entry.val elem.toNat)
/-- UPD_ST (R257). -/
def execUpdSt (p : Part) (entry : Fin 16384) (elem : BitVec 40) (s : State) : Host.Outcome State Fault Refusal :=
  .next (s.updInstr p.val 2 entry.val elem.toNat)
/-- UPD_ADD (R256). -/
def execUpdAdd (p : Part) (entry : Fin 16384) (elem : BitVec 40) (s : State) : Host.Outcome State Fault Refusal :=
  .next (s.updInstr p.val 3 entry.val elem.toNat)
/-- UPD_SUB (R256). -/
def execUpdSub (p : Part) (entry : Fin 16384) (elem : BitVec 40) (s : State) : Host.Outcome State Fault Refusal :=
  .next (s.updInstr p.val 4 entry.val elem.toNat)
/-- UPD_MUL (R256). -/
def execUpdMul (p : Part) (entry : Fin 16384) (elem : BitVec 40) (s : State) : Host.Outcome State Fault Refusal :=
  .next (s.updInstr p.val 5 entry.val elem.toNat)
/-- UPD_FMA (R256). -/
def execUpdFma (p : Part) (entry : Fin 16384) (elem : BitVec 40) (s : State) : Host.Outcome State Fault Refusal :=
  .next (s.updInstr p.val 6 entry.val elem.toNat)
/-- UPD_DIV (R256). -/
def execUpdDiv (p : Part) (entry : Fin 16384) (elem : BitVec 40) (s : State) : Host.Outcome State Fault Refusal :=
  .next (s.updInstr p.val 7 entry.val elem.toNat)
/-- UPD_SQRT (R256). -/
def execUpdSqrt (p : Part) (entry : Fin 16384) (elem : BitVec 40) (s : State) : Host.Outcome State Fault Refusal :=
  .next (s.updInstr p.val 8 entry.val elem.toNat)
/-- UPD_RSQRT (R256). -/
def execUpdRsqrt (p : Part) (entry : Fin 16384) (elem : BitVec 40) (s : State) : Host.Outcome State Fault Refusal :=
  .next (s.updInstr p.val 9 entry.val elem.toNat)
/-- UPD_MAX (R256). -/
def execUpdMax (p : Part) (entry : Fin 16384) (elem : BitVec 40) (s : State) : Host.Outcome State Fault Refusal :=
  .next (s.updInstr p.val 10 entry.val elem.toNat)
/-- UPD_MIN (R256). -/
def execUpdMin (p : Part) (entry : Fin 16384) (elem : BitVec 40) (s : State) : Host.Outcome State Fault Refusal :=
  .next (s.updInstr p.val 11 entry.val elem.toNat)
/-- UPD_SEL (R260). -/
def execUpdSel (p : Part) (entry : Fin 16384) (elem : BitVec 40) (s : State) : Host.Outcome State Fault Refusal :=
  .next (s.updInstr p.val 12 entry.val elem.toNat)
/-- UPD_ABS (R260). -/
def execUpdAbs (p : Part) (entry : Fin 16384) (elem : BitVec 40) (s : State) : Host.Outcome State Fault Refusal :=
  .next (s.updInstr p.val 13 entry.val elem.toNat)

end Sys2Proof.Machine
end

