-- ==== Sys2Proof/Machine/CmdVec.lean ====
section
/-! DEFINITION. The vector instructions (R90 to R97, Tables 3-5 to 3-9). -/
namespace Sys2Proof.Machine

/-- VEC_CVT (R77). -/
def execVecCvt (c : CoreId) (w0 w1 : Word) (s : State) : Host.Outcome State Fault Refusal :=
  .next (s.vec c.val 0 w0 w1)
/-- VEC_AMAX (R93). -/
def execVecAmax (c : CoreId) (w0 w1 : Word) (s : State) : Host.Outcome State Fault Refusal :=
  .next (s.vec c.val 1 w0 w1)
/-- VEC_SCALE (R75). -/
def execVecScale (c : CoreId) (w0 w1 : Word) (s : State) : Host.Outcome State Fault Refusal :=
  .next (s.vec c.val 2 w0 w1)
/-- VEC_ADD (R93). -/
def execVecAdd (c : CoreId) (w0 w1 : Word) (s : State) : Host.Outcome State Fault Refusal :=
  .next (s.vec c.val 3 w0 w1)
/-- VEC_MUL (R93). -/
def execVecMul (c : CoreId) (w0 w1 : Word) (s : State) : Host.Outcome State Fault Refusal :=
  .next (s.vec c.val 4 w0 w1)
/-- VEC_AXPY (R93). -/
def execVecAxpy (c : CoreId) (w0 w1 : Word) (s : State) : Host.Outcome State Fault Refusal :=
  .next (s.vec c.val 5 w0 w1)
/-- VEC_MAX (R93). -/
def execVecMax (c : CoreId) (w0 w1 : Word) (s : State) : Host.Outcome State Fault Refusal :=
  .next (s.vec c.val 6 w0 w1)
/-- VEC_DROPOUT (R91). -/
def execVecDropout (c : CoreId) (w0 w1 : Word) (s : State) : Host.Outcome State Fault Refusal :=
  .next (s.vec c.val 7 w0 w1)
/-- VEC_CHECK (R95). -/
def execVecCheck (c : CoreId) (w0 w1 : Word) (s : State) : Host.Outcome State Fault Refusal :=
  .next (s.vec c.val 8 w0 w1)
/-- VEC_EXP (R93). -/
def execVecExp (c : CoreId) (w0 w1 : Word) (s : State) : Host.Outcome State Fault Refusal :=
  .next (s.vec c.val 9 w0 w1)
/-- VEC_LOG (R93). -/
def execVecLog (c : CoreId) (w0 w1 : Word) (s : State) : Host.Outcome State Fault Refusal :=
  .next (s.vec c.val 10 w0 w1)
/-- VEC_RSQRT (R93). -/
def execVecRsqrt (c : CoreId) (w0 w1 : Word) (s : State) : Host.Outcome State Fault Refusal :=
  .next (s.vec c.val 11 w0 w1)
/-- VEC_RECIP (R93). -/
def execVecRecip (c : CoreId) (w0 w1 : Word) (s : State) : Host.Outcome State Fault Refusal :=
  .next (s.vec c.val 12 w0 w1)
/-- VEC_SIGM (R93). -/
def execVecSigm (c : CoreId) (w0 w1 : Word) (s : State) : Host.Outcome State Fault Refusal :=
  .next (s.vec c.val 13 w0 w1)
/-- VEC_ROWSUM (R93). -/
def execVecRowsum (c : CoreId) (w0 w1 : Word) (s : State) : Host.Outcome State Fault Refusal :=
  .next (s.vec c.val 14 w0 w1)
/-- VEC_ROWMAX (R93). -/
def execVecRowmax (c : CoreId) (w0 w1 : Word) (s : State) : Host.Outcome State Fault Refusal :=
  .next (s.vec c.val 15 w0 w1)
/-- VEC_COMPLETE (R95). -/
def execVecComplete (c : CoreId) (rows : Option Nat) (s : State) : Host.Outcome State Fault Refusal :=
  .next (((s.vecComplete c.val rows).poke c.val).intakeCheck)

end Sys2Proof.Machine
end

