-- ==== Sys2Proof/Machine/Dispatch.lean ====
section
/-! DEFINITION. One arm per command: its meaning. -/
namespace Sys2Proof.Machine

/-- The effect of a command on everything but the queue. -/
def exec (i : Instr) (s : State) : Host.Outcome State Fault Refusal :=
  match i with
  | .configRequest port fn reg => Sys2Proof.Machine.execConfigRequest port fn reg s
  | .arrayOperation c w0 w1 w2 w3 => Sys2Proof.Machine.execArrayOperation c w0 w1 w2 w3 s
  | .arrayOpStart c arr cycle => Sys2Proof.Machine.execArrayOpStart c arr cycle s
  | .arrayRampDone c arr steps cycle => Sys2Proof.Machine.execArrayRampDone c arr steps cycle s
  | .arrayRampDown c arr cycle => Sys2Proof.Machine.execArrayRampDown c arr cycle s
  | .arrayOpDrain c arr half rows stash house => Sys2Proof.Machine.execArrayOpDrain c arr half rows stash house s
  | .warm c w => Sys2Proof.Machine.execWarm c w s
  | .warmHoldExpiry c arr => Sys2Proof.Machine.execWarmHoldExpiry c arr s
  | .reservedInstruction c w => Sys2Proof.Machine.execReservedInstruction c w s
  | .nop c w cell => Sys2Proof.Machine.execNop c w cell s
  | .halt c w => Sys2Proof.Machine.execHalt c w s
  | .movi c w => Sys2Proof.Machine.execMovi c w s
  | .movhi c w => Sys2Proof.Machine.execMovhi c w s
  | .add c w => Sys2Proof.Machine.execAdd c w s
  | .addi c w => Sys2Proof.Machine.execAddi c w s
  | .sub c w => Sys2Proof.Machine.execSub c w s
  | .and c w => Sys2Proof.Machine.execAnd c w s
  | .or c w => Sys2Proof.Machine.execOr c w s
  | .xor c w => Sys2Proof.Machine.execXor c w s
  | .shl c w => Sys2Proof.Machine.execShl c w s
  | .shr c w => Sys2Proof.Machine.execShr c w s
  | .mul c w => Sys2Proof.Machine.execMul c w s
  | .jmp c w => Sys2Proof.Machine.execJmp c w s
  | .bnz c w => Sys2Proof.Machine.execBnz c w s
  | .bz c w => Sys2Proof.Machine.execBz c w s
  | .blt c w => Sys2Proof.Machine.execBlt c w s
  | .mtcr c w => Sys2Proof.Machine.execMtcr c w s
  | .mfcr c w => Sys2Proof.Machine.execMfcr c w s
  | .astat c w => Sys2Proof.Machine.execAstat c w s
  | .astatDone c => Sys2Proof.Machine.execAstatDone c s
  | .xfer c w0 w1 => Sys2Proof.Machine.execXfer c w0 w1 s
  | .xferComplete c index how => Sys2Proof.Machine.execXferComplete c index how s
  | .imemLoadGo c value => Sys2Proof.Machine.execImemLoadGo c value s
  | .imemLoadDone c => Sys2Proof.Machine.execImemLoadDone c s
  | .coreRun c => Sys2Proof.Machine.execCoreRun c s
  | .coreStop c => Sys2Proof.Machine.execCoreStop c s
  | .coreRetirementRequest c => Sys2Proof.Machine.execCoreRetirementRequest c s
  | .vecCvt c w0 w1 => Sys2Proof.Machine.execVecCvt c w0 w1 s
  | .vecAmax c w0 w1 => Sys2Proof.Machine.execVecAmax c w0 w1 s
  | .vecScale c w0 w1 => Sys2Proof.Machine.execVecScale c w0 w1 s
  | .vecAdd c w0 w1 => Sys2Proof.Machine.execVecAdd c w0 w1 s
  | .vecMul c w0 w1 => Sys2Proof.Machine.execVecMul c w0 w1 s
  | .vecAxpy c w0 w1 => Sys2Proof.Machine.execVecAxpy c w0 w1 s
  | .vecMax c w0 w1 => Sys2Proof.Machine.execVecMax c w0 w1 s
  | .vecDropout c w0 w1 => Sys2Proof.Machine.execVecDropout c w0 w1 s
  | .vecCheck c w0 w1 => Sys2Proof.Machine.execVecCheck c w0 w1 s
  | .vecExp c w0 w1 => Sys2Proof.Machine.execVecExp c w0 w1 s
  | .vecLog c w0 w1 => Sys2Proof.Machine.execVecLog c w0 w1 s
  | .vecRsqrt c w0 w1 => Sys2Proof.Machine.execVecRsqrt c w0 w1 s
  | .vecRecip c w0 w1 => Sys2Proof.Machine.execVecRecip c w0 w1 s
  | .vecSigm c w0 w1 => Sys2Proof.Machine.execVecSigm c w0 w1 s
  | .vecRowsum c w0 w1 => Sys2Proof.Machine.execVecRowsum c w0 w1 s
  | .vecRowmax c w0 w1 => Sys2Proof.Machine.execVecRowmax c w0 w1 s
  | .vecComplete c rows => Sys2Proof.Machine.execVecComplete c rows s
  | .mbAdmit p k h => Sys2Proof.Machine.execMbAdmit p k h s
  | .fwdComplete p k what => Sys2Proof.Machine.execFwdComplete p k what s
  | .bwdStart p k dyArrived => Sys2Proof.Machine.execBwdStart p k dyArrived s
  | .bwdComplete p k what => Sys2Proof.Machine.execBwdComplete p k what s
  | .versionTimeout p what => Sys2Proof.Machine.execVersionTimeout p what s
  | .slotClaim p shard step => Sys2Proof.Machine.execSlotClaim p shard step s
  | .trnEnable p => Sys2Proof.Machine.execTrnEnable p s
  | .trnDisable p => Sys2Proof.Machine.execTrnDisable p s
  | .admitSeq post dmaFail => Sys2Proof.Machine.execAdmitSeq post dmaFail s
  | .cancel post => Sys2Proof.Machine.execCancel post s
  | .pause post => Sys2Proof.Machine.execPause post s
  | .budgetSet post => Sys2Proof.Machine.execBudgetSet post s
  | .budgetAdd post => Sys2Proof.Machine.execBudgetAdd post s
  | .adapterLoad post => Sys2Proof.Machine.execAdapterLoad post s
  | .adapterLoadDispatch p => Sys2Proof.Machine.execAdapterLoadDispatch p s
  | .adapterLoadComplete slot => Sys2Proof.Machine.execAdapterLoadComplete slot s
  | .adapterUnload post => Sys2Proof.Machine.execAdapterUnload post s
  | .prefixCreate post => Sys2Proof.Machine.execPrefixCreate post s
  | .prefixRelease post => Sys2Proof.Machine.execPrefixRelease post s
  | .stopsetWrite post dmaFail => Sys2Proof.Machine.execStopsetWrite post dmaFail s
  | .contextTake ctx => Sys2Proof.Machine.execContextTake ctx s
  | .restoreComplete ctx => Sys2Proof.Machine.execRestoreComplete ctx s
  | .prefillComplete ctx what adapterPoison => Sys2Proof.Machine.execPrefillComplete ctx what adapterPoison s
  | .shipComplete ctx how => Sys2Proof.Machine.execShipComplete ctx how s
  | .verifyRound ctx draft logits kvPoison adapterPoison housePoison => Sys2Proof.Machine.execVerifyRound ctx draft logits kvPoison adapterPoison housePoison s
  | .decodeStepBoundary p => Sys2Proof.Machine.execDecodeStepBoundary p s
  | .draftReprobe ctx => Sys2Proof.Machine.execDraftReprobe ctx s
  | .parkComplete ctx far => Sys2Proof.Machine.execParkComplete ctx far s
  | .contextClose ctx => Sys2Proof.Machine.execContextClose ctx s
  | .streamRingRoom p ring => Sys2Proof.Machine.execStreamRingRoom p ring s
  | .parkExpiry ticket => Sys2Proof.Machine.execParkExpiry ticket s
  | .rollEnable p => Sys2Proof.Machine.execRollEnable p s
  | .rollDisable p => Sys2Proof.Machine.execRollDisable p s
  | .turnToLearning post => Sys2Proof.Machine.execTurnToLearning post s
  | .turnToRollout post => Sys2Proof.Machine.execTurnToRollout post s
  | .turnQuiesced p => Sys2Proof.Machine.execTurnQuiesced p s
  | .turnQuiesceTimeout p => Sys2Proof.Machine.execTurnQuiesceTimeout p s
  | .turnVoteBarrier p votes => Sys2Proof.Machine.execTurnVoteBarrier p votes s
  | .carveRoundBarrier p status => Sys2Proof.Machine.execCarveRoundBarrier p status s
  | .carveRoundWritesDone p => Sys2Proof.Machine.execCarveRoundWritesDone p s
  | .turnInstall p m => Sys2Proof.Machine.execTurnInstall p m s
  | .turnFinalBarrier p status => Sys2Proof.Machine.execTurnFinalBarrier p status s
  | .wptrSet post => Sys2Proof.Machine.execWptrSet post s
  | .batchClose post => Sys2Proof.Machine.execBatchClose post s
  | .weightLoad post m => Sys2Proof.Machine.execWeightLoad post m s
  | .gondolaSegment p seg how => Sys2Proof.Machine.execGondolaSegment p seg how s
  | .weightLoadPublish p codes => Sys2Proof.Machine.execWeightLoadPublish p codes s
  | .gatherStart p k layer tensor computing seq => Sys2Proof.Machine.execGatherStart p k layer tensor computing seq s
  | .stageEntrySend p q k waitedUs => Sys2Proof.Machine.execStageEntrySend p q k waitedUs s
  | .stageCreditReturn p q starvedUs => Sys2Proof.Machine.execStageCreditReturn p q starvedUs s
  | .collReady c w0 w1 => Sys2Proof.Machine.execCollReady c w0 w1 s
  | .barrier by_ => Sys2Proof.Machine.execBarrier by_ s
  | .bcast by_ => Sys2Proof.Machine.execBcast by_ s
  | .reduce by_ => Sys2Proof.Machine.execReduce by_ s
  | .allreduce by_ => Sys2Proof.Machine.execAllreduce by_ s
  | .reduceScatter by_ => Sys2Proof.Machine.execReduceScatter by_ s
  | .allgather by_ => Sys2Proof.Machine.execAllgather by_ s
  | .snapshot by_ => Sys2Proof.Machine.execSnapshot by_ s
  | .permute by_ => Sys2Proof.Machine.execPermute by_ s
  | .collAdmit k => Sys2Proof.Machine.execCollAdmit k s
  | .collOpenExchange k agree peer peers => Sys2Proof.Machine.execCollOpenExchange k agree peer peers s
  | .chunkArrive port h tagOk data => Sys2Proof.Machine.execChunkArrive port h tagOk data s
  | .chunkTimeout k chunk peer xid => Sys2Proof.Machine.execChunkTimeout k chunk peer xid s
  | .closingRoundDone k codes noise => Sys2Proof.Machine.execClosingRoundDone k codes noise s
  | .collGroupTimeout k found peer => Sys2Proof.Machine.execCollGroupTimeout k found peer s
  | .jobReset job code origin => Sys2Proof.Machine.execJobReset job code origin s
  | .jobResetDone job => Sys2Proof.Machine.execJobResetDone job s
  | .collEnable p => Sys2Proof.Machine.execCollEnable p s
  | .collDisable p => Sys2Proof.Machine.execCollDisable p s
  | .update post => Sys2Proof.Machine.execUpdate post s
  | .gradLineIntake p addr data => Sys2Proof.Machine.execGradLineIntake p addr data s
  | .updPass1Done p => Sys2Proof.Machine.execUpdPass1Done p s
  | .updNormDone p status peers => Sys2Proof.Machine.execUpdNormDone p status peers s
  | .updShardPass2Done p layer => Sys2Proof.Machine.execUpdShardPass2Done p layer s
  | .updAmaxDone p layer amax => Sys2Proof.Machine.execUpdAmaxDone p layer amax s
  | .updSlotClaim p layer => Sys2Proof.Machine.execUpdSlotClaim p layer s
  | .updReturnDone p layer => Sys2Proof.Machine.execUpdReturnDone p layer s
  | .updNop p entry elem => Sys2Proof.Machine.execUpdNop p entry elem s
  | .updLd p entry elem => Sys2Proof.Machine.execUpdLd p entry elem s
  | .updSt p entry elem => Sys2Proof.Machine.execUpdSt p entry elem s
  | .updAdd p entry elem => Sys2Proof.Machine.execUpdAdd p entry elem s
  | .updSub p entry elem => Sys2Proof.Machine.execUpdSub p entry elem s
  | .updMul p entry elem => Sys2Proof.Machine.execUpdMul p entry elem s
  | .updFma p entry elem => Sys2Proof.Machine.execUpdFma p entry elem s
  | .updDiv p entry elem => Sys2Proof.Machine.execUpdDiv p entry elem s
  | .updSqrt p entry elem => Sys2Proof.Machine.execUpdSqrt p entry elem s
  | .updRsqrt p entry elem => Sys2Proof.Machine.execUpdRsqrt p entry elem s
  | .updMax p entry elem => Sys2Proof.Machine.execUpdMax p entry elem s
  | .updMin p entry elem => Sys2Proof.Machine.execUpdMin p entry elem s
  | .updSel p entry elem => Sys2Proof.Machine.execUpdSel p entry elem s
  | .updAbs p entry elem => Sys2Proof.Machine.execUpdAbs p entry elem s
  | .fence c w => Sys2Proof.Machine.execFence c w s
  | .fenceDone c => Sys2Proof.Machine.execFenceDone c s
  | .wait c w => Sys2Proof.Machine.execWait c w s
  | .waitSatisfied c => Sys2Proof.Machine.execWaitSatisfied c s
  | .syncTimeout c => Sys2Proof.Machine.execSyncTimeout c s
  | .signal c w => Sys2Proof.Machine.execSignal c w s
  | .atomicAdd c w => Sys2Proof.Machine.execAtomicAdd c w s
  | .atomicSwap c w => Sys2Proof.Machine.execAtomicSwap c w s
  | .atomicCas c w => Sys2Proof.Machine.execAtomicCas c w s
  | .atomicAnd c w => Sys2Proof.Machine.execAtomicAnd c w s
  | .atomicOr c w => Sys2Proof.Machine.execAtomicOr c w s
  | .atomicUmax c w => Sys2Proof.Machine.execAtomicUmax c w s
  | .atomicUmin c w => Sys2Proof.Machine.execAtomicUmin c w s
  | .segmentPowerRequest win value => Sys2Proof.Machine.execSegmentPowerRequest win value s
  | .segmentPowerChange win ab seg => Sys2Proof.Machine.execSegmentPowerChange win ab seg s
  | .segmentIdleReturn win ab seg => Sys2Proof.Machine.execSegmentIdleReturn win ab seg s
  | .marchGo win value => Sys2Proof.Machine.execMarchGo win value s
  | .marchAbort win => Sys2Proof.Machine.execMarchAbort win s
  | .marchDone win fails cycles => Sys2Proof.Machine.execMarchDone win fails cycles s
  | .scrubVisit target raw => Sys2Proof.Machine.execScrubVisit target raw s
  | .scrubPromote act ageMs => Sys2Proof.Machine.execScrubPromote act ageMs s
  | .scrubLate act => Sys2Proof.Machine.execScrubLate act s
  | .hbmTempSample temps => Sys2Proof.Machine.execHbmTempSample temps s
  | .hbmRetrain stack pc => Sys2Proof.Machine.execHbmRetrain stack pc s
  | .hbmRetrainDone stack ok holdNs => Sys2Proof.Machine.execHbmRetrainDone stack ok holdNs s
  | .hbmRetrainRetry stack pc ok => Sys2Proof.Machine.execHbmRetrainRetry stack pc ok s
  | .hbmMigGo stack value => Sys2Proof.Machine.execHbmMigGo stack value s
  | .hbmMigSwitch stack ok => Sys2Proof.Machine.execHbmMigSwitch stack ok s
  | .hbmPprDone stack ok pc bank row => Sys2Proof.Machine.execHbmPprDone stack ok pc bank row s
  | .rprQuery stack value => Sys2Proof.Machine.execRprQuery stack value s
  | .rprHardRepair stack value => Sys2Proof.Machine.execRprHardRepair stack value s
  | .rprNextRow stack value => Sys2Proof.Machine.execRprNextRow stack value s
  | .rprComplete stack ok => Sys2Proof.Machine.execRprComplete stack ok s
  | .tgWrite stack value => Sys2Proof.Machine.execTgWrite stack value s
  | .tgReadCheck stack value => Sys2Proof.Machine.execTgReadCheck stack value s
  | .tgWriteReadCheck stack value => Sys2Proof.Machine.execTgWriteReadCheck stack value s
  | .tgAbort stack => Sys2Proof.Machine.execTgAbort stack s
  | .tgDone stack mismatches line byte mbps => Sys2Proof.Machine.execTgDone stack mismatches line byte mbps s
  | .objPut post dmaFail => Sys2Proof.Machine.execObjPut post dmaFail s
  | .objSealed handle => Sys2Proof.Machine.execObjSealed handle s
  | .objGet post => Sys2Proof.Machine.execObjGet post s
  | .objDelete post => Sys2Proof.Machine.execObjDelete post s
  | .parkDemote ticket => Sys2Proof.Machine.execParkDemote ticket s
  | .flashPageRead m ch block how park => Sys2Proof.Machine.execFlashPageRead m ch block how park s
  | .flashMove m why block target held => Sys2Proof.Machine.execFlashMove m why block target held s
  | .flashBlockFail m block target => Sys2Proof.Machine.execFlashBlockFail m block target s
  | .liftFrame m raw => Sys2Proof.Machine.execLiftFrame m raw s
  | .liftGmac m ok => Sys2Proof.Machine.execLiftGmac m ok s
  | .liftRecal m ok retrainOk => Sys2Proof.Machine.execLiftRecal m ok retrainOk s
  | .flitReceive port h crcOk => Sys2Proof.Machine.execFlitReceive port h crcOk s
  | .portEnable port => Sys2Proof.Machine.execPortEnable port s
  | .portDisable port => Sys2Proof.Machine.execPortDisable port s
  | .signalDetect port => Sys2Proof.Machine.execSignalDetect port s
  | .trainingDone port => Sys2Proof.Machine.execTrainingDone port s
  | .trainingFail port => Sys2Proof.Machine.execTrainingFail port s
  | .probe port f tagOk => Sys2Proof.Machine.execProbe port f tagOk s
  | .probeAck port challenge tagOk => Sys2Proof.Machine.execProbeAck port challenge tagOk s
  | .probeTimeout port => Sys2Proof.Machine.execProbeTimeout port s
  | .lossOfSignal port => Sys2Proof.Machine.execLossOfSignal port s
  | .fecErrorLimit port corrected uncorrectable => Sys2Proof.Machine.execFecErrorLimit port corrected uncorrectable s
  | .failedHoldoff port => Sys2Proof.Machine.execFailedHoldoff port s
  | .waxDue port => Sys2Proof.Machine.execWaxDue port s
  | .waxDone port ok holdNs => Sys2Proof.Machine.execWaxDone port ok holdNs s
  | .topologyUpdate port u tagOk => Sys2Proof.Machine.execTopologyUpdate port u tagOk s
  | .reachAdvert port racks seq => Sys2Proof.Machine.execReachAdvert port racks seq s
  | .smallToken port h tagOk tok => Sys2Proof.Machine.execSmallToken port h tagOk tok s
  | .chunkRequest port h tagOk => Sys2Proof.Machine.execChunkRequest port h tagOk s
  | .chunkAck port h tagOk => Sys2Proof.Machine.execChunkAck port h tagOk s
  | .remoteStore port h tagOk data => Sys2Proof.Machine.execRemoteStore port h tagOk data s
  | .remoteAtomic port h tagOk op operand expected => Sys2Proof.Machine.execRemoteAtomic port h tagOk op operand expected s
  | .storeAck port h tagOk positive => Sys2Proof.Machine.execStoreAck port h tagOk positive s
  | .atomicResult port h tagOk positive old => Sys2Proof.Machine.execAtomicResult port h tagOk positive old s
  | .remoteTimeout ctr key => Sys2Proof.Machine.execRemoteTimeout ctr key s
  | .ethFrame port dstOk etypeOk fcsOk version flits => Sys2Proof.Machine.execEthFrame port dstOk etypeOk fcsOk version flits s
  | .pfcPause port pcp quanta => Sys2Proof.Machine.execPfcPause port pcp quanta s
  | .journalPoll port fn ring readFail => Sys2Proof.Machine.execJournalPoll port fn ring readFail s
  | .jobStart post dmaFail talk => Sys2Proof.Machine.execJobStart post dmaFail talk s
  | .jobAbort post => Sys2Proof.Machine.execJobAbort post s
  | .jobEnd post => Sys2Proof.Machine.execJobEnd post s
  | .jobEndZeroFillDone p => Sys2Proof.Machine.execJobEndZeroFillDone p s
  | .jobTakeover post dmaFail => Sys2Proof.Machine.execJobTakeover post dmaFail s
  | .msixHoldoffEnd port fn vec => Sys2Proof.Machine.execMsixHoldoffEnd port fn vec s
  | .pcieLinkDown port => Sys2Proof.Machine.execPcieLinkDown port s
  | .orphanTimeout job => Sys2Proof.Machine.execOrphanTimeout job s
  | .pcieLinkUp port => Sys2Proof.Machine.execPcieLinkUp port s
  | .flr port fn => Sys2Proof.Machine.execFlr port fn s
  | .hotReset port => Sys2Proof.Machine.execHotReset port s
  | .perst port => Sys2Proof.Machine.execPerst port s
  | .mailboxPoll port fn => Sys2Proof.Machine.execMailboxPoll port fn s
  | .bar2Access port fn off op => Sys2Proof.Machine.execBar2Access port fn off op s
  | .bar2BaseWrite port fn value => Sys2Proof.Machine.execBar2BaseWrite port fn value s
  | .bar0Misaligned port fn read => Sys2Proof.Machine.execBar0Misaligned port fn read s
  | .registerWrite who off value => Sys2Proof.Machine.execRegisterWrite who off value s
  | .coldReset => Sys2Proof.Machine.execColdReset s
  | .warmReset => Sys2Proof.Machine.execWarmReset s
  | .jobReady ms => Sys2Proof.Machine.execJobReady ms s
  | .bootWatchdog => Sys2Proof.Machine.execBootWatchdog s
  | .firmwareUpdate path img => Sys2Proof.Machine.execFirmwareUpdate path img s
  | .pldmIdentify path => Sys2Proof.Machine.execPldmIdentify path s
  | .fieldRecordAppend r => Sys2Proof.Machine.execFieldRecordAppend r s
  | .ownerWrite path blk sigOk => Sys2Proof.Machine.execOwnerWrite path blk sigOk s
  | .svnCommit path svn sigOk => Sys2Proof.Machine.execSvnCommit path svn sigOk s
  | .revoke path slot tokenOk ownerOk => Sys2Proof.Machine.execRevoke path slot tokenOk ownerOk s
  | .getVersion path => Sys2Proof.Machine.execGetVersion path s
  | .getCapabilities path => Sys2Proof.Machine.execGetCapabilities path s
  | .negotiateAlgorithms path offered => Sys2Proof.Machine.execNegotiateAlgorithms path offered s
  | .getDigests path => Sys2Proof.Machine.execGetDigests path s
  | .getCertificate path slot offset length => Sys2Proof.Machine.execGetCertificate path slot offset length s
  | .challenge path slot nonce => Sys2Proof.Machine.execChallenge path slot nonce s
  | .getMeasurements path index nonce => Sys2Proof.Machine.execGetMeasurements path index nonce s
  | .keyExchange path share => Sys2Proof.Machine.execKeyExchange path share s
  | .finish path session verifyOk => Sys2Proof.Machine.execFinish path session verifyOk s
  | .heartbeat path session => Sys2Proof.Machine.execHeartbeat path session s
  | .keyUpdate path session => Sys2Proof.Machine.execKeyUpdate path session s
  | .endSession path session => Sys2Proof.Machine.execEndSession path session s
  | .chunkSend path seq last data => Sys2Proof.Machine.execChunkSend path seq last data s
  | .chunkGet path seq => Sys2Proof.Machine.execChunkGet path seq s
  | .keyPut path session k => Sys2Proof.Machine.execKeyPut path session k s
  | .keyDel path session kind id => Sys2Proof.Machine.execKeyDel path session kind id s
  | .keyExpiry entry => Sys2Proof.Machine.execKeyExpiry entry s
  | .houseLoad path handle => Sys2Proof.Machine.execHouseLoad path handle s
  | .houseRebuildDone addr src data => Sys2Proof.Machine.execHouseRebuildDone addr src data s
  | .dumpRelease path => Sys2Proof.Machine.execDumpRelease path s
  | .cpMemoryError cp => Sys2Proof.Machine.execCpMemoryError cp s
  | .cpWatchdog cp => Sys2Proof.Machine.execCpWatchdog cp s
  | .cpAudit cp mismatch => Sys2Proof.Machine.execCpAudit cp mismatch s
  | .cpReloadDone cp => Sys2Proof.Machine.execCpReloadDone cp s
  | .mpWatchdog => Sys2Proof.Machine.execMpWatchdog s
  | .dumpWritten complete bytes => Sys2Proof.Machine.execDumpWritten complete bytes s
  | .autoResetTimer => Sys2Proof.Machine.execAutoResetTimer s
  | .telemetrySample watts => Sys2Proof.Machine.execTelemetrySample watts s
  | .lifetimeCommit verified => Sys2Proof.Machine.execLifetimeCommit verified s
  | .aclkTargetWrite die value => Sys2Proof.Machine.execAclkTargetWrite die value s
  | .aclkSlewStep die => Sys2Proof.Machine.execAclkSlewStep die s
  | .pllUnlock pll => Sys2Proof.Machine.execPllUnlock pll s
  | .pllRelock pll => Sys2Proof.Machine.execPllRelock pll s
  | .setDateTime path time force => Sys2Proof.Machine.execSetDateTime path time force s
  | .ptmExchange port master => Sys2Proof.Machine.execPtmExchange port master s
  | .supercapDepleted => Sys2Proof.Machine.execSupercapDepleted s
  | .vinLow finished => Sys2Proof.Machine.execVinLow finished s
  | .auxRailLoss finished => Sys2Proof.Machine.execAuxRailLoss finished s
  | .powerSample watts mv => Sys2Proof.Machine.execPowerSample watts mv s
  | .powerLimitStep average => Sys2Proof.Machine.execPowerLimitStep average s
  | .standbyEnter => Sys2Proof.Machine.execStandbyEnter s
  | .standbyExit => Sys2Proof.Machine.execStandbyExit s
  | .droop die mv => Sys2Proof.Machine.execDroop die mv s
  | .brakePin ns => Sys2Proof.Machine.execBrakePin ns s
  | .brakeReleaseStep die => Sys2Proof.Machine.execBrakeReleaseStep die s
  | .thermalSample t => Sys2Proof.Machine.execThermalSample t s
  | .thmSensorFail sensor => Sys2Proof.Machine.execThmSensorFail sensor s
  | .auxRailUp => Sys2Proof.Machine.execAuxRailUp s
  | .mgmtBusSelect i3c => Sys2Proof.Machine.execMgmtBusSelect i3c s
  | .setRack path rack => Sys2Proof.Machine.execSetRack path rack s
  | .pwrEnAssert j1 j2 => Sys2Proof.Machine.execPwrEnAssert j1 j2 s
  | .modPwrgd brakePinLow => Sys2Proof.Machine.execModPwrgd brakePinLow s
  | .pwrEnDeassert finished => Sys2Proof.Machine.execPwrEnDeassert finished s
  | .objGetComplete handle failed => Sys2Proof.Machine.execObjGetComplete handle failed s
  | .objectExpiry handle => Sys2Proof.Machine.execObjectExpiry handle s
  | .houseLoadComplete data poisoned => Sys2Proof.Machine.execHouseLoadComplete data poisoned s
  | .configurationReady port ms => Sys2Proof.Machine.execConfigurationReady port ms s
  | .bootStageComplete trained nolOk marchFailed strap => Sys2Proof.Machine.execBootStageComplete trained nolOk marchFailed strap s
  | .vinRising j1 j2 => Sys2Proof.Machine.execVinRising j1 j2 s
  | .brakeDeassert => Sys2Proof.Machine.execBrakeDeassert s
  | .flashZqCalibration m => Sys2Proof.Machine.execFlashZqCalibration m s
  | .stageEntryArrive p q k => Sys2Proof.Machine.execStageEntryArrive p q k s
  | .versionReport p shard step what => Sys2Proof.Machine.execVersionReport p shard step what s

end Sys2Proof.Machine
end

