-- ==== Sys2Proof/Safety.lean ====
section
/-! DEFINITION. What claims about runs are stated with: the canonical form of memory, and what a step may never undo: fuses,
field records and the queue behind the command that runs. -/
namespace Sys2Proof.Machine

/-- The canonical form of a memory: addresses strictly rising, no entry equal to what an unlisted address reads as. -/
def Memory.wf (m : List Host.Cell) : Bool := Tab.wf (fun _ => (0 : Byte)) m
/-- A piece of bytes in canonical form. -/
def Piece.wf (d : Piece) : Bool := Tab.wf (fun _ => (0 : Byte)) d.data
/-- No fuse of `s` is undone in `t` (R430): the minimum SVN does not go back, and a revoked key slot stays revoked. -/
def FusesKept (s t : State) : Prop :=
  s.boot.svnMin ≤ t.boot.svnMin ∧ ∀ i, s.boot.revoked.testBit i = true → t.boot.revoked.testBit i = true
/-- No field record of `s` is gone in `t` (R65, R413): the log has only grown at its end. -/
def RecordsKept (s t : State) : Prop := s.boot.fields <+: t.boot.fields
/-- The module takes posted commands (R398, R469): job-ready, and no fatal error. -/
def State.Serving (s : State) : Prop := s.rd R.BOOT.STAT.READY = 1 ∧ s.rd R.RAS.STAT.STATE = 0

/-! ## Areas of the state, for saying what a command leaves alone -/

/-- An area of the state.
`queue`: the commands that wait.
`free`: the counter of free values.
`regs`: the register file.
`mem`: HBM, slow memory and core windows, with their poison.
`cores`: the cores and the ramp governors.
`imem`: instruction memories.
`stage`: the stage buffer.
`segs`: power segments and march runs.
`remotes`: remote accesses that await an answer.
`hostMem`: the memory of the hosts.
`links`: PCIe ports, mailboxes and writes ignored.
`rings`: journal and completion rings, MSI-X vectors.
`jobs`: the jobs.
`waiting`: posted commands that have not completed.
`parts`: the partitions.
`keys`: the key table, the owner key hash and the fabric key.
`spdm`: SPDM sessions and management answers.
`house`: the house region beside its bytes.
`ras`: the event limiter, scrub ages, control processors.
`dump`: the fatal dump.
`hbm`: HBM stacks beside their registers.
`objects`: the object directory and flash blocks.
`fab`: the fabric.
`trn`: training.
`roll`: rollout.
`coll`: collectives.
`sched`: turns, weight loads and stage queues.
`upd`: parameter updates.
`fuses`: the fuses that firmware burns.
`fields`: the field records.
`boot`: the rest of boot state.
`clk`: time and lifetime counters.
`pwr`: power and the pins. -/
inductive Area where
  | queue | free | regs | mem | cores | imem | stage | segs | remotes | hostMem | links | rings | jobs | waiting | parts | keys | spdm
  | house | ras | dump | hbm | objects | fab | trn | roll | coll | sched | upd | fuses | fields | boot | clk | pwr
deriving DecidableEq, Repr

/-- The bit of an area in a mask. -/
def Area.bit : Area → Nat
  | .queue => 1
  | .free => 2
  | .regs => 4
  | .mem => 8
  | .cores => 16
  | .imem => 32
  | .stage => 64
  | .segs => 128
  | .remotes => 256
  | .hostMem => 512
  | .links => 1024
  | .rings => 2048
  | .jobs => 4096
  | .waiting => 8192
  | .parts => 16384
  | .keys => 32768
  | .spdm => 65536
  | .house => 131072
  | .ras => 262144
  | .dump => 524288
  | .hbm => 1048576
  | .objects => 2097152
  | .fab => 4194304
  | .trn => 8388608
  | .roll => 16777216
  | .coll => 33554432
  | .sched => 67108864
  | .upd => 134217728
  | .fuses => 268435456
  | .fields => 536870912
  | .boot => 1073741824
  | .clk => 2147483648
  | .pwr => 4294967296
/-- The mask of a list of areas. -/
def areas : List Area → Nat
  | [] => 0
  | a :: t => a.bit ||| areas t
/-- The state with the areas of a mask set to those of `State.reset`. -/
def State.off (M : Nat) (s : State) : State where
  pending := if M / 1 % 2 = 1 then State.reset.pending else s.pending
  freeCtr := if M / 2 % 2 = 1 then State.reset.freeCtr else s.freeCtr
  regs := if M / 4 % 2 = 1 then State.reset.regs else s.regs
  mem := if M / 8 % 2 = 1 then State.reset.mem else s.mem
  poison := if M / 8 % 2 = 1 then State.reset.poison else s.poison
  chip :=
    { cores := if M / 16 % 2 = 1 then State.reset.chip.cores else s.chip.cores,
      imem := if M / 32 % 2 = 1 then State.reset.chip.imem else s.chip.imem,
      imemPoison := if M / 32 % 2 = 1 then State.reset.chip.imemPoison else s.chip.imemPoison,
      imemErr := if M / 32 % 2 = 1 then State.reset.chip.imemErr else s.chip.imemErr,
      segs := if M / 128 % 2 = 1 then State.reset.chip.segs else s.chip.segs,
      march := if M / 128 % 2 = 1 then State.reset.chip.march else s.chip.march,
      stage := if M / 64 % 2 = 1 then State.reset.chip.stage else s.chip.stage,
      stagePoison := if M / 64 % 2 = 1 then State.reset.chip.stagePoison else s.chip.stagePoison,
      remotes := if M / 256 % 2 = 1 then State.reset.chip.remotes else s.chip.remotes,
      gov := if M / 16 % 2 = 1 then State.reset.chip.gov else s.chip.gov }
  host :=
    { mem0 := if M / 512 % 2 = 1 then State.reset.host.mem0 else s.host.mem0,
      mem1 := if M / 512 % 2 = 1 then State.reset.host.mem1 else s.host.mem1,
      link0 := if M / 1024 % 2 = 1 then State.reset.host.link0 else s.host.link0,
      link1 := if M / 1024 % 2 = 1 then State.reset.host.link1 else s.host.link1,
      cfgReady0 := if M / 1024 % 2 = 1 then State.reset.host.cfgReady0 else s.host.cfgReady0,
      cfgReady1 := if M / 1024 % 2 = 1 then State.reset.host.cfgReady1 else s.host.cfgReady1,
      rings := if M / 2048 % 2 = 1 then State.reset.host.rings else s.host.rings,
      msix := if M / 2048 % 2 = 1 then State.reset.host.msix else s.host.msix,
      perst0 := if M / 1024 % 2 = 1 then State.reset.host.perst0 else s.host.perst0,
      perst1 := if M / 1024 % 2 = 1 then State.reset.host.perst1 else s.host.perst1,
      ans0 := if M / 1024 % 2 = 1 then State.reset.host.ans0 else s.host.ans0,
      ans1 := if M / 1024 % 2 = 1 then State.reset.host.ans1 else s.host.ans1,
      ignored := if M / 1024 % 2 = 1 then State.reset.host.ignored else s.host.ignored,
      mail := if M / 1024 % 2 = 1 then State.reset.host.mail else s.host.mail,
      jobs := if M / 4096 % 2 = 1 then State.reset.host.jobs else s.host.jobs,
      waiting := if M / 8192 % 2 = 1 then State.reset.host.waiting else s.host.waiting }
  sec :=
    { parts := if M / 16384 % 2 = 1 then State.reset.sec.parts else s.sec.parts,
      keys := if M / 32768 % 2 = 1 then State.reset.sec.keys else s.sec.keys,
      sessions := if M / 65536 % 2 = 1 then State.reset.sec.sessions else s.sec.sessions,
      nextSession := if M / 65536 % 2 = 1 then State.reset.sec.nextSession else s.sec.nextSession,
      ownerKey := if M / 32768 % 2 = 1 then State.reset.sec.ownerKey else s.sec.ownerKey,
      fabricKey := if M / 32768 % 2 = 1 then State.reset.sec.fabricKey else s.sec.fabricKey,
      houseLines := if M / 131072 % 2 = 1 then State.reset.sec.houseLines else s.sec.houseLines,
      houseManifest := if M / 131072 % 2 = 1 then State.reset.sec.houseManifest else s.sec.houseManifest,
      houseObj := if M / 131072 % 2 = 1 then State.reset.sec.houseObj else s.sec.houseObj,
      replies := if M / 65536 % 2 = 1 then State.reset.sec.replies else s.sec.replies,
      chunks := if M / 65536 % 2 = 1 then State.reset.sec.chunks else s.sec.chunks }
  ras :=
    { limit := if M / 262144 % 2 = 1 then State.reset.ras.limit else s.ras.limit,
      ages := if M / 262144 % 2 = 1 then State.reset.ras.ages else s.ras.ages,
      levels := if M / 262144 % 2 = 1 then State.reset.ras.levels else s.ras.levels,
      cpFault := if M / 262144 % 2 = 1 then State.reset.ras.cpFault else s.ras.cpFault,
      cpHalted := if M / 262144 % 2 = 1 then State.reset.ras.cpHalted else s.ras.cpHalted,
      fatal := if M / 524288 % 2 = 1 then State.reset.ras.fatal else s.ras.fatal,
      dump := if M / 524288 % 2 = 1 then State.reset.ras.dump else s.ras.dump,
      dumpFree := if M / 524288 % 2 = 1 then State.reset.ras.dumpFree else s.ras.dumpFree }
  hbm := if M / 1048576 % 2 = 1 then State.reset.hbm else s.hbm
  dir := if M / 2097152 % 2 = 1 then State.reset.dir else s.dir
  blks := if M / 2097152 % 2 = 1 then State.reset.blks else s.blks
  fab := if M / 4194304 % 2 = 1 then State.reset.fab else s.fab
  trn := if M / 8388608 % 2 = 1 then State.reset.trn else s.trn
  nol := if M / 2097152 % 2 = 1 then State.reset.nol else s.nol
  roll := if M / 16777216 % 2 = 1 then State.reset.roll else s.roll
  coll := if M / 33554432 % 2 = 1 then State.reset.coll else s.coll
  sched := if M / 67108864 % 2 = 1 then State.reset.sched else s.sched
  upd := if M / 134217728 % 2 = 1 then State.reset.upd else s.upd
  boot :=
    { imgA := if M / 1073741824 % 2 = 1 then State.reset.boot.imgA else s.boot.imgA,
      imgB := if M / 1073741824 % 2 = 1 then State.reset.boot.imgB else s.boot.imgB,
      cal0 := if M / 1073741824 % 2 = 1 then State.reset.boot.cal0 else s.boot.cal0,
      cal1 := if M / 1073741824 % 2 = 1 then State.reset.boot.cal1 else s.boot.cal1,
      ownA := if M / 1073741824 % 2 = 1 then State.reset.boot.ownA else s.boot.ownA,
      ownB := if M / 1073741824 % 2 = 1 then State.reset.boot.ownB else s.boot.ownB,
      fields := if M / 536870912 % 2 = 1 then State.reset.boot.fields else s.boot.fields,
      svnMin := if M / 268435456 % 2 = 1 then State.reset.boot.svnMin else s.boot.svnMin,
      revoked := if M / 268435456 % 2 = 1 then State.reset.boot.revoked else s.boot.revoked,
      running := if M / 1073741824 % 2 = 1 then State.reset.boot.running else s.boot.running,
      locked := if M / 1073741824 % 2 = 1 then State.reset.boot.locked else s.boot.locked,
      trained := if M / 1073741824 % 2 = 1 then State.reset.boot.trained else s.boot.trained,
      strap := if M / 1073741824 % 2 = 1 then State.reset.boot.strap else s.boot.strap,
      portsOff := if M / 1073741824 % 2 = 1 then State.reset.boot.portsOff else s.boot.portsOff }
  clk := if M / 2147483648 % 2 = 1 then State.reset.clk else s.clk
  pwr := if M / 4294967296 % 2 = 1 then State.reset.pwr else s.pwr
/-- From `s` to `t` only the areas of a list may have changed. -/
def Only (l : List Area) (s t : State) : Prop := t.off (areas l) = s.off (areas l)

end Sys2Proof.Machine
end

