-- ==== Sys2Proof/Claims.lean ====
section
/-! DEFINITION. What the statements for the provers are said with: when a command may act, what it leaves, and which areas of the state
each command may write. -/
namespace Sys2Proof.Machine

/-- The areas of the state that a command may write. -/
def writes : Instr → List Area
  | .configRequest _ _ _ => [.free, .links]
  | .arrayOperation _ _ _ _ _ => [.free, .regs, .cores, .remotes, .rings, .jobs, .ras, .pwr]
  | .arrayOpStart _ _ _ => [.cores, .segs]
  | .arrayRampDone _ _ _ _ => [.cores]
  | .arrayRampDown _ _ _ => [.cores]
  | .arrayOpDrain _ _ _ _ _ _ => [.free, .regs, .mem, .cores, .segs, .remotes, .hostMem, .rings, .jobs, .waiting, .house, .ras, .fab, .trn, .coll, .upd, .clk, .pwr]
  | .warm _ _ => [.free, .regs, .cores, .remotes, .rings, .jobs, .ras, .pwr]
  | .warmHoldExpiry _ _ => [.cores]
  | .reservedInstruction _ _ => [.free, .regs, .cores, .remotes, .rings, .jobs, .ras, .pwr]
  | .nop _ _ _ => [.free, .regs, .cores, .imem, .remotes, .rings, .jobs, .ras, .pwr]
  | .halt _ _ => [.free, .regs, .cores, .remotes, .rings, .jobs, .ras, .pwr]
  | .movi _ _ => [.free, .regs, .cores, .remotes, .rings, .jobs, .ras, .pwr]
  | .movhi _ _ => [.free, .regs, .cores, .remotes, .rings, .jobs, .ras, .pwr]
  | .add _ _ => [.free, .regs, .cores, .remotes, .rings, .jobs, .ras, .pwr]
  | .addi _ _ => [.free, .regs, .cores, .remotes, .rings, .jobs, .ras, .pwr]
  | .sub _ _ => [.free, .regs, .cores, .remotes, .rings, .jobs, .ras, .pwr]
  | .and _ _ => [.free, .regs, .cores, .remotes, .rings, .jobs, .ras, .pwr]
  | .or _ _ => [.free, .regs, .cores, .remotes, .rings, .jobs, .ras, .pwr]
  | .xor _ _ => [.free, .regs, .cores, .remotes, .rings, .jobs, .ras, .pwr]
  | .shl _ _ => [.free, .regs, .cores, .remotes, .rings, .jobs, .ras, .pwr]
  | .shr _ _ => [.free, .regs, .cores, .remotes, .rings, .jobs, .ras, .pwr]
  | .mul _ _ => [.free, .regs, .cores, .remotes, .rings, .jobs, .ras, .pwr]
  | .jmp _ _ => [.free, .regs, .cores, .remotes, .rings, .jobs, .ras, .pwr]
  | .bnz _ _ => [.free, .regs, .cores, .remotes, .rings, .jobs, .ras, .pwr]
  | .bz _ _ => [.free, .regs, .cores, .remotes, .rings, .jobs, .ras, .pwr]
  | .blt _ _ => [.free, .regs, .cores, .remotes, .rings, .jobs, .ras, .pwr]
  | .mtcr _ _ => [.free, .regs, .cores, .remotes, .rings, .jobs, .ras, .pwr]
  | .mfcr _ _ => [.free, .regs, .cores, .remotes, .rings, .jobs, .ras, .pwr]
  | .astat _ _ => [.free, .regs, .cores, .remotes, .rings, .jobs, .ras, .pwr]
  | .astatDone _ => [.cores]
  | .xfer _ _ _ => [.free, .regs, .mem, .cores, .segs, .remotes, .rings, .jobs, .ras, .fab, .coll, .upd, .pwr]
  | .xferComplete _ _ _ => [.free, .regs, .mem, .cores, .segs, .remotes, .hostMem, .rings, .jobs, .waiting, .ras, .fab, .coll, .upd, .pwr]
  | .imemLoadGo _ _ => [.regs]
  | .imemLoadDone _ => [.regs, .imem]
  | .coreRun _ => [.regs, .cores]
  | .coreStop _ => [.regs, .cores]
  | .coreRetirementRequest _ => [.free, .regs, .rings, .ras, .fields, .clk, .pwr]
  | .vecCvt _ _ _ => [.free, .regs, .mem, .cores, .segs, .remotes, .rings, .jobs, .ras, .pwr]
  | .vecAmax _ _ _ => [.free, .regs, .mem, .cores, .segs, .remotes, .rings, .jobs, .ras, .pwr]
  | .vecScale _ _ _ => [.free, .regs, .mem, .cores, .segs, .remotes, .rings, .jobs, .ras, .pwr]
  | .vecAdd _ _ _ => [.free, .regs, .mem, .cores, .segs, .remotes, .rings, .jobs, .ras, .pwr]
  | .vecMul _ _ _ => [.free, .regs, .mem, .cores, .segs, .remotes, .rings, .jobs, .ras, .pwr]
  | .vecAxpy _ _ _ => [.free, .regs, .mem, .cores, .segs, .remotes, .rings, .jobs, .ras, .pwr]
  | .vecMax _ _ _ => [.free, .regs, .mem, .cores, .segs, .remotes, .rings, .jobs, .ras, .pwr]
  | .vecDropout _ _ _ => [.free, .regs, .mem, .cores, .segs, .remotes, .rings, .jobs, .ras, .pwr]
  | .vecCheck _ _ _ => [.free, .regs, .mem, .cores, .segs, .remotes, .rings, .jobs, .ras, .pwr]
  | .vecExp _ _ _ => [.free, .regs, .mem, .cores, .segs, .remotes, .rings, .jobs, .ras, .pwr]
  | .vecLog _ _ _ => [.free, .regs, .mem, .cores, .segs, .remotes, .rings, .jobs, .ras, .pwr]
  | .vecRsqrt _ _ _ => [.free, .regs, .mem, .cores, .segs, .remotes, .rings, .jobs, .ras, .pwr]
  | .vecRecip _ _ _ => [.free, .regs, .mem, .cores, .segs, .remotes, .rings, .jobs, .ras, .pwr]
  | .vecSigm _ _ _ => [.free, .regs, .mem, .cores, .segs, .remotes, .rings, .jobs, .ras, .pwr]
  | .vecRowsum _ _ _ => [.free, .regs, .mem, .cores, .segs, .remotes, .rings, .jobs, .ras, .pwr]
  | .vecRowmax _ _ _ => [.free, .regs, .mem, .cores, .segs, .remotes, .rings, .jobs, .ras, .pwr]
  | .vecComplete _ _ => [.free, .regs, .mem, .cores, .segs, .remotes, .hostMem, .rings, .jobs, .waiting, .ras, .fab, .coll, .upd, .pwr]
  | .mbAdmit _ _ _ => [.free, .regs, .cores, .remotes, .rings, .jobs, .ras, .trn, .pwr]
  | .fwdComplete _ _ _ => [.free, .regs, .mem, .cores, .segs, .remotes, .hostMem, .rings, .jobs, .waiting, .ras, .trn, .upd, .pwr]
  | .bwdStart _ _ _ => [.free, .regs, .cores, .remotes, .rings, .jobs, .ras, .trn, .pwr]
  | .bwdComplete _ _ _ => [.free, .regs, .mem, .cores, .segs, .remotes, .hostMem, .rings, .jobs, .waiting, .house, .ras, .fab, .trn, .coll, .upd, .clk, .pwr]
  | .versionTimeout _ _ => [.free, .regs, .mem, .cores, .segs, .remotes, .rings, .jobs, .ras, .fab, .coll, .upd, .pwr]
  | .slotClaim _ _ _ => [.free, .regs, .cores, .remotes, .rings, .jobs, .ras, .trn, .pwr]
  | .trnEnable _ => [.free, .regs, .cores, .remotes, .rings, .jobs, .ras, .trn, .pwr]
  | .trnDisable _ => [.regs, .trn]
  | .admitSeq _ _ => [.regs, .hostMem, .rings, .waiting, .hbm]
  | .cancel _ => [.regs, .hostMem, .rings, .waiting, .hbm]
  | .pause _ => [.regs, .hostMem, .rings, .waiting, .hbm]
  | .budgetSet _ => [.regs, .hostMem, .rings, .waiting, .hbm]
  | .budgetAdd _ => [.regs, .hostMem, .rings, .waiting, .hbm]
  | .adapterLoad _ => [.free, .regs, .cores, .remotes, .hostMem, .rings, .jobs, .waiting, .ras, .hbm, .pwr]
  | .adapterLoadDispatch _ => [.waiting, .roll]
  | .adapterLoadComplete _ => [.free, .regs, .cores, .remotes, .hostMem, .rings, .jobs, .waiting, .ras, .roll, .pwr]
  | .adapterUnload _ => [.regs, .hostMem, .rings, .jobs, .hbm, .roll]
  | .prefixCreate _ => [.regs, .hostMem, .rings, .jobs, .hbm, .roll]
  | .prefixRelease _ => [.regs, .hostMem, .rings, .jobs, .hbm, .roll]
  | .stopsetWrite _ _ => [.regs, .hostMem, .rings, .jobs, .hbm, .roll]
  | .contextTake _ => [.regs, .roll]
  | .restoreComplete _ => [.free, .regs, .mem, .cores, .segs, .remotes, .hostMem, .rings, .jobs, .waiting, .ras, .objects, .roll, .upd, .pwr]
  | .prefillComplete _ _ _ => [.free, .regs, .cores, .remotes, .hostMem, .rings, .jobs, .ras, .roll, .pwr]
  | .shipComplete _ _ => [.free, .regs, .mem, .cores, .segs, .remotes, .hostMem, .rings, .jobs, .waiting, .ras, .roll, .upd, .pwr]
  | .verifyRound _ _ _ _ _ _ => [.free, .regs, .mem, .cores, .remotes, .rings, .jobs, .house, .ras, .roll, .pwr]
  | .decodeStepBoundary _ => [.free, .regs, .cores, .remotes, .hostMem, .rings, .jobs, .waiting, .ras, .objects, .trn, .roll, .pwr]
  | .draftReprobe _ => [.roll]
  | .parkComplete _ _ => [.free, .regs, .cores, .remotes, .rings, .jobs, .ras, .objects, .trn, .roll, .pwr]
  | .contextClose _ => [.free, .regs, .cores, .remotes, .hostMem, .rings, .jobs, .ras, .objects, .trn, .roll, .pwr]
  | .streamRingRoom _ _ => [.regs, .hostMem, .rings, .roll]
  | .parkExpiry _ => [.regs, .hostMem, .rings, .objects, .roll]
  | .rollEnable _ => [.free, .regs, .cores, .remotes, .rings, .jobs, .ras, .pwr]
  | .rollDisable _ => [.regs, .roll]
  | .turnToLearning _ => [.free, .regs, .mem, .cores, .segs, .remotes, .hostMem, .rings, .jobs, .waiting, .ras, .hbm, .trn, .roll, .coll, .sched, .upd, .pwr]
  | .turnToRollout _ => [.free, .regs, .mem, .cores, .segs, .remotes, .hostMem, .rings, .jobs, .waiting, .ras, .hbm, .trn, .roll, .coll, .sched, .upd, .pwr]
  | .turnQuiesced _ => [.regs, .sched]
  | .turnQuiesceTimeout _ => [.regs, .sched]
  | .turnVoteBarrier _ _ => [.free, .regs, .mem, .cores, .segs, .remotes, .hostMem, .rings, .jobs, .waiting, .ras, .trn, .coll, .sched, .upd, .pwr]
  | .carveRoundBarrier _ _ => [.free, .regs, .mem, .cores, .segs, .remotes, .hostMem, .rings, .jobs, .waiting, .ras, .trn, .coll, .sched, .upd, .pwr]
  | .carveRoundWritesDone _ => [.regs, .coll, .sched]
  | .turnInstall _ _ => [.free, .regs, .mem, .cores, .imem, .segs, .remotes, .hostMem, .rings, .jobs, .waiting, .ras, .trn, .roll, .coll, .sched, .upd, .pwr]
  | .turnFinalBarrier _ _ => [.free, .regs, .mem, .cores, .segs, .remotes, .hostMem, .rings, .jobs, .waiting, .ras, .trn, .coll, .sched, .upd, .pwr]
  | .wptrSet _ => [.regs, .hostMem, .rings, .jobs, .hbm]
  | .batchClose _ => [.free, .regs, .cores, .remotes, .hostMem, .rings, .jobs, .ras, .hbm, .trn, .roll, .pwr]
  | .weightLoad _ _ => [.free, .regs, .mem, .cores, .segs, .remotes, .hostMem, .rings, .jobs, .waiting, .parts, .ras, .hbm, .coll, .sched, .upd, .pwr]
  | .gondolaSegment _ _ _ => [.free, .regs, .mem, .cores, .segs, .remotes, .hostMem, .rings, .jobs, .waiting, .parts, .ras, .hbm, .objects, .fab, .trn, .coll, .sched, .upd, .pwr]
  | .weightLoadPublish _ _ => [.free, .regs, .mem, .cores, .segs, .remotes, .hostMem, .rings, .jobs, .waiting, .parts, .ras, .hbm, .objects, .trn, .coll, .sched, .upd, .pwr]
  | .gatherStart _ _ _ _ _ _ => [.free, .regs, .mem, .cores, .segs, .remotes, .hostMem, .rings, .jobs, .waiting, .ras, .coll, .upd, .pwr]
  | .stageEntrySend _ _ _ _ => [.trn, .sched]
  | .stageCreditReturn _ _ _ => [.sched]
  | .collReady _ _ _ => [.free, .regs, .mem, .cores, .segs, .remotes, .hostMem, .rings, .jobs, .waiting, .ras, .coll, .upd, .pwr]
  | .barrier _ => [.free, .regs, .mem, .cores, .segs, .remotes, .hostMem, .rings, .jobs, .waiting, .ras, .coll, .upd, .pwr]
  | .bcast _ => [.free, .regs, .mem, .cores, .segs, .remotes, .hostMem, .rings, .jobs, .waiting, .ras, .coll, .upd, .pwr]
  | .reduce _ => [.free, .regs, .mem, .cores, .segs, .remotes, .hostMem, .rings, .jobs, .waiting, .ras, .coll, .upd, .pwr]
  | .allreduce _ => [.free, .regs, .mem, .cores, .segs, .remotes, .hostMem, .rings, .jobs, .waiting, .ras, .coll, .upd, .pwr]
  | .reduceScatter _ => [.free, .regs, .mem, .cores, .segs, .remotes, .hostMem, .rings, .jobs, .waiting, .ras, .coll, .upd, .pwr]
  | .allgather _ => [.free, .regs, .mem, .cores, .segs, .remotes, .hostMem, .rings, .jobs, .waiting, .ras, .coll, .upd, .pwr]
  | .snapshot _ => [.free, .regs, .mem, .cores, .segs, .remotes, .hostMem, .rings, .jobs, .waiting, .ras, .coll, .upd, .pwr]
  | .permute _ => [.free, .regs, .mem, .cores, .segs, .remotes, .hostMem, .rings, .jobs, .waiting, .ras, .coll, .sched, .upd, .pwr]
  | .collAdmit _ => [.free, .regs, .cores, .remotes, .hostMem, .rings, .jobs, .waiting, .ras, .coll, .upd, .pwr]
  | .collOpenExchange _ _ _ _ => [.free, .regs, .mem, .cores, .segs, .remotes, .hostMem, .rings, .jobs, .waiting, .parts, .ras, .hbm, .trn, .coll, .sched, .upd, .pwr]
  | .chunkArrive _ _ _ _ => [.free, .regs, .mem, .cores, .segs, .remotes, .hostMem, .rings, .jobs, .waiting, .ras, .fab, .coll, .sched, .upd, .pwr]
  | .chunkTimeout _ _ _ _ => [.free, .regs, .mem, .cores, .segs, .remotes, .hostMem, .rings, .jobs, .waiting, .ras, .fab, .coll, .sched, .upd, .pwr]
  | .closingRoundDone _ _ _ => [.free, .regs, .mem, .cores, .segs, .remotes, .hostMem, .rings, .jobs, .waiting, .parts, .ras, .hbm, .trn, .coll, .sched, .upd, .pwr]
  | .collGroupTimeout _ _ _ => [.free, .regs, .mem, .cores, .segs, .remotes, .hostMem, .rings, .jobs, .waiting, .ras, .trn, .coll, .sched, .upd, .pwr]
  | .jobReset _ _ _ => [.cores, .remotes, .jobs]
  | .jobResetDone _ => [.free, .regs, .mem, .cores, .segs, .remotes, .hostMem, .rings, .jobs, .waiting, .parts, .ras, .hbm, .objects, .trn, .roll, .coll, .sched, .upd, .pwr]
  | .collEnable _ => [.free, .regs, .cores, .remotes, .rings, .jobs, .ras, .pwr]
  | .collDisable _ => [.regs]
  | .update _ => [.free, .regs, .cores, .remotes, .hostMem, .rings, .jobs, .waiting, .ras, .hbm, .upd, .pwr]
  | .gradLineIntake _ _ _ => [.free, .regs, .mem, .cores, .segs, .remotes, .hostMem, .rings, .jobs, .waiting, .ras, .upd, .pwr]
  | .updPass1Done _ => [.free, .regs, .mem, .cores, .segs, .remotes, .hostMem, .rings, .jobs, .waiting, .ras, .coll, .upd, .pwr]
  | .updNormDone _ _ _ => [.free, .regs, .mem, .cores, .segs, .remotes, .hostMem, .rings, .jobs, .waiting, .ras, .trn, .coll, .upd, .pwr]
  | .updShardPass2Done _ _ => [.free, .regs, .mem, .cores, .segs, .remotes, .hostMem, .rings, .jobs, .waiting, .ras, .coll, .upd, .pwr]
  | .updAmaxDone _ _ _ => [.free, .regs, .mem, .cores, .segs, .remotes, .hostMem, .rings, .jobs, .waiting, .ras, .coll, .upd, .pwr]
  | .updSlotClaim _ _ => [.trn, .upd]
  | .updReturnDone _ _ => [.free, .regs, .mem, .cores, .segs, .remotes, .hostMem, .rings, .jobs, .waiting, .ras, .trn, .sched, .upd, .pwr]
  | .updNop _ _ _ => [.free, .regs, .mem, .cores, .segs, .remotes, .hostMem, .rings, .jobs, .waiting, .ras, .upd, .pwr]
  | .updLd _ _ _ => [.free, .regs, .mem, .cores, .segs, .remotes, .hostMem, .rings, .jobs, .waiting, .ras, .upd, .pwr]
  | .updSt _ _ _ => [.free, .regs, .mem, .cores, .segs, .remotes, .hostMem, .rings, .jobs, .waiting, .ras, .upd, .pwr]
  | .updAdd _ _ _ => [.free, .regs, .mem, .cores, .segs, .remotes, .hostMem, .rings, .jobs, .waiting, .ras, .upd, .pwr]
  | .updSub _ _ _ => [.free, .regs, .mem, .cores, .segs, .remotes, .hostMem, .rings, .jobs, .waiting, .ras, .upd, .pwr]
  | .updMul _ _ _ => [.free, .regs, .mem, .cores, .segs, .remotes, .hostMem, .rings, .jobs, .waiting, .ras, .upd, .pwr]
  | .updFma _ _ _ => [.free, .regs, .mem, .cores, .segs, .remotes, .hostMem, .rings, .jobs, .waiting, .ras, .upd, .pwr]
  | .updDiv _ _ _ => [.free, .regs, .mem, .cores, .segs, .remotes, .hostMem, .rings, .jobs, .waiting, .ras, .upd, .pwr]
  | .updSqrt _ _ _ => [.free, .regs, .mem, .cores, .segs, .remotes, .hostMem, .rings, .jobs, .waiting, .ras, .upd, .pwr]
  | .updRsqrt _ _ _ => [.free, .regs, .mem, .cores, .segs, .remotes, .hostMem, .rings, .jobs, .waiting, .ras, .upd, .pwr]
  | .updMax _ _ _ => [.free, .regs, .mem, .cores, .segs, .remotes, .hostMem, .rings, .jobs, .waiting, .ras, .upd, .pwr]
  | .updMin _ _ _ => [.free, .regs, .mem, .cores, .segs, .remotes, .hostMem, .rings, .jobs, .waiting, .ras, .upd, .pwr]
  | .updSel _ _ _ => [.free, .regs, .mem, .cores, .segs, .remotes, .hostMem, .rings, .jobs, .waiting, .ras, .upd, .pwr]
  | .updAbs _ _ _ => [.free, .regs, .mem, .cores, .segs, .remotes, .hostMem, .rings, .jobs, .waiting, .ras, .upd, .pwr]
  | .fence _ _ => [.free, .regs, .cores, .remotes, .rings, .jobs, .ras, .pwr]
  | .fenceDone _ => [.cores]
  | .wait _ _ => [.free, .regs, .cores, .remotes, .rings, .jobs, .ras, .pwr]
  | .waitSatisfied _ => [.free, .regs, .cores, .segs, .remotes, .rings, .jobs, .ras, .pwr]
  | .syncTimeout _ => [.free, .regs, .cores, .remotes, .rings, .jobs, .ras, .pwr]
  | .signal _ _ => [.free, .regs, .mem, .cores, .segs, .remotes, .hostMem, .rings, .jobs, .waiting, .ras, .fab, .coll, .upd, .pwr]
  | .atomicAdd _ _ => [.free, .regs, .mem, .cores, .segs, .remotes, .hostMem, .rings, .jobs, .waiting, .ras, .fab, .coll, .upd, .pwr]
  | .atomicSwap _ _ => [.free, .regs, .mem, .cores, .segs, .remotes, .hostMem, .rings, .jobs, .waiting, .ras, .fab, .coll, .upd, .pwr]
  | .atomicCas _ _ => [.free, .regs, .mem, .cores, .segs, .remotes, .hostMem, .rings, .jobs, .waiting, .ras, .fab, .coll, .upd, .pwr]
  | .atomicAnd _ _ => [.free, .regs, .mem, .cores, .segs, .remotes, .hostMem, .rings, .jobs, .waiting, .ras, .fab, .coll, .upd, .pwr]
  | .atomicOr _ _ => [.free, .regs, .mem, .cores, .segs, .remotes, .hostMem, .rings, .jobs, .waiting, .ras, .fab, .coll, .upd, .pwr]
  | .atomicUmax _ _ => [.free, .regs, .mem, .cores, .segs, .remotes, .hostMem, .rings, .jobs, .waiting, .ras, .fab, .coll, .upd, .pwr]
  | .atomicUmin _ _ => [.free, .regs, .mem, .cores, .segs, .remotes, .hostMem, .rings, .jobs, .waiting, .ras, .fab, .coll, .upd, .pwr]
  | .segmentPowerRequest _ _ => [.regs]
  | .segmentPowerChange _ _ _ => [.mem, .stage, .segs]
  | .segmentIdleReturn _ _ _ => [.segs]
  | .marchGo _ _ => [.regs, .segs]
  | .marchAbort _ => [.segs]
  | .marchDone _ _ _ => [.free, .regs, .mem, .cores, .stage, .segs, .remotes, .rings, .jobs, .ras, .fields, .clk, .pwr]
  | .scrubVisit _ _ => [.free, .regs, .mem, .cores, .imem, .stage, .segs, .remotes, .rings, .jobs, .house, .ras, .hbm, .fields, .pwr]
  | .scrubPromote _ _ => [.regs, .ras]
  | .scrubLate _ => [.free, .regs, .rings, .ras, .pwr]
  | .hbmTempSample _ => [.regs]
  | .hbmRetrain _ _ => [.hbm]
  | .hbmRetrainDone _ _ _ => [.free, .regs, .mem, .cores, .segs, .remotes, .hostMem, .rings, .jobs, .waiting, .ras, .hbm, .fab, .coll, .upd, .pwr]
  | .hbmRetrainRetry _ _ _ => [.free, .regs, .rings, .ras, .hbm, .pwr]
  | .hbmMigGo _ _ => [.regs, .hbm]
  | .hbmMigSwitch _ _ => [.free, .regs, .rings, .ras, .hbm, .pwr]
  | .hbmPprDone _ _ _ _ _ => [.free, .regs, .rings, .ras, .hbm, .fields, .pwr]
  | .rprQuery _ _ => [.regs, .hbm]
  | .rprHardRepair _ _ => [.regs, .hbm]
  | .rprNextRow _ _ => [.regs, .hbm]
  | .rprComplete _ _ => [.regs, .hbm]
  | .tgWrite _ _ => [.regs, .hbm]
  | .tgReadCheck _ _ => [.regs, .hbm]
  | .tgWriteReadCheck _ _ => [.regs, .hbm]
  | .tgAbort _ => [.hbm]
  | .tgDone _ _ _ _ _ => [.free, .regs, .rings, .ras, .hbm, .pwr]
  | .objPut _ _ => [.free, .regs, .cores, .remotes, .hostMem, .rings, .jobs, .waiting, .ras, .hbm, .objects, .pwr]
  | .objSealed _ => [.free, .regs, .cores, .segs, .remotes, .hostMem, .rings, .jobs, .waiting, .ras, .hbm, .objects, .pwr]
  | .objGet _ => [.free, .regs, .cores, .remotes, .hostMem, .rings, .jobs, .waiting, .ras, .hbm, .pwr]
  | .objDelete _ => [.regs, .hostMem, .rings, .jobs, .waiting, .hbm, .objects]
  | .parkDemote _ => [.regs, .objects, .roll]
  | .flashPageRead _ _ _ _ _ => [.free, .regs, .cores, .remotes, .rings, .jobs, .ras, .objects, .roll, .pwr]
  | .flashMove _ _ _ _ _ => [.regs, .objects]
  | .flashBlockFail _ _ _ => [.free, .regs, .cores, .remotes, .rings, .jobs, .ras, .objects, .pwr]
  | .liftFrame _ _ => [.free, .regs, .cores, .remotes, .rings, .jobs, .ras, .pwr]
  | .liftGmac _ _ => [.free, .regs, .cores, .remotes, .rings, .jobs, .ras, .pwr]
  | .liftRecal _ _ _ => [.free, .regs, .cores, .remotes, .rings, .jobs, .ras, .pwr]
  | .flitReceive _ _ _ => [.free, .regs, .mem, .cores, .segs, .remotes, .rings, .jobs, .ras, .fab, .coll, .upd, .clk, .pwr]
  | .portEnable _ => [.regs]
  | .portDisable _ => [.free, .regs, .mem, .cores, .segs, .remotes, .rings, .jobs, .ras, .fab, .coll, .upd, .pwr]
  | .signalDetect _ => [.regs]
  | .trainingDone _ => [.free, .regs, .fab]
  | .trainingFail _ => [.free, .regs, .rings, .ras, .fab, .pwr]
  | .probe _ _ _ => [.free, .regs, .mem, .cores, .segs, .remotes, .rings, .jobs, .ras, .fab, .coll, .upd, .pwr]
  | .probeAck _ _ _ => [.free, .regs, .mem, .cores, .segs, .remotes, .rings, .jobs, .ras, .fab, .coll, .upd, .pwr]
  | .probeTimeout _ => [.regs]
  | .lossOfSignal _ => [.free, .regs, .mem, .cores, .segs, .remotes, .rings, .jobs, .ras, .fab, .coll, .upd, .pwr]
  | .fecErrorLimit _ _ _ => [.free, .regs, .mem, .cores, .segs, .remotes, .rings, .jobs, .ras, .fab, .coll, .upd, .clk, .pwr]
  | .failedHoldoff _ => [.regs]
  | .waxDue _ => [.free, .regs, .mem, .cores, .segs, .remotes, .rings, .jobs, .ras, .fab, .coll, .upd, .pwr]
  | .waxDone _ _ _ => [.free, .regs, .mem, .cores, .segs, .remotes, .rings, .jobs, .ras, .fab, .coll, .upd, .clk, .pwr]
  | .topologyUpdate _ _ _ => [.free, .regs, .mem, .cores, .segs, .remotes, .rings, .jobs, .ras, .fab, .coll, .upd, .pwr]
  | .reachAdvert _ _ _ => [.free, .regs, .mem, .cores, .segs, .remotes, .rings, .jobs, .ras, .fab, .coll, .upd, .pwr]
  | .smallToken _ _ _ _ => [.free, .regs, .mem, .cores, .segs, .remotes, .hostMem, .rings, .jobs, .waiting, .ras, .fab, .coll, .upd, .pwr]
  | .chunkRequest _ _ _ => [.free, .regs, .mem, .cores, .segs, .remotes, .rings, .jobs, .ras, .fab, .coll, .upd, .pwr]
  | .chunkAck _ _ _ => [.free, .regs, .mem, .cores, .segs, .remotes, .rings, .jobs, .ras, .fab, .coll, .upd, .pwr]
  | .remoteStore _ _ _ _ => [.free, .regs, .mem, .cores, .segs, .remotes, .hostMem, .rings, .jobs, .waiting, .ras, .fab, .coll, .upd, .pwr]
  | .remoteAtomic _ _ _ _ _ _ => [.free, .regs, .mem, .cores, .segs, .remotes, .hostMem, .rings, .jobs, .waiting, .ras, .fab, .coll, .upd, .pwr]
  | .storeAck _ _ _ _ => [.free, .regs, .mem, .cores, .segs, .remotes, .hostMem, .rings, .jobs, .waiting, .ras, .fab, .coll, .upd, .pwr]
  | .atomicResult _ _ _ _ _ => [.free, .regs, .mem, .cores, .segs, .remotes, .hostMem, .rings, .jobs, .waiting, .ras, .fab, .coll, .upd, .pwr]
  | .remoteTimeout _ _ => [.free, .regs, .mem, .cores, .segs, .remotes, .hostMem, .rings, .jobs, .waiting, .ras, .fab, .coll, .upd, .pwr]
  | .ethFrame _ _ _ _ _ _ => [.free, .regs, .mem, .cores, .segs, .remotes, .rings, .jobs, .ras, .fab, .coll, .upd, .clk, .pwr]
  | .pfcPause _ _ _ => [.free, .regs, .mem, .cores, .segs, .remotes, .rings, .jobs, .ras, .fab, .coll, .upd, .pwr]
  | .journalPoll _ _ _ _ => [.free, .regs, .mem, .cores, .segs, .remotes, .hostMem, .rings, .jobs, .waiting, .parts, .ras, .hbm, .objects, .fab, .trn, .roll, .coll, .sched, .upd, .pwr]
  | .jobStart _ _ _ => [.free, .regs, .mem, .cores, .segs, .remotes, .hostMem, .rings, .jobs, .ras, .hbm, .fab, .trn, .roll, .upd, .pwr]
  | .jobAbort _ => [.free, .regs, .cores, .remotes, .hostMem, .rings, .jobs, .ras, .hbm, .pwr]
  | .jobEnd _ => [.regs, .hostMem, .rings, .jobs, .hbm, .fab, .trn]
  | .jobEndZeroFillDone _ => [.regs, .mem, .cores, .segs, .hostMem, .rings, .jobs, .parts, .keys, .objects, .trn, .roll, .coll, .sched, .upd]
  | .jobTakeover _ _ => [.regs, .hostMem, .rings, .jobs, .hbm, .roll]
  | .msixHoldoffEnd _ _ _ => [.rings]
  | .pcieLinkDown _ => [.free, .regs, .cores, .remotes, .links, .rings, .jobs, .ras, .pwr]
  | .orphanTimeout _ => [.free, .regs, .cores, .remotes, .rings, .jobs, .ras, .pwr]
  | .pcieLinkUp _ => [.regs, .links, .rings]
  | .flr _ _ => [.free, .regs, .cores, .remotes, .links, .rings, .jobs, .ras, .pwr]
  | .hotReset _ => [.free, .regs, .cores, .remotes, .links, .rings, .jobs, .ras, .pwr]
  | .perst _ => [.free, .regs, .cores, .remotes, .links, .rings, .jobs, .ras, .pwr]
  | .mailboxPoll _ _ => [.links]
  | .bar2Access _ _ _ _ => [.free, .regs, .mem, .cores, .segs, .remotes, .hostMem, .links, .rings, .jobs, .waiting, .ras, .upd, .pwr]
  | .bar2BaseWrite _ _ _ => [.free, .regs, .links, .rings, .ras, .pwr]
  | .bar0Misaligned _ _ _ => [.free, .regs, .links, .rings, .ras, .pwr]
  | .registerWrite _ _ _ => [.free, .regs, .mem, .cores, .segs, .remotes, .links, .rings, .jobs, .spdm, .ras, .hbm, .fab, .trn, .roll, .coll, .sched, .upd, .pwr]
  | .coldReset => [.free, .regs, .mem, .cores, .imem, .stage, .segs, .remotes, .hostMem, .links, .rings, .jobs, .waiting, .parts, .keys, .spdm, .house, .ras, .dump, .hbm, .objects, .fab, .trn, .roll, .coll, .sched, .upd, .boot, .clk, .pwr]
  | .warmReset => [.free, .regs, .mem, .cores, .imem, .stage, .segs, .remotes, .hostMem, .links, .rings, .jobs, .waiting, .parts, .keys, .spdm, .house, .ras, .dump, .hbm, .objects, .fab, .trn, .roll, .coll, .sched, .upd, .boot, .clk, .pwr]
  | .jobReady _ => [.free, .regs, .rings, .ras, .boot, .pwr]
  | .bootWatchdog => [.free, .regs, .mem, .cores, .imem, .stage, .segs, .remotes, .hostMem, .links, .rings, .jobs, .waiting, .parts, .keys, .spdm, .house, .ras, .dump, .hbm, .objects, .fab, .trn, .roll, .coll, .sched, .upd, .boot, .clk, .pwr]
  | .firmwareUpdate _ _ => [.spdm, .boot]
  | .pldmIdentify _ => [.spdm]
  | .fieldRecordAppend _ => [.free, .regs, .rings, .ras, .fields, .pwr]
  | .ownerWrite _ _ _ => [.spdm, .boot]
  | .svnCommit _ _ _ => [.regs, .spdm, .fuses]
  | .revoke _ _ _ _ => [.regs, .spdm, .fuses]
  | .getVersion _ => [.spdm]
  | .getCapabilities _ => [.spdm]
  | .negotiateAlgorithms _ _ => [.free, .regs, .rings, .spdm, .ras, .pwr]
  | .getDigests _ => [.spdm]
  | .getCertificate _ _ _ _ => [.free, .regs, .rings, .spdm, .ras, .pwr]
  | .challenge _ _ _ => [.free, .regs, .rings, .spdm, .ras, .pwr]
  | .getMeasurements _ _ _ => [.spdm]
  | .keyExchange _ _ => [.free, .regs, .rings, .spdm, .ras, .pwr]
  | .finish _ _ _ => [.free, .regs, .rings, .spdm, .ras, .pwr]
  | .heartbeat _ _ => [.free, .regs, .rings, .spdm, .ras, .pwr]
  | .keyUpdate _ _ => [.free, .regs, .rings, .spdm, .ras, .pwr]
  | .endSession _ _ => [.free, .regs, .rings, .spdm, .ras, .pwr]
  | .chunkSend _ _ _ _ => [.free, .regs, .rings, .spdm, .ras, .pwr]
  | .chunkGet _ _ => [.spdm]
  | .keyPut _ _ _ => [.free, .regs, .rings, .keys, .spdm, .ras, .boot, .pwr]
  | .keyDel _ _ _ _ => [.free, .regs, .rings, .keys, .spdm, .ras, .pwr]
  | .keyExpiry _ => [.keys]
  | .houseLoad _ _ => [.regs, .spdm, .house]
  | .houseRebuildDone _ _ _ => [.free, .regs, .mem, .cores, .segs, .remotes, .rings, .jobs, .house, .ras, .upd, .pwr]
  | .dumpRelease _ => [.regs, .spdm, .dump]
  | .cpMemoryError _ => [.free, .regs, .cores, .remotes, .rings, .jobs, .ras, .pwr]
  | .cpWatchdog _ => [.free, .regs, .cores, .remotes, .rings, .jobs, .ras, .pwr]
  | .cpAudit _ _ => [.free, .regs, .cores, .remotes, .rings, .jobs, .ras, .pwr]
  | .cpReloadDone _ => [.free, .regs, .mem, .cores, .segs, .remotes, .rings, .jobs, .ras, .dump, .fab, .coll, .upd, .pwr]
  | .mpWatchdog => [.free, .regs, .mem, .cores, .segs, .remotes, .rings, .jobs, .ras, .dump, .fab, .coll, .upd, .pwr]
  | .dumpWritten _ _ => [.free, .regs, .rings, .ras, .dump, .clk, .pwr]
  | .autoResetTimer => [.free, .regs, .mem, .cores, .imem, .stage, .segs, .remotes, .hostMem, .links, .rings, .jobs, .waiting, .parts, .keys, .spdm, .house, .ras, .dump, .hbm, .objects, .fab, .trn, .roll, .coll, .sched, .upd, .boot, .clk, .pwr]
  | .telemetrySample _ => [.regs]
  | .lifetimeCommit _ => [.free, .regs, .rings, .ras, .clk, .pwr]
  | .aclkTargetWrite _ _ => [.regs, .pwr]
  | .aclkSlewStep _ => [.regs]
  | .pllUnlock _ => [.free, .regs, .mem, .cores, .segs, .remotes, .links, .rings, .jobs, .ras, .dump, .fab, .coll, .upd, .pwr]
  | .pllRelock _ => [.regs, .hbm]
  | .setDateTime _ _ _ => [.free, .regs, .rings, .spdm, .ras, .clk, .pwr]
  | .ptmExchange _ _ => [.free, .regs, .rings, .ras, .clk, .pwr]
  | .supercapDepleted => [.free, .regs]
  | .vinLow _ => [.regs, .mem, .cores, .imem, .stage, .segs, .remotes, .hostMem, .links, .rings, .jobs, .waiting, .parts, .keys, .spdm, .house, .ras, .dump, .hbm, .objects, .fab, .trn, .roll, .coll, .sched, .upd, .boot, .clk, .pwr]
  | .auxRailLoss _ => [.regs, .mem, .cores, .imem, .stage, .segs, .remotes, .hostMem, .links, .rings, .jobs, .waiting, .parts, .keys, .spdm, .house, .ras, .dump, .hbm, .objects, .fab, .trn, .roll, .coll, .sched, .upd, .boot, .clk, .pwr]
  | .powerSample _ _ => [.free, .regs, .rings, .ras, .pwr]
  | .powerLimitStep _ => [.free, .regs, .rings, .ras, .pwr]
  | .standbyEnter => [.regs, .spdm]
  | .standbyExit => [.regs, .hbm]
  | .droop _ _ => [.free, .regs, .rings, .ras, .pwr]
  | .brakePin _ => [.free, .regs, .rings, .ras, .pwr]
  | .brakeReleaseStep _ => [.regs, .pwr]
  | .thermalSample _ => [.free, .regs, .mem, .cores, .segs, .remotes, .rings, .jobs, .ras, .dump, .fab, .coll, .upd, .clk, .pwr]
  | .thmSensorFail _ => [.free, .regs, .rings, .ras, .pwr]
  | .auxRailUp => [.pwr]
  | .mgmtBusSelect _ => [.pwr]
  | .setRack _ _ => [.spdm, .pwr]
  | .pwrEnAssert _ _ => [.free, .regs, .rings, .ras, .pwr]
  | .modPwrgd _ => [.free, .regs, .mem, .cores, .imem, .stage, .segs, .remotes, .hostMem, .links, .rings, .jobs, .waiting, .parts, .keys, .spdm, .house, .ras, .dump, .hbm, .objects, .fab, .trn, .roll, .coll, .sched, .upd, .boot, .clk, .pwr]
  | .pwrEnDeassert _ => [.regs, .mem, .cores, .imem, .stage, .segs, .remotes, .hostMem, .links, .rings, .jobs, .waiting, .parts, .keys, .spdm, .house, .ras, .dump, .hbm, .objects, .fab, .trn, .roll, .coll, .sched, .upd, .boot, .clk, .pwr]
  | .objGetComplete _ _ => [.free, .regs, .mem, .cores, .segs, .remotes, .hostMem, .rings, .jobs, .waiting, .ras, .hbm, .objects, .upd, .pwr]
  | .objectExpiry _ => [.free, .regs, .cores, .remotes, .hostMem, .rings, .jobs, .waiting, .ras, .hbm, .objects, .pwr]
  | .houseLoadComplete _ _ => [.regs, .mem, .cores, .segs, .house, .upd]
  | .configurationReady _ _ => [.regs, .links]
  | .bootStageComplete _ _ _ _ => [.free, .regs, .mem, .cores, .segs, .remotes, .rings, .jobs, .parts, .keys, .ras, .dump, .hbm, .objects, .fab, .roll, .coll, .upd, .fields, .boot, .clk, .pwr]
  | .vinRising _ _ => [.pwr]
  | .brakeDeassert => [.pwr]
  | .flashZqCalibration _ => []
  | .stageEntryArrive _ _ _ => [.sched]
  | .versionReport _ _ _ _ => [.free, .regs, .cores, .remotes, .rings, .jobs, .ras, .trn, .pwr]
/-- Core `c` takes an instruction of `n` 8-byte units now: its stream is active and nothing holds it, its die's clock is locked, the module has
no fatal error, and the units lie in instruction memory; none of their words is known to be in error (R51, R58, R59, R475). -/
def State.Ready (s : State) (c n : Nat) : Prop :=
  s.issues c = true ∧ (s.core c).pc + n ≤ 8192 ∧
    ∀ w ∈ imemWords c (s.core c).pc n, s.chip.imemPoison.contains w = false ∧ s.chip.imemErr.contains w = false
/-- A CTL instruction of operation `op` whose reserved bits are 0 (Tables 2-4 and 2-12). -/
def CtlF.of (f : CtlF) (op : Nat) : Prop := f.cls = 0 ∧ f.len = 0 ∧ f.op = op ∧ f.rsv = 0
/-- From `s` to `t` core `c` has taken an instruction that moved the counter to `pc` and left register `d` at `v` (s0 at 0);
every other register and every other part of the core stands, and so does everything else. -/
structure CtlDone (c pc d : Nat) (v : Word) (s t : State) : Prop where
  result : t.sreg c d = if d = 0 then 0 else v
  sregs : ∀ r, r ≠ d → t.sreg c r = s.sreg c r
  pc : (t.core c).pc = pc
  rest : { t.core c with sregs := (s.core c).sregs, pc := (s.core c).pc } = s.core c
  cores : ∀ k, k ≠ c → t.core k = s.core k
  only : Only [.cores] s t
/-- From `s` to `t` core `c` is now `x`, and nothing else has changed. -/
def CoreNow (c : Nat) (x : CoreSt) (s t : State) : Prop :=
  t.core c = x ∧ (∀ k, k ≠ c → t.core k = s.core k) ∧ Only [.cores] s t
/-- Core `c` after an instruction of `n` units has issued: its counter has moved on. -/
def State.moved (s : State) (c n : Nat) : CoreSt := { s.core c with pc := (s.core c).pc + n }
/-- From `s` to `t` only the core's own state and the register fields named have changed, and the fields read as given. -/
def RegsNow (ws : List (Fld × Nat)) (s t : State) : Prop :=
  (∀ p ∈ ws, t.rd p.1 = p.2) ∧ ∀ f : Fld, (∀ p ∈ ws, f.reg ≠ p.1.reg) → t.rd f = s.rd f
/-- From `s` to `t` nothing but the state of cores has changed, and in them only ramps and what array `i` of core `c` holds (R39, R492). -/
def RampsOnly (c i : Nat) (s t : State) : Prop :=
  Only [.cores] s t ∧ (∀ k, { (t.core k) with f := (s.core k).f, d := (s.core k).d, g := (s.core k).g } = s.core k) ∧
    ∀ k j, j < 3 → k ≠ c ∨ j ≠ i → { ((t.core k).arr j) with ramp := ((s.core k).arr j).ramp } = (s.core k).arr j
/-- The ramp governor of die `d` has room at ACLK cycle `cycle`, and no array of the die waits (R492). -/
def State.rampRoom (s : State) (d cycle : Nat) : Prop :=
  s.rampWaiters d = [] ∧ ((s.gov d).grants.filter (fun k => max (s.gov d).cycle cycle < k + 128)).length < s.rd R.PWR.CTL.RAMP_ARR
/-- The admissions of die `d` in the last 128 cycles stay within RAMP_ARR (R492). -/
def RampsBounded (d : Nat) (s t : State) : Prop :=
  (s.gov d).grants.length ≤ s.rd R.PWR.CTL.RAMP_ARR → (t.gov d).grants.length ≤ s.rd R.PWR.CTL.RAMP_ARR
/-- From `s` to `t` array `i` of core `c` is now `a`; the rest of the core is `x`'s, and nothing else has changed. -/
def ArrNow (c i : Nat) (a : ArrSt) (x : CoreSt) (s t : State) : Prop := CoreNow c (x.setArr i a) s t
/-- The operation of the running ones of array `i` that a drain of `half` ends, or whose rows below `hi` it lands: its fill has begun, nothing
that those rows read is poisoned, and no SIGNAL of the core waits (R36, R44, R49, R280). -/
def State.Drains (s : State) (c i half hi : Nat) (o : ArrOp) : Prop :=
  ((s.core c).arr i).running.find? (fun o => o.half == half) = some o ∧ o.fed = true ∧ (s.core c).sigs = [] ∧
    s.maskPoison c o.fields = false ∧ s.consumesPoison c o.fields o.done hi = false
/-- The rows of its output that a drain reaches: all, or those below a number (R270). -/
def ArrOp.upto (o : ArrOp) : Option Nat → Nat
  | none => o.fields.m
  | some k => min (max k o.done) o.fields.m
/-- Core `c` takes a vector instruction whose operation is `op` now: its fields and ranges are legal, none of its memories is
OFF, no tracked range makes it wait (R38, R94, R95, R301). -/
def State.VecReady (s : State) (c op : Nat) (w0 w1 : Word) : Prop :=
  let f := vecFields w0 w1
  let v := s.vecOps c f
  s.Ready c 2 ∧ f.cls = 5 ∧ f.len = 1 ∧ f.op = op ∧ v.legal = true ∧ (∀ r ∈ v.reads ++ v.writes, s.segOff c r = false) ∧
    s.mustWait c (v.reads.map (winRng c)) (v.writes.map (winRng c)) = false
/-- The bits of element `q` in a row laid out as format `fmt` in space `sp` (R31, R530): 8-byte slots in the accumulator buffer, packed
elements in the scratchpad. -/
def rowElem (sp fmt : Nat) (row : Tab Byte) (q : Nat) : Nat :=
  if sp = 1 then tabLE row (8 * q) 8 else elemBits (fun k => (Tab.get 0 row k).toNat) fmt 0 q
/-- The bits that an element keeps in a row of its format. -/
def rowWidth (sp fmt : Nat) : Nat := if sp = 1 then 64 else if fmt = 0 then 4 else if fmt ≤ 2 then 6 else 8 * rowBytes fmt 1
/-- Core `c` takes a SYNC instruction of operation `op` now, and its word is legal (Table 9-2, R276). -/
def State.SyncReady (s : State) (c op : Nat) (w : Word) : Prop :=
  s.Ready c 1 ∧ (syncFields w).cls = 1 ∧ (syncFields w).len = 0 ∧ (syncFields w).op = op ∧ (syncFields w).fieldsOk = true
/-- A transfer to local memory whose end nothing hinders: its source is local or has arrived, its rows do not overlap in a way that leaves bytes
open (R270), neither its rows nor what it has yet to read lie in a memory that is OFF (R301) or held by a retraining (R318), and no word of it
has landed alone. No other SIGNAL of the core waits. -/
def State.Moves (s : State) (c : Nat) (x : XferPend) : Prop :=
  x.dstMod = none ∧ (x.srcMod.isSome = true → x.buf.isSome = true) ∧ (∀ r < x.rows, x.openRow r = false) ∧ x.landed = [] ∧ x.pois = [] ∧
  (∀ r < x.rows, s.offAt (x.dst + r * x.dstride) x.rowBytes = none ∧ s.held (x.dst + r * x.dstride) x.rowBytes = false) ∧
  (x.buf = none → ∀ r < x.rows, s.offAt (x.src + r * x.sstride) x.rowBytes = none ∧ s.held (x.src + r * x.sstride) x.rowBytes = false) ∧
  (s.core c).sigs = []
/-- The rows that a transfer writes: those it has read, or those it reads now. -/
def State.rowOfXfer (s : State) (x : XferPend) (r : Nat) : Piece :=
  match x.buf with
  | some rows => rows.getD r ⟨[], []⟩
  | none => s.cut (x.src + r * x.sstride) x.rowBytes
/-- Port `p` goes to a state of Table 13-5; the other ports stay where they are (R358). -/
def PortTo (p st : Nat) (s t : State) : Prop := t.portState p = st ∧ ∀ q, q ≠ p → t.portState q = s.portState q
/-- An ERR record takes a code while it holds none (R528). -/
def Logs (valid code : Fld) (n : Nat) (s t : State) : Prop := s.rd valid = 0 → t.rd valid = 1 ∧ t.rd code = n
/-- The code of a fabric port's ERR record (R533). -/
def PortLogs (p n : Nat) (s t : State) : Prop := Logs (R.FAB.ERR.VALID p) (R.FAB.ERR.CODE p) n s t
/-- A job message that its module delivers: it came in on a port that is up, for this module, under a slot loaded for its job, and
its counter is new (R356, R357). -/
def State.Delivers (s : State) (port : Nat) (h : THdr) (j : Job) : Prop :=
  s.portUp port = true ∧ h.dst.toNat = s.moduleId ∧ s.slotFits h = true ∧
    (s.window h.keyIdx.val h.src.toNat).dup h.ctr.toNat = false ∧ s.job h.job.toNat = some j
/-- The module has answered a remote access under the job's key slot, whose counter has advanced (R355, R440). -/
def Answered (h : THdr) (positive : Bool) (old : Word) (s t : State) : Prop :=
  t.fab.lastAns = some ⟨h.src.toNat, h.ctr.toNat, positive, old, false⟩ ∧
    ∀ k, Tab.get none s.fab.slots h.keyIdx.val = some k → Tab.get none t.fab.slots h.keyIdx.val = some { k with ctr := k.ctr + 1 }
/-- The counter of a delivered message is known: a message that carries it again is a duplicate (R357). -/
def Seen (h : THdr) (t : State) : Prop := (t.window h.keyIdx.val h.src.toNat).dup h.ctr.toNat = true
/-- Nothing keeps a remote access to `n` bytes at `a` waiting: no retrain holds them, and no waiting access overlaps them (R283, R318). -/
def State.RemoteFree (s : State) (a n : Nat) : Prop :=
  s.held a n = false ∧ ∀ m ∈ s.fab.heldMsgs, Rng.overlaps (a, n) (m.h.addr.toNat, m.bytes) = false
/-- A core has no release store waiting, and its partition no collective that an ended access could let on. -/
def State.NoneWaits (s : State) (c : Nat) : Prop := (s.core c).sigs = [] ∧ s.coll.colls = []
/-- A core's COLL instruction of operation `op` is legal, and the core takes it now (Table 7-2). -/
def State.CollReady (s : State) (c op : Nat) (w0 w1 : Word) : Prop :=
  s.Ready c 2 ∧ fieldOf w0 0 4 = 6 ∧ fieldOf w0 4 2 = 1 ∧ fieldOf w0 6 2 = op ∧ fieldOf w0 9 3 = 0 ∧ fieldOf w0 44 20 = 0 ∧
    fieldOf w1 32 32 = 0
/-- The sequence number that a COLL instruction names (Table 7-2). -/
def State.collSeq (s : State) (c : Nat) (w0 w1 : Word) : Nat := ((s.sreg c (fieldOf w0 24 5)).toNat + fieldOf w1 0 32) % 2 ^ 32
/-- A collective of partition `p` that is posted and whose job goes on. -/
def State.HasColl (s : State) (k : CollKey) (c : Coll) : Prop :=
  s.collAt k.part.val k.group.val k.seq.toNat = some c ∧ s.jobRuns k.part.val = true
/-- The ranges that a collective of partition `p` names lie where its partition may reach (R439, R521): the input of a member that gives data, the
output of one that receives data, the status record of one that a core posted. -/
def State.CollReaches (s : State) (p : Nat) (c : Coll) : Prop :=
  let d := c.desc
  let e := s.groupEnt p c.group
  (d.carries = true → (d.kind = 1 → d.root = e.rank) →
    s.reach (some p) d.src (if d.reduces then d.elems * d.inBytes + (d.contrib - 1) * d.cstride else d.elems) false = .ok) ∧
  (d.carries = true → (d.kind = 2 → d.root = e.rank) →
    s.reach (some p) d.dst (if d.reduces then d.elems * d.outBytes else if d.kind = 5 then e.n * d.elems else d.elems) true = .ok) ∧
  (c.core ≠ none → s.reach (some p) d.cw 32 true = .ok)
/-- The bytes from `lo` up to `n` read as zero, and every other byte of the memory stands. -/
def ZeroBytes (lo n : Nat) (s t : State) : Prop :=
  (∀ b, lo ≤ b → b < lo + n → t.byte b = 0) ∧ ∀ b, b < lo ∨ lo + n ≤ b → t.byte b = s.byte b
/-- The first byte of a segment of a core's window: scratchpad segments of 512 KiB, accumulator segments of 128 KiB (R300). -/
def segStart (c : Nat) (ab : Bool) (g : Nat) : Nat := winAddr c (if ab then abOff + g * 0x20000 else g * 0x80000)
/-- The state of a background activity's level and age (R463). -/
def BgNow (act age lvl : Nat) (s t : State) : Prop :=
  t.ras = { s.ras with ages := Tab.set 0 s.ras.ages act age, levels := Tab.set 0 s.ras.levels act lvl } ∧
    t.rd R.RAS.SCRUB_STAT.PROMOTIONS = min (s.rd R.RAS.SCRUB_STAT.PROMOTIONS + if Tab.get 0 s.ras.levels act < lvl then 1 else 0) 0xffffffff ∧
    Only [.regs, .ras] s t
/-- A contained error with a code: the job of partition `p` is marked for reset with that code and this module (R241, R454). -/
def Contains (code p : Nat) (s t : State) : Prop :=
  ∀ j, s.jobOf p = some j → s.job j.id = some j → j.id ≠ 0xffff → j.reset = false →
    t.job j.id = some { j with reset := true, origCode := code, origModule := s.moduleId }
/-- A training code: TRN.ERR takes it, and the job is reset (R135). -/
def TrnFails (p code : Nat) (s t : State) : Prop := Logs (R.TRN.ERR.VALID p) (R.TRN.ERR.CODE p) code s t ∧ Contains code p s t
/-- No unit of the partition waits for its admission. -/
def State.AllAdmitted (s : State) (p : Nat) : Prop := ∀ x ∈ (s.trn' p).units, x.stage ≠ .posted
/-- The partition's units of key `k` are one, `u` (R130). -/
def State.OneUnit (s : State) (p : Nat) (k : MbKey) (u : MbUnit) : Prop :=
  u ∈ (s.trn' p).units ∧ u.is k = true ∧ ∀ x ∈ (s.trn' p).units, x.is k = true → x = u
/-- The second word of entry `i` of the stash descriptor table (Table 4-5). -/
def State.descWord (s : State) (p i : Nat) : Nat := s.le ((s.stashRange p).1 + i * 32 + 8) 8
/-- Whether entry `i` of the stash descriptor table names the unit, by its micro-batch, chunk and stamp (R122, Table 4-5). -/
def State.descNames (s : State) (p i : Nat) (u : MbUnit) : Bool :=
  let w : Word := BitVec.ofNat 64 (s.le ((s.stashRange p).1 + i * 32) 8)
  fieldOf w 0 16 == u.mb && fieldOf w 40 6 == u.chunk && fieldOf w 48 16 == u.step
/-- A posted command that its job may give now: the module serves and is not in STANDBY, the payload holds bits only in the masks of
its words, and the job that the poster owns goes on and takes its completions on the ring it posted to (R384, R387, R491, R532). -/
def State.Passes (s : State) (x : Post) (masks : List Word) (j : Job) : Prop :=
  s.Serving ∧ s.rd R.PWR.STAT.STATE ≠ 1 ∧ payloadOk x.p masks = true ∧ s.job x.job.toNat = some j ∧ j.ending = none ∧ j.reset = false ∧
    j.ownedBy x.port x.fn = true ∧ j.orphaned = false ∧ j.toRing0 = false
/-- A posted command now waits in the module for what it asks for, behind the commands that wait already, and nothing else changes. -/
def Awaits (x : Post) (op : Nat) (kind : PendKind) (s t : State) : Prop :=
  t.host.waiting = s.host.waiting ++ [⟨x.port, x.fn, x.ring, x.p.w0, op, x.job.toNat, kind⟩] ∧ Only [.waiting] s t
/-- A completion is written where the ring's next record lies, with the phase of its lap, and its slot is given back (R385, R388,
Table 14-4); a completion to a ring that is not enabled, or over a link that is down, is written nowhere. -/
def Completed (port fn ring : Nat) (tag : Word) (op job st res : Nat) (s t : State) : Prop :=
  let w := hostWin port fn
  let r := s.ring w ring
  let n := 2 ^ s.rd (R.HOST.JR_CFG.LOG2 w ring)
  let a := s.rd (R.HOST.CR_BASE.BASE w ring) + r.written % n * 32
  s.linkUp port = true → s.rd (R.HOST.JR_CFG.EN w ring) = 1 →
    t.ring w ring = { r with written := r.written + 1, reserved := r.reserved - 1 } ∧ t.hostLE port a 8 = tag.toNat ∧
    t.hostLE port (a + 8) 8 = st % 65536 + op % 256 * 2 ^ 16 + job % 65536 * 2 ^ 24 + (if r.written / n % 2 = 0 then 2 ^ 63 else 0) ∧
    t.hostLE port (a + 16) 8 = res % 2 ^ 64
/-- The completion of a posted command (R385). -/
def Replied (x : Post) (op st res : Nat) (s t : State) : Prop := Completed x.port x.fn x.ring x.p.w0 op x.job.toNat st res s t
/-- The completion of a command that waited (R532). -/
def Finished (c : PendCmd) (st res : Nat) (s t : State) : Prop := Completed c.port c.fn c.ring c.tag c.opcode c.job st res s t
/-- A record reaches a stream ring: written at the ring's next place with the phase of its lap while the ring has room, queued behind the ring
while it has none (R171, R172, Table 5-6). -/
def Streams (p r w0 w1 : Nat) (s t : State) : Prop :=
  ∀ x, s.sring p r = some x →
    (∀ j, s.streamJob p = some j → x.queue = [] → 0 < s.ringRoom j x → t.sring p r = some { x with written := x.written + 1 } ∧
      let a := x.base + x.written % 2 ^ x.log2 * 16
      t.hostLE j.port a 8 = (w0 + if x.written / 2 ^ x.log2 % 2 = 0 then 2 ^ 63 else 0) % 2 ^ 64 ∧ t.hostLE j.port (a + 8) 8 = w1 % 2 ^ 64) ∧
    ((s.streamJob p = none ∨ ∃ j, s.streamJob p = some j ∧ s.ringRoom j x = 0) → t.sring p r = some { x with queue := x.queue ++ [(w0, w1)] })
/-- No context of a partition has a round to emit or a turn's request to follow. -/
def State.QuietCtxs (s : State) (p : Nat) : Prop := ∀ n ∈ s.liveCtxs p, (s.ctx n).round = none ∧ (s.ctx n).mark = 0
/-- A partition's rollout engine runs, and one command waits for its next boundary, `c`, of a job that takes its completions where it posts. -/
def State.AtBoundary (s : State) (p : Nat) (c : PendCmd) (w : Payload) (j : Job) : Prop :=
  s.rd (R.ROLL.CTL.EN p) = 1 ∧ s.QuietCtxs p ∧ s.host.waiting = [c] ∧ c.kind = .boundary w false ∧ s.job c.job = some j ∧ j.part = p ∧
    j.orphaned = false ∧ j.toRing0 = false
/-- The context that a handle names for a job (R139). -/
def State.Names (s : State) (j : Job) (h n : Nat) : Prop := s.named j h = some n
/-- A context does its step now: the engine runs, no full ring holds the context, and no round of it waits (R151, R172). -/
def State.Decodes (s : State) (n : Nat) : Prop :=
  (s.ctx n).st = 5 ∧ (s.ctx n).round = none ∧ s.ringFull (s.ctx n).part (s.ctx n).ring = false ∧ s.rd (R.ROLL.CTL.EN (s.ctx n).part) = 1
/-- The stop condition that a token meets first, if any (R157, Table 5-4). -/
def State.Stops (s : State) (n tok : Nat) : Option Nat :=
  let c := s.ctx n
  stopReason (s.stopSet c.part c.stopset) { c with toks := c.toks ++ [tok], hist := c.hist + 1, out := c.out + 1 } tok c.toks.length
/-- A turn that is on in partition `p`, of a job that goes on. -/
def State.HasTurn (s : State) (p : Nat) (u : TurnSt) : Prop := s.turn p = some u ∧ s.jobRuns p = true
/-- One command waits, of the job in partition `p`, which takes its completions where it posts. -/
def State.OneWaits (s : State) (p : Nat) (k : PendKind) (c : PendCmd) : Prop :=
  s.host.waiting = [c] ∧ c.kind = k ∧ c.job = s.jobId p ∧ ∃ j, s.job c.job = some j ∧ j.orphaned = false ∧ j.toRing0 = false
/-- The turn of partition `p` is `u` and stands at a step of its table (Tables 6-2, 6-3, 6-12). -/
def State.TurnAt (t : State) (p : Nat) (u : TurnSt) (step : Nat) : Prop := t.turn p = some u ∧ t.rd (R.SCHED.TURN_STAT.STEP_NO p) = step
/-- The members' votes agree with a turn, in direction, step and name (R186). -/
def TurnSt.votesAgree (u : TurnSt) (votes : List Vote) : Bool :=
  votes.all (fun v => v.dir == u.rollout && v.step.toNat == u.step && v.name.toNat == u.name)
/-- Element `elem` of entry `i` of partition `p`'s update `u` runs an instruction of operation `op` next (R255). -/
def State.LaneAt (s : State) (p i elem op : Nat) (u : UpdSt) (e : UpdEnt) : Prop :=
  s.updOf p = some u ∧ u.ents[i]? = some e ∧ s.jobRuns p = true ∧ s.inPass2 u e elem = true ∧ (u.lane i elem).pc < u.prog.length ∧
    (updIns (u.prog.getD (u.lane i elem).pc 0)).op = op
/-- The element has run an instruction that leaves `v` in vector register `d`; its other registers stand, and so does everything else. -/
def LanePut (p i elem d v : Nat) (u : UpdSt) (s t : State) : Prop :=
  ∃ y, t.updOf p = some y ∧ y = u.setLane i elem (y.lane i elem) ∧ (y.lane i elem).pc = (u.lane i elem).pc + 1 ∧
    (∀ r, Tab.get 0 (y.lane i elem).regs r = if r = d then v else Tab.get 0 (u.lane i elem).regs r) ∧ Only [.free, .upd] s t
/-- The tables and the program that an UPDATE names, as the machine reads them (Tables 8-2 to 8-5). -/
structure UpdRead where
  ents : List UpdEnt
  tabs : List (Nat × Nat × Bool)
  prog : List Nat
/-- What the payload of an UPDATE names. -/
def State.updRead (s : State) (w : Payload) : UpdRead :=
  let raw := (List.range (fieldOf w.w4 0 14 + 1)).map (fun i => s.entAt (fieldOf w.w3 0 48 + 64 * i))
  { ents := raw.map (fun r => ({ r.1 with tens := (List.range r.2.2.1).map (fun k => (s.tensAt (r.2.1 + 64 * k)).1) } : UpdEnt))
    tabs := raw.map (·.2)
    prog := (List.range (fieldOf w.w5 48 6 + 1)).map (fun i => s.le (fieldOf w.w5 0 48 + 4 * i) 4) }
/-- The ranges that an UPDATE names are good, and nothing in them is poisoned (R245, R248, R249). -/
def State.updRanges (s : State) (p : Nat) (w : Payload) : Prop :=
  let nl := fieldOf w.w2 16 13
  0 < nl ∧ nl ≤ 4096 ∧ fieldOf w.w3 0 48 % 64 = 0 ∧ fieldOf w.w5 0 48 % 8 = 0 ∧
    ∀ r ∈ [(fieldOf w.w3 0 48, (fieldOf w.w4 0 14 + 1) * 64), (fieldOf w.w5 0 48, (fieldOf w.w5 48 6 + 1) * 4), (fieldOf w.w6 0 48, 88)],
      s.inSlow p r = true ∧ s.poisoned r.1 r.2 = false
/-- The tables and the program pass the checks of R245, R247, R249, R257 and R260. -/
def State.updGood (s : State) (p nl : Nat) (r : UpdRead) : Prop :=
  (∀ x ∈ r.tabs, x.2.2 = true ∧ ∀ k < x.2.1, (s.tensAt (x.1 + 64 * k)).2 = true) ∧ tableOk r.ents = true ∧
    (∀ w ∈ r.prog, (updIns w).ok = true) ∧ progOrder (r.prog.map updIns) = true ∧
    (∀ e ∈ r.ents, progFits (r.prog.map updIns) e.nmom = true) ∧
    ∀ y ∈ r.ents.zip r.tabs, s.entOk p nl y.1 y.2.1 y.2.2.1 = true ∧ s.poisoned y.2.1 (y.2.2.1 * 64) = false
/-- The module serves and is not in STANDBY, and the payload holds bits only in the masks of its words (R384, R398, R491). -/
def State.Takes (s : State) (x : Post) (masks : List Word) : Prop :=
  s.Serving ∧ s.rd R.PWR.STAT.STATE ≠ 1 ∧ payloadOk x.p masks = true
/-- A job that goes on, is not ending and takes its completions on the ring it posts to; its ID is not the one that names no job. -/
def State.LiveJob (s : State) (id : Nat) (j : Job) : Prop :=
  s.job id = some j ∧ j.id ≠ 0xffff ∧ j.ending = none ∧ j.reset = false ∧ j.orphaned = false ∧ j.toRing0 = false
/-- A job descriptor that JOB_START takes on function `fn` (R386, Table 14-7): its own fields, its groups and stream rings, its settings, its
partition's cores and region. -/
def State.DescOk (s : State) (port fn id : Nat) (d : JobDesc) (r : Nat) : Prop :=
  let gs := (List.range d.ngroups).map (s.groupDef port d.groups)
  d.ok = true ∧ d.id = id ∧ id ≠ 0xffff ∧ s.fnPart fn = some d.part ∧ s.jobOf d.part = none ∧ d.acctFirst + d.acctN ≤ 4096 ∧ d.nset ≤ 256 ∧
    (∀ g ∈ gs, g.ok = true) ∧ gs.head?.map (·.group) = some 0 ∧ s.moduleId ∈ (gs.head?.map (·.members)).getD [] ∧
    (∀ i < d.nstreams, s.streamDef port d.streams i ≠ none) ∧
    (∀ i < d.nset, settingOk d.part (s.hostW port (d.settings + 16 * i)) (s.hostW port (d.settings + 16 * i + 8)) = true) ∧
    s.coresReady d.part = true ∧ s.partRegion d.part = some r
/-- A management path exists, and the module is not in recovery mode, which refuses what comes over it (R377, R407). -/
def State.Manages (s : State) (path : Path) : Prop := s.pathOk path = true ∧ s.rd R.BOOT.STAT.STAGE ≠ 0xe
/-- The newest answer is `a`, and it left by `path`. -/
def Answers (path : Path) (a : Answer) (t : State) : Prop := t.sec.replies.head? = some ⟨path, a⟩
/-- An SPDM error: counted, logged as SEC_SPDM_ERR, answered (R427, Table 16-7). -/
def SpdmError (path : Path) (limit : Bool) (s t : State) : Prop :=
  Answers path (.error limit) t ∧ t.rd R.SEC.SPDM_STAT.ERRORS = min (s.rd R.SEC.SPDM_STAT.ERRORS + 1) (2 ^ R.SEC.SPDM_STAT.ERRORS.w - 1) ∧
    Logs R.SEC.ERR.VALID R.SEC.ERR.CODE 0x7008 s t
/-- Session `x` of a path is the one its number names. -/
def State.InSession (s : State) (path : Path) (id : Nat) (x : Session) (finished : Bool) : Prop :=
  s.Manages path ∧ s.sessionAt path id = some x ∧ x.finished = finished
/-- A fatal error (R469, R471): the first one is latched and its dump begins; one that finds a dump not yet released is its second. Every core stops,
every job is marked for reset, and FAULT# is low. -/
def Fatal (code : Nat) (s t : State) : Prop :=
  (s.rd R.RAS.DUMP.STATE = 0 → t.rd R.RAS.STAT.STATE = 1 ∧ t.rd R.RAS.DUMP.STATE = 1 ∧ t.rd R.RAS.DUMP.CAUSE = code ∧ t.rd R.RAS.DUMP.SECOND = 0) ∧
  (s.rd R.RAS.DUMP.STATE ≠ 0 → t.rd R.RAS.STAT.STATE ≠ 0 ∧ t.rd R.RAS.DUMP.SECOND = 1 ∧ t.rd R.RAS.DUMP.CAUSE = s.rd R.RAS.DUMP.CAUSE ∧
    t.rd R.RAS.DUMP.STATE = s.rd R.RAS.DUMP.STATE) ∧
  t.ras.fatal = some code ∧ t.pwr.fault = true ∧ (∀ c, (t.core c).running = false) ∧ ∀ id j, t.job id = some j → j.reset = true
/-- A fault of a control processor with a code: it is out of service, RAS.ERR takes the code, and the jobs of its scope are reset (R454, R459). -/
def CpFault (cp code : Nat) (s t : State) : Prop :=
  t.cpOut cp = true ∧ Logs R.RAS.ERR.VALID R.RAS.ERR.CODE code s t ∧ (16 ≤ cp → ∀ id j, t.job id = some j → j.reset = true) ∧
    (cp < 16 → s.cpPart cp < 8 → Contains code (s.cpPart cp) s t)
/-- What either hardware reset leaves (Table 18-3): memories, cores, engines, keys and jobs as after reset, links down; flash, the configuration flash,
fuses, field records and the calendar as they were; the ROM stage runs. -/
def WasReset (s t : State) : Prop :=
  t.rd R.BOOT.STAT.STAGE = 1 ∧ t.rd R.BOOT.STAT.READY = 0 ∧ t.mem = [] ∧ t.poison = [] ∧ t.chip = State.reset.chip ∧ t.host.jobs = [] ∧
  t.host.waiting = [] ∧ t.sec = State.reset.sec ∧ t.coll = State.reset.coll ∧ t.trn = [] ∧ t.upd = [] ∧ (∀ p, t.linkUp p = false) ∧
  t.dir = s.dir ∧ t.blks = s.blks ∧ (∀ m : Fin 4, t.nolOf m = { s.nolOf m with keys := none }) ∧ t.host.mem0 = s.host.mem0 ∧ t.host.mem1 = s.host.mem1 ∧ t.boot.imgA = s.boot.imgA ∧
  t.boot.imgB = s.boot.imgB ∧ t.boot.fields = s.boot.fields ∧ t.boot.svnMin = s.boot.svnMin ∧ t.boot.revoked = s.boot.revoked ∧
  t.boot.running = none ∧ t.now = s.now ∧ t.rd R.CLK.CAL_STAT.VALID = s.rd R.CLK.CAL_STAT.VALID ∧ t.clk.saved = s.clk.saved ∧ t.pending = s.pending
/-- The copy that the ROM considers first, where both verify (R405). -/
abbrev State.considersFirst (s : State) (c : Bool) : Prop :=
  (s.slot (!c)).img.seq.toNat < (s.slot c).img.seq.toNat ∨ ((s.slot c).img.seq = (s.slot (!c)).img.seq ∧ c = false)
/-- The boot stage that runs is `n`, and the converters are in regulation. -/
def State.BootsAt (s : State) (n : Nat) : Prop := s.pwr.pwrgd = true ∧ s.rd R.BOOT.STAT.STAGE = n
/-- The signed distance, in calendar ticks, from the calendar to a time. -/
def State.ahead (s : State) (v : Int) : Int := v - (s.now : Int)
/-- The calendar was set to `v` by source `src` (R483): within 1 s it slews there; otherwise it is there at once. -/
def CalSet (v : Int) (src : Nat) (s t : State) : Prop :=
  t.rd R.CLK.CAL_STAT.SRC = src ∧ t.rd R.CLK.CAL_STAT.VALID = 1 ∧
  (s.rd R.CLK.CAL_STAT.VALID = 1 → -32768 ≤ s.ahead v → s.ahead v ≤ 32768 → t.now = s.now ∧ t.clk.slew = s.ahead v ∧
    t.rd R.CLK.CAL_STAT.SLEWING = if s.ahead v = 0 then 0 else 1) ∧
  (s.rd R.CLK.CAL_STAT.VALID = 0 ∨ s.ahead v < -32768 ∨ 32768 < s.ahead v → (t.now : Int) = v % 2 ^ 64 ∧ t.clk.slew = 0 ∧
    t.rd R.CLK.CAL_STAT.SLEWING = 0)
/-- What a shutdown leaves (R486, R510): the converters are off, volatile memories and jobs are gone; flash, the configuration flash and fuses stay, and the
newest commit record holds every counter, with the power loss counted where there was one, if the commit finished. -/
def ShutDown (lost finished : Bool) (s t : State) : Prop :=
  t.pwr.started = false ∧ t.pwr.pwrgd = false ∧ t.rd R.PWR.STAT.STATE = 2 ∧ t.rd R.BOOT.STAT.STAGE = 0 ∧ t.mem = [] ∧ t.host.jobs = [] ∧
  t.sec = State.reset.sec ∧ t.ras.dump = [] ∧ t.dir = s.dir ∧ t.blks = s.blks ∧ (∀ m : Fin 4, t.nolOf m = { s.nolOf m with keys := none }) ∧ t.boot.imgA = s.boot.imgA ∧ t.boot.imgB = s.boot.imgB ∧
  t.boot.fields = s.boot.fields ∧ t.boot.svnMin = s.boot.svnMin ∧ t.now = s.now ∧
  (finished = false → t.clk.saved = s.clk.saved ∧ t.clk.savedSeq = s.clk.savedSeq) ∧
  (finished = true → t.clk.savedSeq = s.clk.savedSeq + 1 ∧ (∀ i < 53, i ≠ 50 → Tab.get 0 t.clk.saved i = s.lifeVal i) ∧
    Tab.get 0 t.clk.saved 50 = if lost = true then min (s.lifeVal 50 + 1) 0xffffffff else s.lifeVal 50)
/-- A cause brakes dies (R493): each runs at half its clock with the cause noted, the others go on; a die that ran faster makes it a brake that
is counted and raises PWR_BRAKE. -/
def Brakes (b : Nat) (l : List Nat) (s t : State) : Prop :=
  (∀ d ∈ l, t.braked d = true ∧ t.causesOf d = s.causesOf d ||| 2 ^ b ∧ Tab.get 0 t.pwr.steps d = 0) ∧
  (∀ d, d ∉ l → t.braked d = s.braked d ∧ t.causesOf d = s.causesOf d) ∧
  ((∃ d ∈ l, s.braked d = false ∨ Tab.get 0 s.pwr.steps d ≠ 0) → t.rd R.PWR.CNT.BRAKES = min (s.rd R.PWR.CNT.BRAKES + 1) 0xffffffff ∧
    Logs R.PWR.ERR.VALID R.PWR.ERR.CODE 0x8001 s t) ∧ Only [.free, .regs, .rings, .ras, .pwr] s t
/-- A cause is enabled (R493). -/
def State.brakeOn (s : State) (b : Nat) : Prop := s.rd R.PWR.CTL.BRAKE_SRC / 2 ^ b % 2 = 1
/-- A cause has cleared for dies (R494): they stay braked until they are released. -/
def Clears (b : Nat) (l : List Nat) (s t : State) : Prop :=
  (∀ d ∈ l, t.causesOf d = s.causesOf d &&& (7 - 2 ^ b)) ∧ (∀ d, d ∉ l → t.causesOf d = s.causesOf d) ∧
    t.rd R.PWR.STAT.BRAKED = s.rd R.PWR.STAT.BRAKED

end Sys2Proof.Machine
end

