-- ==== Sys2Proof/Certificates/Slice0/Obligations.lean ====
section
/-! DEFINITION. The statements for the provers. -/
open Sys2Proof Sys2Proof.Machine

/-- A step with a command waiting takes the command at the front and runs it with the queue's rest. -/
def Obligations.StepRunsTheFrontCommand : Prop :=
  ∀ (c : Instr) (rest : List Instr) (s : State), step { s with pending := c :: rest } = exec c { s with pending := rest }
/-- Right after reset the memory has its canonical form, no command waits, every register reads its Reset value, every core is halted and every port is
DISABLED. -/
def Obligations.ResetStateIsAsStated : Prop :=
  Memory.wf State.reset.mem = true ∧ State.reset.pending = [] ∧ (∀ off, State.reset.rdW off = regReset off) ∧
    (∀ c, (State.reset.core c).running = false) ∧ (∀ p < 32, State.reset.portState p = 0) ∧ State.reset.host.jobs = [] ∧
    State.reset.rd R.PWR.CTL.BRAKE_SRC = 7 ∧ State.reset.rd R.RAS.DUMP.STATE = 0
/-- R413, R430: every step takes at most the front command off the queue, undoes no fuse and erases no field record. -/
def Obligations.StepsKeepFusesAndRecords : Prop :=
  ∀ s t : State, step s = .next t → t.pending = s.pending.tail ∧ FusesKept s t ∧ RecordsKept s t
/-- Every step keeps the memory in its canonical form: addresses strictly rising, no byte listed that reads as an unlisted one does. -/
def Obligations.StepsKeepTheMemoryForm : Prop :=
  ∀ s t : State, Memory.wf s.mem = true → step s = .next t → Memory.wf t.mem = true
/-- What each command leaves alone: a command that completes has changed no area of the state beside those listed for it. -/
def Obligations.CommandsTouchOnlyTheirAreas : Prop :=
  ∀ (i : Instr) (s t : State), exec i s = .next t → Only (writes i) s t
/-- R480, R483, R484: with no command waiting a step is one tick of the always-on clock (log entry 86): uptime gains 15,625 / 512 µs while power is good,
and the calendar one tick, one more or none while a correction is slewed, never going back; the ramp governor of each die is 128 ACLK cycles on. -/
def Obligations.IdleStepTicksTheClock : Prop :=
  ∀ (s : State), s.pending = [] → ∃ t, step s = .next t ∧ t.pending = [] ∧ Only [.regs, .clk, .cores] s t ∧
    (∀ d < 4, (t.gov d).cycle = (s.gov d).cycle + 128) ∧
    (s.pwr.pwrgd = true → s.clk.usFrac < 512 → s.uptime + 31 < 2 ^ 64 → t.clk.usFrac < 512 ∧
      t.uptime * 512 + t.clk.usFrac = s.uptime * 512 + s.clk.usFrac + 15625) ∧
    (s.pwr.pwrgd = false → t.uptime = s.uptime) ∧
    (s.aon = true → s.now + 2 < 2 ^ 64 → s.now ≤ t.now ∧ t.now ≤ s.now + 2 ∧ (s.clk.slew = 0 → t.now = s.now + 1) ∧
      (0 < s.clk.slew → s.now + 1 ≤ t.now) ∧ (s.clk.slew < 0 → t.now ≤ s.now + 1) ∧ t.clk.slew.natAbs ≤ s.clk.slew.natAbs) ∧
    (s.aon = false → t.now = s.now)
/-- Table 2-12 (R54): the arithmetic CTL instructions write their result to s[d]. Table 2-12 (R54): NOP only moves the counter on; a branch that is taken
sets it to imm[12:0], one that is not moves it on. R59: an instruction fetched from a cell with one symbol in error executes as if there were none,
and the error is logged; one fetched from a cell that cannot be corrected halts the core with IMEM_UNCORR, whatever CORE.CTL.FAULT_ACT holds. -/
def Obligations.CtlInstructionsSetTheirResult : Prop :=
  (∀ (c : CoreId) (w : Word) (s : State), s.Ready c 1 →
      let f := ctlFields w
      let a := s.sreg c f.a
      let b := s.sreg c f.b
      let imm : Word := f.imm.signExtend 64
      let run := fun (op : Nat) (i : Instr) (v : Word) =>
        f.of op → ∃ t, exec i s = .next t ∧ CtlDone c ((s.core c).pc + 1) f.d v s t
      run 0x02 (.movi c w) imm ∧
      run 0x03 (.movhi c w) (f.imm ++ (s.sreg c f.d).extractLsb' 0 32) ∧
      run 0x04 (.add c w) (a + b) ∧ run 0x05 (.addi c w) (a + imm) ∧ run 0x06 (.sub c w) (a - b) ∧ run 0x0c (.mul c w) (a * b) ∧
      run 0x07 (.and c w) (a &&& b) ∧ run 0x08 (.or c w) (a ||| b) ∧ run 0x09 (.xor c w) (a ^^^ b) ∧
      run 0x0a (.shl c w) (a <<< (b.toNat % 64)) ∧ run 0x0b (.shr c w) (a >>> (b.toNat % 64))) ∧
  (∀ (c : CoreId) (w : Word) (s : State), s.Ready c 1 →
      let f := ctlFields w
      let a := s.sreg c f.a
      let run := fun (op : Nat) (i : Instr) (taken : Prop) => f.of op → ∃ t, exec i s = .next t ∧
        (taken → CtlDone c (f.imm.extractLsb' 0 13).toNat 0 0 s t) ∧ (¬ taken → CtlDone c ((s.core c).pc + 1) 0 0 s t)
      run 0x00 (.nop c w none) False ∧ run 0x10 (.jmp c w) True ∧ run 0x11 (.bnz c w) (a ≠ 0) ∧ run 0x12 (.bz c w) (a = 0) ∧
      run 0x13 (.blt c w) (a.toInt < (s.sreg c f.b).toInt)) ∧
  (∀ (c : CoreId) (w : Word) (raw : BitVec 288) (s : State), s.Ready c 1 → (ctlFields w).of 0 →
      ((lcDecode (lcSyms raw)).2 = 1 → ∃ t, exec (.nop c w (some raw)) s = .next t ∧ t.core c = { s.core c with pc := (s.core c).pc + 1 } ∧
        (∀ k, k ≠ c.val → t.core k = s.core k) ∧ Only [.free, .regs, .rings, .ras, .pwr, .cores, .imem] s t) ∧
      ((lcDecode (lcSyms raw)).2 = 2 → ∃ t, exec (.nop c w (some raw)) s = .next t ∧ (t.core c).running = false ∧
        (t.core c).faultHalt = true ∧ (∀ r, t.sreg c r = s.sreg c r) ∧
        (s.rd (R.CORE.AFAULT.VALID c) = 0 → t.rd (R.CORE.AFAULT.VALID c) = 1 ∧ t.rd (R.CORE.AFAULT.CODE c) = 0x1005 ∧
          t.rd (R.CORE.AFAULT.PC c) = (s.core c).pc)))
/-- R51, R53, R54: a CTL word with a reserved bit, or whose OP is not in Table 2-12, is an illegal instruction: CORE.AFAULT takes ILLEGAL_INSTR with the
instruction's address while VALID = 0, and no scalar register changes. With FAULT_ACT = 0 the stream halts; with FAULT_ACT = 1 it goes on. (That
reserved bits count as an illegal instruction is the model's reading, log entry 7.) R51: an instruction of a reserved class, or with a length code
that is reserved or not its class's, halts the core whatever CORE.CTL.FAULT_ACT holds; a reserved operation of a class is ILLEGAL_INSTR, which halts
it with FAULT_ACT = 0 only (R50). -/
def Obligations.IllegalEncodingsStopTheCore : Prop :=
  (∀ (c : CoreId) (w : Word) (s : State), s.Ready c 1 → (ctlFields w).cls = 0 → (ctlFields w).len = 0 →
      ∀ i ∈ [(0, Instr.nop c w none), (1, .halt c w), (2, .movi c w), (3, .movhi c w), (4, .add c w), (5, .addi c w), (6, .sub c w),
        (7, .and c w), (8, .or c w), (9, .xor c w), (10, .shl c w), (11, .shr c w), (12, .mul c w), (16, .jmp c w), (17, .bnz c w),
        (18, .bz c w), (19, .blt c w), (24, .mtcr c w), (25, .mfcr c w), (26, .astat c w), (63, .reservedInstruction c w)],
      ((ctlFields w).op = i.1 ∧ (ctlFields w).rsv ≠ 0 ∧ i.1 ≠ 63) ∨
        (ctlFields w).op ∉ [0, 1, 2, 3, 4, 5, 6, 7, 8, 9, 10, 11, 12, 16, 17, 18, 19, 24, 25, 26] →
      ∃ t, exec i.2 s = .next t ∧ (∀ r, t.sreg c r = s.sreg c r) ∧
        (s.rd (R.CORE.AFAULT.VALID c) = 0 → t.rd (R.CORE.AFAULT.VALID c) = 1 ∧ t.rd (R.CORE.AFAULT.CODE c) = 0x1001 ∧
          t.rd (R.CORE.AFAULT.ARRAY c) = 3 ∧ t.rd (R.CORE.AFAULT.PC c) = (s.core c).pc) ∧
        (s.rd (R.CORE.CTL.FAULT_ACT c) = 0 → (t.core c).running = false ∧ (t.core c).faultHalt = true) ∧
        (s.rd (R.CORE.CTL.FAULT_ACT c) = 1 → (t.core c).running = true ∧ (t.core c).pc = (s.core c).pc + 1)) ∧
  (∀ (c : CoreId) (w : Word) (s : State),
      let cls := (w.extractLsb' 0 4).toNat
      let len := (w.extractLsb' 4 2).toNat
      let legal := (cls ≤ 2 ∧ len = 0) ∨ (cls = 3 ∧ len = 2) ∨ (4 ≤ cls ∧ cls ≤ 6 ∧ len = 1)
      let faults (t : State) : Prop := (∀ r, t.sreg c r = s.sreg c r) ∧
        (s.rd (R.CORE.AFAULT.VALID c) = 0 → t.rd (R.CORE.AFAULT.VALID c) = 1 ∧ t.rd (R.CORE.AFAULT.CODE c) = 0x1001 ∧
          t.rd (R.CORE.AFAULT.PC c) = (s.core c).pc)
      (s.Ready c 1 → ¬ legal → ∃ t, exec (.reservedInstruction c w) s = .next t ∧ (t.core c).running = false ∧
        (t.core c).faultHalt = true ∧ faults t) ∧
      (let refused := fun n : Nat => legal → s.Ready c n → ∃ t, exec (.reservedInstruction c w) s = .next t ∧ faults t ∧
          (s.rd (R.CORE.CTL.FAULT_ACT c) = 0 → (t.core c).running = false ∧ (t.core c).faultHalt = true) ∧
          (s.rd (R.CORE.CTL.FAULT_ACT c) = 1 → (t.core c).running = true ∧ (t.core c).pc = (s.core c).pc + n)
       (cls = 1 → 3 < (w.extractLsb' 6 4).toNat → refused 1) ∧ (cls = 5 → 15 < (w.extractLsb' 6 6).toNat → refused 2) ∧
       (cls = 6 → 1 < (w.extractLsb' 6 2).toNat → refused 2)))
/-- R54 (Table 2-12), R62, Table 2-18: HALT stops issue, and RUNNING then reads 1 only while array operations drain; ASTAT holds the stream; ASTAT_DONE,
once the work that ASTAT names is done, puts the first fault code into s[d] and clears it. R54, R55: MFCR reads the core's own register, 0 at a
reserved offset (R8), with the counter of CORE.STATUS already moved on; MTCR writes KDESC registers and stall counters but for their reserved bits,
and is illegal at any other offset. -/
def Obligations.HaltAstatAndRegisterMoves : Prop :=
  (∀ (c : CoreId) (w : Word) (s : State),
      let f := ctlFields w
      (s.Ready c 1 →
        (f.of 0x01 → ∃ t, exec (.halt c w) s = .next t ∧ CoreNow c { s.moved c 1 with running := false } s t ∧
          (t.core c).runningBit = !(s.core c).drained) ∧
        (f.of 0x1a → ∃ t, exec (.astat c w) s = .next t ∧
          CoreNow c { s.moved c 1 with stall := .astat (Fin.ofNat 4 f.imm.toNat) (Fin.ofNat 32 f.d) } s t)) ∧
      (∀ (i : Fin 4) (d : Fin 32), (s.core c).stall = .astat i d →
        (i.val < 3 → ((s.core c).arr i).idle = true → ∃ t, exec (.astatDone c) s = .next t ∧ (t.core c).stall = .none ∧
          t.sreg c d = (if d.val = 0 then 0 else BitVec.ofNat 64 ((s.core c).arr i).first) ∧ ((t.core c).arr i).first = 0 ∧
          (∀ j < 3, j ≠ i.val → (t.core c).arr j = (s.core c).arr j) ∧ (∀ r, r ≠ d.val → t.sreg c r = s.sreg c r) ∧
          (t.core c).pc = (s.core c).pc ∧ (∀ k, k ≠ c.val → t.core k = s.core k) ∧ Only [.cores] s t) ∧
        (i.val = 3 → (s.core c).vecs = [] → (s.core c).xfers = [] → ∃ t, exec (.astatDone c) s = .next t ∧
          (t.core c).stall = .none ∧ t.sreg c d = (if d.val = 0 then 0 else BitVec.ofNat 64 (s.core c).firstOther) ∧
          (t.core c).firstOther = 0 ∧ (∀ j < 3, (t.core c).arr j = (s.core c).arr j) ∧
          (∀ r, r ≠ d.val → t.sreg c r = s.sreg c r) ∧ (t.core c).pc = (s.core c).pc ∧
          (∀ k, k ≠ c.val → t.core k = s.core k) ∧ Only [.cores] s t))) ∧
  (∀ (c : CoreId) (w : Word) (s : State), s.Ready c 1 →
      let f := ctlFields w
      let off := (f.imm.extractLsb' 0 12).toNat
      let reg := 0x8000000 + c.val * 0x1000 + off
      (f.of 0x19 → ∃ t v, exec (.mfcr c w) s = .next t ∧ CtlDone c ((s.core c).pc + 1) f.d v s t ∧
        (off = 0 → v.toNat % 1024 = c.val) ∧
        (off = 0x10 → v.toNat / 2 ^ 16 = ((s.core c).pc + 1) % 8192 ∧ v.getLsbD 0 = true ∧ v.getLsbD 1 = (s.core c).faultHalt) ∧
        (off ≠ 0 → off ≠ 0x10 → regDef reg ≠ none → v = s.rdW reg) ∧
        (off ≠ 0 → off ≠ 0x10 → regDef reg = none → v = 0)) ∧
      (f.of 0x18 → ∀ m, mtcrMask off = some m → ∃ t, exec (.mtcr c w) s = .next t ∧ t.rdW reg = s.sreg c f.a &&& m ∧
        (∀ o, o ≠ reg → t.rdW o = s.rdW o) ∧ t.core c = s.moved c 1 ∧ (∀ k, k ≠ c.val → t.core k = s.core k) ∧
        Only [.cores, .regs] s t) ∧
      (f.of 0x18 → mtcrMask off = none → ∃ t, exec (.mtcr c w) s = .next t ∧ (∀ r, t.sreg c r = s.sreg c r) ∧
        (s.rd (R.CORE.AFAULT.VALID c) = 0 → t.rd (R.CORE.AFAULT.CODE c) = 0x1001 ∧ t.rd (R.CORE.AFAULT.PC c) = (s.core c).pc)))
/-- R62, R475, Table 2-17: a write of RUN = 1 starts a halted core, whose die's clock is locked, at CORE.START_PC; while CORE.AFAULT.VALID = 1 a core that
a fault halted ignores it; a write of RUN = 0 halts the core. -/
def Obligations.CoreStartAndStop : Prop :=
  ∀ (c : CoreId) (s : State),
    ((s.core c).runningBit = false → (s.core c).offline = false → s.rd R.CLK.LOCK.PLL / 2 ^ (c.val / 200) % 2 = 1 →
      ((s.core c).faultHalt = false ∨ s.rd (R.CORE.AFAULT.VALID c) = 0) →
      ∃ t, exec (.coreRun c) s = .next t ∧ t.core c = { s.core c with
          running := true, faultHalt := false, stall := .none, pc := s.rd (R.CORE.START_PC.PC c) } ∧
        t.rd (R.CORE.CTL.RUN c) = 1 ∧ (∀ f : Fld, f.reg ≠ (R.CORE.CTL.RUN c).reg → t.rd f = s.rd f) ∧
        t.rd (R.CORE.CTL.FAULT_ACT c) = s.rd (R.CORE.CTL.FAULT_ACT c) ∧
        (∀ k, k ≠ c.val → t.core k = s.core k) ∧ Only [.cores, .regs] s t) ∧
    ((s.core c).faultHalt = true → s.rd (R.CORE.AFAULT.VALID c) = 1 → exec (.coreRun c) s = .next s) ∧
    (∃ t, exec (.coreStop c) s = .next t ∧ t.core c = { s.core c with running := false } ∧ t.rd (R.CORE.CTL.RUN c) = 0 ∧
      (∀ f : Fld, f.reg ≠ (R.CORE.CTL.RUN c).reg → t.rd f = s.rd f) ∧ (∀ k, k ≠ c.val → t.core k = s.core k) ∧
      Only [.cores, .regs] s t)
/-- R58: a load of instruction memory is refused with IMEM_CMD.ERR while the core's RUNNING reads 1 or where its source range does not lie in a region the
core's partition may reach; else BUSY is set, and IMEM_LOAD_DONE copies the lines, once no retraining holds them, and clears it. R64, R65, R413: a
retirement request is recorded as a field record of the logical core; on a die with no spare left it also raises CORE_SPARE_EXHAUSTED. -/
def Obligations.CoreMemoryLoadsAndRetirement : Prop :=
  (∀ (c : CoreId) (v : Word) (s : State),
      let n := ((v.extractLsb' 0 7).toNat + 1) * 512
      let src := s.rd (R.CORE.IMEM_SRC.SRC c) * 512
      let reaches := placeOf src = .hbm ∧ (s.partOfCore c).isSome ∧ s.reach (s.partOfCore c) src n false = .ok
      (v.getLsbD 8 = true → ((s.core c).runningBit = true ∨ ¬ reaches) → ∃ t, exec (.imemLoadGo c v) s = .next t ∧
        t.rd (R.CORE.IMEM_CMD.ERR c) = 1 ∧ t.rd (R.CORE.IMEM_CMD.BUSY c) = s.rd (R.CORE.IMEM_CMD.BUSY c) ∧ Only [.regs] s t) ∧
      (v.getLsbD 8 = true → (s.core c).runningBit = false → reaches → ∃ t, exec (.imemLoadGo c v) s = .next t ∧
        t.rd (R.CORE.IMEM_CMD.BUSY c) = 1 ∧ t.rd (R.CORE.IMEM_CMD.LINES c) = (v.extractLsb' 0 7).toNat ∧ Only [.regs] s t) ∧
      let k := (s.rd (R.CORE.IMEM_CMD.LINES c) + 1) * 512
      (s.rd (R.CORE.IMEM_CMD.BUSY c) = 1 → s.held src k = false → ∃ t, exec (.imemLoadDone c) s = .next t ∧ t.rd (R.CORE.IMEM_CMD.BUSY c) = 0 ∧
        (∀ i < k, Tab.get 0 t.chip.imem (c.val * 65536 + i) = s.byte (src + i)) ∧
        (∀ a, a < c.val * 65536 ∨ c.val * 65536 + k ≤ a → Tab.get 0 t.chip.imem a = Tab.get 0 s.chip.imem a) ∧
        (s.poisoned src k = true → t.rd (R.CORE.IMEM_CMD.ERR c) = 1) ∧ Only [.regs, .imem] s t)) ∧
  (∀ (c : CoreId) (s : State), s.boot.fields.length < fieldSlots →
      ∃ t, exec (.coreRetirementRequest c) s = .next t ∧ t.boot.fields = s.boot.fields ++ [some (s.fieldNow 1 c)] ∧
        ((sparesFor c).all (fun p => (coreMap s.boot.fields).taken.contains p) = true →
          t.rd R.TEL.EVT_HEAD.SEQ = (s.rd R.TEL.EVT_HEAD.SEQ + 1) % 2 ^ 32) ∧
        (∀ k, t.core k = s.core k) ∧ (∀ a, t.byte a = s.byte a))
/-- R37: with ARRAY = 3 an operation goes to the enabled array with the fewest operations that wait, run or drain, ties to F before D before G; one is
chosen wherever an array is enabled. -/
def Obligations.SequencerChoosesTheEmptiestArray : Prop :=
  ∀ (c : CoreId) (f : ArrF) (s : State), f.arr = 3 →
    let load (i : Nat) : Nat := ((s.core c).arr i).queue.length + ((s.core c).arr i).running.length
    (∀ i, s.targetArr c f = some i → i < 3 ∧ s.arrOn c i = true ∧
      ∀ j < 3, s.arrOn c j = true → load i ≤ load j ∧ (load i = load j → i ≤ j)) ∧
    ((∃ j < 3, s.arrOn c j = true) → ∃ i, s.targetArr c f = some i)
/-- R36, R37, R47: a legal array operation, whose ranges lie in memories that are not OFF, takes a place in the queue of the array it names (or of the one
the sequencer chooses), if the queue and the scoreboard have room. R36, R39, R40, R41, R492: a start takes the queue's head of an enabled array; on a
cold one the ramp runs first; the ramp's steps lead to warm, where the fill begins, or to cold; a warm array that is idle, and not held or disabled,
asks for its ramp down. A ramp begins when the governor of its die admits it: at once while it has room. WARM ramps each enabled array it names and
restarts its hold count, whose end leaves the array to its idle timer. -/
def Obligations.ArrayOperationsQueueAndStart : Prop :=
  (∀ (c : CoreId) (w0 w1 w2 w3 : Word) (s : State) (i : Nat),
      let f := arrFields w0 w1 w2 w3
      s.Ready c 4 → f.cls = 3 → f.len = 2 → f.fieldsOk = true → s.targetArr c f = some i → f.rangesOk = true →
      (∀ r ∈ f.outWindow :: f.reads, s.segOff c r = false) →
      ((s.core c).arr i).queue.length < 4 → (s.core c).inFlight.length < 16 →
      ∃ t, exec (.arrayOperation c w0 w1 w2 w3) s = .next t ∧
        ArrNow c i { (s.core c).arr i with queue := ((s.core c).arr i).queue ++
            [⟨w0, w1, w2, w3, (s.core c).pc, (s.core c).seq, f.half, s.kdesc c f.kdesc, false, false, 0, false⟩] }
          { s.moved c 4 with seq := (s.core c).seq + 1 } s t) ∧
  (∀ (c : CoreId) (i : Fin 3) (cycle : Nat) (steps : Fin 9) (s : State),
      let a := (s.core c).arr i
      let d := c.val / 200
      let arr := fun t : State => (t.core c).arr i
      (∀ o rest, a.queue = o :: rest → s.arrOn c i = true → (s.core c).canStart c a o = true →
        ∃ t, exec (.arrayOpStart c i cycle) s = .next t ∧ (arr t).queue = rest ∧ (arr t).hold = none ∧ (arr t).halves = (o.half != 0) ∧
          (arr t).running = a.running ++ [{ o with fed := a.ramp.reached == .warm }] ∧ (arr t).first = a.first ∧
          (a.ramp.reached = .warm → (arr t).ramp = .warm) ∧ (a.ramp = .cold → (arr t).ramp = .waitUp ∨ (arr t).ramp = .up 0) ∧
          (a.ramp = .cold → s.rampRoom d cycle → (arr t).ramp = .up 0) ∧ RampsBounded d s t ∧
          (∀ k, k ≠ c.val → (t.core k).pc = (s.core k).pc ∧ (t.core k).sregs = (s.core k).sregs) ∧ Only [.cores, .segs] s t) ∧
      (∀ g, a.ramp = .up g → ∃ t, exec (.arrayRampDone c i steps cycle) s = .next t ∧ RampsOnly c i s t ∧ RampsBounded d s t ∧
        (8 ≤ g + steps.val → arr t = { a with ramp := .warm, running := a.running.map (fun o => { o with fed := true }) }) ∧
        (g + steps.val < 8 → arr t = { a with ramp := .up (g + steps.val) })) ∧
      (∀ g, a.ramp = .down g → ∃ t, exec (.arrayRampDone c i steps cycle) s = .next t ∧ RampsOnly c i s t ∧ RampsBounded d s t ∧
        (g ≤ steps.val → arr t = { a with ramp := .cold }) ∧ (steps.val < g → arr t = { a with ramp := .down (g - steps.val) })) ∧
      (a.ramp = .warm → a.queue = [] → a.running = [] → a.hold = none ∨ s.arrOn c i = false →
        ∃ t, exec (.arrayRampDown c i cycle) s = .next t ∧ RampsOnly c i s t ∧ RampsBounded d s t ∧
          (arr t = { a with ramp := .waitDown } ∨ arr t = { a with ramp := .down 8 }) ∧
          (s.rampRoom d cycle → arr t = { a with ramp := .down 8 })) ∧
      (∃ t, exec (.warmHoldExpiry c i) s = .next t ∧ ArrNow c i { a with hold := none } (s.core c) s t) ∧
      (∀ w : Word, s.Ready c 1 → w.extractLsb' 0 4 = 2 → w.extractLsb' 4 2 = 0 → w.extractLsb' 9 7 = 0 →
        w.extractLsb' 32 32 = 0 → ∃ t, exec (.warm c w) s = .next t ∧ (t.core c).pc = (s.core c).pc + 1 ∧
        (arr t).queue = a.queue ∧ (arr t).running = a.running ∧
        (w.getLsbD (6 + i.val) = true → s.arrOn c i = true → (arr t).hold = some (w.extractLsb' 16 16).toNat ∧
          (a.ramp.reached = .warm → (arr t).ramp = .warm) ∧ (a.ramp = .cold → (arr t).ramp = .waitUp ∨ (arr t).ramp = .up 0)) ∧
        (w.getLsbD (6 + i.val) = false ∨ s.arrOn c i = false → (arr t).hold = a.hold ∧ (a.ramp.waits = false → (arr t).ramp = a.ramp)) ∧
        RampsBounded d s t ∧ (∀ r, t.sreg c r = s.sreg c r) ∧
        (∀ k, k ≠ c.val → (t.core k).pc = (s.core k).pc ∧ (t.core k).sregs = (s.core k).sregs) ∧ Only [.cores] s t))
/-- R29 to R33, R42, R43, R46, R273: the drain of an operation that consumes no poison (and traps on no NaN) writes each element of each unmasked row not
landed before, rounded once, at its place in the scratchpad or the accumulator buffer; no other byte changes. The whole drain takes the operation from
its array; one of some rows leaves it there with those rows landed. (The rounded bits are the model's `drainElem`.) R44, R49, R50: the drain of an
operation that consumes poison writes poison over the output of its unmasked rows and raises ARR_POISON with the operation's address; no byte changes
its value. -/
def Obligations.ArrayDrainsWriteOrPoison : Prop :=
  (∀ (c : CoreId) (i half : Fin 3) (rows : Option Nat) (house : Bool) (s : State) (o : ArrOp),
      s.Drains c i half (o.upto rows) o → o.fields.trap = false →
      let f := o.fields
      let cells := (s.outElems c f).filter (fun e => decide (o.done ≤ e.1) && decide (e.1 < o.upto rows))
      let place := fun e : Nat × Nat => winAddr c (f.outAt e.1 e.2)
      ∃ t : State, exec (.arrayOpDrain c i half rows none house) s = .next t.intakeCheck ∧
        (rows = none → ∀ x ∈ ((t.core c).arr i).running, x.seq ≠ o.seq) ∧
        (rows ≠ none → ∃ x ∈ ((t.core c).arr i).running, x.seq = o.seq ∧ x.done = o.upto rows) ∧
        (t.core c).sregs = (s.core c).sregs ∧ (t.core c).pc = (s.core c).pc ∧
        (∀ e ∈ cells, (∀ e' ∈ cells, e' ≠ e → place e + f.outElem ≤ place e' ∨ place e' + f.outElem ≤ place e) →
          t.le (place e) f.outElem = (s.drainElem c o f e.1 e.2 (e.1 * f.n + e.2)).1 % 2 ^ (8 * f.outElem)) ∧
        (∀ a, (∀ e ∈ cells, a < place e ∨ place e + f.outElem ≤ a) → t.byte a = s.byte a) ∧
        Only [.cores, .mem, .free, .segs] s t) ∧
  (∀ (c : CoreId) (i half : Fin 3) (rows : Option Nat) (house : Bool) (s : State) (o : ArrOp),
      ((s.core c).arr i).running.find? (fun o => o.half == half.val) = some o → o.fed = true → (s.core c).sigs = [] →
      s.maskPoison c o.fields = false → s.consumesPoison c o.fields o.done (o.upto rows) = true →
      ∃ t : State, exec (.arrayOpDrain c i half rows none house) s = .next t.intakeCheck ∧
        (∀ e ∈ s.outElems c o.fields, o.fields.outElem ≠ 0 → t.poisoned (winAddr c (o.fields.outAt e.1 e.2)) o.fields.outElem = true) ∧
        (∀ a, t.byte a = s.byte a) ∧
        (s.rd (R.CORE.AFAULT.VALID c) = 0 → t.rd (R.CORE.AFAULT.CODE c) = 0x1004 ∧ t.rd (R.CORE.AFAULT.ARRAY c) = i.val ∧
          t.rd (R.CORE.AFAULT.HALF c) = half.val ∧ t.rd (R.CORE.AFAULT.PC c) = o.pc % 8192) ∧
        (s.rd (R.CORE.CTL.FAULT_ACT c) = 0 → (t.core c).running = false ∧ (t.core c).faultHalt = true))
/-- R91 to R96 (Tables 3-5 to 3-9): each vector instruction, when it issues, computes its results and enters flight with its flags; it completes later.
Every result stands at its element's place in the row that is to land; a NaN produced with TRAP = 1 marks it, unless poison does. No byte of memory
and no scalar register changes yet. (The elements are the model's `vecResults`, one per destination element.) R95, R96, R273: a vector operation's
rows land one by one, and it completes: what has not landed does, and its flags are ORed into the flags word, unless a NaN trapped it; a trap raises
ARR_NAN and consumed poison ARR_POISON, with CORE.AFAULT.ARRAY = 3 and the operation's address. -/
def Obligations.VectorInstructionsWriteAndFlag : Prop :=
  (∀ (c : CoreId) (w0 w1 : Word) (s : State),
      let v := s.vecOps c (vecFields w0 w1)
      let rs := s.vecResults c v
      let run := fun (op : Nat) (i : Instr) => s.VecReady c op w0 w1 →
        ∃ t pend, exec i s = .next t ∧ (t.core c).pc = (s.core c).pc + 2 ∧ (t.core c).sregs = (s.core c).sregs ∧
          (t.core c).vecs = (s.core c).vecs ++ [pend] ∧ pend.pc = (s.core c).pc ∧ pend.seq = (s.core c).seq ∧
          (t.core c).seq = (s.core c).seq + 1 ∧ pend.flagAddr = v.flags ∧ pend.poison = s.vecPoison c v ∧
          (op ≠ 8 → (pend.trap = true ↔ v.f.trap = true ∧ s.vecPoison c v = false ∧ ∃ e ∈ rs, e.2.2.fl.nan = true)) ∧
          (∀ e ∈ rs, rowElem v.f.dsp v.f.dstFmt (pend.data.getD e.1 []) e.2.1 = e.2.2.bits % 2 ^ rowWidth v.f.dsp v.f.dstFmt) ∧
          (∀ k, k ≠ c.val → t.core k = s.core k) ∧ Only [.cores, .segs] s t
      run 0x0 (.vecCvt c w0 w1) ∧ run 0x1 (.vecAmax c w0 w1) ∧ run 0x2 (.vecScale c w0 w1) ∧ run 0x3 (.vecAdd c w0 w1) ∧
      run 0x4 (.vecMul c w0 w1) ∧ run 0x5 (.vecAxpy c w0 w1) ∧ run 0x6 (.vecMax c w0 w1) ∧ run 0x7 (.vecDropout c w0 w1) ∧
      run 0x8 (.vecCheck c w0 w1) ∧ run 0x9 (.vecExp c w0 w1) ∧ run 0xa (.vecLog c w0 w1) ∧ run 0xb (.vecRsqrt c w0 w1) ∧
      run 0xc (.vecRecip c w0 w1) ∧ run 0xd (.vecSigm c w0 w1) ∧ run 0xe (.vecRowsum c w0 w1) ∧ run 0xf (.vecRowmax c w0 w1)) ∧
  (∀ (c : CoreId) (s : State) (v : VecPend) (rest : List VecPend), (s.core c).vecs = v :: rest → (s.core c).sigs = [] →
      let row := fun r : Nat => (winAddr c (v.dstAddr + r * v.stride), v.rowBytes)
      let apart := fun r : Nat => ∀ r' < v.rows, r' ≠ r → (row r').1 + v.rowBytes ≤ (row r).1 ∨ (row r).1 + v.rowBytes ≤ (row r').1
      (v.trap = false → v.poison = false → ∀ n : Nat, ∃ t : State, exec (.vecComplete c (some n)) s = .next t.intakeCheck ∧
        (t.core c).vecs = { v with done := min (max n v.done) v.rows } :: rest ∧
        (∀ r, apart r → v.done ≤ r → r < min (max n v.done) v.rows → ∀ k < v.rowBytes, t.byte ((row r).1 + k) = Tab.get 0 (v.data.getD r []) k) ∧
        (∀ b, (∀ r, v.done ≤ r → r < min (max n v.done) v.rows → b < (row r).1 ∨ (row r).1 + v.rowBytes ≤ b) → t.byte b = s.byte b) ∧
        (t.core c).sregs = (s.core c).sregs ∧ (t.core c).pc = (s.core c).pc) ∧
      (v.trap = false → v.poison = false → ∃ t : State, exec (.vecComplete c none) s = .next t.intakeCheck ∧ (t.core c).vecs = rest ∧
        (t.core c).sregs = (s.core c).sregs ∧ (t.core c).pc = (s.core c).pc ∧ (t.core c).running = (s.core c).running ∧
        (v.flagAddr = none → v.blocks = [] → ∀ r, apart r → v.done ≤ r → r < v.rows →
          ∀ k < v.rowBytes, t.byte ((row r).1 + k) = Tab.get 0 (v.data.getD r []) k) ∧
        (v.done = v.rows → v.blocks = [] → v.flagAddr = none → ∀ b, t.byte b = s.byte b) ∧
        (v.done = v.rows → v.blocks = [] → ∀ a, v.flagAddr = some a →
          t.le (winAddr c a) 8 = flagsWord (s.le (winAddr c a) 8) v.flags v.ovfCount % 2 ^ 64 ∧
          (∀ b, b < winAddr c a ∨ winAddr c a + 8 ≤ b → t.byte b = s.byte b)) ∧ Only [.cores, .mem, .segs] s t) ∧
      (v.trap = true ∨ v.poison = true → ∃ t : State, exec (.vecComplete c none) s = .next t.intakeCheck ∧
        (s.rd (R.CORE.AFAULT.VALID c) = 0 → t.rd (R.CORE.AFAULT.CODE c) = (if v.trap then 0x1003 else 0x1004) ∧
          t.rd (R.CORE.AFAULT.ARRAY c) = 3 ∧ t.rd (R.CORE.AFAULT.PC c) = v.pc % 8192) ∧
        (s.rd (R.CORE.CTL.FAULT_ACT c) = 0 → (t.core c).running = false ∧ (t.core c).faultHalt = true) ∧
        (s.rd (R.CORE.CTL.FAULT_ACT c) = 1 → (t.core c).running = (s.core c).running ∧ (t.core c).vecs = rest)))
/-- R70, R93 (Table 3-7): the element that each element-wise vector operation computes is the exact result of its operation on the source values, rounded
once to the destination format; where no result is exact it is the correctly rounded one. -/
def Obligations.VectorElementsRoundTheExactResult : Prop :=
  ∀ (c : CoreId) (s : State) (v : VecOps) (r q : Nat),
    let f := v.f
    let x := s.vecSrc c v r q
    let y := s.vecX c v r q
    let round := fun w : Val => (fmtOf f.dfmt).round (s.vecRnd c f r q) f.ovf w
    let bits := (s.vecElem c v r q).bits
    let gives := fun w : Val => (round w).unstated = false → bits = (round w).bits
    let scalar := fun lo : Nat => Fmt.fp32.decode (v.p / 2 ^ lo % 2 ^ 32)
    let scale := if f.scaled then s.vecScale c v r q else .ofQ (Q.ofInt 1)
    let near := fun b : Nat → Q × Q => ((fmtOf f.dfmt).roundB (s.vecRnd c f r q) f.ovf b).bits
    (f.op = 0x0 → f.widens = false → x.isZero = false → gives (x.mul scale)) ∧
    (f.op = 0x0 → ∀ n z m w, x = .fin n z → scale = .fin m w → w.m ≠ 0 → (z.m = 0 → gives (.zero n)) ∧
      (z.m ≠ 0 → f.widens = true → gives (.ofQ (z.div w)))) ∧
    (f.op = 0x3 → gives (x.add y)) ∧ (f.op = 0x4 → gives (x.mul y)) ∧ (f.op = 0x5 → gives (x.fma (scalar 0) y)) ∧
    (f.op = 0x6 → (x.isZero = false ∨ y.isZero = false) → x.isNan = false → y.isNan = false → gives (if x.lt y then y else x)) ∧
    (f.op = 0x6 → x.isNan = true ∨ y.isNan = true → gives .nan) ∧
    (f.op = 0x7 → (s.vecWord c f r q).toNat < v.p % 2 ^ 32 → gives (.zero false)) ∧
    (f.op = 0x7 → v.p % 2 ^ 32 ≤ (s.vecWord c f r q).toNat → gives (x.mul (scalar 32))) ∧
    (f.op = 0x9 → ∀ n z, x = .fin n z → bits = near z.expB) ∧
    (f.op = 0xa → ∀ n z, x = .fin n z → z.m ≠ 0 → (z.isNeg = false → bits = near z.lnB) ∧ (z.isNeg = true → gives .nan)) ∧
    (f.op = 0xb → ∀ n z, x = .fin n z → z.m ≠ 0 → (z.isNeg = false → bits = near z.rsqrtB) ∧ (z.isNeg = true → gives .nan)) ∧
    (f.op = 0xc → ∀ n z, x = .fin n z → z.m ≠ 0 → gives (.ofQ z.inv)) ∧
    (f.op = 0xd → ∀ n z, x = .fin n z → bits = near z.sigmB)
/-- R10, R56, R271, R285 (Table 2-13): a legal transfer between ranges that the core may reach, that waits for no earlier access and finds room among the
module's transactions, enters flight; its bytes have not moved yet. A store to another module opens a remote access. R270, R273, R285 (Table 9-3): a
local transfer that completes has copied every row; then, with CW = 1, its completion word waits as a release store at MODULE scope, written at once
where nothing earlier is outstanding: its destination address, STATUS 0 where no source byte was poisoned and 1 where one was, and bit 63. A transfer
may read its rows before that. No other byte changes. -/
def Obligations.TransfersStartAndCopyRows : Prop :=
  (∀ (c : CoreId) (w0 w1 : Word) (s : State),
      let f := xferFields w0 w1
      let sa := (s.sreg c f.sreg).toNat
      let da := (s.sreg c f.dreg).toNat
      let n := (s.sreg c f.lreg).toNat
      let cwa := (s.sreg c f.creg).toNat
      let src := s.xferEnd c f.ssp sa
      let dst := s.xferEnd c f.dsp da
      let x : XferPend := ⟨(s.core c).pc, (s.core c).seq, src.addr, dst.addr, src.mod, dst.mod, n, f.rows, f.sstride,
          f.dstride, da % 2 ^ 48, if f.cw then some cwa else none, none, [], []⟩
      let span := fun (e : XEnd) (stride : Nat) => if e.mod.isNone then [rowsRange e.addr f.rows n stride] else []
      s.Ready c 2 → f.cls = 4 → f.len = 1 → f.rsv = 0 → 0 < n → n ≤ 2097152 → s.mayTransact = true →
      s.mustWait c (span src f.sstride) (span dst f.dstride ++ (if f.cw then [(cwa, 8)] else [])) = false →
      s.xferCheck c f.ssp sa n f.rows f.sstride false = .ok → s.xferCheck c f.dsp da n f.rows f.dstride true = .ok →
      (f.cw = true → s.xferCheck c 2 cwa 8 1 0 true = .ok) →
      ∃ t, exec (.xfer c w0 w1) s = .next t ∧ (t.core c).pc = (s.core c).pc + 2 ∧ (t.core c).sregs = (s.core c).sregs ∧
        (dst.mod = none → CoreNow c { s.moved c 2 with xfers := (s.core c).xfers ++ [x], seq := (s.core c).seq + 1 } s t) ∧
        (∀ m, dst.mod = some m → s.slotOfJob (s.jobOfCore c) = none →
          t.core c = { s.moved c 2 with xfers := (s.core c).xfers ++ [x], seq := (s.core c).seq + 1 } ∧
          t.chip.remotes = s.chip.remotes ++ [⟨16, 0, c, x.seq, .xfer x.seq, m, dst.addr, f.rows * n, 0⟩] ∧ Only [.cores, .remotes] s t)) ∧
  (∀ (c : CoreId) (n : Nat) (x : XferPend) (s : State), (s.core c).xfers[n]? = some x → s.Moves c x →
      let bad := (List.range x.rows).any (fun r => !(s.rowOfXfer x r).pois.isEmpty)
      let outside := fun b : Nat => ∀ r < x.rows, b < x.dst + r * x.dstride ∨ x.dst + r * x.dstride + x.rowBytes ≤ b
      (x.cw = none → ∃ t : State, exec (.xferComplete c n .localDone) s = .next t.intakeCheck ∧ (∀ y ∈ (t.core c).xfers, y.seq ≠ x.seq) ∧
        (t.core c).sregs = (s.core c).sregs ∧ (t.core c).pc = (s.core c).pc ∧
        (∀ r < x.rows, ∀ i < x.rowBytes, t.byte (x.dst + r * x.dstride + i) = Tab.get 0 (s.rowOfXfer x r).data i) ∧
        (∀ b, outside b → t.byte b = s.byte b) ∧ Only [.cores, .mem, .segs, .upd] s t) ∧
      (∀ a, x.cw = some a → s.offAt a 8 = none → s.held a 8 = false → s.outstanding c 3 x.seq = false →
        outside a → (∀ r < x.rows, a + 8 ≤ x.dst + r * x.dstride ∨ x.dst + r * x.dstride + x.rowBytes ≤ a) →
        ∃ t : State, exec (.xferComplete c n .localDone) s = .next t.intakeCheck ∧
          (∀ r < x.rows, ∀ i < x.rowBytes, t.byte (x.dst + r * x.dstride + i) = Tab.get 0 (s.rowOfXfer x r).data i) ∧
          t.le a 8 = (x.daddr + (if bad then 2 ^ 48 else 0) + 2 ^ 63) % 2 ^ 64 ∧
          (∀ b, outside b → b < a ∨ a + 8 ≤ b → t.byte b = s.byte b)) ∧
      (x.buf = none → x.srcMod = none → ∃ t : State, exec (.xferComplete c n .sourceRead) s = .next t.intakeCheck ∧
        { x with buf := some ((List.range x.rows).map (fun r => s.cut (x.src + r * x.sstride) x.rowBytes)) } ∈ (t.core c).xfers ∧
        (∀ a, t.byte a = s.byte a) ∧ Only [.cores, .segs] s t))
/-- R277, R279, Table 9-2: FENCE holds the stream until nothing that it waits for is outstanding; WAIT holds it until a read of its word meets the
condition; a time limit ends the WAIT with SYNC_TIMEOUT, where TMO is not 0. R278, R281, R283 (Table 9-2): a SIGNAL to a word of its own module moves
the counter on; it stores s[B] at once where nothing earlier is outstanding at its scope, and else waits beside the stream. Each atomic there replaces
the word by its new value and puts the old one into s[D]; no other byte changes. -/
def Obligations.FenceWaitSignalAndAtomics : Prop :=
  (∀ (c : CoreId) (w : Word) (s : State),
      let f := syncFields w
      let a := (s.sreg c f.a).toNat
      (s.SyncReady c 0 w → ∃ t, exec (.fence c w) s = .next t ∧
        CoreNow c { s.moved c 1 with stall := .fence f.scope (s.core c).seq } s t) ∧
      (∀ sc q, (s.core c).stall = .fence sc q → (s.outstanding c sc q = false → ∃ t, exec (.fenceDone c) s = .next t ∧
        CoreNow c { s.core c with stall := .none } s t) ∧ (s.outstanding c sc q = true → exec (.fenceDone c) s = .next s)) ∧
      (s.SyncReady c 1 w → f.gaddr = 0 → s.syncCheck c ⟨none, a⟩ true false = .ok → ∃ t, exec (.wait c w) s = .next t ∧
        CoreNow c { s.moved c 1 with stall := .wait w } s t) ∧
      ((s.core c).stall = .wait w → s.offAt a 8 = none → s.poisoned a 8 = false → s.held a 8 = false → s.mustWait c [(a, 8)] [] = false →
        let word : Word := BitVec.ofNat 64 (s.le a 8) &&& (if f.d = 0 then -1 else s.sreg c f.d)
        ∃ t, exec (.waitSatisfied c) s = .next t ∧ Only [.cores, .segs] s t ∧ (∀ k, k ≠ c.val → t.core k = s.core k) ∧
          t.core c = (if (f.cond = 0 ∧ word = s.sreg c f.b) ∨ (f.cond = 1 ∧ word ≠ s.sreg c f.b) ∨
            (2 ≤ f.cond ∧ (s.sreg c f.b).toNat ≤ word.toNat) then { s.core c with stall := .none } else s.core c)) ∧
      ((s.core c).stall = .wait w → f.tmo = 0 → exec (.syncTimeout c) s = .next s) ∧
      ((s.core c).stall = .wait w → f.tmo ≠ 0 → ∃ t, exec (.syncTimeout c) s = .next t ∧ (t.core c).stall = .none ∧
        (s.rd (R.CORE.AFAULT.VALID c) = 0 → t.rd (R.CORE.AFAULT.CODE c) = 0x1007 ∧
          t.rd (R.CORE.AFAULT.PC c) = ((s.core c).pc - 1) % 8192))) ∧
  (∀ (c : CoreId) (w : Word) (s : State),
      let f := syncFields w
      let e := s.xferEnd c (2 + f.gaddr) (s.sreg c f.a).toNat
      let b := s.sreg c f.b
      let old : Word := BitVec.ofNat 64 (s.le e.addr 8)
      e.mod = none → s.held e.addr 8 = false →
      (s.SyncReady c 2 w → s.syncCheck c e true true = .ok → s.offAt e.addr 8 = none → (s.core c).sigs = [] →
        (s.outstanding c f.scope (s.core c).seq = false → ∃ t : State, exec (.signal c w) s = .next t.intakeCheck ∧ t.le e.addr 8 = b.toNat ∧
          (t.core c).pc = (s.core c).pc + 1 ∧ (t.core c).sregs = (s.core c).sregs ∧ (t.core c).sigs = [] ∧
          (∀ a, a < e.addr ∨ e.addr + 8 ≤ a → t.byte a = s.byte a) ∧ Only [.cores, .mem, .segs, .upd] s t) ∧
        (s.outstanding c f.scope (s.core c).seq = true → ∃ t : State, exec (.signal c w) s = .next t.intakeCheck ∧
          CoreNow c { s.moved c 1 with seq := (s.core c).seq + 1, sigs := [⟨(s.core c).seq, f.scope, e.addr, none, b.toNat⟩] } s t)) ∧
      (s.SyncReady c 3 w → s.syncCheck c e false true = .ok → s.poisoned e.addr 8 = false →
        s.outstanding c f.scope (s.core c).seq = false → s.mustWait c [] [(e.addr, 8)] = false →
        let run := fun (op : Nat) (i : Instr) (new : Word) => f.aop = op → ∃ t : State, exec i s = .next t.intakeCheck ∧ t.le e.addr 8 = new.toNat ∧
          CtlDone c ((s.core c).pc + 1) f.d old s
            { t with mem := s.mem, poison := s.poison, upd := s.upd, chip := { t.chip with segs := s.chip.segs } } ∧
          (∀ a, a < e.addr ∨ e.addr + 8 ≤ a → t.byte a = s.byte a) ∧ Only [.cores, .mem, .segs, .upd] s t
        run 0 (.atomicAdd c w) (old + b) ∧ run 1 (.atomicSwap c w) b ∧
        run 2 (.atomicCas c w) (if old = s.sreg c f.d then b else old) ∧ run 3 (.atomicAnd c w) (old &&& b) ∧
        run 4 (.atomicOr c w) (old ||| b) ∧ run 5 (.atomicUmax c w) (if old.toNat < b.toNat then b else old) ∧
        run 6 (.atomicUmin c w) (if b.toNat < old.toNat then b else old)))
/-- R358, R359, R369 (Table 13-5): where each event takes a fabric port from each of its states. A port that leaves ACTIVE loses its replay buffer and
credits; what it had not sent goes to other ports. A hold moves flits of VC0 alone. -/
def Obligations.FabricPortStates : Prop :=
  ∀ (port : Port) (s : State),
    let p := port.val
    let goes := fun (i : Instr) (st : Nat) (more : State → Prop) => ∃ t, exec i s = .next t ∧ PortTo p st s t ∧ more t
    (s.portState p = 0 → s.boot.portsOff = false → s.rd R.RAS.STAT.STATE = 0 →
      goes (.portEnable port) 1 (fun t => t.rd (R.FAB.CTL.EN p) = 1 ∧ Only [.regs] s t)) ∧
    (goes (.portDisable port) 0 (fun t => t.rd (R.FAB.CTL.EN p) = 0)) ∧
    (s.portState p = 1 → goes (.signalDetect port) 2 (fun t => Only [.regs] s t)) ∧
    (s.portState p = 2 ∨ s.portState p = 6 → goes (.trainingDone port) 3 (fun t => (t.port p).fails = 0 ∧
      (t.port p).gotProbe = false ∧ (t.port p).gotAck = false ∧ Only [.regs, .fab, .free] s t)) ∧
    (s.portState p = 6 → goes (.trainingFail port) 1 (fun t => Only [.regs] s t)) ∧
    (s.portState p = 2 → (s.port p).fails < 3 → goes (.trainingFail port) 1 (fun t => (t.port p).fails = (s.port p).fails + 1)) ∧
    (s.portState p = 2 → 3 ≤ (s.port p).fails → goes (.trainingFail port) 8 (fun t => PortLogs p 0x3003 s t)) ∧
    (s.portState p = 3 → goes (.probeTimeout port) 1 (fun t => t.rd (R.FAB.STAT.LEVEL p) = 0 ∧ Only [.regs] s t)) ∧
    (s.portState p = 4 ∨ s.portState p = 5 → goes (.lossOfSignal port) 1 (fun t => PortLogs p 0x3002 s t ∧
      t.rd (R.FAB.LL_CNT.DOWNS p) = min (s.rd (R.FAB.LL_CNT.DOWNS p) + 1) 0xffff ∧ (t.port p).credits = [] ∧
      (t.port p).replay = [] ∧ (t.port p).queue = [])) ∧
    (s.portState p = 7 → goes (.lossOfSignal port) 1 (fun t => t.rd (R.FAB.STAT.QREASON p) = 0)) ∧
    (s.portState p = 8 → goes (.failedHoldoff port) 1 (fun t => Only [.regs] s t)) ∧
    (s.portState p = 4 → s.rd (R.FAB.CTL.WAX_EN p) = 1 → (∀ q < 32, s.portState q ≠ 5) →
      goes (.waxDue port) 5 (fun t => ((∀ e ∈ (s.port p).queue, e.1.vc ≠ 0) → t.port p = s.port p) ∧ Only [.regs, .fab] s t)) ∧
    (∀ ns : BitVec 16, s.portState p = 5 → goes (.waxDone port true ns) 4 (fun t =>
      t.rd (R.FAB.WAX.COUNT p) = min (s.rd (R.FAB.WAX.COUNT p) + 1) 0xffffffff ∧ t.rd (R.FAB.WAX.LAST_NS p) = ns.toNat)) ∧
    (∀ ns : BitVec 16, s.portState p = 5 → goes (.waxDone port false ns) 6 (fun t => PortLogs p 0x300b s t ∧
      t.rd (R.FAB.WAX.FAILS p) = min (s.rd (R.FAB.WAX.FAILS p) + 1) 0xffff ∧
      t.rd (R.FAB.LL_CNT.RETRAINS p) = min (s.rd (R.FAB.LL_CNT.RETRAINS p) + 1) 0xffff)) ∧
    (∀ cc uc : BitVec 32, s.portState p = 4 → s.rd (R.FAB.CTL.UNCORR_MAX p) < uc.toNat → goes (.fecErrorLimit port cc uc) 6 (fun t =>
      t.rd (R.FAB.FEC_CNT.CORR_CW p) = min (s.rd (R.FAB.FEC_CNT.CORR_CW p) + cc.toNat) 0xffffffff ∧
      t.rd (R.FAB.FEC_CNT.UNCORR_CW p) = min (s.rd (R.FAB.FEC_CNT.UNCORR_CW p) + uc.toNat) 0xffffffff ∧ PortLogs p 0x3002 s t)) ∧
    (∀ cc uc : BitVec 32, uc.toNat ≤ s.rd (R.FAB.CTL.UNCORR_MAX p) → goes (.fecErrorLimit port cc uc) (s.portState p) (fun t =>
      t.rd (R.FAB.FEC_CNT.CORR_CW p) = min (s.rd (R.FAB.FEC_CNT.CORR_CW p) + cc.toNat) 0xffffffff ∧
      t.rd (R.FAB.FEC_CNT.UNCORR_CW p) = min (s.rd (R.FAB.FEC_CNT.UNCORR_CW p) + uc.toNat) 0xffffffff ∧ Only [.regs] s t))
/-- R361, R362 (Table 13-7): in PROBE, a probe or an acknowledgement with a bad tag, and a probe that a rule refuses, quarantine the port with its reason
and code; an accepted probe records the partner; the port is ACTIVE once both the probe and the acknowledgement of its own challenge are good. R363 to
R366: an update on a tray or rack port, from another member of the rack whose serial number agrees, replaces that member's entries if its sequence is
higher; one with the own ID and another serial number quarantines every port that is not DISABLED; one whose tag fails is dropped. A switch's newer
advertisement is kept. -/
def Obligations.PartnersAndTopology : Prop :=
  (∀ (port : Port) (f : ProbeF) (chal : Word) (s : State), s.portState port.val = 3 →
      let p := port.val
      let refused := fun (i : Instr) (reason code : Nat) => ∃ t, exec i s = .next t ∧ PortTo p 7 s t ∧
        t.rd (R.FAB.STAT.QREASON p) = reason ∧ PortLogs p code s t
      refused (.probe port f false) 1 0x3004 ∧ refused (.probeAck port chal false) 1 0x3004 ∧
      (f.fabric.toNat ≠ s.rd R.FABG.ID.FABRIC → refused (.probe port f true) 1 0x3004) ∧
      (f.fabric.toNat = s.rd R.FABG.ID.FABRIC → 0x0700 ≤ f.version.toNat → f.version.toNat ≤ 0x07ff →
        refused (.probe port f true) 2 0x3005) ∧
      (f.fabric.toNat = s.rd R.FABG.ID.FABRIC → f.version = 0x0900 → f.ptype = 1 → f.module.toNat = s.moduleId →
        refused (.probe port f true) 3 0x3006) ∧
      (f.fabric.toNat = s.rd R.FABG.ID.FABRIC → f.version.toNat < 0x0700 ∨ 0x07ff < f.version.toNat → f.version ≠ 0x0900 → f.ptype = 2 →
        refused (.probe port f true) 4 0x3007) ∧
      (s.probeRefusal p f = none → f.ptype = 1 ∨ f.ptype = 2 → ∃ t, exec (.probe port f true) s = .next t ∧
        PortTo p (if (s.port p).gotAck then 4 else 3) s t ∧ (t.port p).gotProbe = true ∧
        t.rd (R.FAB.STAT.PTYPE p) = f.ptype.toNat ∧ t.rd (R.FAB.STAT.LEVEL p) = s.partnerLevel p f ∧
        t.rd (R.FAB.PARTNER.MODULE p) = (if f.ptype = 1 then f.module.toNat else 0) ∧ t.rd (R.FAB.PARTNER.PORT p) = f.port.toNat ∧
        t.rd (R.FAB.PARTNER.RACK p) = f.rack.toNat ∧ t.rd (R.FAB.PARTNER.TRAY p) = f.tray.toNat ∧
        t.rd (R.FAB.PARTNER.SLOT p) = f.slot.toNat) ∧
      (s.probeRefusal p f = none → f.ptype = 0 ∨ f.ptype = 3 → exec (.probe port f true) s = .next s) ∧
      (chal.toNat = (s.port p).chal → ∃ t, exec (.probeAck port chal true) s = .next t ∧
        PortTo p (if (s.port p).gotProbe then 4 else 3) s t ∧ (t.port p).gotAck = true) ∧
      (chal.toNat ≠ (s.port p).chal → exec (.probeAck port chal true) s = .next s)) ∧
  (∀ (port : Port) (u : TopoUpd) (racks : List (Fin 1024)) (seq : BitVec 32) (s : State), s.portUp port = true →
      let m := u.module.toNat
      let level := s.rd (R.FAB.STAT.LEVEL port)
      (level = 1 ∨ level = 2 → m / 64 = s.rd R.FABG.ID.RACK → m ≠ s.moduleId →
        (s.fab.topo.any (fun e => e.1 == m % 64) = true → (s.topo (m % 64)).serial = u.serial.toNat ∧ (s.topo (m % 64)).seq < u.seq.toNat) →
        ∃ t, exec (.topologyUpdate port u true) s = .next t ∧ t.topo (m % 64) = ⟨u.serial.toNat, u.seq.toNat, u.ents⟩ ∧
          (∀ k, k ≠ m % 64 → t.topo k = s.topo k) ∧
          t.rd R.FABG.TOPO_STAT.GEN = (s.rd R.FABG.TOPO_STAT.GEN + 1) % 2 ^ 32 ∧ Only [.fab, .regs, .free] s t) ∧
      (level = 1 ∨ level = 2 → m / 64 = s.rd R.FABG.ID.RACK → m ≠ s.moduleId → s.fab.topo.any (fun e => e.1 == m % 64) = true →
        (s.topo (m % 64)).serial = u.serial.toNat → u.seq.toNat ≤ (s.topo (m % 64)).seq → exec (.topologyUpdate port u true) s = .next s) ∧
      (level = 1 ∨ level = 2 → m / 64 = s.rd R.FABG.ID.RACK → m = s.moduleId → u.serial.toNat ≠ Config.serial.toNat →
        ∃ t, exec (.topologyUpdate port u true) s = .next t ∧
          ∀ p < 32, t.portState p = (if s.portState p = 0 then 0 else 7) ∧ (s.portState p ≠ 0 → t.rd (R.FAB.STAT.QREASON p) = 3)) ∧
      (level = 1 ∨ level = 2 → m / 64 = s.rd R.FABG.ID.RACK → ∃ t, exec (.topologyUpdate port u false) s = .next t ∧ t.fab = s.fab ∧
        t.rd R.FABG.DROP.TAG_FAIL = min (s.rd R.FABG.DROP.TAG_FAIL + 1) 0xffffffff) ∧
      (s.rd (R.FAB.STAT.PTYPE port) = 2 → (∀ a, Tab.get none s.fab.advert port = some a → a.seq < seq.toNat) →
        ∃ t, exec (.reachAdvert port racks seq) s = .next t ∧ Tab.get none t.fab.advert port = some ⟨seq.toNat, racks.map Fin.val⟩ ∧
          (∀ q, t.portState q = s.portState q) ∧ Only [.fab, .regs, .free] s t) ∧
      (∀ a, Tab.get none s.fab.advert port = some a → seq.toNat ≤ a.seq → exec (.reachAdvert port racks seq) s = .next s))
/-- R351, R352, R353 (Tables 13-2, 13-3): the receiver of a flit discards one with a bad CRC, and one out of sequence, and answers it with NAK and the
last SEQ received in order; a good one advances the expected sequence, frees what it acknowledges, brings its credits and is acknowledged; a negative
acknowledgement counts a replay. A port sends a waiting message of one flit while it has a credit for its channel and room in its replay buffer. R371
(Table 13-8): a frame that passes every check gives its flits to the link layer in their order, any other is lost; a pause frame for the port's
priority holds its sender, until one with a time of 0. A frame carries 16 flits at most. -/
def Obligations.FlitsAndFramesAreReceived : Prop :=
  (∀ (port : Port) (h : FlitHdr) (s : State),
      let p := port.val
      let x := s.port p
      let here := fun (t : State) (y : PortSt) => t.port p = y ∧ (∀ q, q ≠ p → t.port q = s.port q) ∧ Only [.fab] s t
      let last : BitVec 12 := BitVec.ofNat 12 (x.rxSeq + 4095)
      let upTo := fun (k : Nat) (l : List Flit) => if l.any (fun f => f.seq == k) then (l.dropWhile (fun f => f.seq != k)).drop 1 else l
      (s.portUp p = false → s.portState p ≠ 3 → ∀ crc, exec (.flitReceive port h crc) s = .next s) ∧
      (s.portUp p = true ∨ s.portState p = 3 →
        (∀ crc, crc = false ∨ (h.idle = false ∧ h.seq.toNat ≠ x.rxSeq) → ∃ t, exec (.flitReceive port h crc) s = .next t ∧
          here t { x with reply := some ⟨0, 0, last, true, 0, 0, false, false, true⟩ }) ∧
        (h.idle = true ∨ h.seq.toNat = x.rxSeq → h.nak = false → x.queue = [] → ∃ t, exec (.flitReceive port h true) s = .next t ∧
          here t { x with
            rxSeq := if h.idle then x.rxSeq else (x.rxSeq + 1) % 4096
            credits := Tab.set 0 x.credits h.crVc.val (Tab.get 0 x.credits h.crVc.val + h.cred.toNat)
            acked := h.ack.toNat
            replay := upTo h.ack.toNat x.replay
            resends := if h.ack.toNat = x.acked then x.resends else 0
            reply := if h.idle then x.reply else some ⟨0, 0, BitVec.ofNat 12 ((x.rxSeq + 1) % 4096 + 4095), false, h.vc, 1, false, false, true⟩ }) ∧
        (h.idle = true ∨ h.seq.toNat = x.rxSeq → h.nak = true → h.ack.toNat ≠ x.acked → ∃ t, exec (.flitReceive port h true) s = .next t ∧
          (t.port p).resends = 1 ∧ t.rd (R.FAB.LL_CNT.REPLAYS p) = min (s.rd (R.FAB.LL_CNT.REPLAYS p) + 1) 0xffffffff ∧
          PortTo p (s.portState p) s t ∧ PortLogs p 0x3001 s t)) ∧
      (s.portState p = 4 → h.idle = true ∨ h.seq.toNat = x.rxSeq → h.nak = true → h.ack.toNat = x.acked → 15 ≤ x.resends →
        ∃ t, exec (.flitReceive port h true) s = .next t ∧ PortTo p 6 s t) ∧
      (∀ m, s.portState p = 4 → x.queue = [(m, 1)] → m.flits = 1 → h.idle = true → h.nak = false → h.cred = 0 → x.pause = 0 →
        (upTo h.ack.toNat x.replay).length < 1024 → 0 < Tab.get 0 x.credits m.vc →
        ∃ t, exec (.flitReceive port h true) s = .next t ∧ (t.port p).queue = [] ∧
          (t.port p).replay = upTo h.ack.toNat x.replay ++ [⟨x.txSeq, m, true, true⟩] ∧ (t.port p).txSeq = (x.txSeq + 1) % 4096 ∧
          Tab.get 0 (t.port p).credits m.vc + 1 = Tab.get 0 x.credits m.vc)) ∧
  (∀ (port : Port) (d e f : Bool) (v : BitVec 4) (flits : List (FlitHdr × Bool)) (pcp : BitVec 8) (quanta : BitVec 16) (s : State),
      let p := port.val
      (s.rd (R.FAB.CTL.ENCAP p) ≠ 1 ∨ (d && e && f) = false ∨ v ≠ 1 → exec (.ethFrame port d e f v flits) s = .next s) ∧
      (exec (.ethFrame port true true true 1 []) s = .next s) ∧
      (∀ h crc, s.rd (R.FAB.CTL.ENCAP p) = 1 → flits.length < 16 → ∃ t, exec (.flitReceive port h crc) s = .next t ∧
        exec (.ethFrame port true true true 1 ((h, crc) :: flits)) s = exec (.ethFrame port true true true 1 flits) t) ∧
      (16 < flits.length → exec (.ethFrame port d e f v flits) s = .next s) ∧
      (s.rd (R.FAB.CTL.ENCAP p) = 1 → pcp.getLsbD (s.rd (R.FAB.ETH_CFG.PCP p)) = true → ∃ t, exec (.pfcPause port pcp quanta) s = .next t ∧
        (quanta ≠ 0 ∨ (s.port p).queue = [] → t.port p = { s.port p with pause := quanta.toNat }) ∧ (t.port p).pause = quanta.toNat ∧
        (∀ q, q ≠ p → t.port q = s.port q) ∧ Only [.fab] s t) ∧
      (s.rd (R.FAB.CTL.ENCAP p) = 1 → pcp.getLsbD (s.rd (R.FAB.ETH_CFG.PCP p)) = false → exec (.pfcPause port pcp quanta) s = .next s))
/-- R356, R357, R367: a message on a port that is not up changes nothing; one for another module is passed on along its route, or, where none leads there,
not at all; one under the wrong slot, or whose tag is bad, is dropped with FAB_TAG_FAIL; one whose counter was delivered before is dropped as a
duplicate. R281, R283, R360: the answer to a remote access ends it: the old value of an atomic goes to s[D] and the stream goes on; a transfer whose
store was refused has the completion status 2; without an answer the access is sent three times more, and then it is lost with FAB_UNREACHABLE. -/
def Obligations.MessagesAreCheckedAndAnswered : Prop :=
  (∀ (port : Port) (h : THdr) (tok : Bool) (st : SmallTok) (data : List (Byte × Bool)) (op : AOp) (w v : Word) (b : Bool) (s : State),
      let run := fun (fin : State → State) (i : Instr) =>
        (s.portUp port = false → ∃ t : State, exec i s = .next (fin t) ∧ t = s) ∧
        (s.portUp port = true → h.dst.toNat ≠ s.moduleId → s.route ⟨h, 0⟩ = none → ∃ t : State, exec i s = .next (fin t) ∧ t = s) ∧
        (s.portUp port = true → h.dst.toNat ≠ s.moduleId → ∀ p, s.route ⟨h, 0⟩ = some p → s.portState p = 4 → (s.port p).pause ≠ 0 →
          ∃ t : State, exec i s = .next (fin t) ∧ t.port p = { s.port p with queue := (s.port p).queue ++ [(⟨h, 0⟩, TxMsg.flits ⟨h, 0⟩)] } ∧
            (∀ q, q ≠ p → t.port q = s.port q) ∧ Only [.fab] s t) ∧
        (s.portUp port = true → h.dst.toNat = s.moduleId → s.slotFits h = false ∨ tok = false → ∃ t : State, exec i s = .next (fin t) ∧
          t.rd R.FABG.DROP.TAG_FAIL = min (s.rd R.FABG.DROP.TAG_FAIL + 1) 0xffffffff ∧
          (s.rd R.FABG.ERR.VALID = 0 → t.rd R.FABG.ERR.CODE = 0x3009 ∧ t.rd R.FABG.ERR.MODULE = h.src.toNat) ∧
          (∀ a, t.byte a = s.byte a) ∧ (∀ c, t.core c = s.core c) ∧ t.coll = s.coll) ∧
        (s.portUp port = true → h.dst.toNat = s.moduleId → s.slotFits h = true → tok = true →
          (s.window h.keyIdx.val h.src.toNat).dup h.ctr.toNat = true → ∃ t : State, exec i s = .next (fin t) ∧
          t.rd R.FABG.DROP.DUP = min (s.rd R.FABG.DROP.DUP + 1) 0xffffffff ∧ Only [.regs] s t)
      run State.intakeCheck (.smallToken port h tok st) ∧ run (fun t => t) (.chunkRequest port h tok) ∧ run (fun t => t) (.chunkAck port h tok) ∧
        run State.intakeCheck (.remoteStore port h tok data) ∧ run State.intakeCheck (.remoteAtomic port h tok op w v) ∧
        run State.intakeCheck (.storeAck port h tok b) ∧ run State.intakeCheck (.atomicResult port h tok b w)) ∧
  (∀ (port : Port) (h : THdr) (old ctr : Word) (key : Fin 16) (r : Remote) (j : Job) (s : State), s.NoneWaits r.core →
      (s.Delivers port h j → s.remoteOf h = some r → ∀ d, r.kind = .atomic d → h.poisoned = false →
        ∃ t : State, exec (.atomicResult port h true true old) s = .next t.intakeCheck ∧ t.sreg r.core d = (if d.val = 0 then 0 else old) ∧
          (∀ q, q ≠ d.val → t.sreg r.core q = s.sreg r.core q) ∧ (t.core r.core).stall = .none ∧
          t.chip.remotes = s.chip.remotes.erase r ∧ Only [.fab, .cores, .remotes] s t) ∧
      (s.Delivers port h j → s.remoteOf h = some r → ∀ d, r.kind = .atomic d →
        ∃ t : State, exec (.atomicResult port h true false old) s = .next t.intakeCheck ∧ (∀ q, t.sreg r.core q = s.sreg r.core q) ∧
          (t.core r.core).stall = .none ∧ t.chip.remotes = s.chip.remotes.erase r ∧ Only [.fab, .cores, .remotes] s t) ∧
      (s.Delivers port h j → s.remoteOf h = some r → ∃ t : State, exec (.storeAck port h true true) s = .next t.intakeCheck ∧
        t.chip.remotes = s.chip.remotes.erase r ∧ Only [.fab, .remotes] s t) ∧
      (s.Delivers port h j → s.remoteOf h = some r → ∀ (x : XferPend) (a : Nat), r.kind = .xfer x.seq →
        (s.core r.core).xfers = [x] → x.cw = some a → s.offAt a 8 = none → s.held a 8 = false →
        ({ s with chip := { s.chip with remotes := s.chip.remotes.erase r } } : State).outstanding r.core 3 x.seq = false →
        ∃ t : State, exec (.storeAck port h true false) s = .next t.intakeCheck ∧ (t.core r.core).xfers = [] ∧
          t.le a 8 = (x.daddr + 2 * 2 ^ 48 + 2 ^ 63) % 2 ^ 64 ∧ (∀ b, b < a ∨ a + 8 ≤ b → t.byte b = s.byte b)) ∧
      (s.chip.remotes.find? (fun r => r.key == key.val && r.ctr == ctr.toNat) = some r → r.resends < 3 →
        ∃ t : State, exec (.remoteTimeout ctr key) s = .next t.intakeCheck ∧ { r with resends := r.resends + 1 } ∈ t.chip.remotes ∧
          t.chip.remotes.length = s.chip.remotes.length ∧ Only [.remotes, .fab] s t) ∧
      (s.chip.remotes.find? (fun r => r.key == key.val && r.ctr == ctr.toNat) = some r → 3 ≤ r.resends → r.kind = .signal →
        ∃ t : State, exec (.remoteTimeout ctr key) s = .next t.intakeCheck ∧
          (s.rd R.FABG.ERR.VALID = 0 → t.rd R.FABG.ERR.CODE = 0x300a ∧ t.rd R.FABG.ERR.MODULE = r.module % 2 ^ 16) ∧
          (∀ a, t.byte a = s.byte a)))
/-- R440, R521, R522, R318: a remote store that its job's partition may make writes its bytes and is acknowledged, or waits behind a retrain of their
memory; one that it may not make, at an address that lies nowhere, changes no byte and is refused. R281, R283, R440: a remote atomic on a word that
the job's partition may write replaces it and answers with the old value; on a poisoned word it writes nothing and answers with poison; behind a
retrain of the word it waits. -/
def Obligations.RemoteStoresAndAtomics : Prop :=
  (∀ (port : Port) (h : THdr) (data : List (Byte × Bool)) (j : Job) (s : State), s.Delivers port h j → data ≠ [] →
      let a := h.addr.toNat
      (s.reach (some j.part) a data.length true = .ok → s.RemoteFree a data.length →
        ∃ t : State, exec (.remoteStore port h true data) s = .next t.intakeCheck ∧
          (∀ i, ∀ (hi : i < data.length), t.byte (a + i) = data[i].1) ∧
          (∀ b, b < a ∨ a + data.length ≤ b → t.byte b = s.byte b) ∧ Answered h true 0 s t ∧ Seen h t ∧
          Only [.fab, .mem, .cores, .segs, .upd] s t) ∧
      (s.reach (some j.part) a data.length true = .ok → s.held a data.length = true →
        ∃ t : State, exec (.remoteStore port h true data) s = .next t.intakeCheck ∧
          t.fab.heldMsgs = s.fab.heldMsgs ++ [⟨j.part, h, .store data⟩] ∧ Seen h t ∧ Only [.fab] s t) ∧
      (s.reach (some j.part) a data.length true = .unmapped → ∃ t : State, exec (.remoteStore port h true data) s = .next t.intakeCheck ∧
        (∀ b, t.byte b = s.byte b) ∧ Answered h false 0 s t ∧ Seen h t)) ∧
  (∀ (port : Port) (h : THdr) (b expected : Word) (j : Job) (s : State), s.Delivers port h j →
      let a := h.addr.toNat
      let old : Word := BitVec.ofNat 64 (s.le a 8)
      placeOf a = .hbm → s.reach (some j.part) a 8 true = .ok →
      let run := fun (op : AOp) (new : Word) =>
        (s.RemoteFree a 8 → s.poisoned a 8 = false → ∃ t : State, exec (.remoteAtomic port h true op b expected) s = .next t.intakeCheck ∧
          t.le a 8 = new.toNat ∧ (∀ k, k < a ∨ a + 8 ≤ k → t.byte k = s.byte k) ∧ Answered h true old s t ∧ Seen h t ∧
          Only [.fab, .mem, .cores, .segs, .upd] s t) ∧
        (s.RemoteFree a 8 → s.poisoned a 8 = true → ∃ t : State, exec (.remoteAtomic port h true op b expected) s = .next t.intakeCheck ∧
          t.fab.lastAns = some ⟨h.src.toNat, h.ctr.toNat, true, old, true⟩ ∧ Seen h t ∧ Only [.fab] s t) ∧
        (s.held a 8 = true → ∃ t : State, exec (.remoteAtomic port h true op b expected) s = .next t.intakeCheck ∧
          t.fab.heldMsgs = s.fab.heldMsgs ++ [⟨j.part, h, .atomic op b expected⟩] ∧ Seen h t ∧ Only [.fab] s t)
      run .add (old + b) ∧ run .swap b ∧ run .cas (if old = expected then b else old) ∧ run .and (old &&& b) ∧ run .or (old ||| b) ∧
        run .umax (if old.toNat < b.toNat then b else old) ∧ run .umin (if b.toNat < old.toNat then b else old))
/-- R215, R219 (Tables 7-2 to 7-5): a post whose sequence is the next of its group queues the collective, whoever posts it: the work scheduler in group 0,
or a core whose partition is enabled, with a descriptor that it may read. A core's PERMUTE is queued too, and refused when it comes to its admission.
R215: READY marks chunks of a collective that has not begun to run, or is kept for one that is posted later. R121, R218 to R221, R238 (Table 7-5):
admission gives a queued collective, in its order and where no earlier one could be admitted, a credit and its share; it runs once its members'
digests agree and closes with COLL_MISMATCH where one differs; a member that has no part in its data closes at once with code 0. -/
def Obligations.CollectivesArePostedAndOpened : Prop :=
  (∀ (c : CoreId) (w0 w1 : Word) (p : Part) (q : BitVec 32) (d : Payload) (s : State), s.coll.queues = [] →
      let sched := fun (kind : Nat) (post : Poster → Instr) =>
        (collDesc d).kind = kind → s.jobRuns p = true → s.collAt p 0 q.toNat = none → (s.groupEnt p 0).valid = true →
        (s.grp p 0).expect = q.toNat → ∃ t : State, exec (post (.sched p q d)) s = .next t.intakeCheck ∧
        ∃ x, t.collAt p 0 q.toNat = some x ∧ x.desc = collDesc d ∧
        x.st = .queued ∧ x.core = none ∧ x.allReady = true ∧ x.job = s.jobId p ∧ x.out = [] ∧ Only [.coll] s t
      let core := fun (kind : Nat) (post : Poster → Instr) =>
        let g := fieldOf w0 12 12
        let n := s.collSeq c w0 w1
        let a := (s.sreg c (fieldOf w0 29 5)).toNat % 2 ^ 48
        s.CollReady c 0 w0 w1 → s.partOfCore c = some p.val → s.rd (R.COLL.CTL.EN p) = 1 → (s.groupEnt p g).valid = true →
        s.collAt p g n = none → (s.grp p g).expect = n → s.reach (some p.val) a 64 false = .ok → s.poisoned a 64 = false →
        (s.readDesc a).kind = kind → ∃ t : State, exec (post (.core c w0 w1)) s = .next t.intakeCheck ∧
        ∃ x, t.collAt p g n = some x ∧ x.desc = s.readDesc a ∧
        x.st = .queued ∧ x.core = some c.val ∧ x.allReady = w0.getLsbD 8 ∧ x.job = s.jobId p ∧ x.out = [] ∧
        (t.core c).pc = (s.core c).pc + 2 ∧ (∀ r, t.sreg c r = s.sreg c r) ∧ Only [.coll, .cores, .segs] s t
      sched 0 .barrier ∧ sched 1 .bcast ∧ sched 2 .reduce ∧ sched 3 .allreduce ∧ sched 4 .reduceScatter ∧ sched 5 .allgather ∧
        sched 6 .snapshot ∧ core 0 .barrier ∧ core 1 .bcast ∧ core 2 .reduce ∧ core 3 .allreduce ∧ core 4 .reduceScatter ∧
        core 5 .allgather ∧ core 6 .snapshot ∧ core 7 .permute) ∧
  (∀ (c : CoreId) (w0 w1 : Word) (p : Part) (s : State), s.coll.queues = [] → s.CollReady c 1 w0 w1 → s.partOfCore c = some p.val →
      let g := fieldOf w0 12 12
      let n := s.collSeq c w0 w1
      let first := (s.sreg c (fieldOf w0 34 5)).toNat
      let count := (s.sreg c (fieldOf w0 39 5)).toNat + 1
      (∀ x, s.collAt p g n = some x → x.st ≠ .running → ∃ t : State, exec (.collReady c w0 w1) s = .next t.intakeCheck ∧
        t.collAt p g n = some { x with ready := x.ready ++ [(first, count)] } ∧ (t.core c).pc = (s.core c).pc + 2 ∧ Only [.coll, .cores] s t) ∧
      (s.collAt p g n = none → ∃ t : State, exec (.collReady c w0 w1) s = .next t.intakeCheck ∧ t.coll.early = s.coll.early ++ [(p.val, g, n, first, count)] ∧
        t.coll.colls = s.coll.colls ∧ (t.core c).pc = (s.core c).pc + 2 ∧ Only [.coll, .cores] s t)) ∧
  (∀ (k : CollKey) (c : Coll) (peer : BitVec 16) (peers : List OpenPeer) (s : State), s.HasColl k c → c.gather = none →
      let p := k.part.val
      let g := k.group.val
      let e := s.groupEnt p g
      let share := if c.desc.carries = false ∨ c.desc.small = true then 0 else e.sbuf / e.cred
      let now := c.st = .queued ∧ c.internal = false ∧ c.seq = (s.grp p g).next ∧ s.creditsUsed p g < e.cred ∧
        s.admittedColls < (if s.rd R.THM.STAT.HUB_HOT = 1 then 16 else 64) ∧ (c.desc.kind = 4 → (s.trn' p).replay = none) ∧
        ∀ x ∈ s.coll.colls, x.earlier c = true → s.admissible x = false
      (now → c.desc.ok e.n = true → (c.desc.carries = true → c.desc.small = false → 2 * c.desc.chunkWire ≤ share * 2 ^ 20) →
        (share = 0 ∨ s.shareUsed p g + share ≤ e.sbuf) → s.CollReaches p c →
        ∃ t : State, exec (.collAdmit k) s = .next t.intakeCheck ∧
          t.collAt p g k.seq.toNat = some { c with st := .admitted, credit := true, share := share } ∧
          (t.grp p g).next = ((s.grp p g).next + 1) % 2 ^ 32 ∧ Only [.coll] s t) ∧
      (now → c.desc.ok e.n = false → ∃ t : State, exec (.collAdmit k) s = .next t.intakeCheck ∧
        t.collAt p g k.seq.toNat = some { c with st := .closing, code := 0x4004, peer := none } ∧ Only [.coll] s t) ∧
      (c.st = .admitted → c.internal = false → c.desc.kind = 0 → ∃ t : State, exec (.collOpenExchange k true peer peers) s = .next t.intakeCheck ∧
        ∃ x, t.collAt p g k.seq.toNat = some x ∧ x.st = .closing ∧ x.code = 0 ∧ Only [.coll] s t) ∧
      (c.st = .admitted → c.internal = false → ∃ t : State, exec (.collOpenExchange k true peer peers) s = .next t.intakeCheck ∧
        ∃ x, t.collAt p g k.seq.toNat = some x ∧ (x.st = .running ∨ x.st = .closing) ∧ x.desc = c.desc) ∧
      (c.st = .admitted → ∃ t : State, exec (.collOpenExchange k false peer peers) s = .next t.intakeCheck ∧
        t.collAt p g k.seq.toNat = some { c with st := .closing, code := 0x4003, peer := some peer.toNat } ∧ Only [.coll] s t))
/-- R216, R222, R224, R229, R236 (Table 7-7): the bytes of a broadcast's chunk that arrive at a member that is not its root are written to the member's
output, then the chunk's completion word; no other byte changes. Of an ALLREDUCE of two members with OP SUM, the arrival of the other's elements
writes each sum of R87. The chunk is acknowledged to its sender. R231, R236, R238, R241: an acknowledgement frees a chunk at its sender, a request
sends it again unless it is acknowledged; the data of a small collective is taken; a closing code that is not 0 closes the collective with it; an
abort token resets the job. -/
def Obligations.CollectiveChunksAndTokens : Prop :=
  (∀ (port : Port) (h : THdr) (r : Nat) (data : List (Byte × Bool)) (v : List (Word × Bool)) (mine : CollPart) (j : Job) (c : Coll) (s : State),
      s.Delivers port h j →
      let k := h.chunk.toNat
      let e := s.groupEnt j.part h.group
      let w := c.desc.cw + 32 + 8 * k
      let runs := s.collAt j.part h.group h.seq.toNat = some c ∧ s.jobRuns j.part = true ∧ c.st = .running ∧ c.internal = false ∧
        c.gather = none ∧ c.desc.small = false ∧ e.rank < e.n ∧ k < c.desc.chunks ∧ k ∉ c.out ∧ (c.desc.cw ≠ 0 ∨ c.core ≠ none) ∧
        (∀ i < c.desc.chunks, i ≠ k → i ∈ c.out) ∧ s.offAt w 8 = none ∧
        ∀ m, Tab.get none s.fab.slots h.keyIdx.val = some m → s.slotOfJob j.id = some (h.keyIdx.val, m)
      (let a := c.desc.dst + k * c.desc.chunkLen
       runs → c.desc.kind = 1 → r = c.desc.root → e.rank ≠ c.desc.root → c.partAt k r 1 = none → data ≠ [] →
       s.offAt a data.length = none → w + 8 ≤ a ∨ a + data.length ≤ w →
       ∃ t : State, exec (.chunkArrive port h true (.bytes r data)) s = .next t.intakeCheck ∧
         (∀ i, ∀ (hi : i < data.length), t.byte (a + i) = data[i].1) ∧ t.le w 8 = (c.seq + k * 2 ^ 32 + 2 ^ 63) % 2 ^ 64 ∧
         (∀ b, b < a ∨ a + data.length ≤ b → b < w ∨ w + 8 ≤ b → t.byte b = s.byte b) ∧ Seen h t ∧
         ∀ m, Tab.get none s.fab.slots h.keyIdx.val = some m → Tab.get none t.fab.slots h.keyIdx.val = some { m with ctr := m.ctr + 1 }) ∧
      (let a := c.desc.dst + k * c.desc.chunkLen * 8
       let n := (c.desc.span k).2
       runs → c.desc.kind = 3 → c.desc.op = 0 → c.desc.exact_ = false → c.desc.noise = false → e.n = 2 → e.rank = 0 →
       c.partAt k 0 1 = some mine → c.partAt k 1 1 = none → c.partAt k 0 2 = none → c.fresh 0 = [] → mine.lists.map List.length = [n] →
       v.length = n → 0 < n → s.offAt a (n * 8) = none → w + 8 ≤ a ∨ a + n * 8 ≤ w →
       ∃ t : State, exec (.chunkArrive port h true (.elems 1 1 v)) s = .next t.intakeCheck ∧
         (∀ i < n, t.le (a + 8 * i) 8 =
           addW40 (((mine.lists.headD []).getD i (0, false)).1 % 2 ^ 40) ((v.getD i (0, false)).1.toNat % 2 ^ 40)) ∧
         t.le w 8 = (c.seq + k * 2 ^ 32 + 2 ^ 63) % 2 ^ 64 ∧
         (∀ b, b < a ∨ a + n * 8 ≤ b → b < w ∨ w + 8 ≤ b → t.byte b = s.byte b) ∧ Seen h t)) ∧
  (∀ (port : Port) (h : THdr) (code origin : BitVec 16) (r n : Nat) (v : List (List (Word × Bool))) (j : Job) (c : Coll) (s : State),
      s.Delivers port h j → s.collAt j.part h.group h.seq.toNat = some c →
      let at_ := fun t : State => t.collAt j.part h.group h.seq.toNat
      let ack := (h.chunk.toNat, h.src.toNat)
      (c.acked.contains ack = false → ∃ t, exec (.chunkAck port h true) s = .next t ∧ at_ t = some { c with acked := c.acked ++ [ack] } ∧
        Only [.coll, .fab] s t) ∧
      (c.acked.contains ack = false → ∃ t x, exec (.chunkRequest port h true) s = .next t ∧ at_ t = some x ∧
        (∀ n, Tab.get 0 x.resent n = Tab.get 0 c.resent n + if n = h.chunk.toNat then 1 else 0) ∧ Only [.coll, .fab] s t) ∧
      (c.acked.contains ack = true → ∃ t, exec (.chunkRequest port h true) s = .next t ∧ at_ t = some c ∧ Only [.coll, .fab] s t) ∧
      (c.st = .admitted → c.internal = false → c.desc.small = true → c.partAt 0 r n = none →
        ∃ t : State, exec (.smallToken port h true (.data r n v)) s = .next t.intakeCheck ∧
          at_ t = some { c with got := c.got ++ [⟨0, r, n, 0, v⟩], stale := false } ∧ Only [.coll, .fab] s t) ∧
      (c.st = .running → code ≠ 0 → s.jobRuns j.part = true →
        ∃ t : State, exec (.smallToken port h true (.closing code)) s = .next t.intakeCheck ∧
          at_ t = some { c with st := .closing, code := code.toNat, peer := some h.src.toNat } ∧ Only [.coll, .fab] s t) ∧
      (j.reset = false → ∃ t : State, exec (.smallToken port h true (.abortJob code origin)) s = .next t.intakeCheck ∧
        ∃ x, t.job j.id = some x ∧ x.reset = true ∧ x.origCode = code.toNat ∧ x.origModule = origin.toNat))
/-- R219, R236, R237, R239: a chunk that a member does not send is requested of it three times, then it is lost; a member that makes no progress between
two group timeouts, or that does not answer, fails the collective with COLL_TIMEOUT, and a member that never posted it with COLL_ORDER. R229, R238,
R242 (Table 7-6): at the end of its closing round a collective leaves the engine, and its status record holds the agreed code; a code that is neither
0 nor COLL_POISON fails its group and is a contained error. -/
def Obligations.CollectivesTimeOutAndClose : Prop :=
  (∀ (k : CollKey) (c : Coll) (chunk : BitVec 24) (peer : BitVec 16) (xid : BitVec 32) (s : State), s.HasColl k c → c.internal = false →
      let p := k.part.val
      let at_ := fun t : State => t.collAt p k.group.val k.seq.toNat
      let key := (xid.toNat * 2 ^ 24 + chunk.toNat) * 65536 + peer.toNat
      let failed := Tab.get 0 c.reqs key
      (c.st = .running → failed < 3 → ∃ t : State, exec (.chunkTimeout k chunk peer xid) s = .next t.intakeCheck ∧
        at_ t = some { c with reqs := Tab.set 0 c.reqs key (failed + 1) } ∧
        t.rd (R.COLL.RETRY.REQUESTS p) = min (s.rd (R.COLL.RETRY.REQUESTS p) + 1) 0xffffffff ∧ Only [.coll, .regs, .fab] s t) ∧
      (c.st = .running → 3 ≤ failed → ∃ t : State, exec (.chunkTimeout k chunk peer xid) s = .next t.intakeCheck ∧
        at_ t = some { c with st := .closing, code := 0x4001, peer := some peer.toNat } ∧
        t.rd (R.COLL.RETRY.LOST p) = min (s.rd (R.COLL.RETRY.LOST p) + 1) 0xffffffff ∧ Only [.coll, .regs] s t) ∧
      (c.st = .running → c.stale = false → ∃ t : State, exec (.collGroupTimeout k .running peer) s = .next t.intakeCheck ∧
        at_ t = some { c with stale := true } ∧ Only [.coll] s t) ∧
      (c.st = .held ∨ c.st = .queued → s.coll.queues = [] → ∀ f, ∃ t : State, exec (.collGroupTimeout k f peer) s = .next t.intakeCheck ∧
        at_ t = some { c with st := .closing, code := 0x4002, peer := some peer.toNat } ∧ Only [.coll] s t) ∧
      (c.st = .admitted ∨ c.st = .running → ∃ t : State, exec (.collGroupTimeout k .notPosted peer) s = .next t.intakeCheck ∧
        at_ t = some { c with st := .closing, code := 0x4002, peer := some peer.toNat } ∧ Only [.coll] s t) ∧
      (c.st = .admitted ∨ c.st = .running → ∃ t : State, exec (.collGroupTimeout k .digestDiffers peer) s = .next t.intakeCheck ∧
        at_ t = some { c with st := .closing, code := 0x4003, peer := some peer.toNat } ∧ Only [.coll] s t) ∧
      (c.st = .running → s.rd (R.COLL.ERR.VALID p) = 0 → ∃ t : State, exec (.collGroupTimeout k .noAnswer peer) s = .next t.intakeCheck ∧
        at_ t = some { c with st := .closing, code := 0x4005, peer := some peer.toNat } ∧ t.rd (R.COLL.ERR.CODE p) = 0x4005 ∧
        t.rd (R.COLL.ERR_PEER.PEER p) = peer.toNat ∧ t.rd (R.COLL.ERR_PEER.LEVEL p) =
          (if peer.toNat = s.moduleId then 0 else if peer.toNat / 8 = s.moduleId / 8 then 1 else if peer.toNat / 64 = s.moduleId / 64 then 2 else 3))) ∧
  (∀ (k : CollKey) (c : Coll) (codes : List (BitVec 16)) (s : State), s.HasColl k c → c.st = .closing → c.internal = false →
      c.desc.noise = false → c.poison = false → c.gather = none → s.coll.queues = [] → c.desc.cw ≠ 0 ∨ c.core ≠ none →
      s.offAt c.desc.cw 32 = none → (∀ x ∈ s.coll.colls, x.is k.part.val k.group.val k.seq.toNat = true → x = c) → s.coll.colls.Nodup →
      let p := k.part.val
      let st := agreed (c.code :: codes.map (·.toNat))
      let closes := fun (more : State → Prop) => ∃ t : State, exec (.closingRoundDone k codes []) s = .next t.intakeCheck ∧
        t.collAt p k.group k.seq.toNat = none ∧ t.le c.desc.cw 8 = (c.seq + st * 2 ^ 32 + 2 ^ 48) % 2 ^ 64 ∧ more t
      (st = 0 → closes (fun t => t.rd (R.COLL.CNT.DONE p) = min (s.rd (R.COLL.CNT.DONE p) + 1) 0xffffffff ∧
        (∀ b, b < c.desc.cw ∨ c.desc.cw + 32 ≤ b → t.byte b = s.byte b) ∧ t.host.jobs = s.host.jobs)) ∧
      (st = 0x4008 → closes (fun t => (∀ g, t.grp p g = s.grp p g) ∧
        t.rd (R.COLL.CNT.ABORTED p) = min (s.rd (R.COLL.CNT.ABORTED p) + 1) 0xffffffff ∧ t.host.jobs = s.host.jobs)) ∧
      (st ≠ 0 → st ≠ 0x4008 → s.rd (R.COLL.ERR.VALID p) = 0 → closes (fun t => (t.grp p k.group).failed = true ∧
        t.rd (R.COLL.CNT.ABORTED p) = min (s.rd (R.COLL.CNT.ABORTED p) + 1) 0xffffffff ∧ t.rd (R.COLL.ERR.CODE p) = st % 2 ^ 16 ∧
        t.rd (R.COLL.ERR_PEER.PEER p) = c.peer.getD 0 % 2 ^ 16)))
/-- R241, R454, R532: a job reset marks the job with the first originating code and module and stops its cores; its end aborts its collectives and its
posted commands. R211, R244: a partition's collectives are enabled only while its groups' credits and shares fit; they are disabled once no job that
goes on is in the partition, which clears the error record. -/
def Obligations.CollectiveEnableAndJobResets : Prop :=
  (∀ (job code origin : BitVec 16) (j : Job) (s : State), s.job job.toNat = some j →
      (j.reset = false → ∃ t, exec (.jobReset job code origin) s = .next t ∧
        t.job job.toNat = some { j with reset := true, origCode := code.toNat, origModule := origin.toNat } ∧
        (∀ c, s.partOfCore c = some j.part → t.core c = (s.core c).stop) ∧
        (∀ c, s.partOfCore c ≠ some j.part → t.core c = s.core c) ∧ Only [.cores, .remotes, .jobs] s t) ∧
      (j.reset = true → exec (.jobReset job code origin) s = .next s) ∧
      (j.reset = true → j.resetDone = false → s.halfRuns j.part = false → ∃ t : State, exec (.jobResetDone job) s = .next t.intakeCheck ∧ ∃ x, t.job job.toNat = some x ∧ x.resetDone = true ∧
        x.reset = true ∧ (∀ c ∈ t.coll.colls, c.part ≠ j.part) ∧ (∀ c ∈ t.host.waiting, c.job ≠ job.toNat) ∧ (t.trn' j.part).units = [])) ∧
  (∀ (p : Part) (s : State),
      (s.collConfigOk p = true → ∃ t, exec (.collEnable p) s = .next t ∧ t.rd (R.COLL.CTL.EN p) = 1 ∧
        (∀ f : Fld, f.reg ≠ (R.COLL.CTL.EN p).reg → t.rd f = s.rd f) ∧ Only [.regs] s t) ∧
      (s.collConfigOk p = false → s.rd (R.COLL.ERR.VALID p) = 0 → ∃ t, exec (.collEnable p) s = .next t ∧
        t.rd (R.COLL.CTL.EN p) = s.rd (R.COLL.CTL.EN p) ∧ t.rd (R.COLL.ERR.CODE p) = 0x4009) ∧
      (s.jobRuns p = false → ∃ t, exec (.collDisable p) s = .next t ∧ t.rd (R.COLL.CTL.EN p) = 0 ∧ t.rd (R.COLL.ERR.VALID p) = 0 ∧
        t.rd (R.COLL.ERR_PEER.PEER p) = s.rd (R.COLL.ERR_PEER.PEER p) ∧ Only [.regs] s t) ∧
      (s.jobRuns p = true → exec (.collDisable p) s = .next s))
/-- R312 (Table 11-8): a temperature sample sets each stack's reading, and HOT above 85 °C. R318, R319, R283: one pseudo-channel of a stack is held for a
retrain at a time, one that falls due meanwhile waits, and only a channel that carries traffic is held; settings that the retrain finds are counted; a
first failure is tried again, and a second raises HBM_TRAIN_FAIL and starts a migration where a spare is free. When a hold ends, the next begins, and
accesses that waited behind it are made. -/
def Obligations.HbmTemperaturesAndRetraining : Prop :=
  (∀ (temps : List (BitVec 8)) (s : State), temps.length = 8 → ∃ t, exec (.hbmTempSample temps) s = .next t ∧
      (∀ k, ∀ (hk : k < temps.length), t.rd (R.HBM.STAT.TEMP_C k) = temps[k].toNat ∧
        t.rd (R.HBM.STAT.HOT k) = if 85 < temps[k].toNat then 1 else 0) ∧
      (∀ f : Fld, (∀ k < 8, f.reg ≠ (R.HBM.STAT.TEMP_C k).reg) → t.rd f = s.rd f) ∧ Only [.regs] s t) ∧
  (∀ (stack : Fin 8) (pc : Fin 64) (ns : BitVec 16) (m : HeldMsg) (data : List (Byte × Bool)) (s : State),
      let k := stack.val
      let h := s.stk k
      let quiet := s.fab.heldMsgs = [] ∧ ∀ e ∈ s.chip.cores, e.2.sigs = []
      (h.holding = none → h.due = [] → s.chActive k (pc / 2) = true → s.pllLocked (5 + k) = true → ∃ t, exec (.hbmRetrain stack pc) s = .next t ∧
        t.stk k = { h with holding := some pc.val } ∧ (∀ j, j ≠ k → t.stk j = s.stk j) ∧ Only [.hbm] s t) ∧
      (∀ q, h.holding = some q → q ≠ pc.val → pc.val ∉ h.due → s.chActive k (pc / 2) = true → ∃ t, exec (.hbmRetrain stack pc) s = .next t ∧
        t.stk k = { h with due := h.due ++ [pc.val] } ∧ Only [.hbm] s t) ∧
      (s.chActive k (pc / 2) = false → s.rd (chFld k (pc / 2)) ≠ 4 → exec (.hbmRetrain stack pc) s = .next s) ∧
      (h.holding = some pc.val → h.due = [] → quiet → ∃ t : State, exec (.hbmRetrainDone stack true ns) s = .next t.intakeCheck ∧
        t.stk k = { h with holding := none, retry := h.retry.filter (· ≠ pc.val) } ∧ t.rd (R.HBM.RETRAIN.LAST_NS k) = ns.toNat ∧
        t.rd (R.HBM.RETRAIN.COUNT k) = min (s.rd (R.HBM.RETRAIN.COUNT k) + 1) 0xffffffff ∧ Only [.hbm, .regs] s t) ∧
      (h.holding = some pc.val → pc.val ∉ h.retry → h.due = [] → quiet →
        ∃ t : State, exec (.hbmRetrainDone stack false ns) s = .next t.intakeCheck ∧
        t.stk k = { h with holding := none, retry := h.retry ++ [pc.val] } ∧
        t.rd (R.HBM.RETRAIN.FAILS k) = min (s.rd (R.HBM.RETRAIN.FAILS k) + 1) 0xffff ∧ Only [.hbm, .regs] s t) ∧
      (∀ q, h.holding = some pc.val → h.due = [q] → s.chActive k (q / 2) = true → s.pllLocked (5 + k) = true → quiet →
        ∃ t : State, exec (.hbmRetrainDone stack true ns) s = .next t.intakeCheck ∧ (t.stk k).holding = some q ∧ (t.stk k).due = [] ∧
          Only [.hbm, .regs] s t) ∧
      (h.holding = some pc.val → h.due = [] → (∀ j, j ≠ k → (s.stk j).holding = none) → (∀ i < 21, s.pllLocked i = true) →
        s.fab.heldMsgs = [m] → m.op = .store data → data ≠ [] → s.reach (some m.part) m.h.addr.toNat data.length true = .ok →
        (∀ e ∈ s.chip.cores, e.2.sigs = []) → ∃ t : State, exec (.hbmRetrainDone stack true ns) s = .next t.intakeCheck ∧
          t.fab.heldMsgs = [] ∧ (∀ i, ∀ (hi : i < data.length), t.byte (m.h.addr.toNat + i) = data[i].1) ∧ Answered m.h true 0 s t) ∧
      (pc.val ∈ h.retry → s.chActive k (pc / 2) = true → ∃ t, exec (.hbmRetrainRetry stack pc true) s = .next t ∧ pc.val ∉ (t.stk k).retry ∧
        t.rd (R.HBM.RETRAIN.COUNT k) = min (s.rd (R.HBM.RETRAIN.COUNT k) + 1) 0xffffffff ∧ Only [.hbm, .regs] s t) ∧
      (pc.val ∈ h.retry → s.rd (chFld k (pc / 2)) = 0 → s.rd (R.HBM.STAT.SPARE_FREE k) = 1 → s.rd (R.HBM.STAT.SPARE_CH k) ≠ pc.val / 2 →
        ∃ t, exec (.hbmRetrainRetry stack pc false) s = .next t ∧
        (s.rd (R.HBM.ERR.VALID k) = 0 → t.rd (R.HBM.ERR.CODE k) = 0x2004 ∧ t.rd (R.HBM.ERR.CH k) = pc.val / 2) ∧
        t.rd (R.HBM.MIG.BUSY k) = 1 ∧ t.rd (R.HBM.MIG.SRC k) = pc.val / 2 ∧ t.rd (chFld k (pc / 2)) = 2))
/-- R320 to R323, R413 (Tables 11-4, 11-8): a migration from an ACTIVE channel takes the free spare; at its end the routers switch to it, or the channel
stays where it was; the channel migrated from is repaired and becomes the spare, or retires with a field record. R324 (Tables 11-10, 11-11): a command
of the repair port starts with GO = 1 while none runs; a hard repair needs its channel OFFLINE; a query ends with the rows still free, a repair with
its row entered or FAIL, a listing with the next repaired row. R325 (Tables 11-12, 11-13): a generator run starts on a channel that carries no region
data and within its pseudo-channel, and is refused elsewhere; an abort is noted; at its end a mode that checks reports its mismatches as
HBM_TG_MISMATCH. -/
def Obligations.HbmRepairsAndTraffic : Prop :=
  (∀ (stack : Fin 8) (v : Word) (pc : Fin 2) (bank : Fin 16) (row : BitVec 18) (s : State),
      let k := stack.val
      let h := s.stk k
      let c := (v.extractLsb' 0 5).toNat
      let spare := s.rd (R.HBM.STAT.SPARE_CH k)
      (v.getLsbD 10 = true → s.rd (R.HBM.STAT.SPARE_FREE k) = 1 → s.rd (chFld k c) = 0 → spare ≠ c →
        ∃ t, exec (.hbmMigGo stack v) s = .next t ∧ (t.stk k).mig = some ⟨c, spare⟩ ∧ t.rd (R.HBM.MIG.BUSY k) = 1 ∧
        t.rd (R.HBM.STAT.SPARE_FREE k) = 0 ∧ t.rd (chFld k c) = 2 ∧ t.rd (chFld k spare) = 3 ∧ Only [.hbm, .regs] s t) ∧
      (v.getLsbD 10 = true → s.rd (R.HBM.STAT.SPARE_FREE k) = 0 → ∃ t, exec (.hbmMigGo stack v) s = .next t ∧ t.rd (R.HBM.MIG.ERR k) = 1 ∧
        t.hbm = s.hbm ∧ Only [.regs] s t) ∧
      (∀ m, h.mig = some m → m.src < 32 → m.dst < 32 → m.src ≠ m.dst → h.swapped = false →
        (∃ t, exec (.hbmMigSwitch stack true) s = .next t ∧ (t.stk k).mig = none ∧ (t.stk k).ppr = some m.src ∧ t.rd (R.HBM.MIG.BUSY k) = 0 ∧
          t.rd (R.HBM.MIG.DONE k) = 1 ∧ t.rd (chFld k m.dst) = 0 ∧ t.rd (chFld k m.src) = 4 ∧
          (∀ e < 512, ∀ q < 2, s.rd (R.HBM0.CMAP.PPC e) = k * 64 + m.src * 2 + q → t.rd (R.HBM0.CMAP.PPC e) = k * 64 + m.dst * 2 + q) ∧
          (∀ e < 512, s.rd (R.HBM0.CMAP.PPC e) / 2 ≠ k * 32 + m.src → t.rd (R.HBM0.CMAP.PPC e) = s.rd (R.HBM0.CMAP.PPC e)) ∧
          Only [.hbm, .regs] s t) ∧
        (∃ t, exec (.hbmMigSwitch stack false) s = .next t ∧ (t.stk k).mig = none ∧ t.rd (R.HBM.MIG.ERR k) = 1 ∧ t.rd (chFld k m.src) = 0 ∧
          t.rd (chFld k m.dst) = 1 ∧ t.rd (R.HBM.STAT.SPARE_FREE k) = 1 ∧
          (s.rd (R.HBM.ERR.VALID k) = 0 → t.rd (R.HBM.ERR.CODE k) = 0x2005 ∧ t.rd (R.HBM.ERR.CH k) = m.dst))) ∧
      (∀ ch < 32, h.ppr = some ch → s.rd (R.HBM.CTL.SWAPBACK k) = 0 → s.boot.fields.length < fieldSlots →
        ∃ t, exec (.hbmPprDone stack true pc bank row) s = .next t ∧ (t.stk k).ppr = none ∧
          if (h.rowsOf ch pc bank).length < Config.repairRows then
            (t.stk k).rowsOf ch pc bank = h.rowsOf ch pc bank ++ [row.toNat] ∧ t.rd (chFld k ch) = 1 ∧ t.rd (R.HBM.STAT.SPARE_CH k) = ch ∧
              t.rd (R.HBM.STAT.SPARE_FREE k) = 1 ∧ Only [.hbm, .regs] s t
          else (t.stk k).repaired = h.repaired ∧ t.rd (chFld k ch) = s.rd (chFld k ch) ∧
            t.boot.fields = s.boot.fields ++ [some (s.fieldNow 4 (rowFields k ch 0 0 0))]) ∧
      (∀ ch < 32, h.ppr = some ch → s.boot.fields.length < fieldSlots → ∃ t, exec (.hbmPprDone stack false pc bank row) s = .next t ∧
        (t.stk k).ppr = none ∧ t.rd (chFld k ch) = s.rd (chFld k ch) ∧ t.boot.fields = s.boot.fields ++ [some (s.fieldNow 4 (rowFields k ch 0 0 0))] ∧
        (s.rd (R.HBM.ERR.VALID k) = 0 → t.rd (R.HBM.ERR.CODE k) = 0x2006 ∧ t.rd (R.HBM.ERR.CH k) = ch ∧ t.rd (R.HBM.ERR.ROW k) = row.toNat))) ∧
  (∀ (stack : Fin 8) (v : Word) (s : State),
      let k := stack.val
      let h := s.stk k
      let go := fun (op : Nat) (i : Instr) => (v.extractLsb' 28 2).toNat = op → v.getLsbD 30 = true → h.rpr = none →
        ∃ t, exec i s = .next t ∧ t.stk k = { h with rpr := some op } ∧ t.rd (R.HBM.RPR_STAT.BUSY k) = 1 ∧
          t.rd (R.HBM.RPR_CMD.CH k) = (v.extractLsb' 0 5).toNat ∧ Only [.hbm, .regs] s t
      go 0 (.rprQuery stack v) ∧ go 2 (.rprNextRow stack v) ∧
      ((v.extractLsb' 28 2).toNat = 1 → v.getLsbD 30 = true → h.rpr = none →
        (s.rd (chFld k (v.extractLsb' 0 5).toNat) = 4 → ∃ t, exec (.rprHardRepair stack v) s = .next t ∧ t.stk k = { h with rpr := some 1 } ∧
          t.rd (R.HBM.RPR_STAT.BUSY k) = 1 ∧ t.rd (R.HBM.RPR_CMD.CH k) = (v.extractLsb' 0 5).toNat ∧ Only [.hbm, .regs] s t) ∧
        (s.rd (chFld k (v.extractLsb' 0 5).toNat) ≠ 4 → ∃ t, exec (.rprHardRepair stack v) s = .next t ∧ t.stk k = h ∧
          t.rd (R.HBM.RPR_STAT.REFUSED k) = 1 ∧ Only [.regs] s t)) ∧
      (∀ op, h.rpr = some op →
        let ch := s.rd (R.HBM.RPR_CMD.CH k)
        let pc := s.rd (R.HBM.RPR_CMD.PC k)
        let bank := s.rd (R.HBM.RPR_CMD.BANK k)
        let rows := h.rowsOf ch pc bank
        (∃ t, exec (.rprComplete stack true) s = .next t ∧ (t.stk k).rpr = none ∧ t.rd (R.HBM.RPR_STAT.BUSY k) = 0 ∧
          t.rd (R.HBM.RPR_STAT.DONE k) = 1 ∧ Only [.hbm, .regs] s t ∧
          (op = 0 → t.rd (R.HBM.RPR_STAT.FREE k) = (Config.repairRows - rows.length) % 2 ^ (R.HBM.RPR_STAT.FREE k).w) ∧
          (op = 1 → (t.stk k).rowsOf ch pc bank = rows ++ [s.rd (R.HBM.RPR_CMD.ROW k)]) ∧
          (op = 2 → ∀ r, rows[h.listed]? = some r → t.rd (R.HBM.RPR_STAT.ROW k) = r % 2 ^ 18 ∧
            t.rd (R.HBM.RPR_STAT.MORE k) = if h.listed + 1 < rows.length then 1 else 0)) ∧
        (op = 1 → ∃ t, exec (.rprComplete stack false) s = .next t ∧ t.rd (R.HBM.RPR_STAT.FAIL k) = 1 ∧ t.stk k = { h with rpr := none }))) ∧
  (∀ (stack : Fin 8) (v : Word) (mis : BitVec 32) (line : BitVec 21) (byte : BitVec 9) (mbps : BitVec 16) (s : State),
      let k := stack.val
      let h := s.stk k
      let state := s.rd (chFld k (v.toNat % 2 * 16))
      let free := state = 1 ∨ state = 4 ∨ s.inRegion k = false
      let fits := s.rd (R.HBM.TG_RANGE.START k) + s.rd (R.HBM.TG_RANGE.LINES k) < 2 ^ 21
      let go := fun (op : Nat) (i : Instr) => (v.extractLsb' 3 2).toNat = op → v.getLsbD 1 = true → v.getLsbD 2 = false → h.tg = none →
        (free → fits → ∃ t, exec i s = .next t ∧ t.stk k = { h with tg := some op, tgAbort := false } ∧
          t.rd (R.HBM.TG_STAT.BUSY k) = 1 ∧ Only [.hbm, .regs] s t) ∧
        (¬ free ∨ ¬ fits → ∃ t, exec i s = .next t ∧ t.stk k = h ∧ t.rd (R.HBM.TG_STAT.REFUSED k) = 1 ∧ Only [.regs] s t)
      go 0 (.tgWrite stack v) ∧ go 1 (.tgReadCheck stack v) ∧ go 2 (.tgWriteReadCheck stack v) ∧
      (h.tg ≠ none → ∃ t, exec (.tgAbort stack) s = .next t ∧ t.stk k = { h with tgAbort := true } ∧ Only [.hbm] s t) ∧
      (∀ op, h.tg = some op → ∃ t, exec (.tgDone stack mis line byte mbps) s = .next t ∧ (t.stk k).tg = none ∧ t.rd (R.HBM.TG_STAT.BUSY k) = 0 ∧
        t.rd (R.HBM.TG_STAT.DONE k) = 1 ∧ t.rd (R.HBM.TG_STAT.MISMATCH k) = (if op = 0 then 0 else mis.toNat) ∧
        t.rd (R.HBM.TG_STAT.MBPS k) = mbps.toNat ∧
        (op ≠ 0 → mis ≠ 0 → t.rd (R.HBM.TG_FAIL.LINE k) = line.toNat ∧ t.rd (R.HBM.TG_FAIL.BYTE k) = byte.toNat ∧
          (s.rd (R.HBM.ERR.VALID k) = 0 → t.rd (R.HBM.ERR.CODE k) = 0x2007))))
/-- R300 to R302: a write of MBIST.PWR sets the requests, but a stage-buffer segment that a group's quota needs stays ON; a request takes effect once the
window's memories are free, and a segment that was OFF comes back as zero; one that an access woke returns to RET. R463, R465: a visit leaves a clean
word and writes a corrected one back; one it cannot correct is poisoned in place. An age promotes its activity by levels and only age 0 ends a level;
a late scrubber raises SCRUB_LATE. -/
def Obligations.SegmentPowerAndScrubVisits : Prop :=
  (∀ (c : CoreId) (ab : Bool) (g : Fin 4) (v : Word) (s : State),
      (∃ t, exec (.segmentPowerRequest (.core c) v) s = .next t ∧ t.rd (R.MBIST.PWR.SP_REQ c) = v.toNat % 256 ∧
        t.rd (R.MBIST.PWR.AB_REQ c) = v.toNat / 256 % 256 ∧ (∀ f : Fld, f.reg ≠ (R.MBIST.PWR.SP_REQ c).reg → t.rd f = s.rd f) ∧
        Only [.regs] s t) ∧
      (∃ t, exec (.segmentPowerRequest .hub v) s = .next t ∧
        (∀ k < 4, t.rd (R.MBIST.PWR.SP_REQ 800) / 4 ^ k % 4 =
          if s.stageInUse = true ∧ (v.toNat / 4 ^ k % 4 = 1 ∨ v.toNat / 4 ^ k % 4 = 2) then s.rd (R.MBIST.PWR.SP_REQ 800) / 4 ^ k % 4
          else v.toNat / 4 ^ k % 4) ∧
        (s.stageInUse = true → (∃ k < 4, v.toNat / 4 ^ k % 4 = 1 ∨ v.toNat / 4 ^ k % 4 = 2) → t.rd (R.MBIST.PWR.ERR 800) = 1) ∧
        (∀ f : Fld, f.reg ≠ (R.MBIST.PWR.SP_REQ 800).reg → t.rd f = s.rd f) ∧ Only [.regs] s t) ∧
      (∀ i, segOf c ab g = some i → s.segReq c ab g ≠ 3 → s.segReq c ab g ≠ (s.seg i).st → s.segBusy c ab g = false →
        ∃ t, exec (.segmentPowerChange (.core c) ab g) s = .next t ∧ t.seg i = ⟨s.segReq c ab g, false⟩ ∧
        (∀ j, j ≠ i → t.seg j = s.seg j) ∧ ((s.seg i).st = 2 → ZeroBytes (segStart c ab g) (segBytes c ab) s t) ∧
        ((s.seg i).st ≠ 2 → t.mem = s.mem) ∧ Only [.mem, .segs] s t) ∧
      (s.segReq 800 false g ≠ 3 → s.segReq 800 false g ≠ (s.seg (6400 + g)).st → s.segBusy 800 false g = false →
        s.segReq 800 false g = 0 ∨ s.stageInUse = false →
        ∃ t, exec (.segmentPowerChange .hub false g) s = .next t ∧ t.seg (6400 + g) = ⟨s.segReq 800 false g, false⟩ ∧
        (∀ j, j ≠ 6400 + g.val → t.seg j = s.seg j) ∧ Only [.stage, .segs] s t) ∧
      (∀ i, segOf c ab g = some i → (s.seg i).awake = true → s.segReq c ab g = 1 → s.segBusy c ab g = false →
        ∃ t, exec (.segmentIdleReturn (.core c) ab g) s = .next t ∧ t.seg i = ⟨1, false⟩ ∧ (∀ j, j ≠ i → t.seg j = s.seg j) ∧ Only [.segs] s t)) ∧
  (∀ (target : ScrubTarget) (c : CoreId) (w : Fin 2048) (raw : BitVec 288) (act : Fin 10) (age : Nat) (s : State),
      let d := lcDecode (lcSyms raw)
      let k := c.val * 2048 + w.val
      (d.2 = 0 → exec (.scrubVisit target raw) s = .next s) ∧
      (d.2 = 1 → s.chip.imemPoison.contains k = false → ∃ t, exec (.scrubVisit (.imem c w) raw) s = .next t ∧
        t.chip.imem = pasteTab s.chip.imem (k * 32) 32 (bytesTab (wordBytes d.1) 0) ∧
        t.rd R.RAS.SCRUB_CNT.CORR = min (s.rd R.RAS.SCRUB_CNT.CORR + 1) 0xffffffff ∧ t.mem = s.mem) ∧
      (d.2 = 3 → s.chip.imemPoison.contains k = false → ∃ t, exec (.scrubVisit (.imem c w) raw) s = .next t ∧
        t.chip.imem = s.chip.imem ∧ t.chip.imemPoison.contains k = true ∧
        t.rd R.RAS.SCRUB_CNT.UNCORR = min (s.rd R.RAS.SCRUB_CNT.UNCORR + 1) 0xffffffff ∧ t.mem = s.mem) ∧
      (∀ (a : BitVec 48) (r : Nat × Nat), placeOf (a.toNat / 32 * 32) = .hbm → s.poisoned (a.toNat / 32 * 32) 32 = false → d.2 = 3 →
        s.regionOf (a.toNat / 32 * 32) = some r.1 → (s.hbmRoute r.1 (a.toNat / 32 * 32)).1 = r.2 →
        s.heldLine (a.toNat / 32 * 32) = false → ∃ t, exec (.scrubVisit (.word a) raw) s = .next t ∧
        t.poisoned (a.toNat / 32 * 32) 32 = true ∧ t.mem = s.mem ∧
        t.rd (R.HBM.ERRCNT.UNCORR (r.2 / 64)) = min (s.rd (R.HBM.ERRCNT.UNCORR (r.2 / 64)) + 1) 0xffffffff) ∧
      (∀ (a : BitVec 48) (r : Nat × Nat), placeOf (a.toNat / 32 * 32) = .hbm → s.poisoned (a.toNat / 32 * 32) 32 = false → d.2 = 1 →
        s.regionOf (a.toNat / 32 * 32) = some r.1 → (s.hbmRoute r.1 (a.toNat / 32 * 32)).1 = r.2 →
        s.heldLine (a.toNat / 32 * 32) = false → ∃ t, exec (.scrubVisit (.word a) raw) s = .next t ∧
        (∀ i < 32, t.byte (a.toNat / 32 * 32 + i) = (wordBytes d.1).getD i 0) ∧
        (∀ b, b < a.toNat / 32 * 32 ∨ a.toNat / 32 * 32 + 32 ≤ b → t.byte b = s.byte b) ∧
        t.rd (R.HBM.ERRCNT.CORR (r.2 / 64)) = min (s.rd (R.HBM.ERRCNT.CORR (r.2 / 64)) + 1) 0xffffffff) ∧
      (s.bgTarget act ≠ 0 → ∃ t, exec (.scrubPromote act age) s = .next t ∧
        BgNow act age (bgLevel (Tab.get 0 s.ras.levels act) (s.bgTarget act) age) s t) ∧
      (act.val < 3 → ∃ t, exec (.scrubLate act) s = .next t ∧ t.rd R.RAS.SCRUB_STAT.LATE = min (s.rd R.RAS.SCRUB_STAT.LATE + 1) 0xffff ∧
        Logs R.RAS.ERR.VALID R.RAS.ERR.CODE 0x2090 s t ∧ t.mem = s.mem))
/-- R303 to R307 (Tables 10-1, 10-4, 10-7): GO starts a march run over the segments of its mask that are ON, or is refused where a destructive run may not
start; ABORT marks the run; its end counts the failing compares that its algorithm can make and keeps the first in the run's order, with its bank and
word, and leaves zero in what a destructive run tested and every byte in what a preserving run tested. -/
def Obligations.MarchTests : Prop :=
  ∀ (c : CoreId) (win : MWin) (v : Word) (fails : List MarchFail) (cycles : BitVec 32) (s : State),
    let w := mwin win
    (v.getLsbD 0 = true → v.getLsbD 1 = false → s.marchOf c = none → v.getLsbD 3 = true ∨ (s.core c).runningBit = false ∧ s.jobOfCore c = 0xffff →
      ∃ t, exec (.marchGo (.core c) v) s = .next t ∧ t.marchOf c = some ⟨v.toNat, s.marchSegs c v.toNat, false⟩ ∧
      (∀ w, w ≠ c.val → t.marchOf w = s.marchOf w) ∧
      t.rd (R.MBIST.MT_STAT.BUSY c) = 1 ∧ t.rd (R.MBIST.MT_STAT.FAILS c) = 0 ∧ Only [.regs, .segs] s t) ∧
    (v.getLsbD 0 = true → v.getLsbD 1 = false → s.marchOf c = none → v.getLsbD 3 = false → (s.core c).runningBit = true ∨ s.jobOfCore c ≠ 0xffff →
      ∃ t, exec (.marchGo (.core c) v) s = .next t ∧ (∀ w, t.marchOf w = s.marchOf w) ∧ t.rd (R.MBIST.MT_STAT.REFUSED c) = 1 ∧ Only [.regs] s t) ∧
    (v.getLsbD 0 = true → v.getLsbD 1 = false → s.marchOf 800 = none → v.getLsbD 3 = false → v.getLsbD 2 = false → s.stageBusy = false →
      ∃ t, exec (.marchGo .hub v) s = .next t ∧ t.marchOf 800 = some ⟨v.toNat, s.marchSegs 800 v.toNat, false⟩ ∧
      (∀ w, w ≠ 800 → t.marchOf w = s.marchOf w) ∧ t.rd (R.MBIST.MT_STAT.BUSY 800) = 1 ∧ Only [.regs, .segs] s t) ∧
    (v.getLsbD 0 = true → v.getLsbD 1 = false → s.marchOf 800 = none → v.getLsbD 3 = false → s.stageBusy = true →
      ∃ t, exec (.marchGo .hub v) s = .next t ∧ (∀ w, t.marchOf w = s.marchOf w) ∧ t.rd (R.MBIST.MT_STAT.REFUSED 800) = 1 ∧ Only [.regs] s t) ∧
    (∀ m, s.marchOf w = some m → ∃ t, exec (.marchAbort win) s = .next t ∧ t.marchOf w = some { m with aborting := true } ∧
      (∀ i, i ≠ w → t.marchOf i = s.marchOf i) ∧ Only [.segs] s t) ∧
    (∀ m, s.marchOf w = some m →
      let ab := m.ctl / 4 % 2 == 1
      let banks := if win = .hub then 128 else if ab then 8 else 32
      ∃ t, exec (.marchDone win fails cycles) s = .next t ∧ t.marchOf w = none ∧
      t.rd (R.MBIST.MT_STAT.BUSY w) = 0 ∧ t.rd (R.MBIST.MT_STAT.DONE w) = 1 ∧
      t.rd (R.MBIST.MT_STAT.FAILS w) = min (m.compares w fails).length 0xffff ∧
      (m.ctl / 64 % 2 = 1 → (m.compares w fails).length ≤ 1) ∧ (∀ f ∈ m.compares w fails, f ∈ fails ∧ m.fits w f = true) ∧
      (∀ f rest, m.compares w fails = f :: rest → t.rd (R.MBIST.MT_FAIL.BANK w) = f.addr.toNat / 32 % banks ∧
        t.rd (R.MBIST.MT_FAIL.WORD w) = f.addr.toNat / 32 / banks % 2 ^ (R.MBIST.MT_FAIL.WORD w).w ∧
        t.rd (R.MBIST.MT_FAIL.BIT w) = f.bit.toNat ∧ t.rd (R.MBIST.MT_FAIL.OP w) = f.op.toNat ∧
        (f.op = 1 → m.ctl / 32 % 2 = 0 → t.rd (R.MBIST.MT_FAIL.EXPECT w) = 0)) ∧
      t.rd (R.MBIST.MT_STAT.CYCLES w) = cycles.toNat ∧
      (win = .core c → fails = [] → m.ctl / 8 % 2 = 1 → t.mem = s.mem) ∧
      (win = .core c → fails = [] → m.ctl / 8 % 2 = 0 → m.aborting = false → m.segs ⊆ [0, 1, 2] →
        (∀ g ∈ m.segs, ∀ b, segStart c ab g ≤ b → b < segStart c ab g + segBytes c ab → t.byte b = 0) ∧
        (∀ b, (∀ g ∈ m.segs, b < segStart c ab g ∨ segStart c ab g + segBytes c ab ≤ b) → t.byte b = s.byte b)))
/-- R100, R101, R104, R116 to R118, R122, R125, R131, R132: a micro-batch unit whose versions and stash are there is admitted with its references and
reservations; its forward pass writes each stash entry in the next place of its reservation, and at its end makes its entries readable; its backward
pass starts in order, adds its contributions to the earlier chunks' gradients, gives up each layer's reference with that layer, and at its end
reservation, entries and references. -/
def Obligations.MicroBatchesPassInOrder : Prop :=
  ∀ (p : Part) (k : MbKey) (h : MbHeader) (dy : Bool) (u y : MbUnit) (l : Fin 4096) (n : BitVec 8) (b : BitVec 40) (f : Fin 16) (i : Nat)
    (e : StashEnt) (c : Fin 64) (stream : BitVec 32) (base : Nat) (s : State), s.AllAdmitted p →
    let v := h.step.toNat
    let x : MbUnit := ⟨k.batch.toNat, k.mb.toNat, k.chunk.val, v, h.tokens.toNat % 4194304 + 1, h.footMib.toNat, h.shards.map (·.val), [], h.kds,
      .posted, [], [], [], false, none, none, 0, 0, [], [], false, false, false, false⟩
    let mine := u.entries.map (·.desc)
    let table := (s.stashRange p).1 + 0x200000 ≤ 0x8000000000 ∧ mine.Nodup ∧ ∀ i ∈ mine, i < 65536
    let outside := fun (t : State) => ∀ a, a < (s.stashRange p).1 ∨ (s.stashRange p).1 + 0x200000 ≤ a → t.byte a = s.byte a
    let writes : List Area := [.regs, .mem, .cores, .segs, .trn, .upd]
    (∀ r, s.reserve p x.foot = some r → s.learning p = true → s.housePaused p = false → (s.trn' p).inFlight < 4096 → 0 < x.foot → x.foot ≤ s.stashLimit p →
      x.chunk < x.chunks → h.remote = [] → h.shards.Nodup → (∀ y ∈ (s.trn' p).units, y.is k = false ∧ (x.before y = false ∨ y.replay = true)) →
      (∀ n ∈ h.shards, (((s.trn' p).shard n).slot v).holds v = true ∧ ((s.trn' p).shard n).updWait = []) →
      ∃ t, exec (.mbAdmit p k h) s = .next t ∧
        t.OneUnit p k { x with stage := .fwd, hres := r.1, sres := r.2, refs := if x.chunk = 0 then x.shards else [] } ∧
        (x.chunk = 0 → ∀ n ∈ h.shards, (((t.trn' p).shard n).slot v).refs = (((s.trn' p).shard n).slot v).refs + 1) ∧
        (t.trn' p).units.length = (s.trn' p).units.length + 1 ∧ Only [.regs, .trn] s t) ∧
    (∀ r, u.hres = some r → s.OneUnit p k u → u.stage = .fwd →
      u.sfill = 0 → u.hfill + b.toNat ≤ mib r.2 → b ≠ 0 → b.toNat % 512 = 0 → i < 65536 → i ∉ (s.trn' p).descUsed →
      (∀ j < i, j ∈ (s.trn' p).descUsed) → l.val ∉ u.layers → (∀ e ∈ u.entries, e.layer ≠ l.val) →
      (s.stashRange p).1 + 0x200000 ≤ 0x8000000000 →
      let a := (s.stashRange p).1 + mib r.1 + u.hfill
      ∃ t : State, exec (.fwdComplete p k (.writes l n b f)) s = .next t.intakeCheck ∧
        t.OneUnit p k { u with entries := u.entries ++ [⟨l.val, n.toNat, i, a, b.toNat, f.val⟩], hfill := u.hfill + b.toNat } ∧
        t.descWord p i = (a + 2 ^ 49) % 2 ^ 64 ∧ outside t ∧ Only writes s t) ∧
    (s.OneUnit p k u → u.stage = .fwd → l.val ∉ u.layers → s.gathered p u.step l = true → u.chunk = 0 → table →
      ∃ t : State, exec (.fwdComplete p k (.layer l)) s = .next t.intakeCheck ∧ t.OneUnit p k { u with layers := u.layers ++ [l.val] } ∧
      (∀ e ∈ u.entries, e.layer = l.val → s.descWord p e.desc / 2 ^ 49 % 8 = 1 → t.descWord p e.desc = s.descWord p e.desc + 2 ^ 49) ∧
      outside t ∧ Only writes s t) ∧
    (s.OneUnit p k u → u.stage = .fwd → table →
      (∀ y ∈ (s.trn' p).units, y.same u = true → y.chunk < u.chunk → y.stage ≠ .posted ∧ y.stage ≠ .fwd) →
      s.stageOut p false = false ∨ u.sentFwd = true →
      ∃ t : State, exec (.fwdComplete p k .unit) s = .next t.intakeCheck ∧ t.OneUnit p k { u with stage := .fwdDone } ∧
      (∀ i < 65536, t.descWord p i = if i ∈ mine ∧ s.descWord p i / 2 ^ 49 % 8 = 1 then s.descWord p i + 2 ^ 49 else s.descWord p i) ∧
      outside t ∧ Only writes s t) ∧
    (s.OneUnit p k u → u.stage = .fwdDone → (s.trn' p).mbForward u = true → dy = true ∨ u.dy = true →
      (∀ y ∈ (s.trn' p).units, (y.same u = true → u.chunk < y.chunk → y.stage = .done) ∧
        (y.batch = u.batch → y.mb < u.mb → y.chunk + 1 = y.chunks → y.stage = .bwd ∨ y.stage = .done)) →
      ∃ t, exec (.bwdStart p k dy) s = .next t ∧ t.OneUnit p k { u with stage := .bwd, dy := true } ∧ Only [.regs, .trn] s t) ∧
    (s.OneUnit p k u → u.stage = .bwd → (s.trn' p).units.find? (fun y => y.same u && y.chunk == c.val) = some y → c.val < u.chunk →
      y.entries.find? (fun e => e.layer == l.val && e.slot == n.toNat && e.fmt == 9) = some e → 8 * i + 8 ≤ e.bytes →
      e.addr + 8 * i + 8 ≤ 0x8000000000 → s.poisoned (e.addr + 8 * i) 8 = false →
      let old : Val := if u.chunk + 1 = u.chunks then .zero false else Fmt.w40.decode (s.le (e.addr + 8 * i) 5)
      let r := (kcgWord (s.seedOf p) stream (BitVec.ofNat 32 u.batch) (BitVec.ofNat 64 (base + i))).toNat / 65536
      ∃ t : State, exec (.bwdComplete p k (.kvGrad c l n i [b] stream base)) s = .next t.intakeCheck ∧
        t.le (e.addr + 8 * i) 8 = (Fmt.w40.round (.sr r) false (old.add (Fmt.w40.decode b.toNat))).bits % 2 ^ 64 ∧
        (∀ a, a < e.addr + 8 * i ∨ e.addr + 8 * i + 8 ≤ a → t.byte a = s.byte a) ∧ Only writes s t) ∧
    (s.OneUnit p k u → u.stage = .bwd → u.chunk = 0 → u.tainted = false → s.gathered p u.step l = true → l.val ∈ u.refs →
      u.refs.Nodup → ((s.trn' p).shard l).updWait = [] → (((s.trn' p).shard l).slot u.step).holds u.step = true →
      ∃ t : State, exec (.bwdComplete p k (.layer l none)) s = .next t.intakeCheck ∧
        t.OneUnit p k { u with refs := u.refs.filter (· ≠ l.val) } ∧
        (((t.trn' p).shard l).slot u.step).refs = (((s.trn' p).shard l).slot u.step).refs - 1 ∧
        (∀ m, m ≠ l.val → (t.trn' p).shard m = (s.trn' p).shard m) ∧ Only [.regs, .trn] s t) ∧
    (s.OneUnit p k u → u.stage = .bwd → u.tainted = false → u.refs.Nodup → (∀ n ∈ u.refs, ((s.trn' p).shard n).updWait = []) →
      (s.trn' p).replay = none → table → s.stageOut p true = false ∨ u.sentBwd = true →
      ∃ t : State, exec (.bwdComplete p k .unit) s = .next t.intakeCheck ∧
      t.OneUnit p k { u with stage := .done, hres := none, sres := none, entries := [], refs := [], asked := [], remRefs := [] } ∧
      (∀ n ∈ u.refs, (((s.trn' p).shard n).slot u.step).holds u.step = true →
        (((t.trn' p).shard n).slot u.step).refs = (((s.trn' p).shard n).slot u.step).refs - 1) ∧
      (∀ n, n ∉ u.refs → (t.trn' p).shard n = (s.trn' p).shard n) ∧
      (∀ i < 65536, t.descWord p i = if i ∈ mine then s.descWord p i - s.descWord p i / 2 ^ 49 % 8 * 2 ^ 49 else s.descWord p i) ∧
      outside t ∧ Only writes s t)
/-- R125 to R129 (Table 4-6): an update claims its step's slot when that is FREE, or PREVIOUS and without references, and waits otherwise; a member's
reports move the owner's references, and an owner's word lets a waiting admission go on; a wait past VER_TIMEOUT is VERSION_TIMEOUT, and a version
that is gone VERSION_MISSING. R115, R136 (Table 4-8): training is enabled only on good regions, else TRN_CONFIG; it is disabled once the job is
aborted or gone, which clears its units, its stage and its error record. -/
def Obligations.VersionSlotsAndTrainingEnable : Prop :=
  (∀ (p : Part) (n : Fin 4096) (step : BitVec 16) (k : MbKey) (m : BitVec 16) (s : State),
      let x := (s.trn' p).shard n
      let w := step.toNat
      (s.AllAdmitted p → ∃ t, exec (.slotClaim p n step) s = .next t ∧ ((t.trn' p).shard n) =
        (if (x.slot w).st = 0 ∨ (x.slot w).st = 3 ∧ (x.slot w).refs + s.batchRefs p w = 0 then
            { x.setSlot w ⟨w, 1, 0⟩ with updWait := x.updWait.filter (· ≠ w) }
         else { x with updWait := if w ∈ x.updWait then x.updWait else x.updWait ++ [w] }) ∧ (∀ m, m ≠ n.val → (t.trn' p).shard m = (s.trn' p).shard m) ∧
        (t.trn' p).units = (s.trn' p).units ∧ Only [.regs, .trn] s t) ∧
      (s.AllAdmitted p → x.updWait = [] → (x.slot w).holds w = true → ∃ t, exec (.versionReport p n step .backward) s = .next t ∧
        (t.trn' p).shard n = x.setSlot w { x.slot w with refs := (x.slot w).refs - 1 } ∧ Only [.regs, .trn] s t) ∧
      (x.updWait = [] → (x.slot w).holds w = true → ∃ t, exec (.versionReport p n step .admission) s = .next t ∧
        (t.trn' p).shard n = x.setSlot w { x.slot w with refs := (x.slot w).refs + 1 } ∧ Only [.trn] s t) ∧
      (x.updWait = [] → x.newest = some (w - 1) → 0 < w → (x.slot w).step ≠ w → ∃ t, exec (.versionReport p n step .admission) s = .next t ∧
        (t.trn' p).shard n = { x with waits := x.waits ++ [w] } ∧ Only [.trn] s t) ∧
      (∀ u, (s.trn' p).units.find? (fun u => u.stage == .posted && u.step == w && u.asked.contains (m.toNat, n.val) &&
        !u.remRefs.contains (m.toNat, n.val)) = some u → s.learning p = false → s.OneUnit p k u →
        ∃ t, exec (.versionReport p n step (.granted m)) s = .next t ∧
          { u with remRefs := u.remRefs ++ [(m.toNat, n.val)] } ∈ (t.trn' p).units ∧ Only [.regs, .trn] s t) ∧
      (x.newest = some w → (x.slot w).holds w = false → (x.slot w).step ≠ w ∨ (x.slot w).st ≠ 1 →
        ∃ t, exec (.versionReport p n step .admission) s = .next t ∧ TrnFails p 0x5005 s t) ∧
      (s.rd (R.TRN.VER_TIMEOUT.MS p) ≠ 0 → x.updWait ≠ [] → ∃ t, exec (.versionTimeout p (.update n)) s = .next t ∧ TrnFails p 0x5006 s t) ∧
      (∀ u, (s.trn' p).units.find? (fun u => u.stage == .posted) = some u → s.rd (R.TRN.VER_TIMEOUT.MS p) ≠ 0 → s.learning p = true → u.chunk = 0 →
        n.val ∈ u.shards → n.val ∉ u.refs → x.slot u.step = ⟨u.step, 1, (x.slot u.step).refs⟩ →
        ∃ t, exec (.versionTimeout p .forward) s = .next t ∧ TrnFails p 0x5006 s t) ∧
      (s.rd (R.TRN.VER_TIMEOUT.MS p) = 0 → ∀ what, exec (.versionTimeout p what) s = .next s)) ∧
  (∀ (p : Part) (s : State), s.AllAdmitted p →
      (s.trnConfigOk p = true → ∃ t, exec (.trnEnable p) s = .next t ∧ t.rd (R.TRN.CTL.EN p) = 1 ∧ (t.trn' p).units = (s.trn' p).units ∧
        Only [.regs, .trn] s t) ∧
      (s.trnConfigOk p = false → ∃ t, exec (.trnEnable p) s = .next t ∧ t.rd (R.TRN.CTL.EN p) = s.rd (R.TRN.CTL.EN p) ∧ TrnFails p 0x5007 s t) ∧
      ((∀ j, s.jobOf p = some j → j.reset = true) → ∃ t, exec (.trnDisable p) s = .next t ∧ t.rd (R.TRN.CTL.EN p) = 0 ∧
        t.rd (R.TRN.ERR.VALID p) = 0 ∧ t.rd (R.TRN.STASH_STAT.STAGE p) = 0 ∧ (t.trn' p).units = [] ∧ Only [.regs, .trn] s t) ∧
      (s.jobRuns p = true → exec (.trnDisable p) s = .next s))
/-- R141, R532: a rollout command that passes the checks of posted commands waits for the next decode-step boundary. R141, R143, R149, R150, R160 to R162,
R167: at the boundary a CANCEL, a PAUSE, a BUDGET and an ADMIT take effect and complete: an ADMIT takes the lowest free context, its pages and its
charge. -/
def Obligations.RolloutBoundaryActsOnCommands : Prop :=
  (∀ (x : Post) (dma : Bool) (j : Job) (s : State),
      (s.Passes x [-1, -1, -1, -1, -1, -1, -1] j → ∃ t, exec (.admitSeq x dma) s = .next t ∧ Awaits x 0x60 (.boundary x.p dma) s t) ∧
      (s.Passes x [lowMask 32] j → ∃ t, exec (.cancel x) s = .next t ∧ Awaits x 0x61 (.boundary x.p false) s t) ∧
      (s.Passes x [lowMask 56] j → ∃ t, exec (.pause x) s = .next t ∧ Awaits x 0x62 (.boundary x.p false) s t) ∧
      (s.Passes x [lowMask 13, lowMask 48] j → fieldOf x.p.w1 12 1 = 0 → ∃ t, exec (.budgetSet x) s = .next t ∧
        Awaits x 0x63 (.boundary x.p false) s t) ∧
      (s.Passes x [lowMask 13, lowMask 48] j → fieldOf x.p.w1 12 1 = 1 → ∃ t, exec (.budgetAdd x) s = .next t ∧
        Awaits x 0x63 (.boundary x.p false) s t)) ∧
  (∀ (p : Part) (c : PendCmd) (w : Payload) (j : Job) (n : Nat) (s : State), s.AtBoundary p c w j →
      let h := fieldOf w.w1 0 32
      let x := s.ctx n
      (c.opcode = 0x63 → j.owns (fieldOf w.w1 0 12) = true → ∃ t, exec (.decodeStepBoundary p) s = .next t ∧ t.host.waiting = [] ∧
        Finished c 0 0 s t ∧ (∀ a, a ≠ fieldOf w.w1 0 12 → t.balance a = s.balance a) ∧
        (fieldOf w.w1 12 1 = 0 → t.balance (fieldOf w.w1 0 12) = fieldOf w.w2 0 48) ∧
        (fieldOf w.w1 12 1 = 1 → (t.balance (fieldOf w.w1 0 12) : Int) =
          max 0 (min (2 ^ 48 - 1) ((s.balance (fieldOf w.w1 0 12) : Int) + toSigned 48 (fieldOf w.w2 0 48))))) ∧
      (c.opcode = 0x61 → s.named j h = some n → x.st ≤ 5 → x.stopped = none → ∃ t, exec (.decodeStepBoundary p) s = .next t ∧ t.host.waiting = [] ∧
        Finished c 0 0 s t ∧ t.ctx n = if s.rd (R.ROLL.CTL.RUN_TO_END p) = 1 then (if x.st = 5 then { x with st := 6 } else { x with runEnd := true })
          else { x with st := 8, reason := 6 }) ∧
      (c.opcode = 0x62 → s.named j h = some n → x.st ≤ 5 → x.runEnd = false → x.stopped = none → fieldOf w.w1 32 24 ≠ 0 →
        ∃ t, exec (.decodeStepBoundary p) s = .next t ∧ t.host.waiting = [] ∧ Finished c 0 0 s t ∧
        t.ctx n = if x.st = 5 then { x with st := 7, reason := 7, ttl := fieldOf w.w1 32 24 } else { x with hold := some (fieldOf w.w1 32 24) }) ∧
      (let f := admitFields w
       let charge := (f.plen * min 16 (s.rd (R.ROLL.CTL.PREFILL_W p)) + 15) / 16
       c.opcode = 0x60 → s.admitOk j f = true → (s.liveCtxs p).length < s.rd (R.ROLL.QUOTA.CTX p) → n < 16384 → x.st = 0 →
       (∀ m < n, (s.ctx m).st ≠ 0) → f.adapter = 0xffff → f.pfx = 0xffff → f.resume = false → charge ≤ s.balance f.acct →
       ∀ pages, s.reservePages p ((min (f.plen + f.maxNew) 4194304 + s.pageTok p - 1) / s.pageTok p) = some pages →
        ∃ t, exec (.decodeStepBoundary p) s = .next t ∧ t.host.waiting = [] ∧ Finished c 0 (n + x.gen * 2 ^ 14) s t ∧ (t.ctx n).st = 1 ∧
        (t.ctx n).part = p ∧ (t.ctx n).pages = pages ∧ (t.ctx n).toks = (List.range f.plen).map (fun i => s.hostLE j.port (f.addr + 4 * i) 4) ∧
        (t.ctx n).maxNew = f.maxNew ∧ (t.ctx n).acct = f.acct ∧ (t.ctx n).batch = f.batch ∧ t.balance f.acct = s.balance f.acct - charge ∧
        ∀ m, m ≠ n → t.ctx m = s.ctx m))
/-- R137, R138, R149, R168, R180 (Table 5-1): the prefill pool takes the queued context admitted first, stamped with its batch's version; a restored one
has its stored pages back; prefill passes chunks of 65,536 tokens at most and then emits the first token; a shipped context decodes, its pages in
place or at the decode pool's module, which lodges them, and a failed shipment closes it. -/
def Obligations.ContextsReachDecode : Prop :=
  ∀ (k : CtxId) (logits : List (BitVec 32)) (b : Batch) (o : Obj) (tk : Nat) (last : Fin 65536) (m : BitVec 16) (h : BitVec 32)
    (data : List (Byte × Bool)) (q : Part) (s : State),
    let n := k.val
    let c := s.ctx n
    let p := c.part
    let first := if s.noDrafts c = true then 0 else min (s.rd (R.ROLL.CTL.DRAFT_INIT p)) (min 8 (s.rd (R.ROLL.CTL.DRAFT_MAX p)))
    let taken (v : Nat) : Ctx := { c with st := if c.resume = none then 3 else 2, step := v }
    (c.st = 1 → s.rd (R.SCHED.TURN_STAT.PHASE p) = 1 → s.rd (R.ROLL.CTL.EN p) = 1 →
      (∀ m ∈ s.liveCtxs p, (s.ctx m).st = 1 → c.order ≤ (s.ctx m).order) → (s.batchSt p).open_.find? (fun x => x.num == c.batch) = some b →
      (∀ v, b.stamp = some v → ∃ t, exec (.contextTake k) s = .next t ∧ t.ctx n = taken v ∧ (∀ m, m ≠ n → t.ctx m = s.ctx m) ∧ Only [.roll] s t) ∧
      (b.stamp = none → s.housePaused p = false → s.rd (R.SCHED.WPTR.VALID p) = 1 → ∃ t, exec (.contextTake k) s = .next t ∧
        t.ctx n = taken (s.rd (R.SCHED.WPTR.STEP p)) ∧ t.batchVer p c.batch = s.rd (R.SCHED.WPTR.STEP p) ∧ Only [.regs, .roll] s t)) ∧
    (c.st = 2 → c.resume = some tk → s.obj tk = some o → c.prompt ≠ 0 → c.pages.Nodup →
      (∀ i ∈ c.pages, s.offAt (s.pageAddr p i) (s.pageBytes p) = none) → ∃ t : State, exec (.restoreComplete k) s = .next t.intakeCheck ∧
      t.ctx n = { c with st := 3, resume := none } ∧ t.obj tk = none ∧
      (∀ i, ∀ (hi : i < c.pages.length), i < o.bytes / s.pageBytes p → ∀ q < s.pageBytes p,
        t.byte (s.pageAddr p c.pages[i] + q) = Tab.get 0 o.data (i * s.pageBytes p + q)) ∧
      (∀ a, (∀ i, ∀ (hi : i < c.pages.length), i < o.bytes / s.pageBytes p →
        a < s.pageAddr p c.pages[i] ∨ s.pageAddr p c.pages[i] + s.pageBytes p ≤ a) → t.byte a = s.byte a)) ∧
    (c.st = 3 → last.val + 1 < c.toks.length - c.filled → s.kvPoisoned c c.filled = false → ∃ t, exec (.prefillComplete k (.chunk last) false) s = .next t ∧
      t.ctx n = { c with filled := c.filled + last.val + 1 } ∧ (∀ m, m ≠ n → t.ctx m = s.ctx m) ∧ Only [.roll] s t) ∧
    (c.st = 3 → c.toks.length ≤ c.filled + 65536 → vocabOk logits = true → s.kvPoisoned c c.filled = false →
      let y := s.sampleAt c logits c.toks.length
      (0 < s.balance c.acct → s.Stops n y.1 = none → c.runEnd = false → ∃ t, exec (.prefillComplete k (.first logits) false) s = .next t ∧
        t.ctx n = { c with st := 4, toks := c.toks ++ [y.1], hist := c.hist + 1, out := c.out + 1, filled := c.toks.length } ∧
        t.balance c.acct = s.balance c.acct - 1 ∧ (∀ a, a ≠ c.acct → t.balance a = s.balance a) ∧
        Streams p c.ring (tokenRec n c c.toks.length y.1 y.2 false).1 (tokenRec n c c.toks.length y.1 y.2 false).2 s t) ∧
      (s.balance c.acct = 0 → ∃ t, exec (.prefillComplete k (.first logits) false) s = .next t ∧
        t.ctx n = { c with st := 4, stopped := some 4, filled := c.toks.length } ∧ Only [.roll] s t)) ∧
    (c.st = 4 → c.stopped = none → c.hold = none → c.runEnd = false →
      let decodes : Ctx := { c with st := 5, off := false, offLeft := 0, zeroRun := 0, len := first }
      (s.decodeHere p = true → ∃ t : State, exec (.shipComplete k .here) s = .next t.intakeCheck ∧
        t.ctx n = decodes ∧ (∀ m, m ≠ n → t.ctx m = s.ctx m) ∧ Only [.roll] s t) ∧
      (s.decodeHere p = false → s.jobKeyed p = true → ∃ t : State, exec (.shipComplete k (.sent m)) s = .next t.intakeCheck ∧
        t.ctx n = { decodes with pages := [], far := some m.toNat } ∧ (∀ m, m ≠ n → t.ctx m = s.ctx m) ∧ Only [.roll] s t)) ∧
    (c.st = 4 → ∃ t : State, exec (.shipComplete k .failed) s = .next t.intakeCheck ∧ t.ctx n = { c with st := 8, reason := 8, round := none } ∧
      Logs (R.ROLL.ERR.VALID p) (R.ROLL.ERR.CODE p) 0x6011 s t) ∧
    (∀ i, s.reservePages q 1 = some [i] → s.jobKeyed q = true → data.length = s.pageBytes q → data ≠ [] →
      s.roll.lodged.any (fun x => x.src == m.toNat && x.handle == h.toNat) = false → s.offAt (s.pageAddr q i) data.length = none →
      ∃ t : State, exec (.shipComplete k (.came q m h data)) s = .next t.intakeCheck ∧
        t.roll.lodged = s.roll.lodged ++ [⟨q.val, m.toNat, h.toNat, [i]⟩] ∧
        (∀ b, ∀ (hb : b < data.length), t.byte (s.pageAddr q i + b) = data[b].1) ∧
        (∀ a, a < s.pageAddr q i ∨ s.pageAddr q i + data.length ≤ a → t.byte a = s.byte a)) ∧
    (∃ t : State, exec (.shipComplete k (.left q m h)) s = .next t.intakeCheck ∧
      (∀ x ∈ t.roll.lodged, x ∈ s.roll.lodged ∧ ¬ (x.part = q.val ∧ x.src = m.toNat ∧ x.handle = h.toNat)) ∧ Only [.roll] s t)
/-- R151, R154 to R159, R171 (Tables 5-3, 5-4): a verify round holds the drafts, sampled from the draft model with the stream and positions of the main
model, that the main model samples too, and one sample more; the boundary emits it, charges the account and sets the next draft length; drafting that
is off starts again at 1. -/
def Obligations.RoundsAreVerifiedAndEmitted : Prop :=
  ∀ (k : CtxId) (drafts logits : List (List (BitVec 32))) (l tok lp : Nat) (q : Part) (s : State),
    let n := k.val
    let c := s.ctx n
    let p := c.part
    let y (i : Nat) := s.sampleAt c (logits.getD i []) (c.toks.length + i)
    let draft (i : Nat) := (s.sampleAt c (drafts.getD i []) (c.toks.length + i)).1
    (s.Decodes n → drafts.length = s.draftLen c → logits.length = drafts.length + 1 → logits.all vocabOk = true → drafts.all vocabOk = true →
      s.kvPoisoned c (c.toks.length - 1) = false → ∃ t x, exec (.verifyRound k drafts logits false false false) s = .next t ∧
      (t.ctx n).round = some x ∧ t.ctx n = { c with round := some x } ∧ x.len = drafts.length ∧ x.toks.length = x.acc + 1 ∧ x.acc ≤ drafts.length ∧
      (∀ i < x.acc, draft i = (y i).1 ∧ x.toks.getD i (0, 0, false) = ((y i).1, (y i).2, true)) ∧
      x.toks.getD x.acc (0, 0, false) = ((y x.acc).1, (y x.acc).2, false) ∧ (x.acc < drafts.length → draft x.acc ≠ (y x.acc).1) ∧
      t.rd (R.ROLL.SPEC_CNT.DRAFTED p) = min (s.rd (R.ROLL.SPEC_CNT.DRAFTED p) + drafts.length) (2 ^ (R.ROLL.SPEC_CNT.DRAFTED p).w - 1) ∧
      t.rd (R.ROLL.SPEC_CNT.ACCEPTED p) = min (s.rd (R.ROLL.SPEC_CNT.ACCEPTED p) + x.acc) (2 ^ (R.ROLL.SPEC_CNT.ACCEPTED p).w - 1) ∧
      Only [.regs, .roll] s t) ∧
    (s.rd (R.ROLL.CTL.EN p) = 1 → s.liveCtxs p = [n] → c.st = 5 → c.mark = 0 → c.round = some ⟨l, 0, [(tok, lp, false)]⟩ → c.off = false →
      s.host.waiting = [] → 0 < s.balance c.acct → s.Stops n tok = none → c.runEnd = false → s.noDrafts c = false →
      p = q.val → ∃ t, exec (.decodeStepBoundary q) s = .next t ∧ (t.ctx n =
        let d : Ctx := { c with round := none, toks := c.toks ++ [tok], hist := c.hist + 1, out := c.out + 1 }
        if l = 0 then d else if 2 ≤ l then { d with len := l / 2 } else if c.zeroRun < 3 then { d with len := 1, zeroRun := c.zeroRun + 1 }
        else { d with len := 0, zeroRun := 0, off := true, offLeft := 64 }) ∧
      t.balance c.acct = s.balance c.acct - 1 ∧
      Streams p c.ring (tokenRec n c c.toks.length tok lp false).1 (tokenRec n c c.toks.length tok lp false).2 s t) ∧
    (c.st = 5 ∨ c.st = 6 → c.off = true → c.offLeft = 0 → c.round = none → ∃ t, exec (.draftReprobe k) s = .next t ∧
      t.ctx n = { c with off := false, zeroRun := 0, len := if s.noDrafts c = true then 0 else 1 } ∧ (∀ m, m ≠ n → t.ctx m = s.ctx m) ∧
      Only [.roll] s t)
/-- R140, R147, R163, R167, R170 to R172, R340, R341: a paused context parks under a ticket; a closing context streams its final record and is free again
with the next generation; room in a ring lets its waiting records out; an expired park record is deleted. -/
def Obligations.ContextsParkAndClose : Prop :=
  ∀ (k : CtxId) (p : Part) (r : Fin 64) (q : BitVec 32) (s : State),
    let n := k.val
    let c := s.ctx n
    let pages := c.pages.take ((c.toks.length + s.pageTok c.part - 1) / s.pageTok c.part)
    let bytes := pages.length * s.pageBytes c.part
    let rec_ := finalRec n c
    (c.st = 7 → c.far = none → s.parkFits c.part bytes = true → s.roll.parks.length < 1048576 → ∀ i, s.freeIndex = some i → i < 2 ^ 22 →
      ∃ t x o, exec (.parkComplete k []) s = .next t ∧ (t.ctx n).st = 8 ∧ (t.ctx n).slot = none ∧ (t.ctx n).ticket % 2 ^ 22 = i ∧
      (∀ m, m ≠ n → t.ctx m = s.ctx m) ∧ t.objAt i = some o ∧ o.kind = .park ∧ o.bytes = bytes ∧ o.part = c.part ∧
      o.expiry = some (s.now + c.ttl * 32768) ∧ o.data = (s.cutPages c.part pages 0).data ∧
      Tab.get none t.roll.parks i = some x ∧ x.toks = c.toks ∧ x.step = c.step ∧ x.adapter = c.adapter ∧ x.ring = c.ring ∧ x.dram = true ∧ t.mem = s.mem) ∧
    (c.st = 8 → c.finalSent = false → (∀ x, s.sring c.part c.ring = some x → x.queue = [] ∧ ∃ j, s.streamJob c.part = some j ∧ 0 < s.ringRoom j x) →
      ∃ t, exec (.contextClose k) s = .next t ∧ t.ctx n = Ctx.free ((c.gen + 1) % 2 ^ 18) ∧ (∀ m, m ≠ n → t.ctx m = s.ctx m) ∧
      Streams c.part c.ring rec_.1 rec_.2 s t) ∧
    (c.st = 8 → c.finalSent = false → ∀ x, s.sring c.part c.ring = some x → s.streamJob c.part = none →
      ∃ t, exec (.contextClose k) s = .next t ∧ t.ctx n = { c with finalSent := true } ∧ Streams c.part c.ring rec_.1 rec_.2 s t ∧ Only [.roll] s t) ∧
    (∀ x, s.sring p r = some x → ∀ j, s.streamJob p = some j → let m := min (s.ringRoom j x) x.queue.length
      ∃ t, exec (.streamRingRoom p r) s = .next t ∧ t.sring p r = some { x with written := x.written + m, queue := x.queue.drop m } ∧
      Only [.regs, .hostMem, .rings, .roll] s t) ∧
    (∀ x, s.parkRec q.toNat = some x → ∀ o, s.obj q.toNat = some o → ∀ e, o.expiry = some e → x.held = false → e ≤ s.now →
      ∃ t, exec (.parkExpiry q) s = .next t ∧ t.obj q.toNat = none ∧ t.parkRec q.toNat = none ∧
      Streams o.part x.ring (2 ^ 55) (q.toNat * 2 ^ 32) s t ∧ t.mem = s.mem)
/-- R163 to R165 (Table 5-5): a load waits for a slot, takes the lowest free one within the quota, and moves the adapter's pointer to it at its end, or
frees it where its source is poisoned; an unload retires the current slot. R142, R145 to R147, R158, R176 (Tables 5-7, 5-9): a prefix handle keeps
whole pages of a decoding context until it is released and unmapped; a stop set is read from host memory; rollout is enabled on a good configuration,
and disabling it closes every context of the partition. -/
def Obligations.AdaptersPrefixesAndStopSets : Prop :=
  (∀ (x : Post) (p : Part) (i : Fin 1024) (id ver src n : Nat) (c : PendCmd) (j : Job) (s : State),
      let a := s.aslot i
      let waiting := s.host.waiting
      (s.Passes x [lowMask 32, lowMask 48, lowMask 40] j → fieldOf x.p.w1 0 16 ≠ 0xffff →
        x.p.w3.toNat = 0 ∨ s.reach (some j.part) x.p.w2.toNat x.p.w3.toNat false = .ok → ∃ t, exec (.adapterLoad x) s = .next t ∧
        Awaits x 0x64 (.adapterWait (fieldOf x.p.w1 0 16) (fieldOf x.p.w1 16 16) x.p.w2.toNat x.p.w3.toNat) s t) ∧
      (s.Passes x [lowMask 32, lowMask 48, lowMask 40] j → fieldOf x.p.w1 0 16 = 0xffff → ∃ t, exec (.adapterLoad x) s = .next t ∧
        Replied x 0x64 0x6008 0 s t ∧ Only [.hostMem, .rings] s t) ∧
      (waiting = [c] → c.kind = .adapterWait id ver src n → s.job c.job = some j → j.part = p.val → a.st = 0 → (∀ k < i.val, (s.aslot k).st ≠ 0) →
        (s.roll.slots.filter (fun e => e.2.st != 0 && e.2.part == p.val)).length < s.rd (R.ROLL.QUOTA.ADAPTERS p) →
        ∃ t, exec (.adapterLoadDispatch p) s = .next t ∧ t.aslot i = ⟨1, p, id, ver, 0, []⟩ ∧ (∀ k, k ≠ i.val → t.aslot k = s.aslot k) ∧
        t.host.waiting = [{ c with kind := .adapterLoading i src n }] ∧ Only [.waiting, .roll] s t) ∧
      (waiting = [c] → c.kind = .adapterLoading i src n → a.st = 1 → s.job c.job = some j → j.orphaned = false → j.toRing0 = false →
        (s.poisoned src n = false → s.adapterPtr a.part a.id ≠ some i.val → ∃ t, exec (.adapterLoadComplete i) s = .next t ∧
          t.aslot i = { a with st := 2, data := (s.cut src n).data } ∧ t.host.waiting = [] ∧ Finished c 0 0 s t ∧
          (∀ k, s.adapterPtr a.part a.id = some k → t.aslot k = if (s.aslot k).count = 0 then ⟨0, 0, 0, 0, 0, []⟩ else { s.aslot k with st := 3 })) ∧
        (s.poisoned src n = true → ∃ t, exec (.adapterLoadComplete i) s = .next t ∧ t.aslot i = ⟨0, 0, 0, 0, 0, []⟩ ∧ t.host.waiting = [] ∧
          Finished c 0x6013 0 s t ∧ Logs (R.ROLL.ERR.VALID a.part) (R.ROLL.ERR.CODE a.part) 0x6013 s t)) ∧
      (s.Passes x [lowMask 16] j → s.adapterPtr j.part (fieldOf x.p.w1 0 16) = some i.val → ∃ t, exec (.adapterUnload x) s = .next t ∧
        t.aslot i = (if a.count = 0 then ⟨0, 0, 0, 0, 0, []⟩ else { a with st := 3 }) ∧ (∀ k, k ≠ i.val → t.aslot k = s.aslot k) ∧
        Replied x 0x65 0 0 s t ∧ Only [.hostMem, .rings, .roll] s t)) ∧
  (∀ (x : Post) (p : Part) (j : Job) (n h : Nat) (y : Pfx) (s : State),
      let c := s.ctx n
      let m := fieldOf x.p.w1 32 22
      let r := fieldOf x.p.w1 0 14
      (s.Passes x [lowMask 54] j → s.named j (fieldOf x.p.w1 0 32) = some n → h < 16384 → s.pfx h = none → (∀ k < h, s.pfx k ≠ none) →
        c.st = 5 ∨ c.st = 6 → 0 < m → m % s.pageTok j.part = 0 → m < c.toks.length →
        (s.roll.pfxs.filter (fun e => match e.2 with | some z => z.part == j.part | none => false)).length < s.rd (R.ROLL.QUOTA.PREFIXES j.part) →
        ∃ t, exec (.prefixCreate x) s = .next t ∧
        t.pfx h = some ⟨j.part, c.toks.take m, c.pages.take (m / s.pageTok j.part), c.step, c.adapter, c.aver, false⟩ ∧
        t.ctx n = { c with maps := c.maps ++ [h] } ∧ Replied x 0x66 0 h s t ∧ Only [.hostMem, .rings, .roll] s t) ∧
      (s.Passes x [lowMask 14] j → s.pfx r = some y → y.part = j.part → y.released = false → ∃ t, exec (.prefixRelease x) s = .next t ∧
        t.pfx r = (if s.mapped r = true then some { y with released := true } else none) ∧ (∀ k, k ≠ r → t.pfx k = s.pfx k) ∧
        Replied x 0x67 0 0 s t ∧ Only [.hostMem, .rings, .roll] s t) ∧
      (s.Passes x [lowMask 8, -1] j → ∃ t, exec (.stopsetWrite x false) s = .next t ∧
        (t.stopSet j.part (fieldOf x.p.w1 0 8)).ends = (List.range 8).map (fun i => s.hostLE j.port (x.p.w2.toNat + 4 * i) 4) ∧
        Replied x 0x68 0 0 s t ∧ Only [.hostMem, .rings, .roll] s t) ∧
      (s.rollConfigOk p = true → ∃ t, exec (.rollEnable p) s = .next t ∧ t.rd (R.ROLL.CTL.EN p) = 1 ∧
        (∀ f : Fld, f.reg ≠ (R.ROLL.CTL.EN p).reg → t.rd f = s.rd f) ∧ Only [.regs] s t) ∧
      (s.rollConfigOk p = false → ∃ t, exec (.rollEnable p) s = .next t ∧ t.rd (R.ROLL.CTL.EN p) = s.rd (R.ROLL.CTL.EN p) ∧
        Logs (R.ROLL.ERR.VALID p) (R.ROLL.ERR.CODE p) 0x6014 s t ∧ Contains 0x6014 p s t) ∧
      (∃ t, exec (.rollDisable p) s = .next t ∧ t.rd (R.ROLL.CTL.EN p) = 0 ∧
        (∀ k, (s.ctx k).part = p.val → (s.ctx k).st ≠ 0 → (s.ctx k).st ≠ 8 → t.ctx k = { s.ctx k with st := 8, reason := 9, round := none }) ∧
        (∀ k, (s.ctx k).part ≠ p.val ∨ (s.ctx k).st = 0 ∨ (s.ctx k).st = 8 → t.ctx k = s.ctx k) ∧ Only [.regs, .roll] s t))
/-- R177, R184, R185 (Tables 6-2, 6-3): a TURN starts a turn: its phase and step number stand, it waits for quiescence, and a turn to learning closes the
batches that have started; at quiescence the member votes 0, at the timeout TURN_QUIESCE, and a slot that holds STEP in rollout layout with moves
asked for TURN_INVALID at once. R194, R195, R199, R200: in LEARNING a gather of a layer near the one computing is posted as an all-gather of its piece
from the slot of the stamp of the unit that needs it; a stage sender that has produced an entry spends a credit, the receiving queue takes it, and
consuming the entry that is first in order returns its credit. -/
def Obligations.TurnsStartAndGathersRun : Prop :=
  (∀ (x : Post) (j : Job) (p : Part) (u : TurnSt) (s : State), s.coll.queues = [] →
      let masks := [lowMask 49, lowMask 16, lowMask 48, lowMask 48, lowMask 24]
      let w := x.p
      let q := j.part
      (s.Passes x masks j → fieldOf w.w1 48 1 = 0 → s.turn q = none → fieldOf w.w5 0 24 = 0 → s.phase q = 0 ∨ s.phase q = 1 →
        s.slotIn q (fieldOf w.w2 0 16) 2 2 = true → s.rd (R.SCHED.TURN_CTL.CTX_POLICY q) ≠ 3 →
        ∃ t : State, ∃ v, exec (.turnToLearning x) s = .next t.intakeCheck ∧
        t.TurnAt q v 2 ∧ v.rollout = false ∧ v.step = fieldOf w.w2 0 16 ∧ v.name = fieldOf w.w1 0 48 ∧ v.prev = s.phase q ∧ v.vote = none ∧
        t.phase q = 2 ∧ t.host.waiting = s.host.waiting ++ [⟨x.port, x.fn, x.ring, x.p.w0, 0x50, x.job.toNat, .turn⟩] ∧
        (∀ b ∈ (t.batchSt q).open_, b.stamp ≠ none → b.closed = true)) ∧
      (s.Passes x masks j → fieldOf w.w1 48 1 = 1 → s.turn q = none → fieldOf w.w5 0 24 = 0 → s.phase q = 0 ∨ s.phase q = 3 →
        ∃ t : State, ∃ v, exec (.turnToRollout x) s = .next t.intakeCheck ∧ t.TurnAt q v 1 ∧ v.rollout = true ∧ v.step = fieldOf w.w2 0 16 ∧
        v.name = fieldOf w.w1 0 48 ∧ v.prev = s.phase q ∧ v.vote = none ∧ t.phase q = 4 ∧
        t.host.waiting = s.host.waiting ++ [⟨x.port, x.fn, x.ring, x.p.w0, 0x50, x.job.toNat, .turn⟩]) ∧
      (s.HasTurn p u → u.vote = none → s.layoutBad p u = false → s.quiet p u = true → ∃ t, exec (.turnQuiesced p) s = .next t ∧
        t.TurnAt p { u with vote := some 0 } (if u.rollout = true then 2 else 3) ∧ Only [.regs, .sched] s t) ∧
      (s.HasTurn p u → u.vote = none → s.layoutBad p u = false → s.quiet p u = false → ∃ t, exec (.turnQuiesceTimeout p) s = .next t ∧
        t.TurnAt p { u with vote := some 0x5011 } (if u.rollout = true then 2 else 3) ∧ Only [.regs, .sched] s t) ∧
      (s.HasTurn p u → u.vote = none → s.layoutBad p u = true → ∃ t, exec (.turnQuiesced p) s = .next t ∧
        t.TurnAt p { u with vote := some 0x5010 } (if u.rollout = true then 2 else 3) ∧ Only [.regs, .sched] s t)) ∧
  (∀ (p : Part) (k : MbKey) (layer computing : Nat) (seq us : BitVec 32) (q : StageQ) (m : MapSt) (g : GPiece) (u : MbUnit)
      (e : MbKey) (s : State), s.coll.queues = [] → s.jobRuns p = true → s.mapping p = some m →
      let y := s.stage (stageKey p q)
      let now (t : State) := t.stage (stageKey p q)
      let widen := s.on (R.SCHED.GATHER_CFG.WIDEN p)
      (s.phase p = 3 → layerGap layer computing ≤ min 4 (s.rd (R.SCHED.GATHER_CFG.DEPTH p)) → (s.trn' p).units.find? (fun u => u.is k) = some u →
        s.slotIn p u.step 2 3 = true → m.gathers = [g] → g.layer = layer → s.coll.resident = [] → s.collAt p 0 seq.toNat = none →
        (s.groupEnt p 0).valid = true → (s.grp p 0).expect = seq.toNat →
        ∃ t : State, ∃ x, exec (.gatherStart p k layer 0 computing seq) s = .next t.intakeCheck ∧ t.collAt p 0 seq.toNat = some x ∧ x.st = .queued ∧
        x.desc.kind = 5 ∧ x.desc.src = s.slotBase p u.step + g.off ∧ x.desc.dst = g.dst.toNat ∧ x.desc.elems = g.bytes ∧
        x.gather = some ⟨layer, 0, u.step, widen, g.f8b, s.slotBase p u.step + g.scale, g.dstScales.toNat, g.members.map (·.toNat)⟩ ∧
        Only [.coll] s t) ∧
      (m.sends q = true → (s.trn' p).units = [u] → u.is k = true →
        (if q.backward = true then u.stage = .bwd ∧ u.sentBwd = false else u.stage = .fwd ∧ u.sentFwd = false) →
        (0 < y.credits → ∃ t, exec (.stageEntrySend p q k us) s = .next t ∧
          now t = { y with credits := y.credits - 1, stallUs := min (y.stallUs + us.toNat) 0xffffffff } ∧ Only [.sched, .trn] s t) ∧
        (y.credits = 0 → exec (.stageEntrySend p q k us) s = .next s)) ∧
      (m.takes q = true → y.entries.length < y.depth → ∃ t, exec (.stageEntryArrive p q e) s = .next t ∧
        now t = { y with entries := y.entries ++ [e], peak := max y.peak (y.entries.length + 1) } ∧ Only [.sched] s t) ∧
      (m.takes q = true → firstEntry q.backward y.entries = some e → ∃ t, exec (.stageCreditReturn p q us) s = .next t ∧
        now t = { y with entries := y.entries.erase e, starveUs := min (y.starveUs + us.toNat) 0xffffffff } ∧ Only [.sched] s t) ∧
      (m.sends q = true → m.takes q = false → ∃ t, exec (.stageCreditReturn p q us) s = .next t ∧
        now t = { y with credits := min y.depth (y.credits + 1) } ∧ Only [.sched] s t))
/-- R186, R187, R191 to R193 (Tables 6-2, 6-3): members that differ end the turn with TURN_MISMATCH in its old phase; members that agree skip the Carve,
or begin its rounds once the stage buffer is free in group 0's quota; each round writes its chunks at their places, and the last gives the slot its
new layout; a failed round frees the slot. R178 to R183, R188, R199, R531 (Tables 6-2, 6-3, 6-12): installing a turn installs the mapping's KCG
descriptors, gathers and stage queues and, to rollout, moves the weight pointer to the turn's step; the turn's last barrier begins the new phase;
WPTR_SET moves the pointer in ROLLOUT, and BATCH_CLOSE closes a batch. What makes a mapping installable is the model's choice (log entry 169). -/
def Obligations.TurnsMoveAndInstallWeights : Prop :=
  (∀ (p : Part) (u : TurnSt) (votes : List Vote) (status : BitVec 16) (c : Coll) (w : PendCmd) (h : HeldChunk) (m : Move) (s : State), s.HasTurn p u →
      let top := (votes.map (·.rounds)).foldl max (planRounds u.plan)
      let at_ := s.rd (R.SCHED.TURN_STAT.STEP_NO p)
      let dst := s.slotBase p u.step + m.off + h.chunk * 0x400000
      let room := s.shareUsed p 0 + s.rd (R.SCHED.CARVE_CFG.STAGE_MIB p) ≤ (s.groupEnt p 0).sbuf
      (u.vote = some 0 → s.internal p u.name = some c → u.carving = false → u.rounds = 0 → c.credit = true → c.st ≠ .closing →
        at_ = (if u.rollout = true then 2 else 3) → (∀ v ∈ votes, v.code = 0) →
        (u.votesAgree votes = true → top = 0 → ∃ t : State, exec (.turnVoteBarrier p votes) s = .next t.intakeCheck ∧
          t.TurnAt p { u with carving := false, held := [], written := [], rounds := 0 } (if u.rollout = true then 4 else 5) ∧
          t.rd (layFld p u.step) = (if u.rollout = true then 0 else 1) ∧ Only [.regs, .sched, .coll] s t) ∧
        (u.votesAgree votes = true → 0 < top → ∃ t : State, ∃ v, exec (.turnVoteBarrier p votes) s = .next t.intakeCheck ∧
          t.TurnAt p v (if u.rollout = true then 3 else 4) ∧ (v.carving = true ↔ room) ∧ v.barrier = (u.barrier && !v.carving) ∧ v.rounds = top ∧
          v.plan = u.plan ∧ t.mem = s.mem ∧ Only [.regs, .sched, .coll] s t) ∧
        (u.votesAgree votes = false → s.OneWaits p .turn w → ∃ t : State, exec (.turnVoteBarrier p votes) s = .next t.intakeCheck ∧ t.turn p = none ∧
          t.phase p = u.prev % 8 ∧ t.rd (R.SCHED.TURN_STAT.STEP_NO p) = 0 ∧ t.host.waiting = [] ∧ Finished w 0x5012 0 s t)) ∧
      (u.carving = true → u.barrier = false → s.internal p u.name = some c → c.st ≠ .closing → status = 0 → u.held = [h] →
        u.entry h.xid h.chunk h.len = some m → m.round = u.round → ∃ t : State, exec (.carveRoundBarrier p status) s = .next t.intakeCheck ∧
        t.turn p = some { u with barrier := true, held := [], written := u.written ++ [(h.xid, h.chunk)], recv := u.recv + h.len } ∧
        (∀ i < h.len, t.byte (dst + i) = Tab.get 0 h.data i) ∧ (∀ a, a < dst ∨ dst + h.len ≤ a → t.byte a = s.byte a)) ∧
      (u.carving = true → u.barrier = false → status ≠ 0 → s.OneWaits p .turn w → ∃ t : State, exec (.carveRoundBarrier p status) s = .next t.intakeCheck ∧
        t.turn p = none ∧ t.phase p = u.prev % 8 ∧ Finished w 0x5013 0 s t ∧ Logs (R.SCHED.ERR.VALID p) (R.SCHED.ERR.CODE p) 0x5013 s t) ∧
      (u.carving = true → u.barrier = true → s.internal p u.name = some c → c.st ≠ .closing →
        (∀ y ∈ u.plan, y.recv = true → y.round = u.round → ∀ k < y.chunks, (y.xid, k) ∈ u.written) →
        (u.rounds ≤ u.round + 1 → ∃ t, exec (.carveRoundWritesDone p) s = .next t ∧
          t.TurnAt p { u with carving := false, held := [], written := [] } (if u.rollout = true then 4 else 5) ∧
          t.rd (layFld p u.step) = (if u.rollout = true then 0 else 1) ∧ Only [.regs, .sched, .coll] s t) ∧
        (u.round + 1 < u.rounds → ∃ t v, exec (.carveRoundWritesDone p) s = .next t ∧ t.turn p = some v ∧ v.round = u.round + 1 ∧ v.barrier = false ∧
          v.carving = true ∧ v.written = u.written ∧ Only [.regs, .sched, .coll] s t))) ∧
  (∀ (x : Post) (j : Job) (p : Part) (u : TurnSt) (m : Mapping) (k : KdSet) (w : PendCmd) (s : State),
      let n := fieldOf x.p.w1 0 16
      let here := s.HasTurn p u ∧ s.rd (R.SCHED.TURN_STAT.STEP_NO p) = (if u.rollout = true then 4 else 5) ∧ u.carving = false ∧
        s.installable p m = true ∧ s.reach (some p) u.map 1 false = .ok
      let installed (t : State) := (∃ y, t.mapping p = some y ∧ y.gathers = m.gathers ∧ y.queues = m.queues.map (·.1) ∧ y.stage = m.stage.map (·.val)) ∧
        (∀ q ∈ m.queues, (t.stage (stageKey p q.1)).depth = q.2.val ∧ (t.stage (stageKey p q.1)).credits = q.2.val ∧
          (t.stage (stageKey p q.1)).entries = [])
      (here → u.rollout = true → u.step < 65536 → (∀ y ∈ m.f4, s.narrowPoison (s.slotBase p u.step) y = false) →
        ∃ t : State, exec (.turnInstall p (some m)) s = .next t.intakeCheck ∧ t.TurnAt p u 6 ∧ t.rd (R.SCHED.WPTR.STEP p) = u.step ∧
        t.rd (R.SCHED.WPTR.VALID p) = 1 ∧ t.rd (R.SCHED.WPTR.F4 p) = (if m.f4 = [] then 0 else 1) ∧ installed t) ∧
      (here → u.rollout = false → ∃ t : State, exec (.turnInstall p (some m)) s = .next t.intakeCheck ∧ t.TurnAt p u 6 ∧
        t.rd (R.SCHED.WPTR.F4 p) = 0 ∧ t.rd (R.SCHED.WPTR.STEP p) = s.rd (R.SCHED.WPTR.STEP p) ∧ installed t ∧ t.mem = s.mem ∧
        (m.kds = [k] → t.rd (R.CORE.KDESC_ID.STREAM k.core.val k.n.val) = k.stream.toNat)) ∧
      (s.HasTurn p u → s.rd (R.SCHED.TURN_STAT.STEP_NO p) = 6 → (∀ r ∈ s.chip.remotes, s.partOfCore r.core ≠ some p.val) → s.OneWaits p .turn w →
        ∃ t : State, exec (.turnFinalBarrier p 0) s = .next t.intakeCheck ∧ t.turn p = none ∧ t.phase p = (if u.rollout = true then 1 else 3) ∧
        t.rd (R.SCHED.TURN_STAT.STEP_NO p) = 0 ∧ t.host.waiting = [] ∧ Finished w 0 0 s t) ∧
      (s.Passes x [lowMask 16] j → s.phase j.part = 1 → s.slotIn j.part n 2 3 = true → s.rd (layFld j.part n) = 0 → ∃ t, exec (.wptrSet x) s = .next t ∧
        t.rd (R.SCHED.WPTR.STEP j.part) = n ∧ t.rd (R.SCHED.WPTR.VALID j.part) = 1 ∧ Replied x 0x51 0 0 s t ∧ Only [.regs, .hostMem, .rings] s t) ∧
      (s.Passes x [lowMask 16] j → s.phase j.part ≠ 1 ∨ s.slotIn j.part n 2 3 = false ∨ s.rd (layFld j.part n) ≠ 0 → ∃ t, exec (.wptrSet x) s = .next t ∧
        t.regs = s.regs ∧ Replied x 0x51 0x5016 0 s t ∧ Only [.hostMem, .rings] s t) ∧
      (s.Passes x [lowMask 32] j → ∃ t, exec (.batchClose x) s = .next t ∧
        (∀ b ∈ (t.batchSt j.part).open_, b.num = fieldOf x.p.w1 0 32 → b.closed = true) ∧
        (∀ b ∈ (s.batchSt j.part).open_, b.num ≠ fieldOf x.p.w1 0 32 → b.closed = false → b ∈ (t.batchSt j.part).open_) ∧ Replied x 0x52 0 0 s t))
/-- R201 to R204, R432: a weight load waits for its start barrier, which claims its step's slots or ends it with the members' code; a member reads the
segments it is the source of, a tag that fails ending the load with GONDOLA_AUTH, and takes the others from their sources; a segment's bytes go to
their places in the slot; when the segments' count and the chain of their tags are the key's, the step is published. -/
def Obligations.WeightLoadsPublish : Prop :=
  ∀ (x : Post) (j : Job) (m : Mapping) (k : KeyEnt) (p : Part) (l : WLoad) (seg : BitVec 32) (hdr : Payload) (data : List Byte) (y : SlotPlace)
    (src : BitVec 16) (peers : List OpenPeer) (key : CollKey) (c : Coll) (w : PendCmd) (s : State), s.coll.queues = [] →
    let step := fieldOf x.p.w2 32 16
    let agree := agreed (l.vote :: peers.map (fun x => x.code.toNat))
    let lo := fieldOf hdr.w2 0 48
    let here := s.wload p = some l ∧ l.opened = true ∧ s.claimed p l.step = true ∧ s.jobRuns p = true
    let mine := s.segSource p l (s.moduleId / 64) seg.toNat
    (s.Passes x [lowMask 48, lowMask 52, -1, lowMask 48] j → s.imageKey j.part (fieldOf x.p.w2 0 32) j = some k → s.wload j.part = none →
      ∃ t : State, ∃ v, exec (.weightLoad x (some m)) s = .next t.intakeCheck ∧ t.wload j.part = some v ∧ v.image = fieldOf x.p.w2 0 32 ∧ v.step = step ∧
      v.name = fieldOf x.p.w1 0 48 ∧ v.tags = [] ∧ v.layout = m.layout ∧ v.opened = false ∧
      (v.vote = 0 ↔ s.installable j.part m = true ∧ s.reach (some j.part) (fieldOf x.p.w4 0 48) 1 false = .ok ∧
        (fieldOf x.p.w2 51 1 = 1 → 10 ≤ (s.ownRack j.part).length)) ∧ (v.vote ≠ 0 → v.vote = 0x5010) ∧
      t.host.waiting = s.host.waiting ++ [⟨x.port, x.fn, x.ring, x.p.w0, 0x53, x.job.toNat, .weightLoad⟩]) ∧
    (s.Passes x [lowMask 48, lowMask 52, -1, lowMask 48] j → s.imageKey j.part (fieldOf x.p.w2 0 32) j = none →
      ∃ t : State, exec (.weightLoad x (some m)) s = .next t.intakeCheck ∧ Replied x 0x53 0x7002 0 s t ∧ Only [.hostMem, .rings] s t) ∧
    (s.HasColl key c → c.internal = true → c.desc.kind = 1 → c.st = .admitted → s.wload key.part = some l →
      (agree = 0 → ∃ t : State, exec (.collOpenExchange key true src peers) s = .next t.intakeCheck ∧
        t.wload key.part = some { l with opened := true, srcs := peers.map (fun x => (x.module.toNat, x.src.val)) } ∧
        ∀ i, ((s.trn' key.part).shard i).claimable l.step (s.batchRefs key.part l.step) = true →
          ((t.trn' key.part).shard i).slot l.step = ⟨l.step, 1, 0⟩) ∧
      (agree ≠ 0 → l.opened = false → s.OneWaits key.part .weightLoad w → ∃ t : State, exec (.collOpenExchange key true src peers) s = .next t.intakeCheck ∧
        t.wload key.part = none ∧ Finished w agree 0 s t)) ∧
    (here → mine = some src.toNat → src.toNat ≠ s.moduleId → segHdrOk hdr l.image seg.toNat = true → data.length = segLen hdr → l.ec = false →
      l.layout = [y] → y.tensor.toNat = fieldOf hdr.w1 0 32 → lo ≤ y.first → y.first + y.bytes ≤ lo + data.length → 0 < y.bytes →
      let a := s.slotBase p l.step + y.slot
      ∃ t : State, ∃ v, exec (.gondolaSegment p seg (.received src hdr data)) s = .next t.intakeCheck ∧ t.wload p = some v ∧
        v.tags = Tab.set [] l.tags seg.toNat (leBytes 8 hdr.w6.toNat ++ leBytes 8 hdr.w7.toNat) ∧
        (∀ i < y.bytes, t.byte (a + i) = data.getD (y.first - lo + i) 0) ∧ (∀ b, b < a ∨ a + y.bytes ≤ b → t.byte b = s.byte b)) ∧
    (here → mine = some s.moduleId → l.src % 2 = 1 → s.jobOf p = some j →
      let at_ := segAddr (s.hostMem j.port) seg.toNat l.srcAddr
      let h := segHdr (s.hostMem j.port) at_
      let ct := (List.range (segLen h)).map (fun i => Tab.get 0 (s.hostMem j.port) (at_ + 64 + i))
      (s.OneWaits p .weightLoad w → ∃ t : State, exec (.gondolaSegment p seg (.read false true true true)) s = .next t.intakeCheck ∧ t.wload p = none ∧
        Finished w 0x5014 0 s t ∧ t.mem = s.mem) ∧
      (∃ t : State, exec (.gondolaSegment p seg (.read false true false false)) s = .next t.intakeCheck ∧
        (segHdrOk h l.image seg.toNat = true → (segOpen l.key.key h ct).isSome = true → ∃ v, t.wload p = some v ∧
          v.tags = Tab.set [] l.tags seg.toNat (leBytes 8 h.w6.toNat ++ leBytes 8 h.w7.toNat)) ∧
        (segHdrOk h l.image seg.toNat = false ∨ segOpen l.key.key h ct = none → t.wload p = none))) ∧
    (here → s.OneWaits p .weightLoad w → l.ec = false → l.lost = [] →
      (l.tags.length = l.key.nseg → Config.sha384 (l.tags.flatMap (·.2)) = l.key.tagChain → ∃ t : State, exec (.weightLoadPublish p []) s = .next t.intakeCheck ∧
        t.wload p = none ∧ t.host.waiting = [] ∧ Finished w 0 0 s t ∧ t.rd (layFld p l.step) = (if l.training = true then 1 else 0) ∧
        (∀ i, (((t.trn' p).shard i).slot l.step).st = 2 ∧ ((t.trn' p).shard i).newest = some l.step) ∧ t.mem = s.mem) ∧
      (l.tags.length ≠ l.key.nseg ∨ Config.sha384 (l.tags.flatMap (·.2)) ≠ l.key.tagChain → ∃ t : State, exec (.weightLoadPublish p []) s = .next t.intakeCheck ∧
        t.wload p = none ∧ t.host.waiting = [] ∧ Finished w 0x5014 0 s t ∧ t.mem = s.mem))
/-- R255 to R257, R260, R261 (Tables 8-5 to 8-7): an update instruction leaves its result, rounded to M48, in its destination register; LD reads a
stream's element and ST writes one; the element's program counter moves on by 1 and nothing else changes. A quotient that the spec does not state is
an open function of its operands (log entry 148). -/
def Obligations.UpdateProgramInstructions : Prop :=
  ∀ (p : Part) (i : Fin 16384) (elem : BitVec 40) (u : UpdSt) (e : UpdEnt) (s : State),
    let n := elem.toNat
    let l := u.lane i n
    let f := updIns (u.prog.getD l.pc 0)
    let x (k : Nat) : Nat := u.operand e l k
    let v (k : Nat) : Val := Fmt.m48.decode (x k)
    let m := e.stream f.st n
    let run := fun (op : Nat) (cmd : Instr) (w : Nat) => s.LaneAt p i n op u e → ∃ t, exec cmd s = .next t ∧ LanePut p i n f.d w u s t
    run 3 (.updAdd p i elem) (m48 ((v f.a).add (v f.b))) ∧ run 4 (.updSub p i elem) (m48 ((v f.a).add (v f.b).neg)) ∧
    run 5 (.updMul p i elem) (m48 ((v f.a).mul (v f.b))) ∧ run 6 (.updFma p i elem) (m48 ((v f.a).fma (v f.b) (v f.c))) ∧
    run 7 (.updDiv p i elem) (match updDivide (v f.a) (v f.b) with | some q => m48 q | none => updAlu 7 (x f.a) (x f.b) 0) ∧
    run 8 (.updSqrt p i elem) (updSqrtBits (v f.a)) ∧ run 9 (.updRsqrt p i elem) (updRsqrtBits (v f.a)) ∧
    run 10 (.updMax p i elem) (extremum .m48 true [x f.a, x f.b]) ∧ run 11 (.updMin p i elem) (extremum .m48 false [x f.a, x f.b]) ∧
    run 12 (.updSel p i elem) (if (Val.zero false).lt (v f.a) = true then x f.b else x f.c) ∧ run 13 (.updAbs p i elem) (m48 (v f.a).abs) ∧
    (s.LaneAt p i n 0 u e → ∃ t, exec (.updNop p i elem) s = .next t ∧ t.updOf p = some (u.setLane i n { l with pc := l.pc + 1 }) ∧
      Only [.upd] s t) ∧
    (s.LaneAt p i n 1 u e → f.st = 0 ∨ s.poisoned m.1 m.2.1 = false → ∃ t, exec (.updLd p i elem) s = .next t ∧
      LanePut p i n f.d (m48 (m.2.2.decode (s.le m.1 m.2.1 % 2 ^ m.2.2.width))) u s t) ∧
    (s.LaneAt p i n 2 u e → ∃ t, exec (.updSt p i elem) s = .next t ∧ t.updOf p = some (u.setLane i n { l with pc := l.pc + 1 }) ∧
      t.le m.1 m.2.1 = (m.2.2.round (.rne false) false (v f.a)).bits % 2 ^ (8 * m.2.1) ∧
      ∀ a, a < m.1 ∨ m.1 + m.2.1 ≤ a → t.byte a = s.byte a)
/-- R246, R248 to R252, R254: an UPDATE on good tables waits and arms the intake; a gradient line is stored and seen once, and a second write of it ends
the update (UPD_INTAKE); when all lines are seen the partials are formed; with equal digests and no poison the members' partials are summed exactly
and the second pass begins. -/
def Obligations.UpdatesTakeGradientsAndNorms : Prop :=
  ∀ (x : Post) (j : Job) (p : Part) (a : BitVec 48) (data : List (Byte × Bool)) (u : UpdSt) (i : Nat) (c : Coll) (peers : List NormPeer)
    (t0 s : State), s.coll.queues = [] →
    let masks := [lowMask 49, lowMask 29, lowMask 48, lowMask 14, lowMask 54, lowMask 48]
    let r := s.updRead x.p
    let n := 2 * u.nlayers
    (s.Passes x masks j → (∀ y, s.updOf j.part = some y → y.live = false) → s.updRanges j.part x.p → s.updGood j.part (fieldOf x.p.w2 16 13) r →
      ∃ t y, exec (.update x) s = .next t ∧ t.updOf j.part = some y ∧ y.stage = 1 ∧ y.step = fieldOf x.p.w2 0 16 ∧ y.name = fieldOf x.p.w1 0 48 ∧
      y.ents = r.ents ∧ y.prog = r.prog ∧ y.params = (List.range 11).map (fun k => s.le (fieldOf x.p.w6 0 48 + 8 * k) 6) ∧ y.seen = [] ∧
      t.host.waiting = s.host.waiting ++ [⟨x.port, x.fn, x.ring, x.p.w0, 0x54, x.job.toNat, .update⟩] ∧ Only [.waiting, .upd] s t) ∧
    (s.Passes x masks j → (∃ y, s.updOf j.part = some y ∧ y.live = true) → ∃ t, exec (.update x) s = .next t ∧ Replied x 0x54 0x5021 0 s t ∧
      Only [.hostMem, .rings] s t) ∧
    (s.upd = [(p.val, some u)] → u.live = true → u.twice = none → s.jobRuns p = true → a.toNat % 512 = 0 → data.length = 512 →
      u.ents.any (UpdEnt.hasLine (a.toNat / 512)) = true → u.seen.contains (a.toNat / 512) = false →
      (u.ents.zipIdx.filter (fun e => e.1.hasLine (a.toNat / 512))).length = 1 →
      ∃ t v, exec (.gradLineIntake p a data) s = .next t ∧ t.updOf p = some v ∧ v.seen = addWord u.seen (a.toNat / 512) ∧ v.twice = none ∧
      v.stage = u.stage ∧ v.ents = u.ents ∧ (∀ k, ∀ (hk : k < data.length), t.byte (a.toNat + k) = data[k].1) ∧
      ∀ b, b < a.toNat ∨ a.toNat + 512 ≤ b → t.byte b = s.byte b) ∧
    (s.upd = [(p.val, some u)] → u.live = true → u.twice = none → s.jobRuns p = true → a.toNat % 512 = 0 → data.length = 512 →
      u.ents.any (UpdEnt.hasLine (a.toNat / 512)) = true → u.seen.contains (a.toNat / 512) = true →
      ∃ t v, exec (.gradLineIntake p a data) s = .next t ∧ t.updOf p = some v ∧ v.stage = 4) ∧
    ((∀ q < 8, ∀ v, t0.updOf q = some v → v.live = true → v.twice = none) → t0.intakeCheck = t0) ∧
    (s.updOf p = some u → u.stage = 1 → s.jobRuns p = true → (∀ e ∈ u.ents, ∀ k < e.lines.2, u.seen.contains (e.lines.1 + k) = true) →
      (∀ e ∈ u.ents, s.mapPoison e = false ∧ (e.wnorm = true → s.poisoned e.master (e.elems * 6) = false)) →
      ∃ t y, exec (.updPass1Done p) s = .next t ∧ t.updOf p = some y ∧ y.stage = 2 ∧ y.ents = u.ents ∧ y.own.length = n ∧
      (∀ k < n, y.own.getD k (0, false) = s.ownNorm u k) ∧ t.mem = s.mem) ∧
    (s.updOf p = some u → u.stage = 2 → s.jobRuns p = true → s.internal p u.name = some c → c.credit = true → c.st ≠ .closing →
      peers.length + 1 = (s.groupEnt p 0).n → (∀ m ∈ peers, u.agrees m = true ∧ m.ln.length = n) →
      (∀ k < n, ∀ y ∈ normColumn u.own peers k, y.2 = false) → ∃ t y, exec (.updNormDone p 0 peers) s = .next t ∧ t.updOf p = some y ∧
      y.stage = 3 ∧ y.ln.length = n ∧
      (∀ k < n, y.ln.getD k 0 = exactSum ((normColumn u.own peers k).map (fun z => Fmt.w40.decode z.1))) ∧
      y.runAt = s.uptime ∧ (u.nfskip = false → y.skipped = false) ∧ t.mem = s.mem)
/-- R255, R262 to R266: a shard whose elements have all run takes its amax, the members' amax gives the scale, the shard claims its slot, and the return
writes its weights in F8 and the scale and publishes the step; the last layer completes the UPDATE. -/
def Obligations.UpdatesReturnTheWeights : Prop :=
  ∀ (p : Part) (layer : Fin 4096) (u : UpdSt) (peers : List (BitVec 32)) (e : UpdEnt) (c : Coll) (y : UpdTens) (w : PendCmd) (s : State),
    s.updOf p = some u → u.stage = 3 → s.jobRuns p = true → e ∈ u.layerEnts layer →
    let n := layer.val
    let prog (k : Nat) : Nat := Tab.get 0 u.progress k
    let all (k : Nat) : Nat := extremum .fp32 true (Tab.get 0 u.amax (n * 16 + k) ::
      (List.range (peers.length / 16)).map (fun m => (peers.getD (16 * m + k) 0).toNat))
    let sc := Tab.get 0 u.scale (n * 16 + y.tid)
    let out := s.slotBase p u.step + y.out
    let scale := s.slotBase p u.step + y.scale
    (prog n = 0 → (∀ l ∈ u.layers, l < n → prog l ≠ 0) → (∀ z ∈ u.layerEnts n, s.poisoned z.master (z.elems * 6) = false) →
      (u.skipped = true ∨ ∀ z ∈ u.ents.zipIdx, z.1.layer = n → ∀ k < z.1.elems, s.trained z.1 k = true → u.prog.length ≤ (u.lane z.2 k).pc) → ∃ t v, exec (.updShardPass2Done p layer) s = .next t ∧
      t.updOf p = some v ∧ Tab.get 0 v.progress n = 1 ∧ (∀ k, k ≠ n → Tab.get 0 v.progress k = prog k) ∧
      (∀ k < 16, Tab.get 0 v.amax (n * 16 + k) = fp32Of (maxMag ((u.layerEnts n).flatMap (fun z => s.entMags u z k)))) ∧ t.mem = s.mem) ∧
    (prog n = 1 → (u.layerEnts n).head? = some e → s.collAt p e.ggroup e.aseq = some c → c.internal = true → c.credit = true → c.st ≠ .closing →
      peers.length + 16 = 16 * (s.groupEnt p e.ggroup).n →
      (∀ z ∈ (u.layerEnts n).flatMap (·.tens), (Fmt.fp32.decode (all z.tid)).isNan = false ∧ (Fmt.fp32.decode (all z.tid)).isInf = false) →
      (∀ z ∈ (u.layerEnts n).flatMap (·.tens), ∀ z' ∈ (u.layerEnts n).flatMap (·.tens), z.tid = z'.tid → z.ofmt = z'.ofmt) →
      ∃ t v, exec (.updAmaxDone p layer peers) s = .next t ∧ t.updOf p = some v ∧ Tab.get 0 v.progress n = 2 ∧
      (∀ k < 16, Tab.get 0 v.amax (n * 16 + k) = all k) ∧
      (∀ z ∈ (u.layerEnts n).flatMap (·.tens), Tab.get 0 v.scale (n * 16 + z.tid) = f8Scale (Fmt.fp32.decode (all z.tid)) (updMaxFin z.ofmt)) ∧
      t.mem = s.mem) ∧
    (prog n = 2 → (∀ l ∈ u.layers, l < n → 3 ≤ prog l) → ((s.trn' p).shard n).claimable u.step (s.batchRefs p u.step) = true → ∃ t v, exec (.updSlotClaim p layer) s = .next t ∧
      (((t.trn' p).shard n).slot u.step) = ⟨u.step, 1, 0⟩ ∧ t.updOf p = some v ∧ Tab.get 0 v.progress n = 3 ∧ Only [.trn, .upd] s t) ∧
    (prog n = 3 → u.layerEnts n = [e] → e.tens = [y] → (∀ l ∈ u.layers, l < n → prog l = 4) → (((s.trn' p).shard n).slot u.step).step = u.step →
      (((s.trn' p).shard n).slot u.step).st = 1 → s.poisoned e.master (e.elems * 6) = false → s.reach (some p) out y.elems true = .ok →
      s.reach (some p) scale 4 true = .ok → scale + 4 ≤ out ∨ out + y.elems ≤ scale → sc < 2 ^ 32 → ∃ t, exec (.updReturnDone p layer) s = .next t ∧
      (∀ i < y.elems, t.byte (out + i) = BitVec.ofNat 8 (updF8 y.ofmt (Fmt.m48.decode (s.le (e.master + 6 * i) 6)) sc)) ∧ t.le scale 4 = sc ∧
      (∀ b, b < out ∨ out + y.elems ≤ b → b < scale ∨ scale + 4 ≤ b → t.byte b = s.byte b) ∧
      (((t.trn' p).shard n).slot u.step).st = 2 ∧ ((t.trn' p).shard n).newest = some u.step ∧ t.rd (layFld p u.step) = 1 ∧
      ((∀ l ∈ u.layers, l ≠ n → prog l = 4) → s.OneWaits p .update w →
        Finished w (if u.skipped = true then 0x5026 else 0) 0 s t ∧ t.host.waiting = [] ∧ ∃ v, t.updOf p = some v ∧ v.stage = 0))
/-- R335 to R339, R341, R390: an OBJ_PUT takes a handle and waits; sealing copies its bytes and returns the handle; a GET returns the bytes it names; a
DELETE waits for earlier GETs, then frees the handle; an expired object is deleted. -/
def Obligations.ObjectsArePutReadAndDeleted : Prop :=
  ∀ (x : Post) (j : Job) (q : BitVec 32) (o : Obj) (c : PendCmd) (off n a i : Nat) (s : State),
    let w := x.p
    let h := fieldOf w.w1 0 32
    let put := [lowMask 32, -1, lowMask 40]
    let waits (op : Nat) (k : PendKind) : PendCmd := ⟨x.port, x.fn, x.ring, x.p.w0, op, x.job.toNat, k⟩
    let gen := Tab.get (firstGen i) s.dir.gens i
    (s.Passes x put j → fieldOf w.w1 0 1 = 0 → fieldOf w.w1 2 6 = 0 → w.w3.toNat ≠ 0 → s.flashRoom j.part w.w3.toNat = true →
      s.freeIndex = some i → ∃ t y, exec (.objPut x false) s = .next t ∧ t.objAt i = some y ∧ y.gen = gen ∧ y.part = j.part ∧
      y.bytes = w.w3.toNat ∧ y.sealedO = false ∧ y.source = w.w2.toNat ∧ y.srcHost = some x.port.val ∧
      y.expiry = (if fieldOf w.w1 8 24 = 0 then none else some (s.now + fieldOf w.w1 8 24 * 32768)) ∧
      t.host.waiting = s.host.waiting ++ [waits 0x90 (.objPut (gen * 2 ^ 22 + i))] ∧ y.wrapped = s.wrapObjKey j.part ∧
      Only [.free, .waiting, .objects] s t) ∧
    (s.Passes x put j → w.w3.toNat = 0 → ∃ t, exec (.objPut x false) s = .next t ∧ Replied x 0x90 0x900c 0 s t ∧ Only [.hostMem, .rings] s t) ∧
    (s.obj q.toNat = some o → o.sealedO = false → s.programsPaused o.part = false → s.host.waiting = [c] → c.kind = .objPut q.toNat →
      s.job c.job = some j → j.orphaned = false → j.toRing0 = false → (o.srcHost = none → s.offAt o.source o.bytes = none) → ∃ t y, exec (.objSealed q) s = .next t ∧
      t.obj q.toNat = some y ∧ y.sealedO = true ∧ (∀ k < o.bytes, Tab.get 0 y.data k = match o.srcHost with
        | none => s.byte (o.source + k)
        | some port => Tab.get 0 (s.hostMem port) (o.source + k)) ∧
      t.host.waiting = [] ∧ Finished c 0 q.toNat s t ∧ t.mem = s.mem) ∧
    (s.Passes x [lowMask 33, lowMask 40, lowMask 40, -1] j → s.objFor j.part h = some o → w.w2.toNat + w.w3.toNat ≤ o.bytes →
      fieldOf w.w1 32 1 = 0 ∨ w.w3.toNat = 0 ∨ s.reach (some j.part) w.w4.toNat w.w3.toNat true = .ok →
      ∃ t, exec (.objGet x) s = .next t ∧ Awaits x 0x91 (.objGet h w.w2.toNat w.w3.toNat (fieldOf w.w1 32 1 == 0) w.w4.toNat) s t) ∧
    (s.Passes x [lowMask 33, lowMask 40, lowMask 40, -1] j → s.objFor j.part h = none ∨ (∃ y, s.objFor j.part h = some y ∧
      y.bytes < w.w2.toNat + w.w3.toNat) → ∃ t, exec (.objGet x) s = .next t ∧ Replied x 0x91 0x900c 0 s t ∧ Only [.hostMem, .rings] s t) ∧
    (s.obj q.toNat = some o → s.host.waiting = [c] → c.kind = .objGet q.toNat off n false a → s.job c.job = some j → j.orphaned = false →
      j.toRing0 = false → s.offAt a n = none → ∃ t : State, exec (.objGetComplete q []) s = .next t.intakeCheck ∧ (∀ k < n, t.byte (a + k) = Tab.get 0 o.data (off + k)) ∧
      (∀ b, b < a ∨ a + n ≤ b → t.byte b = s.byte b) ∧ t.host.waiting = [] ∧ Finished c 0 0 s t ∧ t.dir = s.dir) ∧
    (s.obj q.toNat = some o → s.host.waiting = [c] → c.kind = .objGet q.toNat off n true a → s.job c.job = some j → j.orphaned = false →
      j.toRing0 = false → o.poison = [] → ∃ t : State, exec (.objGetComplete q []) s = .next t.intakeCheck ∧ t.host.waiting = [] ∧ Finished c 0 0 s t ∧ t.mem = s.mem) ∧
    (s.Passes x [lowMask 32] j → s.objFor j.part h = some o → s.host.waiting = [] → ∃ t, exec (.objDelete x) s = .next t ∧ t.obj h = none ∧
      t.host.waiting = [] ∧ Replied x 0x92 0 0 s t ∧ Only [.hostMem, .rings, .waiting, .objects] s t) ∧
    (s.Passes x [lowMask 32] j → s.objFor j.part h = some o → (∃ y ∈ s.host.waiting, y.kind.readsObj h = true) →
      ∃ t, exec (.objDelete x) s = .next t ∧ t.obj h = some { o with deleting := true } ∧ t.host.waiting = s.host.waiting ++ [waits 0x92 (.objDelete h)] ∧
      Only [.waiting, .objects] s t) ∧
    (∀ e, o.expiry = some e → s.obj q.toNat = some o → e ≤ s.now → o.kind ≠ .park → s.host.waiting = [] → ∃ t, exec (.objectExpiry q) s = .next t ∧
      t.obj q.toNat = none ∧ Only [.waiting, .objects] s t)
/-- R332, R333, R340, R344 to R346 (Tables 12-4, 12-9): page reads and moves keep the blocks' metadata; a failed block leaves the reserve, which sets the
mode; a park record that is old enough moves to flash; a bad lift frame is replayed; a link that cannot be retrained takes its Nolmer offline. -/
def Obligations.FlashAndLiftLinks : Prop :=
  ∀ (m : Fin 4) (ch : Fin 8) (b d : BitVec 19) (why : MoveWhy) (held : List (BitVec 32)) (set : Fin 8) (raw : BitVec 288) (q : BitVec 32) (k : Park) (o : Obj) (s : State),
    let x := s.blk m b.toNat
    let y := s.blk m d.toNat
    let r := s.rd (R.NOL.FL_STAT.RESERVE m) - 1
    let erased : Blk := { x with pe := x.pe + 1, reads := 0, progTime := 0, refresh := false }
    let fresh : Blk := { y with progTime := max 1 (s.now / 32768), reads := 0, refresh := false }
    (∃ t, exec (.flashPageRead m ch b .hard none) s = .next t ∧ t.blk m b.toNat = { x with reads := x.reads + 1 } ∧ Only [.objects] s t) ∧
    (∃ t, exec (.flashPageRead m ch b (.retry set) none) s = .next t ∧
      t.blk m b.toNat = { x with reads := x.reads + 1, refresh := x.refresh || decide (s.rd (R.NOL.FL_POLICY.RETRY_LVL m) ≤ set.val) } ∧
      Logs (R.NOL.ERR.VALID m) (R.NOL.ERR.CODE m) 0x9005 s t) ∧
    (∃ t, exec (.flashPageRead m ch b .failed none) s = .next t ∧ t.blk m b.toNat = { x with reads := x.reads + 1 } ∧
      Logs (R.NOL.ERR.VALID m) (R.NOL.ERR.CODE m) 0x9006 s t) ∧
    (s.flashPaused m = false → s.moveDue m b.toNat d.toNat why = true → b ≠ d → x.bad = false → y.free = true →
      why = .disturb ∨ held = [] ∨ (∃ h ∈ held, s.expiresSoon h.toNat = false) → ∃ t, exec (.flashMove m why b d held) s = .next t ∧
      t.blk m b.toNat = erased ∧ t.blk m d.toNat = fresh ∧ Only [.regs, .objects] s t) ∧
    (x.bad = false → b ≠ d → y.free = true → ∃ t, exec (.flashBlockFail m b d) s = .next t ∧
      t.blk m b.toNat = { x with bad := true, reads := 0, refresh := false } ∧ t.blk m d.toNat = fresh ∧ t.rd (R.NOL.FL_STAT.RESERVE m) = r ∧
      t.rd (R.NOL.FL_STAT.MODE m) = flashMode r ∧ Logs (R.NOL.ERR.VALID m) (R.NOL.ERR.CODE m) 0x9007 s t) ∧
    (s.parkRec q.toNat = some k → s.obj q.toNat = some o → k.dram = true → k.held = false → k.lost = false →
      (∀ e ∈ s.roll.parks, ∀ y, e.2 = some y → k.at_ ≤ y.at_) → s.programsPaused o.part = false →
      s.flashRoom o.part o.bytes = true → k.at_ + s.rd (R.NOL.PARK_CFG.DEMOTE_S ((s.halves o.part).headD 0 / 2)) * 32768 ≤ s.now →
      ∃ t, exec (.parkDemote q) s = .next t ∧ t.parkRec q.toNat = some { k with dram := false } ∧ Only [.regs, .objects, .roll] s t) ∧
    ((lcDecode (lcSyms raw)).2 = 3 → ∃ t, exec (.liftFrame m raw) s = .next t ∧
      t.rd (R.NOL.MEM_STAT.REPLAYS m) = min (s.rd (R.NOL.MEM_STAT.REPLAYS m) + 1) (2 ^ (R.NOL.MEM_STAT.REPLAYS m).w - 1) ∧
      Logs (R.NOL.ERR.VALID m) (R.NOL.ERR.CODE m) 0x9003 s t) ∧
    ((lcDecode (lcSyms raw)).2 ≠ 3 → exec (.liftFrame m raw) s = .next s) ∧
    (∀ ok retrain, ok = true ∨ retrain = true → exec (.liftRecal m ok retrain) s = .next s) ∧
    (s.rd (R.NOL.MEM_STAT.OFFLINE m) = 0 → (∀ p ∈ s.nolParts m, s.jobOf p = none) → ∃ t, exec (.liftRecal m false false) s = .next t ∧
      t.rd (R.NOL.MEM_STAT.OFFLINE m) = 1 ∧ t.rd (R.NOL.MEM_STAT.LINK_UP m) = 0 ∧ Logs (R.NOL.ERR.VALID m) (R.NOL.ERR.CODE m) 0x9004 s t) ∧
    (s.rd (R.NOL.MEM_STAT.OFFLINE m) = 0 → (∀ p ∈ s.nolParts m, s.jobOf p = none) → ∃ t, exec (.liftGmac m false) s = .next t ∧
      t.rd (R.NOL.MEM_STAT.OFFLINE m) = 1 ∧ t.rd (R.NOL.MEM_STAT.LINK_UP m) = 0 ∧ Logs R.SEC.ERR.VALID R.SEC.ERR.CODE 0x7004 s t) ∧
    exec (.liftGmac m true) s = .next s ∧ exec (.flashZqCalibration m) s = .next s
/-- R384, R386, R387, R392, R441 (Table 14-7): JOB_START installs its descriptor's job, placed on short links where MODE or its members' ports ask for it;
JOB_ABORT resets a job; JOB_END of an idle job clears its key and enables, and its end zeroes the partition's memory, frees the job ID and completes;
JOB_TAKEOVER moves an orphaned job to another function. -/
def Obligations.JobsStartAndEnd : Prop :=
  ∀ (x : Post) (j : Job) (p : Part) (r : Nat) (c : Cpl) (talk : List (List Nat)) (s : State),
    let d := s.jobDesc x.port x.p.w1.toNat
    let id := x.job.toNat
    (s.Takes x [-1] → s.job id = none → s.DescOk x.port x.fn id d r → ∃ t y, exec (.jobStart x false talk) s = .next t ∧ t.job id = some y ∧
      y.part = d.part ∧ y.port = x.port ∧ y.fn = x.fn ∧ y.seed = d.seed ∧ y.acctFirst = d.acctFirst ∧ y.acctN = d.acctN ∧ y.ending = none ∧
      (∀ k < 800, s.partOfCore k = some d.part → (t.core k).kcgKey = d.seed) ∧
      (d.nset = 0 → t.rd (R.SCHED.PLACE_CFG.ACTIVE d.part) =
        if s.shortLinks d.part (groupZero ((List.range d.ngroups).map (s.groupDef x.port d.groups))) = true then 1 else 0) ∧
      (∀ i < d.nstreams, t.sring d.part i = s.streamDef x.port d.streams i) ∧ Replied x 0xa0 (if y.reset = true then y.origCode else 0) 0 s t) ∧
    (s.Takes x [-1] → s.job id = none → s.fnPart x.fn ≠ some d.part → ∃ t, exec (.jobStart x false talk) s = .next t ∧ t.host.jobs = s.host.jobs ∧
      Replied x 0xa0 0xa004 0 s t ∧ Only [.hostMem, .rings] s t) ∧
    (s.Takes x [] → s.LiveJob id j → j.ownedBy x.port x.fn = true ∨ x.fn = 0 → ∃ t, exec (.jobAbort x) s = .next t ∧
      t.job id = some { j with reset := true, origCode := 0xa00a, origModule := s.moduleId } ∧ Replied x 0xa1 0 0 s t) ∧
    (s.Takes x [] → s.LiveJob id j → j.ownedBy x.port x.fn = false → x.fn ≠ 0 → ∃ t, exec (.jobAbort x) s = .next t ∧
      t.host.jobs = s.host.jobs ∧ Replied x 0xa1 0xa002 0 s t ∧ Only [.hostMem, .rings] s t) ∧
    (s.Takes x [] → s.LiveJob id j → j.ownedBy x.port x.fn = true → s.jobBusy j = false → ∃ t, exec (.jobEnd x) s = .next t ∧
      t.job id = some { j with ending := some ⟨x.p.w0, 0, 0xa2, id, 0⟩, endRing := x.ring, keySlot := none } ∧
      (∀ i, j.keySlot = some i → Tab.get none t.fab.slots i = none) ∧ t.rd (R.TRN.CTL.EN j.part) = 0 ∧ t.rd (R.ROLL.CTL.EN j.part) = 0 ∧
      t.rd (R.COLL.CTL.EN j.part) = 0 ∧ t.host.waiting = s.host.waiting ∧ t.mem = s.mem) ∧
    (s.Takes x [] → s.LiveJob id j → j.ownedBy x.port x.fn = true → s.jobBusy j = true → ∃ t, exec (.jobEnd x) s = .next t ∧
      t.host.jobs = s.host.jobs ∧ Replied x 0xa2 0xa003 0 s t ∧ Only [.hostMem, .rings] s t) ∧
    (s.jobOf p = some j → j.ending = some c → j.held = [] → j.toRing0 = false → s.partRegion p = some r → ∃ t, exec (.jobEndZeroFillDone p) s = .next t ∧
      t.job j.id = none ∧ (∀ b, (s.regionRange r).1 ≤ b → b < (s.regionRange r).1 + (s.regionRange r).2 → t.byte b = 0) ∧
      (∀ k < 800, s.partOfCore k = some p.val → ∀ b, winAddr k 0 ≤ b → b < winAddr k 0 + 0x200000 → t.byte b = 0) ∧
      Completed j.port j.fn j.endRing c.tag c.opcode c.job c.status c.result s t) ∧
    (s.Takes x [1, -1] → s.job id = some j → j.ending = none → j.reset = false → s.mayTake j x.port x.fn (fieldOf x.p.w1 0 1 == 1) = true →
      (∀ i < 64, s.sring j.part i ≠ none → s.streamDef x.port x.p.w2.toNat i ≠ none) → j.held = [] → ∃ t, exec (.jobTakeover x false) s = .next t ∧
      t.job id = some { j with port := x.port, fn := x.fn, toRing0 := true, orphaned := false } ∧
      (∀ i < 64, ∀ y, s.sring j.part i = some y → y.queue = [] → t.sring j.part i = s.streamDef x.port x.p.w2.toNat i) ∧ Replied x 0xa3 0 0 s t) ∧
    (s.Takes x [1, -1] → s.job id = some j → j.ending = none → j.reset = false → s.mayTake j x.port x.fn (fieldOf x.p.w1 0 1 == 1) = false →
      j.toRing0 = false → ∃ t, exec (.jobTakeover x false) s = .next t ∧ t.host.jobs = s.host.jobs ∧ Replied x 0xa3 0xa002 0 s t ∧
      Only [.hostMem, .rings] s t)
/-- R376, R388, R391, R393, R396: a link that goes down orphans the port's jobs and returns with its functions reset; an orphan that nobody takes over is
reset; FLR, hot reset and PERST# reset their functions' jobs and rings; a port answers configuration requests once it is ready, with its Vendor and
Device ID; a hold-off that ends sends one message for what came meanwhile. What configuration space holds beside them is free (log entry 67). -/
def Obligations.HostLinksAndResets : Prop :=
  ∀ (port : Fin 2) (fn : Fin 9) (vec : Fin 73) (cfg : BitVec 12) (job ms : BitVec 16) (j : Job) (m : Msix) (s : State),
    let w := hostWin port fn
    let vector (t : State) : Msix := Tab.get ⟨0, false, false⟩ t.host.msix (w * 73 + vec.val)
    let perst := if port = 0 then s.host.perst0 else s.host.perst1
    let answer (t : State) := if port = 0 then t.host.ans0 else t.host.ans1
    let other : Nat := 1 - port.val
    (s.linkUp port = true → ∃ t, exec (.pcieLinkDown port) s = .next t ∧ t.linkUp port = false ∧ t.linkUp other = s.linkUp other ∧
      (∀ y ∈ t.host.jobs, y.port = port.val → y.orphaned = true) ∧ Logs (R.HOST.ERR.VALID (port * 9)) (R.HOST.ERR.CODE (port * 9)) 0xa007 s t) ∧
    (s.linkUp port = false → perst = false → ∃ t, exec (.pcieLinkUp port) s = .next t ∧ t.linkUp port = true ∧ t.linkUp other = s.linkUp other ∧
      (∀ f < 9, ∀ k < 8, t.ring (hostWin port f) k = ⟨0, 0, 0⟩ ∧ t.rd (R.HOST.JR_CFG.EN (hostWin port f) k) = 0) ∧ t.host.jobs = s.host.jobs) ∧
    (s.job job.toNat = some j → j.id ≠ 0xffff → j.orphaned = true → j.reset = false → j.ending = none → ∃ t, exec (.orphanTimeout job) s = .next t ∧
      t.job job.toNat = some { j with reset := true, origCode := 0xa008, origModule := s.moduleId }) ∧
    (s.job job.toNat = some j → j.id ≠ 0xffff → j.reset = false → j.ending = none → j.port = port.val → j.fn = fn.val →
      (∃ t y, exec (.flr port fn) s = .next t ∧ t.job job.toNat = some y ∧ y.reset = true ∧ y.origCode = 0xa009 ∧
        (∀ k < 8, t.ring w k = ⟨0, 0, 0⟩ ∧ t.rd (R.HOST.JR_CFG.EN w k) = 0) ∧ t.host.link0 = s.host.link0 ∧ t.host.link1 = s.host.link1) ∧
      ∃ t y, exec (.hotReset port) s = .next t ∧ t.job job.toNat = some y ∧ y.reset = true ∧ y.origCode = 0xa009 ∧
        (∀ f < 9, ∀ k < 8, t.ring (hostWin port f) k = ⟨0, 0, 0⟩ ∧ t.rd (R.HOST.JR_CFG.EN (hostWin port f) k) = 0)) ∧
    (∃ t, exec (.perst port) s = .next t ∧ t.linkUp port = false ∧ t.linkUp other = s.linkUp other ∧ t.cfgReady port = false ∧
      (if port = 0 then t.host.perst0 else t.host.perst1) = false ∧ (∀ f < 9, ∀ k < 8, t.ring (hostWin port f) k = ⟨0, 0, 0⟩)) ∧
    (perst = false → ∃ t, exec (.configurationReady port ms) s = .next t ∧ t.cfgReady port = true ∧ t.cfgReady other = s.cfgReady other ∧
      t.rd (if port = 0 then R.BOOT.PCIE.P0_CFG_MS else R.BOOT.PCIE.P1_CFG_MS) = ms.toNat ∧ Only [.regs, .links] s t) ∧
    (∃ t, exec (.configRequest port fn cfg) s = .next t ∧ (s.cfgReady port = false → answer t = some .retry) ∧
      (s.cfgReady port = true → fn.val ≠ 0 ∧ s.fnPart fn = none → answer t = some .unsupported) ∧
      (s.cfgReady port = true → fn.val = 0 → cfg.toNat / 4 = 0 →
        answer t = some (.data ((leBytes 4 (Config.vendorId.toNat + 0x09000000)).map (fun b => (b, false))))) ∧ Only [.free, .links] s t) ∧
    (vector s = m → m.hold = true → ∃ t, exec (.msixHoldoffEnd port fn vec) s = .next t ∧
      (m.pend = true → vector t = ⟨m.sent + 1, decide (s.rd (R.HOST.FCTL.HOLDOFF_US w) ≠ 0), false⟩) ∧
      (m.pend = false → vector t = { m with hold := false }) ∧ Only [.rings] s t)
/-- R379 to R385, R390, R395, R524 (Tables 14-4, 17-6): a journal poll consumes valid entries, gives each to its command and writes the head word; a
mailbox poll takes the waiting messages; BAR2 reaches the function's own region; a misaligned or foreign BAR0 access is refused; a register write sets
the fields that software may write, and one of a register that is not the writer's is ignored and logged (log entry 69). -/
def Obligations.HostAccessesActOrAreRefused : Prop :=
  ∀ (port : Fin 2) (fn : Fin 9) (ring : Fin 8) (x : Post) (off : BitVec 36) (o : BitVec 28) (n : Nat) (v : Word) (data : List Byte) (s : State),
    let w := hostWin port fn
    let r := s.ring w ring
    let size := 2 ^ s.rd (R.HOST.JR_CFG.LOG2 w ring)
    let entry (k : Nat) : Nat := s.rd (R.HOST.JR_BASE.BASE w ring) + k % size * 128
    let phase (k : Nat) : Nat := if k / size % 2 = 0 then 1 else 0
    let head (k : Nat) : Word := s.hostW port (entry k)
    let record := s.rd (R.HOST.CR_BASE.BASE w ring) + r.written % (2 ^ s.rd (R.HOST.JR_CFG.LOG2 w ring)) * 32
    let mail := Tab.get (⟨[], 0⟩ : MailSt) s.host.mail w
    let tag (k : Nat) : Nat := (Tab.get 0 mail.inb (k % 128 * 4096 + 7)).toNat / 128
    let answer (t : State) := if port = 0 then t.host.ans0 else t.host.ans1
    let a := s.rd (R.HOST.BAR2_BASE.BASE w) * 2 ^ 30 + off.toNat
    let run := fun (op : Nat) (cmd : Instr) => exec cmd s = .next (s.dispatchEntry op x)
    (s.ringPolled port fn ring = true → fieldOf (head r.consumed) 63 1 = phase r.consumed → 0 < s.freeSlots port w ring →
      fieldOf (head r.consumed) 8 8 ≠ 0 → (∀ y ∈ s.host.jobs, y.toRing0 = false) → fieldOf (head (r.consumed + 1)) 63 1 ≠ phase (r.consumed + 1) →
      entry (r.consumed + 1) + 8 ≤ record ∨ record + 32 ≤ entry (r.consumed + 1) → ∃ t, exec (.journalPoll port fn ring false) s = .next t ∧
      (t.ring w ring).consumed = r.consumed + 1 ∧ t.rd (R.HOST.JR_STAT.CONSUMED w ring) = (r.consumed + 1) % 2 ^ 32 ∧
      t.hostLE port (s.rd (R.HOST.JR_HEADW.ADDR w ring)) 8 = (r.consumed + 1) % 2 ^ 64) ∧
    (s.ringPolled port fn ring = true → fieldOf (head r.consumed) 63 1 ≠ phase r.consumed → exec (.journalPoll port fn ring false) s = .next s) ∧
    (s.ringPolled port fn ring = true → ∃ t, exec (.journalPoll port fn ring true) s = .next t ∧ t.rd (R.HOST.JR_STAT.ERR w ring) = 1 ∧ Only [.regs] s t) ∧
    run 0x51 (.wptrSet x) ∧ run 0x52 (.batchClose x) ∧ run 0x54 (.update x) ∧ run 0x61 (.cancel x) ∧ run 0x62 (.pause x) ∧ run 0x64 (.adapterLoad x) ∧
    run 0x65 (.adapterUnload x) ∧ run 0x66 (.prefixCreate x) ∧ run 0x67 (.prefixRelease x) ∧ run 0x91 (.objGet x) ∧ run 0x92 (.objDelete x) ∧
    run 0xa1 (.jobAbort x) ∧ run 0xa2 (.jobEnd x) ∧
    (tag mail.taken = (if mail.taken / 128 % 2 = 0 then 1 else 0) → tag (mail.taken + 1) ≠ (if (mail.taken + 1) / 128 % 2 = 0 then 1 else 0) →
      ∃ t, exec (.mailboxPoll port fn) s = .next t ∧ Tab.get ⟨[], 0⟩ t.host.mail w = { mail with taken := mail.taken + 1 } ∧
      Only [.links] s t) ∧
    (s.linkUp port = true → s.Serving → s.bar2Ok fn a n = true → ∃ t : State, exec (.bar2Access port fn off (.read n)) s = .next t.intakeCheck ∧
      answer t = some (.data ((List.range n).map (fun i => (s.byte (a + i), s.poisoned (a + i) 1)))) ∧ Only [.links] s t) ∧
    (s.linkUp port = true → s.Serving → s.bar2Ok fn a data.length = true → ∃ t : State, exec (.bar2Access port fn off (.write data)) s = .next t.intakeCheck ∧
      (∀ i, ∀ (hi : i < data.length), t.byte (a + i) = data[i]) ∧ ∀ b, b < a ∨ a + data.length ≤ b → t.byte b = s.byte b) ∧
    (s.linkUp port = true → s.Serving → s.bar2Ok fn a n = false → ∃ t : State, exec (.bar2Access port fn off (.read n)) s = .next t.intakeCheck ∧
      answer t = some .unsupported ∧ Logs (R.HOST.ERR.VALID w) (R.HOST.ERR.CODE w) 0xa00b s t ∧ t.mem = s.mem) ∧
    (s.linkUp port = true → ∃ t, exec (.bar2BaseWrite port fn v) s = .next t ∧ t.rd (R.HOST.BAR2_BASE.BASE w) = fieldOf v 30 18 ∧
      (∀ f : Fld, f.reg ≠ (R.HOST.BAR2_BASE.BASE w).reg → t.rd f = s.rd f) ∧ Only [.regs] s t) ∧
    (s.linkUp port = true → ∃ t, exec (.bar0Misaligned port fn true) s = .next t ∧ answer t = some .unsupported ∧
      Logs (R.HOST.ERR.VALID w) (R.HOST.ERR.CODE w) 0xa00b s t ∧ t.mem = s.mem) ∧
    (s.linkUp port = true → ∃ t, exec (.bar0Misaligned port fn false) s = .next t ∧ Logs (R.HOST.ERR.VALID w) (R.HOST.ERR.CODE w) 0xa00b s t ∧
      t.mem = s.mem ∧ t.host.mem0 = s.host.mem0 ∧ t.host.mem1 = s.host.mem1) ∧
    (s.linkUp port = true → s.rd R.RAS.STAT.STATE = 0 → o.toNat % 8 = 0 → o.toNat / 0x1000 ≠ 0x800 + w →
      ∃ t, exec (.registerWrite (.host port fn) o v) s = .next t ∧ t.host.ignored = s.host.ignored ++ [(port.val, fn.val, o.toNat)] ∧
      Logs (R.HOST.ERR.VALID w) (R.HOST.ERR.CODE w) 0xa00b s t ∧ t.mem = s.mem) ∧
    (∃ t, exec (.registerWrite .firmware (BitVec.ofNat 28 R.RAS.SCRUB_CFG.REG.reg) v) s = .next t ∧ t.rd R.RAS.SCRUB_CFG.HBM_H = fieldOf v 0 5 ∧
      t.rd R.RAS.SCRUB_CFG.LP_H = fieldOf v 5 5 ∧ t.rd R.RAS.SCRUB_CFG.SRAM_MIN = fieldOf v 10 6 ∧
      (∀ f : Fld, f.reg ≠ R.RAS.SCRUB_CFG.REG.reg → t.rd f = s.rd f) ∧ Only [.regs] s t)
/-- R425 to R428 (Tables 16-2, 16-3): the answers of the SPDM responder: versions, digest and chain of slot 0, the blocks that a path may see; a session
is opened within its path's limit, finished, kept alive, keyed anew and ended; large requests come in pieces in order. What a signature covers is the
model's choice (log entry 73). -/
def Obligations.SpdmAnswersItsRequests : Prop :=
  ∀ (path : Path) (off len slot : Nat) (index : BitVec 8) (nonce : BitVec 256) (share : BitVec 768) (id : BitVec 32) (seq : BitVec 16) (last : Bool)
    (data : List Byte) (x : Session) (s : State), s.Manages path →
    let n := s.sec.nextSession
    let cur := (s.sec.chunks.find? (fun c => c.path == path)).getD ⟨path, 0, []⟩
    let most := if path = .oob then 2 else 1
    (∃ t, exec (.getVersion path) s = .next t ∧ Answers path (.version [0x12, 0x13]) t ∧ Only [.spdm] s t) ∧
    (∃ t, exec (.getCapabilities path) s = .next t ∧ Answers path .capabilities t ∧ Only [.spdm] s t) ∧
    (∃ t, exec (.negotiateAlgorithms path true) s = .next t ∧ Answers path .algorithms t ∧ Only [.spdm] s t) ∧
    (∃ t, exec (.negotiateAlgorithms path false) s = .next t ∧ SpdmError path false s t) ∧
    (∃ t, exec (.getDigests path) s = .next t ∧ Answers path (.digests (Config.sha384 s.chain)) t ∧ Only [.spdm] s t) ∧
    (off ≤ s.chain.length → ∃ t, exec (.getCertificate path 0 off len) s = .next t ∧
      Answers path (.certificate ((s.chain.drop off).take len) (s.chain.length - off - len)) t ∧ Only [.spdm] s t) ∧
    (slot ≠ 0 → ∃ t, exec (.getCertificate path slot off len) s = .next t ∧ SpdmError path false s t) ∧
    (∃ t, exec (.challenge path 0 nonce) s = .next t ∧
      Answers path (.challengeAuth (s.sign (leBytes 32 nonce.toNat ++ leBytes 48 (Config.sha384 s.chain).toNat))) t ∧ Only [.spdm] s t) ∧
    (∃ t, exec (.getMeasurements path index nonce) s = .next t ∧ (let bs := s.blocks path index.toNat
      Answers path (.measurements bs (s.sign (leBytes 32 nonce.toNat ++ bs.flatMap (·.2)))) t) ∧ Only [.spdm] s t) ∧
    (∀ b, index ≠ 0xff → s.block index.toNat = some b → s.blocks path index.toNat = if s.blockSeen path index.toNat = true then [(index.toNat, b)] else []) ∧
    ((s.sessionsOf path).length < most → ∃ t, exec (.keyExchange path share) s = .next t ∧ Answers path (.keyExchangeRsp n) t ∧
      t.sec.sessions = s.sec.sessions ++ [⟨path, n, false, 0⟩] ∧ t.sec.nextSession = n + 1 ∧ Only [.spdm] s t) ∧
    (most ≤ (s.sessionsOf path).length → ∃ t, exec (.keyExchange path share) s = .next t ∧ SpdmError path true s t ∧ t.sec.sessions = s.sec.sessions) ∧
    (s.InSession path id.toNat x false → ∃ t, exec (.finish path id true) s = .next t ∧ Answers path .finishRsp t ∧
      t.sec.sessions = s.sec.sessions.map (fun y => if y = x then { y with finished := true } else y) ∧ Only [.spdm] s t) ∧
    (s.InSession path id.toNat x true → (∃ t, exec (.heartbeat path id) s = .next t ∧ Answers path .heartbeatAck t ∧ Only [.spdm] s t) ∧
      (∃ t, exec (.keyUpdate path id) s = .next t ∧ Answers path .keyUpdateAck t ∧
        t.sec.sessions = s.sec.sessions.map (fun y => if y = x then { y with keyEpoch := y.keyEpoch + 1 } else y) ∧ Only [.spdm] s t) ∧
      (∃ t, exec (.endSession path id) s = .next t ∧ Answers path .endSessionAck t ∧ t.sec.sessions = s.sec.sessions.filter (· ≠ x) ∧ Only [.spdm] s t)) ∧
    (s.sessionAt path id.toNat = none → ∃ t, exec (.heartbeat path id) s = .next t ∧ SpdmError path false s t) ∧
    (seq.toNat = cur.next → ∃ t, exec (.chunkSend path seq last data) s = .next t ∧ Answers path (.chunkSendAck seq.toNat) t ∧
      (last = false → (⟨path, seq.toNat + 1, cur.data ++ data⟩ : ChunkIn) ∈ t.sec.chunks) ∧ Only [.spdm] s t) ∧
    (seq.toNat ≠ cur.next → ∃ t, exec (.chunkSend path seq last data) s = .next t ∧ SpdmError path false s t) ∧
    (∃ t, exec (.chunkGet path seq) s = .next t ∧ Answers path (.chunkResponse seq.toNat) t ∧ Only [.spdm] s t)
/-- R431, R436: KEY_PUT fills the lowest empty entry, with its binding; KEY_DEL removes an entry, NOT_AFTER removes it, and JOB_END every entry bound to
its partition; every reset clears the table; no removal touches a link key, which leaves its slot at JOB_END. -/
def Obligations.KeyTableFillsAndClears : Prop :=
  ∀ (path : Path) (id kid : BitVec 32) (k : KeyBody) (i : Fin 64) (kind : BitVec 8) (e : KeyEnt) (b : Nat) (x : Session) (y : Post) (p : Part) (j : Job) (c : Cpl)
    (s : State),
    let ok := Answers path (.status 0)
    let key (t : State) (n : Nat) : Option KeyEnt := Tab.get none t.sec.keys n
    (s.InSession path id.toNat x true → keyBind path k.kind.toNat = some b → b ≠ 15 → s.keyPutOk k = true → key s i = none → (∀ n < i.val, key s n ≠ none) →
      (∀ n < 64, ∀ y, key s n = some y → y.kind = k.kind.toNat → y.id = k.id.toNat → y.bind ≠ b) → ∃ t y, exec (.keyPut path id k) s = .next t ∧ ok t ∧
      key t i = some y ∧ y.kind = k.kind.toNat ∧ y.bind = b ∧ y.id = k.id.toNat ∧ y.key = k.key ∧ y.notAfter = k.notAfter.toNat ∧
      (∀ n, n ≠ i.val → key t n = key s n) ∧ Only [.keys, .spdm] s t) ∧
    (s.InSession path id.toNat x true → s.keyPutOk k = false → ∃ t, exec (.keyPut path id k) s = .next t ∧ Answers path (.status 0x7001) t ∧ Only [.spdm] s t) ∧
    (s.InSession path id.toNat x true → key s i = some e → e.kind = kind.toNat → e.id = kid.toNat → keyBind path kind.toNat = some e.bind →
      (∀ n < i.val, ∀ y, key s n = some y → y.kind = kind.toNat → y.id = kid.toNat → y.bind ≠ e.bind) →
      ∃ t, exec (.keyDel path id kind kid) s = .next t ∧ ok t ∧ key t i = none ∧ (∀ n, n ≠ i.val → key t n = key s n) ∧ Only [.keys, .spdm] s t) ∧
    (key s i = some e → e.notAfter ≠ 0 → e.notAfter ≤ s.now → ∃ t, exec (.keyExpiry i) s = .next t ∧ key t i = none ∧
      (∀ n, n ≠ i.val → key t n = key s n) ∧ Only [.keys] s t) ∧
    (s.pwr.pwrgd = true → (∃ t, exec .coldReset s = .next t ∧ t.sec.keys = []) ∧ ∃ t, exec .warmReset s = .next t ∧ t.sec.keys = []) ∧
    (s.jobOf p = some j → j.ending = some c → ∃ t, exec (.jobEndZeroFillDone p) s = .next t ∧
      (∀ n < 64, ∀ z, key s n = some z → key t n = if z.bind = p.val then none else some z) ∧ ∀ n < 64, key s n = none → key t n = none) ∧
    (s.Takes y [] → s.LiveJob y.job.toNat j → j.ownedBy y.port y.fn = true → s.jobBusy j = false → ∀ n, j.keySlot = some n →
      ∃ t, exec (.jobEnd y) s = .next t ∧ Tab.get none t.fab.slots n = none ∧ t.sec.keys = s.sec.keys)
/-- R429, R430, R443, R445 to R447: an owner block goes into the copy that is not in use; the SVN minimum and the revoked slots only grow, with the
owner's signature; a valid block's digest follows its new SEQ (log entry 72); the house image is loaded and its lines are rebuilt. -/
def Obligations.OwnershipAndHouse : Prop :=
  ∀ (path : Path) (blk : OwnerBlock) (svn : BitVec 32) (slot : Fin 4) (e : KeyEnt) (r : Nat) (handle : BitVec 32) (data : List (Nat × Byte)) (line : List Byte) (a : BitVec 48) (s : State),
    let ok := Answers path (.status 0)
    (s.Manages path → pathMaster path = true → s.rd R.BOOT.CAL.OWNER = 0 → ∃ t, exec (.ownerWrite path blk true) s = .next t ∧ ok t ∧
      t.boot.ownB = (if ownerValid blk = true then OwnerBlock.made (s.boot.ownA.seq.toNat + 1) blk.records else
        { blk with seq := BitVec.ofNat 32 (s.boot.ownA.seq.toNat + 1) }) ∧ t.boot.ownA = s.boot.ownA ∧ Only [.spdm, .boot] s t) ∧
    (s.Manages path → pathMaster path = false → ∃ t, exec (.ownerWrite path blk true) s = .next t ∧ Answers path (.status 0x7007) t ∧ Only [.spdm] s t) ∧
    (s.Manages path → s.sec.ownerKey ≠ none → svn.toNat ≤ s.rd R.BOOT.IMG.SVN → s.boot.svnMin ≤ svn.toNat →
      ∃ t, exec (.svnCommit path svn true) s = .next t ∧ ok t ∧ t.boot.svnMin = svn.toNat ∧ t.rd R.BOOT.SVN_MIN.SVN_MIN = svn.toNat ∧
      Only [.regs, .spdm, .fuses] s t) ∧
    (s.Manages path → ∃ t, exec (.svnCommit path svn false) s = .next t ∧ Answers path (.status 0x7007) t ∧ Only [.spdm] s t) ∧
    (s.Manages path → s.sec.ownerKey ≠ none → (∀ y, s.runningImg = some y → y.keySlot ≠ slot) → ∃ t, exec (.revoke path slot true true) s = .next t ∧
      ok t ∧ t.boot.revoked = s.boot.revoked ||| 2 ^ slot.val ∧ Only [.regs, .spdm, .fuses] s t) ∧
    (s.Manages path → s.rd R.SEC.HOUSE_CTL.READ = 0 → s.houseRegion ≠ none → s.objFor 8 handle.toNat ≠ none → s.houseKey ≠ none →
      ∃ t, exec (.houseLoad path handle) s = .next t ∧ ok t ∧ t.rd R.SEC.HOUSE_STAT.STATE = 1 ∧ t.sec.houseObj = handle.toNat ∧
      Only [.regs, .spdm, .house] s t) ∧
    (s.rd R.SEC.HOUSE_STAT.STATE = 1 → s.houseRegion = some r → s.houseKey = some e → ∃ t, exec (.houseLoadComplete data false) s = .next t ∧
      t.rd R.SEC.HOUSE_STAT.STATE = 2 ∧ t.sec.houseManifest = Config.sha384 e.manifest ∧
      (∀ q, q < (s.regionRange r).2 → t.byte ((s.regionRange r).1 + q) = Tab.get 0 (data.foldl (fun m z => Tab.set 0 m z.1 z.2) []) q) ∧
      ∀ q, q < (s.regionRange r).1 ∨ (s.regionRange r).1 + (s.regionRange r).2 ≤ q → t.byte q = s.byte q) ∧
    (∀ src rest, s.sec.houseLines = a.toNat / 512 * 512 :: rest → (src = .object ∧ s.objFor 8 s.sec.houseObj ≠ none) ∨ src = .peer → line.length = 512 →
      ∃ t, exec (.houseRebuildDone a src line) s = .next t ∧ t.sec.houseLines = rest ∧ (∀ q, q < 512 → t.byte (a.toNat / 512 * 512 + q) = line.getD q 0) ∧
      (∀ q, q < a.toNat / 512 * 512 ∨ a.toNat / 512 * 512 + 512 ≤ q → t.byte q = s.byte q) ∧
      t.rd R.SEC.HOUSE_STAT.STATE = (if rest = [] then 2 else s.rd R.SEC.HOUSE_STAT.STATE)) ∧
    (∀ rest, s.sec.houseLines = a.toNat / 512 * 512 :: rest → ∃ t, exec (.houseRebuildDone a .none line) s = .next t ∧
      t.rd R.SEC.HOUSE_STAT.STATE = 4 ∧ t.sec.houseLines = [] ∧ t.mem = s.mem)
/-- R454, R458 to R460: a memory error, a watchdog and a failed audit halt a control processor and reset its scope; a reload returns it to service, or, at
a second fault within 1 h, leaves it down, which for a hub processor is fatal; the management processor's watchdog is fatal. R461, R469, R471, R472,
R485 (Tables 17-6, 17-11, 18-4): a dump ends COMPLETE or PARTIAL and holds its release until a physical function or the out-of-band path asks; the
automatic reset is a warm one; a telemetry sample shows the hottest readings; a commit record that is verified holds all counters. -/
def Obligations.ProcessorFaultsDumpsAndCounters : Prop :=
  (∀ (cp : Fin 18) (x y : Nat) (s : State),
      let n := cp.val
      let in_ := s.rd R.RAS.STAT.CP_DOWN / 2 ^ n % 2 = 0
      (s.cpOut n = false → (∃ t, exec (.cpMemoryError cp) s = .next t ∧ CpFault n 0x1011 s t) ∧
        (∃ t, exec (.cpWatchdog cp) s = .next t ∧ CpFault n 0x1012 s t ∧ t.rd R.RAS.CP_CNT.WDT = min (s.rd R.RAS.CP_CNT.WDT + 1) 0xffff) ∧
        (∃ t, exec (.cpAudit cp true) s = .next t ∧ CpFault n 0x1013 s t ∧ t.rd R.RAS.CP_CNT.AUDIT = min (s.rd R.RAS.CP_CNT.AUDIT + 1) 0xffff)) ∧
      exec (.cpAudit cp false) s = .next s ∧
      (n ∈ s.ras.cpHalted → in_ → s.cpLast (18 + n) = none → ∃ t, exec (.cpReloadDone cp) s = .next t ∧ t.cpOut n = false ∧
        t.rd R.RAS.CP_CNT.RELOADS = min (s.rd R.RAS.CP_CNT.RELOADS + 1) 0xffff ∧ Only [.regs, .ras] s t) ∧
      (n ∈ s.ras.cpHalted → in_ → s.cpLast n = some x → s.cpLast (18 + n) = some y →
        (y + 3600000000 ≤ x → ∃ t, exec (.cpReloadDone cp) s = .next t ∧ t.cpOut n = false ∧ Only [.regs, .ras] s t) ∧
        (x < y + 3600000000 → ∃ t, exec (.cpReloadDone cp) s = .next t ∧ t.rd R.RAS.STAT.CP_DOWN / 2 ^ n % 2 = 1 ∧
          Logs R.RAS.ERR.VALID R.RAS.ERR.CODE 0x1014 s t ∧ (16 ≤ n → Fatal 0x1014 s t) ∧
          (n < 16 → t.rd R.RAS.STAT.STATE = s.rd R.RAS.STAT.STATE ∧ t.host.jobs = s.host.jobs))) ∧
      ∃ t, exec .mpWatchdog s = .next t ∧ Fatal 0x1015 s t ∧ Logs R.RAS.ERR.VALID R.RAS.ERR.CODE 0x1015 s t) ∧
  (∀ (complete : Bool) (bytes : BitVec 32) (path : Path) (watts : BitVec 16) (s : State),
      (s.rd R.RAS.DUMP.STATE = 1 → ∃ t, exec (.dumpWritten complete bytes) s = .next t ∧ t.rd R.RAS.DUMP.STATE = (if complete then 2 else 3) ∧
        t.rd R.RAS.DUMP.BYTES = bytes.toNat ∧ t.rd R.RAS.STAT.STATE = 2 ∧ t.rd R.RAS.DUMP.CAUSE = s.rd R.RAS.DUMP.CAUSE ∧
        Tab.get 0 t.clk.life 52 = min (Tab.get 0 s.clk.life 52 + 1) 0xffffffff ∧ Only [.free, .regs, .rings, .ras, .dump, .clk, .pwr] s t) ∧
      (s.rd R.RAS.DUMP.STATE ≠ 1 → exec (.dumpWritten complete bytes) s = .next s) ∧
      (s.Manages path → pathMaster path = true → 2 ≤ s.rd R.RAS.DUMP.STATE → ∃ t, exec (.dumpRelease path) s = .next t ∧ Answers path (.status 0) t ∧
        t.ras.dump = [] ∧ t.rd R.RAS.DUMP.STATE = 0 ∧ t.rd R.RAS.STAT.STATE = s.rd R.RAS.STAT.STATE ∧ Only [.regs, .spdm, .dump] s t) ∧
      (s.Manages path → s.rd R.RAS.DUMP.STATE < 2 → ∃ t, exec (.dumpRelease path) s = .next t ∧ Answers path .refused t ∧ Only [.spdm] s t) ∧
      (s.rd R.RAS.STAT.STATE = 2 → s.rd R.RAS.CTL.AUTO_RESET = 1 → exec .autoResetTimer s = .next s.warmReset) ∧
      (s.rd R.RAS.CTL.AUTO_RESET = 0 → exec .autoResetTimer s = .next s) ∧
      (∃ t, exec (.telemetrySample watts) s = .next t ∧ t.rd R.TEL.SNAP.POWER_W = watts.toNat ∧
        (∀ d < 5, s.dieTemp d ≤ t.rd R.TEL.SNAP.DIE_C) ∧ (∃ d < 5, s.dieTemp d = t.rd R.TEL.SNAP.DIE_C) ∧
        (∀ k < 8, s.rd (R.HBM.STAT.TEMP_C k) ≤ t.rd R.TEL.SNAP.HBM_C) ∧ (∃ k < 8, s.rd (R.HBM.STAT.TEMP_C k) = t.rd R.TEL.SNAP.HBM_C) ∧
        (∀ m < 4, s.rd (R.NOL.MEM_STAT.TEMP_C m) ≤ t.rd R.TEL.SNAP.NOL_C ∧ s.rd (R.NOL.MEM_STAT.DRAM_C m) ≤ t.rd R.TEL.SNAP.NOL_C ∧
          s.rd (R.NOL.MEM_STAT.FLASH_C m) ≤ t.rd R.TEL.SNAP.NOL_C) ∧ Only [.regs] s t) ∧
      (s.pwr.pwrgd = true → (∃ t, exec (.lifetimeCommit true) s = .next t ∧ t.clk.savedSeq = s.clk.savedSeq + 1 ∧
          (∀ i < 53, Tab.get 0 t.clk.saved i = s.lifeVal i) ∧ t.clk.life = s.clk.life ∧ t.rd R.CLK.LIFE_STAT.SEQ = (s.clk.savedSeq + 1) % 2 ^ 32 ∧
          Only [.regs, .clk] s t) ∧
        ∃ t, exec (.lifetimeCommit false) s = .next t ∧ t.clk = s.clk ∧ t.rd R.CLK.LIFE_STAT.FAILS = min (s.rd R.CLK.LIFE_STAT.FAILS + 1) 0xffff ∧
          Logs R.CLK.ERR.VALID R.CLK.ERR.CODE 0x8084 s t))
/-- R361, R397, R405, R407, R409, R410, R412 to R414, R416, R418, R426, R437 (Table 15-1): each boot stage does its work and the next one begins; Nolmers
get the keys of this boot; a boot without an image copy or a factory calibration copy ends in recovery mode with a fatal error. One lock for FABG.ID
and FABG.MAC.BASE is the model's choice (log entry 177). -/
def Obligations.BootStagesRunInOrder : Prop :=
  ∀ (trained : List (Fin 8)) (nolOk : List (Fin 4)) (failed : List CoreId) (strap : BitVec 6) (c : Bool) (n r : Nat) (s : State),
    let go := exec (.bootStageComplete trained nolOk failed strap) s
    let meas (t : State) (i k : Nat) : Nat := t.rd (R.BOOT.MEAS.DIGEST (i * 6 + k))
    (s.BootsAt 1 → ∃ t, go = .next t ∧ t.rd R.BOOT.STAT.STAGE = 2 ∧ t.rd R.CLK.LOCK.PLL = 0x1fffff ∧
      t.rd R.BOOT.SVN_MIN.SVN_MIN = s.boot.svnMin % 2 ^ R.BOOT.SVN_MIN.SVN_MIN.w ∧ Only [.regs] s t) ∧
    (s.BootsAt 2 → s.slotReason c = 0 → s.slotReason (!c) ≠ 0 ∨ s.considersFirst c → ∃ t, go = .next t ∧ t.rd R.BOOT.STAT.STAGE = 3 ∧
      t.boot.running = some c ∧ t.slot c = { s.slot c with tries := (s.slot c).tries + 1 } ∧ t.slot (!c) = s.slot (!c) ∧
      t.rd R.BOOT.IMG.SVN = (s.slot c).img.svn.toNat ∧ t.rd R.BOOT.IMG.FW_VERSION = (s.slot c).img.fwVersion.toNat ∧
      t.rd R.BOOT.IMG_STAT.COPY = (if c then 1 else 0) ∧ t.rd R.BOOT.IMG_STAT.TRIAL = (if (s.slot c).good = true then 0 else 1) ∧
      (∀ k < 6, meas t 0 k = (s.slot c).img.digest.toNat / 2 ^ (64 * k) % 2 ^ 64) ∧ Only [.regs, .boot] s t) ∧
    (s.BootsAt 2 → s.slotReason false ≠ 0 → s.slotReason true ≠ 0 → ∃ t, go = .next t ∧ t.rd R.BOOT.STAT.STAGE = 0xe ∧ Fatal 0xb002 s t ∧
      Logs R.BOOT.ERR.VALID R.BOOT.ERR.CODE 0xb002 s t ∧ t.rd R.BOOT.IMG_STAT.A_REASON = s.slotReason false ∧
      t.rd R.BOOT.IMG_STAT.B_REASON = s.slotReason true) ∧
    (s.BootsAt 3 → s.calChoice = some n → ∃ t, go = .next t ∧ t.rd R.BOOT.STAT.STAGE = 4 ∧ t.rd R.BOOT.CAL.FCOPY = n % 2 ∧
      t.rd R.BOOT.CAL.OWNER = s.ownerChoice ∧ t.rd R.BOOT.CAL.OVL_APPLIED = (if s.overlayApplies = true then 1 else 0) ∧
      t.sec.parts = s.formParts 255 ∧ t.boot.locked = true ∧
      t.rd R.FABG.ID.MODULE = t.rd R.FABG.ID.RACK * 64 + t.rd R.FABG.ID.TRAY * 8 + t.rd R.FABG.ID.SLOT ∧
      (fieldOf ((s.cfg 0x100 0).getD 0) 0 1 = 0 → s.pwr.rack = none → t.boot.portsOff = true) ∧
      (fieldOf ((s.cfg 0x100 0).getD 0) 0 1 = 0 → s.pwr.rack = some r → r < 1024 → t.boot.portsOff = false ∧
        (s.boot.locked = false → t.rd R.FABG.ID.MODULE = r * 64 + strap.toNat))) ∧
    (s.BootsAt 3 → s.calChoice = none → ∃ t, go = .next t ∧ t.rd R.BOOT.STAT.STAGE = 0xe ∧ Fatal 0xb004 s t) ∧
    (s.BootsAt 4 → ∃ t, go = .next t ∧ t.rd R.BOOT.STAT.STAGE = 5 ∧ (∀ k ∈ (coreMap s.boot.fields).off, (t.core k).offline = true) ∧
      ((coreMap s.boot.fields).moved = [] → (coreMap s.boot.fields).off = [] → t.chip = s.chip) ∧
      (∀ k < 6, meas t 3 k = (Config.sha384 ((s.boot.fields.filterMap id).flatMap recBytes)).toNat / 2 ^ (64 * k) % 2 ^ 64)) ∧
    (s.BootsAt 5 → ∃ t, go = .next t ∧ t.rd R.BOOT.STAT.STAGE = 6 ∧ t.rd R.RAS.STAT.CP_DOWN = 0 ∧ (∀ k ∈ failed, (t.core k).offline = true) ∧
      (∀ k : Nat, (∀ q ∈ failed, q.val ≠ k) → t.core k = s.core k) ∧ (∀ q, failed = [q] → (s.core q).offline = false →
        s.boot.fields.length < fieldSlots → t.boot.fields = s.boot.fields ++ [some (s.fieldNow 1 q)])) ∧
    (s.BootsAt 6 → s.boot.trained = false → ∃ t, go = .next t ∧ t.boot.trained = true ∧ t.rd R.BOOT.STAT.STAGE = 6 ∧
      (∀ m : Fin 4, t.rd (R.NOL.MEM_STAT.OFFLINE m) = if m ∈ nolOk then 0 else 1) ∧
      (∀ m ∈ nolOk, ((t.nolOf m).keys.map (·.store)) = some (storeKey m)) ∧
      t.sec.parts = s.formParts (((List.range 8).map (fun k => if (trained.map Fin.val).contains k = true then 2 ^ k else 0)).foldl (· + ·) 0) ∧
      (s.rd R.CLK.CAL_STAT.VALID = 0 → Logs R.CLK.ERR.VALID R.CLK.ERR.CODE 0x8081 s t) ∧
      t.clk.restored = true ∧ t.rd R.CLK.LIFE_STAT.SEQ = s.clk.savedSeq % 2 ^ 32)
/-- R400, R405, R406, R478, R484 (Table 18-3): job-ready writes the good mark and reports a copy that was refused; the boot watchdog resets a boot that is
not job-ready; a cold reset clears the dump area and the locks, a warm one keeps them with the uptime and the counters in RAM. R402, R407, R408, R413:
firmware update writes the copy that is not running, with the next SEQ, no attempts and no good mark, and never the running one; the identity is
answered in every mode; a field record takes the next blank slot, and a full log refuses it. -/
def Obligations.ResetsUpdatesAndFieldRecords : Prop :=
  (∀ (ms : BitVec 32) (c : Bool) (s : State),
      let other := s.rd (if c = true then R.BOOT.IMG_STAT.A_REASON else R.BOOT.IMG_STAT.B_REASON)
      (s.rd R.BOOT.STAT.STAGE = 6 → s.boot.trained = true → s.boot.running = some c → ∃ t, exec (.jobReady ms) s = .next t ∧
        t.rd R.BOOT.STAT.STAGE = 7 ∧ t.rd R.BOOT.STAT.READY = 1 ∧ t.rd R.BOOT.STAT.READY_MS = ms.toNat ∧
        t.slot c = { s.slot c with tries := 0, good := true } ∧ t.slot (!c) = s.slot (!c) ∧
        (other = 0 → Only [.regs, .boot] s t) ∧ (other ≠ 0 → Logs R.BOOT.ERR.VALID R.BOOT.ERR.CODE 0xb001 s t)) ∧
      (s.rd R.BOOT.STAT.READY = 0 → s.rd R.BOOT.STAT.STAGE ≠ 0xe → exec .bootWatchdog s = .next s.warmReset) ∧
      (s.rd R.BOOT.STAT.READY = 1 → exec .bootWatchdog s = .next s) ∧
      (s.pwr.pwrgd = true → (∃ t, exec .coldReset s = .next t ∧ WasReset s t ∧ t.ras.dump = [] ∧ t.rd R.RAS.DUMP.STATE = 0 ∧ t.boot.locked = false ∧
          t.uptime = 0 ∧ t.clk.life = []) ∧
        ∃ t, exec .warmReset s = .next t ∧ WasReset s t ∧ t.ras.dump = s.ras.dump ∧ t.rd R.RAS.DUMP.STATE = s.rd R.RAS.DUMP.STATE ∧
          t.boot.locked = s.boot.locked ∧ t.uptime = s.uptime ∧ t.rd R.FABG.ID.RACK = s.rd R.FABG.ID.RACK ∧
          (∀ i, i ≠ 51 → Tab.get 0 t.clk.life i = Tab.get 0 s.clk.life i) ∧
          Tab.get 0 t.clk.life 51 = min (Tab.get 0 s.clk.life 51 + 1) 0xffffffff)) ∧
  (∀ (path : Path) (img : ImageCopy) (rec : FieldRec) (c : Bool) (s : State),
      (s.boot.running = some c → ∃ t, exec (.firmwareUpdate path img) s = .next t ∧ t.slot c = s.slot c ∧
        t.slot (!c) = ⟨{ img with seq := (s.slot c).img.seq + 1 }, 0, false⟩ ∧ Answers path (.status 0) t ∧ t.boot.cal0 = s.boot.cal0 ∧
        t.boot.cal1 = s.boot.cal1 ∧ Only [.boot, .spdm] s t) ∧
      (∃ t, exec (.pldmIdentify path) s = .next t ∧ Answers path (.identity 0xb0 (s.rd R.BOOT.IMG.FW_VERSION) (s.rd R.BOOT.IMG.SVN)) t ∧ Only [.spdm] s t) ∧
      (s.boot.fields.length < fieldSlots → ∃ t, exec (.fieldRecordAppend rec) s = .next t ∧ t.boot.fields = s.boot.fields ++ [some rec] ∧
        Only [.fields] s t) ∧
      (fieldSlots ≤ s.boot.fields.length → ∃ t, exec (.fieldRecordAppend rec) s = .next t ∧ t.boot.fields = s.boot.fields ∧
        Logs R.BOOT.ERR.VALID R.BOOT.ERR.CODE 0xb00a s t))
/-- R453, R475, R476, R491 (Tables 18-1, 18-7): a target write replaces a die's target, and each slew step moves its PLL by one code towards it; a PLL
that loses lock ends the jobs of its die, or is fatal, or takes down its link, by its domain, and locks again. What holds over a relock is the model's
reading (log entry 179). R481 to R483: a setting within 1 s is slewed and a larger one stepped; a backward step of more than 1 s is refused without
FORCE; a PTM exchange corrects the calendar to master time and offset; without any supply the calendar is no longer valid. -/
def Obligations.PllsAndCalendar : Prop :=
  (∀ (die : Fin 4) (value : Word) (pll : Fin 21) (s : State),
      let d := die.val
      let b := pll.val
      let goal (t : State) : Nat := min (t.rd (R.CLK.ACLK_CTL.TARGET d)) 66
      let cur := s.rd (R.CLK.ACLK_CTL.CUR d)
      let slews (t : State) : Nat := if t.rd (R.CLK.ACLK_CTL.CUR d) = goal t then 0 else 1
      (∃ t, exec (.aclkTargetWrite die value) s = .next t ∧ t.rd (R.CLK.ACLK_CTL.TARGET d) = (value.extractLsb' 0 7).toNat ∧
        t.rd (R.CLK.ACLK_CTL.CUR d) = cur ∧ t.rd (R.CLK.ACLK_CTL.SLEWING d) = slews t ∧ (∀ e : Nat, e ≠ d → t.target e = s.target e) ∧ Only [.regs, .pwr] s t) ∧
      (∃ t, exec (.aclkSlewStep die) s = .next t ∧ t.rd (R.CLK.ACLK_CTL.TARGET d) = s.rd (R.CLK.ACLK_CTL.TARGET d) ∧
        t.rd (R.CLK.ACLK_CTL.CUR d) = (if cur < goal s then cur + 1 else if goal s < cur then cur - 1 else cur) ∧
        t.rd (R.CLK.ACLK_CTL.SLEWING d) = slews t ∧ Only [.regs] s t) ∧
      (s.pllLocked b = true → ∃ t, exec (.pllUnlock pll) s = .next t ∧ t.rd R.CLK.LOCK.PLL = s.rd R.CLK.LOCK.PLL - 2 ^ b ∧
        Logs R.CLK.ERR.VALID R.CLK.ERR.CODE 0x8080 s t ∧
        (b < 4 → (∀ k, k / 200 = b → (t.core k).running = false) ∧ ∀ p ∈ s.dieParts b, Contains 0x8080 p s t) ∧
        (b = 4 ∨ b = 13 ∨ b = 20 → Fatal 0x8080 s t) ∧
        (4 < b → b ∉ [13, 14, 15, 20] → t.chip = s.chip ∧ t.rd R.RAS.STAT.STATE = s.rd R.RAS.STAT.STATE) ∧
        (b = 14 ∨ b = 15 → t.linkUp (b - 14) = false)) ∧
      (s.pllLocked b = false → exec (.pllUnlock pll) s = .next s) ∧
      (s.pwr.pwrgd = true → s.rd R.PWR.STAT.STATE ≠ 1 ∨ standbyPlls / 2 ^ b % 2 = 0 → ∃ t, exec (.pllRelock pll) s = .next t ∧
        t.rd R.CLK.LOCK.PLL = s.rd R.CLK.LOCK.PLL ||| 2 ^ b ∧ t.pllLocked b = true ∧ Only [.regs, .hbm] s t)) ∧
  (∀ (time : Word) (force : Bool) (port : Fin 2) (o : Int) (m : Word) (s : State),
      let v : Int := (time.toNat : Int)
      let back := s.rd R.CLK.CAL_STAT.VALID = 1 ∧ s.ahead v < -32768
      let ptm := s.clk.offset = some o ∧ s.rd R.CLK.PTM_CFG.EN = 1 ∧ port.val = s.ptmPort ∧ s.linkUp port = true
      let w : Int := (m.toNat : Int) + o
      (s.Manages .oob → ¬ (back ∧ force = false) → ∃ t, exec (.setDateTime .oob time force) s = .next t ∧ CalSet v 3 s t ∧
        Answers .oob (.status 0) t ∧ Only [.regs, .spdm, .clk] s t) ∧
      (s.Manages .oob → back → ∃ t, exec (.setDateTime .oob time false) s = .next t ∧ t.now = s.now ∧ t.clk.slew = s.clk.slew ∧
        Answers .oob (.status 0x8082) t ∧ Logs R.CLK.ERR.VALID R.CLK.ERR.CODE 0x8082 s t) ∧
      (s.Manages (.fn port 0) → ∃ t, exec (.setDateTime (.fn port 0) time force) s = .next t ∧ t.clk = { s.clk with offset := some time.toInt } ∧
        Answers (.fn port 0) (.status 0) t ∧ Only [.spdm, .clk] s t) ∧
      (ptm → s.clk.mgmtAt = none → ¬ (s.rd R.CLK.CAL_STAT.VALID = 1 ∧ s.ahead w < -32768) → ∃ t, exec (.ptmExchange port (some m)) s = .next t ∧
        CalSet w (1 + port.val) s t ∧ t.rd R.CLK.PTM_STAT.EXCH = min (s.rd R.CLK.PTM_STAT.EXCH + 1) 0xffffffff ∧ Only [.regs, .clk] s t) ∧
      (ptm → s.clk.mgmtAt ≠ none → ∃ t, exec (.ptmExchange port (some m)) s = .next t ∧ t.clk = s.clk ∧ t.now = s.now ∧ Only [.regs] s t) ∧
      (ptm → ∃ t, exec (.ptmExchange port none) s = .next t ∧ t.clk = s.clk ∧ t.now = s.now ∧
        t.rd R.CLK.PTM_STAT.FAILS = min (s.rd R.CLK.PTM_STAT.FAILS + 1) 0xffffffff ∧ Logs R.CLK.ERR.VALID R.CLK.ERR.CODE 0x8083 s t) ∧
      (s.rd R.CLK.PTM_CFG.EN = 0 → exec (.ptmExchange port (some m)) s = .next s) ∧
      (s.pwr.aux = false → ∃ t, exec .supercapDepleted s = .next t ∧ t.rd R.CLK.CAL_STAT.VALID = 0 ∧ t.clk = s.clk ∧ Only [.free, .regs] s t) ∧
      (s.pwr.aux = true → exec .supercapDepleted s = .next s))
/-- R489 to R491, R493 (Table 19-6): an input above 3,500 W, or below 46 V for 1 ms, brakes all dies; an average above the limit takes a step off every
target, and below it by more than 100 W a lowered target rises; STANDBY switches off the ACLK and MCLK PLLs of a module without a job. R493, R494,
R514: a droop deeper than DROOP_MV brakes its die, and BRAKE# low for at least 50 ns brakes every die, below 20 ns none; a die with every cause clear
is released in four steps. -/
def Obligations.InputPowerAndBrakes : Prop :=
  (∀ (watts mv average : BitVec 16) (t0 : Nat) (s : State), s.pwr.pwrgd = true →
      let shown (t : State) := t.rd R.PWR.STAT.INPUT_W = watts.toNat ∧ t.rd R.PWR.STAT.INPUT_MV = mv.toNat
      (3500 < watts.toNat → s.brakeOn 2 → ∃ t, exec (.powerSample watts mv) s = .next t ∧ shown t ∧ Brakes 2 allDies s t) ∧
      (mv.toNat < 46000 → s.pwr.lowSince = some t0 → t0 + 1000 ≤ s.uptime → s.brakeOn 2 → ∃ t, exec (.powerSample watts mv) s = .next t ∧ shown t ∧
        Brakes 2 allDies s t) ∧
      (watts.toNat ≤ 3500 → mv.toNat < 46000 → s.pwr.lowSince = none → ∃ t, exec (.powerSample watts mv) s = .next t ∧ shown t ∧
        t.pwr = { s.pwr with lowSince := some s.uptime } ∧ Only [.regs, .pwr] s t) ∧
      (watts.toNat ≤ 3500 → 46000 ≤ mv.toNat → ∃ t, exec (.powerSample watts mv) s = .next t ∧ shown t ∧ t.pwr.lowSince = none ∧ Clears 2 allDies s t ∧
        Only [.regs, .pwr] s t) ∧
      (s.rd R.PWR.CTL.LIMIT_W < average.toNat → (∃ d < 4, s.target d ≠ 0) → ∃ t, exec (.powerLimitStep average) s = .next t ∧
        (∀ d < 4, t.target d = s.target d - 1) ∧ Logs R.PWR.ERR.VALID R.PWR.ERR.CODE 0x8002 s t ∧ Only [.free, .regs, .rings, .ras, .pwr] s t) ∧
      (average.toNat + 100 < s.rd R.PWR.CTL.LIMIT_W → ∃ t, exec (.powerLimitStep average) s = .next t ∧ Only [.regs] s t ∧
        ∀ d < 4, t.target d = if s.target d + Tab.get 0 s.pwr.hotCut d < s.wanted d then (s.target d + 1) % 128 else s.target d) ∧
      (average.toNat ≤ s.rd R.PWR.CTL.LIMIT_W → s.rd R.PWR.CTL.LIMIT_W ≤ average.toNat + 100 → exec (.powerLimitStep average) s = .next s) ∧
      (s.host.jobs = [] → s.rd R.PWR.STAT.STATE = 0 → ∃ t, exec .standbyEnter s = .next t ∧ t.rd R.PWR.STAT.STATE = 1 ∧
        (∀ b < 21, t.pllLocked b = (s.pllLocked b && standbyPlls / 2 ^ b % 2 == 0)) ∧ Answers .oob (.status 0) t ∧ Only [.regs, .spdm] s t) ∧
      (s.host.jobs ≠ [] → ∃ t, exec .standbyEnter s = .next t ∧ Answers .oob (.status 0x8003) t ∧ Only [.spdm] s t) ∧
      (s.rd R.PWR.STAT.STATE = 1 → ∃ t, exec .standbyExit s = .next t ∧ t.rd R.PWR.STAT.STATE = 0 ∧
        (∀ b < 21, t.pllLocked b = (s.pllLocked b || standbyPlls / 2 ^ b % 2 == 1)) ∧ Only [.regs, .hbm] s t)) ∧
  (∀ (die : Fin 4) (mv : BitVec 8) (ns : Nat) (s : State),
      let d := die.val
      let steps (t : State) : Nat := Tab.get 0 t.pwr.steps d
      (s.pwr.pwrgd = true → s.rd R.PWR.BRAKE_CFG.DROOP_MV < mv.toNat → s.brakeOn 0 → ∃ t, exec (.droop die mv) s = .next t ∧ Brakes 0 [d] s t) ∧
      (s.pwr.pwrgd = true → mv.toNat ≤ s.rd R.PWR.BRAKE_CFG.DROOP_MV → ∃ t, exec (.droop die mv) s = .next t ∧ Clears 0 [d] s t ∧ Only [.pwr] s t) ∧
      (50 ≤ ns → s.pwr.pwrgd = true → s.brakeOn 1 → ∃ t, exec (.brakePin ns) s = .next t ∧ t.pwr.brakePin = true ∧ Brakes 1 allDies s t) ∧
      (ns < 20 → exec (.brakePin ns) s = .next s) ∧
      (∃ t, exec (.brakePin ns) s = .next t ∧ (t.pwr.brakePin = true ∨ t.pwr = s.pwr)) ∧
      (∃ t, exec .brakeDeassert s = .next t ∧ t.pwr.brakePin = false ∧ Clears 1 allDies s t ∧ Only [.pwr] s t) ∧
      (s.braked d = true → s.causesOf d = 0 → steps s < 3 → ∃ t, exec (.brakeReleaseStep die) s = .next t ∧ steps t = steps s + 1 ∧
        t.braked d = true ∧ Only [.pwr] s t) ∧
      (s.braked d = true → s.causesOf d = 0 → steps s = 3 → ∃ t, exec (.brakeReleaseStep die) s = .next t ∧ steps t = 0 ∧ t.braked d = false ∧
        (∀ e, e ≠ d → t.braked e = s.braked e) ∧ Only [.regs, .pwr] s t) ∧
      (s.causesOf d ≠ 0 → exec (.brakeReleaseStep die) s = .next s))
/-- R312, R496 to R498 (Tables 19-3, 19-5, 19-7): a sample shows every part's reading; a hot die's target falls; a stack's throttle level rises with 3 °C
steps above its threshold and falls by one below its hysteresis; a critical reading is fatal; a failed sensor counts as its part's throttle
temperature. -/
def Obligations.TemperaturesThrottle : Prop :=
  ∀ (x : Temps) (d m : Fin 4) (k : Fin 8) (u : Option Nat) (s : State), s.pwr.pwrgd = true →
    let r := reading x.stack k
    let thr := s.rd (thrFld k)
    let hyst := s.rd R.THM.CTL.HYST_C
    let old := s.rd (levelFld k)
    let level (t : State) : Nat := t.rd (levelFld k)
    let go := exec (.thermalSample x) s
    let failed (y : Sensor) (f : Fld) (v : Nat) := ∃ t, exec (.thmSensorFail y) s = .next t ∧ t.rd f = v ∧ Logs R.THM.ERR.VALID R.THM.ERR.CODE 0x8006 s t ∧
      Only [.free, .regs, .rings, .ras, .pwr] s t
    (critical x = none → ∃ t, go = .next t ∧ t.dieTemp d = reading x.die d ∧ t.dieTemp 4 = x.hub.toNat ∧ t.rd (R.HBM.STAT.TEMP_C k) = r ∧
      t.rd (R.HBM.STAT.HOT k) = (if 85 < r then 1 else 0) ∧ t.rd (R.NOL.MEM_STAT.TEMP_C m) = reading x.nol m ∧
      t.rd (R.NOL.MEM_STAT.DRAM_C m) = reading x.dram m ∧ t.rd (R.NOL.MEM_STAT.FLASH_C m) = reading x.flash m ∧
      t.rd R.RAS.STAT.STATE = s.rd R.RAS.STAT.STATE ∧ t.chip = s.chip ∧
      (s.rd R.THM.CTL.DIE_HOT_C ≤ reading x.die d → t.rd (dieHot d) = 1 ∧ t.target d = s.target d - 1) ∧
      (reading x.die d + 2 ≤ s.rd R.THM.CTL.DIE_HOT_C → Tab.get 0 s.pwr.hotCut d = 0 → t.rd (dieHot d) = 0 ∧ t.target d = s.target d) ∧
      (thr + 6 ≤ r → level t = 3) ∧ (old < 2 → thr + 3 ≤ r → r < thr + 6 → level t = 2) ∧ (old = 0 → thr ≤ r → r < thr + 3 → level t = 1) ∧
      (old = 0 → r < thr → level t = 0) ∧ (0 < old → r + hyst < thr + 3 * (old - 1) → level t = old - 1) ∧
      (0 < old → thr + 3 * (old - 1) ≤ r + hyst → r < thr + 3 * old → level t = old) ∧
      t.rd (R.THM.THR_CNT.MS k) = min (s.rd (R.THM.THR_CNT.MS k) + if old = 0 then 0 else 1) 0xffffffff) ∧
    (critical x = some u → ∃ t, go = .next t ∧ Fatal 0x8005 s t) ∧
    failed (.die d) (dieField d) (s.rd R.THM.CTL.DIE_HOT_C) ∧ failed .hub (dieField 4) 100 ∧ failed (.stack k) (R.HBM.STAT.TEMP_C k) thr ∧
    failed (.nol m) (R.NOL.MEM_STAT.TEMP_C m) 100 ∧ failed (.dram m) (R.NOL.MEM_STAT.DRAM_C m) 85 ∧ failed (.flash m) (R.NOL.MEM_STAT.FLASH_C m) 75
/-- R507, R508, R512 to R514: the converters start once the auxiliary rail, both inputs and PWR_EN are there; power-good begins a cold reset, with every
die braked where BRAKE# is low; the first management transaction selects the bus mode, and the rack ID is kept. R486, R507, R510, R513: a low input,
the loss of the auxiliary rail and a deasserted PWR_EN each shut the module down with one commit record; only the first two count a power loss, and
the rack ID goes with the auxiliary rail. -/
def Obligations.SupplyPinsAndPowerLoss : Prop :=
  (∀ (j1 j2 low i3c : Bool) (path : Path) (rack : BitVec 10) (s : State),
      let q := s.pwr
      (q.aux = false → ∃ t, exec .auxRailUp s = .next t ∧ t.pwr.aux = true ∧ t.pwr.i3c = none ∧ t.pwr.started = (q.started || q.vin1 && q.vin2 && q.pwrEn) ∧
        Only [.pwr] s t) ∧
      (q.aux = true → exec .auxRailUp s = .next s) ∧
      (q.aux = true → q.i3c = none → ∃ t, exec (.mgmtBusSelect i3c) s = .next t ∧ t.pwr = { q with i3c := some i3c } ∧ Only [.pwr] s t) ∧
      (q.i3c ≠ none → exec (.mgmtBusSelect i3c) s = .next s) ∧
      (q.aux = true → s.Manages path → ∃ t, exec (.setRack path rack) s = .next t ∧ t.pwr = { q with rack := some rack.toNat } ∧
        Answers path (.status 0) t ∧ Only [.spdm, .pwr] s t) ∧
      (q.started = false → ∃ t, exec (.pwrEnAssert j1 j2) s = .next t ∧ t.pwr.pwrEn = true ∧ t.pwr.vin1 = j1 ∧ t.pwr.vin2 = j2 ∧
        t.pwr.started = (q.aux && j1 && j2) ∧ (q.aux = true → j1 = false ∨ j2 = false → Logs R.PWR.ERR.VALID R.PWR.ERR.CODE 0x8007 s t) ∧
        Only [.free, .regs, .rings, .ras, .pwr] s t) ∧
      (∃ t, exec (.vinRising j1 j2) s = .next t ∧ t.pwr.vin1 = (q.vin1 || j1) ∧ t.pwr.vin2 = (q.vin2 || j2) ∧
        t.pwr.started = (q.started || q.aux && (q.vin1 || j1) && (q.vin2 || j2) && q.pwrEn) ∧ Only [.pwr] s t) ∧
      (q.started = true → q.pwrgd = false → ∃ t, exec (.modPwrgd low) s = .next t ∧ WasReset s t ∧ t.pwr.pwrgd = true ∧ t.pwr.brakePin = low ∧
        t.ras.dump = [] ∧ (low = true → ∀ d < 4, t.braked d = true) ∧ (low = false → ∀ d < 4, t.braked d = false))) ∧
  (∀ (finished : Bool) (s : State),
      (s.pwr.started = true → s.pwr.pwrgd = true → s.clk.shutCommit = false →
        (∃ t, exec (.vinLow finished) s = .next t ∧ ShutDown true finished s t ∧ t.pwr.vin1 = false ∧ t.pwr.vin2 = false ∧ t.pwr.aux = s.pwr.aux ∧
          t.pwr.rack = s.pwr.rack) ∧
        (∃ t, exec (.auxRailLoss finished) s = .next t ∧ ShutDown true finished s t ∧ t.pwr.aux = false ∧ t.pwr.rack = none ∧ t.pwr.i3c = none ∧
          t.pwr.pwrEn = s.pwr.pwrEn) ∧
        (∃ t, exec (.pwrEnDeassert finished) s = .next t ∧ ShutDown false finished s t ∧ t.pwr.pwrEn = false ∧ t.pwr.aux = s.pwr.aux ∧
          t.pwr.rack = s.pwr.rack)) ∧
      (s.pwr.started = false →
        (∃ t, exec (.vinLow finished) s = .next t ∧ t.pwr = { s.pwr with vin1 := false, vin2 := false } ∧ Only [.pwr] s t) ∧
        (∃ t, exec (.auxRailLoss finished) s = .next t ∧ t.pwr = { s.pwr with aux := false, rack := none, i3c := none, alert := false } ∧ Only [.pwr] s t) ∧
        ∃ t, exec (.pwrEnDeassert finished) s = .next t ∧ t.pwr = { s.pwr with pwrEn := false } ∧ Only [.pwr] s t))
/-- R454: a contained error resets the job it names, or every job of the partition it names, or, where it names neither, every job on the module; no other
job changes, and the module goes on. -/
def Obligations.ContainedErrorsResetTheirScope : Prop :=
  ∀ (code part job unit : Nat) (detail : Option Nat) (s : State),
    let t := s.contained code part job unit detail
    let named (y : Job) : Prop := if job ≠ 0xffff then y.id = job else 8 ≤ part ∨ y.part = part
    (∀ id y, s.job id = some y →
      ((∃ z ∈ s.host.jobs, z.id = id ∧ named z) → y.reset = false →
        t.job id = some { y with reset := true, origCode := code, origModule := s.moduleId }) ∧
      ((¬ ∃ z ∈ s.host.jobs, z.id = id ∧ named z) ∨ y.reset = true → t.job id = some y)) ∧
    (∀ id, s.job id = none → t.job id = none) ∧ t.rd R.RAS.STAT.STATE = s.rd R.RAS.STAT.STATE ∧ t.pwr.fault = s.pwr.fault
end

