-- ==== Sys2Proof/Laws/Off.lean ====
section
/-! SUPPORT. What `State.off` says: an operation that writes only areas of a mask leaves the rest alone. The files Laws/Off*.lean say
so of each operation of the machine. -/
namespace Sys2Proof.Machine

theorem off_val {α : Type} {n : Nat} {d x y : α} (h : n % 2 = 0 → x = y) :
    (if n % 2 = 1 then d else x) = if n % 2 = 1 then d else y := by
  split
  · rfl
  · exact h (by omega)
/-- A state built with the fields of `s` outside the areas of a mask. -/
@[simp] theorem State.off_mk (M : Nat) (s : State) (a0 a1 a2 a3 a4 a5 a6 a7 a8 a9 a10 a11 a12 a13 a14 a15 a16 a17 a18 a19 a20)
    (h0 : M / 2 % 2 = 0 → a0 = s.freeCtr) (h1 : M / 4 % 2 = 0 → a1 = s.regs)
    (h2 : M / 8 % 2 = 0 → a2 = s.mem) (h3 : M / 8 % 2 = 0 → a3 = s.poison)
    (h4 : M / 16 % 2 = 0 → a4.cores = s.chip.cores) (h5 : M / 32 % 2 = 0 → a4.imem = s.chip.imem)
    (h6 : M / 32 % 2 = 0 → a4.imemPoison = s.chip.imemPoison) (h7 : M / 32 % 2 = 0 → a4.imemErr = s.chip.imemErr)
    (h8 : M / 128 % 2 = 0 → a4.segs = s.chip.segs) (h9 : M / 128 % 2 = 0 → a4.march = s.chip.march)
    (h10 : M / 64 % 2 = 0 → a4.stage = s.chip.stage) (h11 : M / 64 % 2 = 0 → a4.stagePoison = s.chip.stagePoison)
    (h12 : M / 256 % 2 = 0 → a4.remotes = s.chip.remotes) (h13 : M / 16 % 2 = 0 → a4.gov = s.chip.gov)
    (h14 : M / 512 % 2 = 0 → a5.mem0 = s.host.mem0) (h15 : M / 512 % 2 = 0 → a5.mem1 = s.host.mem1)
    (h16 : M / 1024 % 2 = 0 → a5.link0 = s.host.link0) (h17 : M / 1024 % 2 = 0 → a5.link1 = s.host.link1)
    (h18 : M / 1024 % 2 = 0 → a5.cfgReady0 = s.host.cfgReady0) (h19 : M / 1024 % 2 = 0 → a5.cfgReady1 = s.host.cfgReady1)
    (h20 : M / 2048 % 2 = 0 → a5.rings = s.host.rings) (h21 : M / 2048 % 2 = 0 → a5.msix = s.host.msix)
    (h22 : M / 1024 % 2 = 0 → a5.perst0 = s.host.perst0) (h23 : M / 1024 % 2 = 0 → a5.perst1 = s.host.perst1)
    (h24 : M / 1024 % 2 = 0 → a5.ans0 = s.host.ans0) (h25 : M / 1024 % 2 = 0 → a5.ans1 = s.host.ans1)
    (h26 : M / 1024 % 2 = 0 → a5.ignored = s.host.ignored) (h27 : M / 1024 % 2 = 0 → a5.mail = s.host.mail)
    (h28 : M / 4096 % 2 = 0 → a5.jobs = s.host.jobs) (h29 : M / 8192 % 2 = 0 → a5.waiting = s.host.waiting)
    (h30 : M / 16384 % 2 = 0 → a6.parts = s.sec.parts) (h31 : M / 32768 % 2 = 0 → a6.keys = s.sec.keys)
    (h32 : M / 65536 % 2 = 0 → a6.sessions = s.sec.sessions) (h33 : M / 65536 % 2 = 0 → a6.nextSession = s.sec.nextSession)
    (h34 : M / 32768 % 2 = 0 → a6.ownerKey = s.sec.ownerKey) (h35 : M / 32768 % 2 = 0 → a6.fabricKey = s.sec.fabricKey)
    (h36 : M / 131072 % 2 = 0 → a6.houseLines = s.sec.houseLines) (h37 : M / 131072 % 2 = 0 → a6.houseManifest = s.sec.houseManifest)
    (h38 : M / 131072 % 2 = 0 → a6.houseObj = s.sec.houseObj) (h39 : M / 65536 % 2 = 0 → a6.replies = s.sec.replies)
    (h40 : M / 65536 % 2 = 0 → a6.chunks = s.sec.chunks) (h41 : M / 262144 % 2 = 0 → a7.limit = s.ras.limit)
    (h42 : M / 262144 % 2 = 0 → a7.ages = s.ras.ages) (h43 : M / 262144 % 2 = 0 → a7.levels = s.ras.levels)
    (h44 : M / 262144 % 2 = 0 → a7.cpFault = s.ras.cpFault) (h45 : M / 262144 % 2 = 0 → a7.cpHalted = s.ras.cpHalted)
    (h46 : M / 524288 % 2 = 0 → a7.fatal = s.ras.fatal) (h47 : M / 524288 % 2 = 0 → a7.dump = s.ras.dump)
    (h48 : M / 524288 % 2 = 0 → a7.dumpFree = s.ras.dumpFree) (h49 : M / 1048576 % 2 = 0 → a8 = s.hbm)
    (h50 : M / 2097152 % 2 = 0 → a9 = s.dir) (h51 : M / 2097152 % 2 = 0 → a10 = s.blks)
    (h52 : M / 4194304 % 2 = 0 → a11 = s.fab) (h53 : M / 8388608 % 2 = 0 → a12 = s.trn)
    (h54 : M / 2097152 % 2 = 0 → a13 = s.nol) (h55 : M / 16777216 % 2 = 0 → a14 = s.roll)
    (h56 : M / 33554432 % 2 = 0 → a15 = s.coll) (h57 : M / 67108864 % 2 = 0 → a16 = s.sched)
    (h58 : M / 134217728 % 2 = 0 → a17 = s.upd) (h59 : M / 1073741824 % 2 = 0 → a18.imgA = s.boot.imgA)
    (h60 : M / 1073741824 % 2 = 0 → a18.imgB = s.boot.imgB) (h61 : M / 1073741824 % 2 = 0 → a18.cal0 = s.boot.cal0)
    (h62 : M / 1073741824 % 2 = 0 → a18.cal1 = s.boot.cal1) (h63 : M / 1073741824 % 2 = 0 → a18.ownA = s.boot.ownA)
    (h64 : M / 1073741824 % 2 = 0 → a18.ownB = s.boot.ownB) (h65 : M / 536870912 % 2 = 0 → a18.fields = s.boot.fields)
    (h66 : M / 268435456 % 2 = 0 → a18.svnMin = s.boot.svnMin) (h67 : M / 268435456 % 2 = 0 → a18.revoked = s.boot.revoked)
    (h68 : M / 1073741824 % 2 = 0 → a18.running = s.boot.running) (h69 : M / 1073741824 % 2 = 0 → a18.locked = s.boot.locked)
    (h70 : M / 1073741824 % 2 = 0 → a18.trained = s.boot.trained) (h71 : M / 1073741824 % 2 = 0 → a18.strap = s.boot.strap)
    (h72 : M / 1073741824 % 2 = 0 → a18.portsOff = s.boot.portsOff) (h73 : M / 2147483648 % 2 = 0 → a19 = s.clk)
    (h74 : M / 4294967296 % 2 = 0 → a20 = s.pwr) :
    State.off M ⟨s.pending, a0, a1, a2, a3, a4, a5, a6, a7, a8, a9, a10, a11, a12, a13, a14, a15, a16, a17, a18, a19, a20⟩ = s.off M := by
  simp only [State.off]
  rw [off_val h0, off_val h1, off_val h2, off_val h3, off_val h4, off_val h5, off_val h6, off_val h7, off_val h8, off_val h9, off_val h10, off_val h11, off_val h12, off_val h13, off_val h14, off_val h15, off_val h16, off_val h17, off_val h18, off_val h19, off_val h20, off_val h21, off_val h22, off_val h23, off_val h24, off_val h25, off_val h26, off_val h27, off_val h28, off_val h29, off_val h30, off_val h31, off_val h32, off_val h33, off_val h34, off_val h35, off_val h36, off_val h37, off_val h38, off_val h39, off_val h40, off_val h41, off_val h42, off_val h43, off_val h44, off_val h45, off_val h46, off_val h47, off_val h48, off_val h49, off_val h50, off_val h51, off_val h52, off_val h53, off_val h54, off_val h55, off_val h56, off_val h57, off_val h58, off_val h59, off_val h60, off_val h61, off_val h62, off_val h63, off_val h64, off_val h65, off_val h66, off_val h67, off_val h68, off_val h69, off_val h70, off_val h71, off_val h72, off_val h73, off_val h74]
theorem off_inner {m M p : Nat} (h : m ||| M = M) (hp : ∃ i, p = 2 ^ i) {α : Type} (d x : α) :
    (if M / p % 2 = 1 then d else if m / p % 2 = 1 then d else x) = if M / p % 2 = 1 then d else x := by
  obtain ⟨i, rfl⟩ := hp
  split
  · rfl
  · rename_i hM
    rw [if_neg]
    intro hi
    apply hM
    have : M.testBit i = true := by rw [← h, Nat.testBit_lor, Nat.testBit_eq_decide_div_mod_eq, hi]; rfl
    rwa [Nat.testBit_eq_decide_div_mod_eq, decide_eq_true_eq] at this
theorem State.off_off {m M : Nat} (h : m ||| M = M) (s : State) : (s.off m).off M = s.off M := by
  simp only [State.off, off_inner h ⟨0, (by decide : 1 = 2 ^ 0)⟩, off_inner h ⟨1, (by decide : 2 = 2 ^ 1)⟩, off_inner h ⟨2, (by decide : 4 = 2 ^ 2)⟩, off_inner h ⟨3, (by decide : 8 = 2 ^ 3)⟩, off_inner h ⟨4, (by decide : 16 = 2 ^ 4)⟩, off_inner h ⟨5, (by decide : 32 = 2 ^ 5)⟩, off_inner h ⟨6, (by decide : 64 = 2 ^ 6)⟩, off_inner h ⟨7, (by decide : 128 = 2 ^ 7)⟩, off_inner h ⟨8, (by decide : 256 = 2 ^ 8)⟩, off_inner h ⟨9, (by decide : 512 = 2 ^ 9)⟩, off_inner h ⟨10, (by decide : 1024 = 2 ^ 10)⟩, off_inner h ⟨11, (by decide : 2048 = 2 ^ 11)⟩, off_inner h ⟨12, (by decide : 4096 = 2 ^ 12)⟩, off_inner h ⟨13, (by decide : 8192 = 2 ^ 13)⟩, off_inner h ⟨14, (by decide : 16384 = 2 ^ 14)⟩, off_inner h ⟨15, (by decide : 32768 = 2 ^ 15)⟩, off_inner h ⟨16, (by decide : 65536 = 2 ^ 16)⟩, off_inner h ⟨17, (by decide : 131072 = 2 ^ 17)⟩, off_inner h ⟨18, (by decide : 262144 = 2 ^ 18)⟩, off_inner h ⟨19, (by decide : 524288 = 2 ^ 19)⟩, off_inner h ⟨20, (by decide : 1048576 = 2 ^ 20)⟩, off_inner h ⟨21, (by decide : 2097152 = 2 ^ 21)⟩, off_inner h ⟨22, (by decide : 4194304 = 2 ^ 22)⟩, off_inner h ⟨23, (by decide : 8388608 = 2 ^ 23)⟩, off_inner h ⟨24, (by decide : 16777216 = 2 ^ 24)⟩, off_inner h ⟨25, (by decide : 33554432 = 2 ^ 25)⟩, off_inner h ⟨26, (by decide : 67108864 = 2 ^ 26)⟩, off_inner h ⟨27, (by decide : 134217728 = 2 ^ 27)⟩, off_inner h ⟨28, (by decide : 268435456 = 2 ^ 28)⟩, off_inner h ⟨29, (by decide : 536870912 = 2 ^ 29)⟩, off_inner h ⟨30, (by decide : 1073741824 = 2 ^ 30)⟩, off_inner h ⟨31, (by decide : 2147483648 = 2 ^ 31)⟩, off_inner h ⟨32, (by decide : 4294967296 = 2 ^ 32)⟩]
theorem off_mono {m M : Nat} {s t : State} (e : t.off m = s.off m) (h : m ||| M = M) : t.off M = s.off M := by
  rw [← State.off_off h t, e, State.off_off h]
theorem off_sub {a m M : Nat} (h : m ||| M = M) (ha : a ||| m = m) : a ||| M = M := by
  rw [← h, ← Nat.lor_assoc, ha]
theorem off_ite {M : Nat} (c : Prop) [Decidable c] (x y : State) :
    (if c then x else y).off M = if c then x.off M else y.off M := by split <;> rfl
theorem off_if {M : Nat} {c : Prop} [Decidable c] {x y r : State} (hx : x.off M = r) (hy : y.off M = r) :
    (if c then x else y).off M = r := by split <;> assumption
theorem fst_ite {α β : Type} (c : Prop) [Decidable c] (x y : α × β) :
    (if c then x else y).1 = if c then x.1 else y.1 := by split <;> rfl
theorem fst_off {M : Nat} {α : Type} {c : Prop} [Decidable c] {x y : State × α} {r : State} (hx : x.1.off M = r)
    (hy : y.1.off M = r) : (if c then x else y).1.off M = r := by split <;> assumption
theorem foldl_off {M : Nat} {α : Type} (f : State → α → State) (h : ∀ s x, (f s x).off M = s.off M) (l : List α) (s : State) :
    (l.foldl f s).off M = s.off M := by
  induction l generalizing s with
  | nil => rfl
  | cons x t ih => rw [List.foldl_cons, ih, h]

end Sys2Proof.Machine
end

