-- ==== Sys2Proof/Laws/OffCore.lean ====
section
/-! SUPPORT. What each operation of Regs to Gate leaves alone: it writes only areas of the mask (Sys2Proof.Machine.Area) in its
hypothesis. -/
namespace Sys2Proof.Machine

/-! ## Regs -/

@[simp] theorem State.wrW_off {M : Nat} (s : State) (off : Nat) (v : Word) (hM : 0x4 ||| M = M) :
    (State.wrW s off v).off M = s.off M := by
  refine off_mono ?_ hM
  simp [State.wrW, off_ite, foldl_off]
@[simp] theorem State.wr_off {M : Nat} (s : State) (f : Fld) (v : Nat) (hM : 0x4 ||| M = M) :
    (State.wr s f v).off M = s.off M := by
  refine off_mono ?_ hM
  simp [State.wr, off_ite, foldl_off]
@[simp] theorem State.wrs_off {M : Nat} (s : State) (x0 : List (Fld × Nat)) (hM : 0x4 ||| M = M) :
    (State.wrs s x0).off M = s.off M := by
  refine off_mono ?_ hM
  induction x0 generalizing s  with
  | nil => simp [State.wrs]
  | cons x t ih => simp [State.wrs, ih, off_ite, foldl_off]
@[simp] theorem State.count_off {M : Nat} (s : State) (f : Fld) (n : Nat) (hM : 0x4 ||| M = M) :
    (State.count s f n).off M = s.off M := by
  refine off_mono ?_ hM
  simp [State.count, off_ite, foldl_off]
@[simp] theorem State.regPut_off {M : Nat} (s : State) (locked : Bool) (off : Nat) (v : Word) (hM : 0x4 ||| M = M) :
    (State.regPut s locked off v).off M = s.off M := by
  refine off_mono ?_ hM
  unfold State.regPut; split <;> simp
@[simp] theorem State.recErr_off {M : Nat} (s : State) (valid overrun : Fld) (fields : List (Fld × Nat)) (hM : 0x4 ||| M = M) :
    (State.recErr s valid overrun fields).off M = s.off M := by
  refine off_mono ?_ hM
  simp [State.recErr, off_ite]

/-! ## Operands -/

@[simp] theorem State.setCore_off {M : Nat} (s : State) (c : Nat) (x : CoreSt) (hM : 0x10 ||| M = M) :
    (State.setCore s c x).off M = s.off M := by
  refine off_mono ?_ hM
  simp [State.setCore, off_ite, foldl_off]

/-! ## Intake -/

@[simp] theorem State.intake_off {M : Nat} (s : State) (a n : Nat) (hM : 0x8000000 ||| M = M) :
    (State.intake s a n).off M = s.off M := by
  refine off_mono ?_ hM
  simp [State.intake, off_ite, foldl_off]

/-! ## Ops -/

@[simp] theorem State.used_off {M : Nat} (s : State) (n : Nat) (hM : 0x2 ||| M = M) :
    (State.used s n).off M = s.off M := by
  refine off_mono ?_ hM
  simp [State.used, off_ite, foldl_off]
@[simp] theorem State.touchOps_off {M : Nat} (s : State) (w : OwnWriter) (a n : Nat) (hM : 0x10 ||| M = M) :
    (State.touchOps s w a n).off M = s.off M := by
  refine off_mono ?_ hM
  unfold State.touchOps; split <;> simp [off_ite]
@[simp] theorem State.wakeSeg_off {M : Nat} (s : State) (i : Nat) (hM : 0x80 ||| M = M) :
    (State.wakeSeg s i).off M = s.off M := by
  refine off_mono ?_ hM
  simp [State.wakeSeg, off_ite, foldl_off]
@[simp] theorem State.wakeWin_off {M : Nat} (s : State) (c : Nat) (r : Rng) (hM : 0x80 ||| M = M) :
    (State.wakeWin s c r).off M = s.off M := by
  refine off_mono ?_ hM
  simp [State.wakeWin, off_ite, foldl_off]
@[simp] theorem State.wake_off {M : Nat} (s : State) (a n : Nat) (hM : 0x80 ||| M = M) :
    (State.wake s a n).off M = s.off M := by
  refine off_mono ?_ hM
  unfold State.wake; split <;> simp [off_ite]
@[simp] theorem State.landBy_off {M : Nat} (s : State) (w : OwnWriter) (a n : Nat) (d : Piece) (hM : 0x98 ||| M = M) :
    (State.landBy s w a n d).off M = s.off M := by
  refine off_mono ?_ hM
  simp [State.landBy, off_ite, foldl_off]
@[simp] theorem State.pasteBy_off {M : Nat} (s : State) (w : OwnWriter) (a n : Nat) (d : Piece) (hM : 0x8000098 ||| M = M) :
    (State.pasteBy s w a n d).off M = s.off M := by
  refine off_mono ?_ hM
  simp [State.pasteBy, off_ite, foldl_off]
@[simp] theorem State.paste_off {M : Nat} (s : State) (a n : Nat) (d : Piece) (hM : 0x8000098 ||| M = M) :
    (State.paste s a n d).off M = s.off M := by
  refine off_mono ?_ hM
  simp [State.paste]
@[simp] theorem State.store_off {M : Nat} (s : State) (a : Nat) (bs : List Byte) (hM : 0x8000098 ||| M = M) :
    (State.store s a bs).off M = s.off M := by
  refine off_mono ?_ hM
  simp [State.store]
@[simp] theorem State.storeLE_off {M : Nat} (s : State) (a n v : Nat) (hM : 0x8000098 ||| M = M) :
    (State.storeLE s a n v).off M = s.off M := by
  refine off_mono ?_ hM
  simp [State.storeLE]
@[simp] theorem State.poisonRange_off {M : Nat} (s : State) (a n : Nat) (hM : 0x8 ||| M = M) :
    (State.poisonRange s a n).off M = s.off M := by
  refine off_mono ?_ hM
  simp [State.poisonRange, off_ite, foldl_off]
@[simp] theorem State.copyRows_off {M : Nat} (s : State) (a b n : Nat) (sa sb : Nat) (x0 : Nat) (hM : 0x8000098 ||| M = M) :
    (State.copyRows s a b n sa sb x0).off M = s.off M := by
  refine off_mono ?_ hM
  induction x0 generalizing s a b n sa sb  with
  | zero => simp [State.copyRows]
  | succ n ih => simp [State.copyRows, ih, off_ite, foldl_off]
@[simp] theorem State.mapJobs_off {M : Nat} (s : State) (f : Job → Job) (hM : 0x1000 ||| M = M) :
    (State.mapJobs s f).off M = s.off M := by
  refine off_mono ?_ hM
  simp [State.mapJobs, off_ite, foldl_off]
@[simp] theorem State.modJob_off {M : Nat} (s : State) (id : Nat) (f : Job → Job) (hM : 0x1000 ||| M = M) :
    (State.modJob s id f).off M = s.off M := by
  refine off_mono ?_ hM
  simp [State.modJob, off_ite, foldl_off]
@[simp] theorem State.signal_off {M : Nat} (s : State) (port fn v : Nat) (hM : 0x800 ||| M = M) :
    (State.signal s port fn v).off M = s.off M := by
  refine off_mono ?_ hM
  simp [State.signal, off_ite]
@[simp] theorem State.putEvent_off {M : Nat} (s : State) (code cls part job unit detail rep : Nat) (hM : 0x100000804 ||| M = M) :
    (State.putEvent s code cls part job unit detail rep).off M = s.off M := by
  refine off_mono ?_ hM
  simp [State.putEvent, off_ite]
@[simp] theorem State.setLimit_off {M : Nat} (s : State) (code unit last reps : Nat) (hM : 0x40000 ||| M = M) :
    (State.setLimit s code unit last reps).off M = s.off M := by
  refine off_mono ?_ hM
  simp [State.setLimit, off_ite, foldl_off]
@[simp] theorem State.event_off {M : Nat} (s : State) (code cls part job unit : Nat) (detail : Option Nat) (hM : 0x100040806 ||| M = M) :
    (State.event s code cls part job unit detail).off M = s.off M := by
  refine off_mono ?_ hM
  unfold State.event; repeat' split <;> simp [off_ite, foldl_off]
@[simp] theorem State.hostPaste_off {M : Nat} (s : State) (port a n : Nat) (d : Tab Byte) (hM : 0x200 ||| M = M) :
    (State.hostPaste s port a n d).off M = s.off M := by
  refine off_mono ?_ hM
  simp [State.hostPaste, off_ite]
@[simp] theorem State.hostWords_off {M : Nat} (s : State) (port a : Nat) (ws : List Nat) (hM : 0x200 ||| M = M) :
    (State.hostWords s port a ws).off M = s.off M := by
  refine off_mono ?_ hM
  simp [State.hostWords]
@[simp] theorem State.setRing_off {M : Nat} (s : State) (w j : Nat) (r : RingSt) (hM : 0x800 ||| M = M) :
    (State.setRing s w j r).off M = s.off M := by
  refine off_mono ?_ hM
  simp [State.setRing, off_ite, foldl_off]
@[simp] theorem State.unreserve_off {M : Nat} (s : State) (port fn j : Nat) (hM : 0x800 ||| M = M) :
    (State.unreserve s port fn j).off M = s.off M := by
  refine off_mono ?_ hM
  simp [State.unreserve, off_ite, foldl_off]
@[simp] theorem State.putCpl_off {M : Nat} (s : State) (port fn j : Nat) (c : Cpl) (hM : 0xa00 ||| M = M) :
    (State.putCpl s port fn j c).off M = s.off M := by
  refine off_mono ?_ hM
  simp [State.putCpl, off_ite]
@[simp] theorem State.complete_off {M : Nat} (s : State) (port fn j : Nat) (c : Cpl) (hM : 0x1a00 ||| M = M) :
    (State.complete s port fn j c).off M = s.off M := by
  refine off_mono ?_ hM
  unfold State.complete; simp only []; split <;> simp [off_ite, foldl_off]
@[simp] theorem State.done_off {M : Nat} (s : State) (p : Post) (opcode status result : Nat) (hM : 0x1a00 ||| M = M) :
    (State.done s p opcode status result).off M = s.off M := by
  refine off_mono ?_ hM
  simp [State.done]
@[simp] theorem State.reply_off {M : Nat} (s : State) (p : Post) (opcode status : Nat) (hM : 0xa00 ||| M = M) :
    (State.reply s p opcode status).off M = s.off M := by
  refine off_mono ?_ hM
  unfold State.reply; simp only []; split <;> simp [off_ite, foldl_off]
@[simp] theorem State.await_off {M : Nat} (s : State) (p : Post) (opcode : Nat) (k : PendKind) (hM : 0x2000 ||| M = M) :
    (State.await s p opcode k).off M = s.off M := by
  refine off_mono ?_ hM
  simp [State.await, off_ite, foldl_off]
@[simp] theorem State.finish_off {M : Nat} (s : State) (f : PendCmd → Bool) (status result : Nat) (hM : 0x3a00 ||| M = M) :
    (State.finish s f status result).off M = s.off M := by
  refine off_mono ?_ hM
  simp [State.finish, off_ite, foldl_off]
@[simp] theorem State.stopCores_off {M : Nat} (s : State) (f : Nat → Bool) (hM : 0x110 ||| M = M) :
    (State.stopCores s f).off M = s.off M := by
  refine off_mono ?_ hM
  simp [State.stopCores, off_ite, foldl_off]
@[simp] theorem State.abortJob_off {M : Nat} (s : State) (id code module : Nat) (hM : 0x1110 ||| M = M) :
    (State.abortJob s id code module).off M = s.off M := by
  refine off_mono ?_ hM
  unfold State.abortJob; split <;> simp [off_ite]
@[simp] theorem State.resetScope_off {M : Nat} (s : State) (code part job : Nat) (hM : 0x1110 ||| M = M) :
    (State.resetScope s code part job).off M = s.off M := by
  refine off_mono ?_ hM
  simp [State.resetScope, off_ite, foldl_off]
@[simp] theorem State.contained_off {M : Nat} (s : State) (code part job unit : Nat) (detail : Option Nat) (hM : 0x100041916 ||| M = M) :
    (State.contained s code part job unit detail).off M = s.off M := by
  refine off_mono ?_ hM
  simp [State.contained]
@[simp] theorem State.containedPart_off {M : Nat} (s : State) (code p : Nat) (hM : 0x100041916 ||| M = M) :
    (State.containedPart s code p).off M = s.off M := by
  refine off_mono ?_ hM
  simp [State.containedPart]
@[simp] theorem State.hostErr_off {M : Nat} (s : State) (w code job : Nat) (hM : 0x4 ||| M = M) :
    (State.hostErr s w code job).off M = s.off M := by
  refine off_mono ?_ hM
  simp [State.hostErr]
@[simp] theorem State.hostContained_off {M : Nat} (s : State) (code : Nat) (j : Job) (hM : 0x100041916 ||| M = M) :
    (State.hostContained s code j).off M = s.off M := by
  refine off_mono ?_ hM
  simp [State.hostContained]
@[simp] theorem State.poisonControl_off {M : Nat} (s : State) (p : Nat) (hM : 0x100041916 ||| M = M) :
    (State.poisonControl s p).off M = s.off M := by
  refine off_mono ?_ hM
  simp [State.poisonControl]
@[simp] theorem State.refuseHub_off {M : Nat} (s : State) (p a : Nat) (r : Reach) (hM : 0x100041916 ||| M = M) :
    (State.refuseHub s p a r).off M = s.off M := by
  refine off_mono ?_ hM
  unfold State.refuseHub; split <;> simp
@[simp] theorem State.hubPaste_off {M : Nat} (s : State) (p a n : Nat) (d : Piece) (hM : 0x10804199e ||| M = M) :
    (State.hubPaste s p a n d).off M = s.off M := by
  refine off_mono ?_ hM
  unfold State.hubPaste; (try dsimp only); (repeat' split) <;> simp [off_ite, fst_ite, foldl_off]
@[simp] theorem State.hubTouch_off {M : Nat} (s : State) (p : Nat) (r : Rng) (hM : 0x100041996 ||| M = M) :
    (State.hubTouch s p r).off M = s.off M := by
  refine off_mono ?_ hM
  unfold State.hubTouch; (try dsimp only); (repeat' split) <;> simp [off_ite, fst_ite, foldl_off]

/-! ## CoreOps -/

@[simp] theorem State.modCore_off {M : Nat} (s : State) (c : Nat) (f : CoreSt → CoreSt) (hM : 0x10 ||| M = M) :
    (State.modCore s c f).off M = s.off M := by
  refine off_mono ?_ hM
  simp [State.modCore, off_ite, foldl_off]
@[simp] theorem State.setSreg_off {M : Nat} (s : State) (c r : Nat) (v : Word) (hM : 0x10 ||| M = M) :
    (State.setSreg s c r v).off M = s.off M := by
  refine off_mono ?_ hM
  simp [State.setSreg, off_ite, foldl_off]
@[simp] theorem State.coreFault_off {M : Nat} (s : State) (c code arr half pc : Nat) (force : Bool) (hM : 0x100041916 ||| M = M) :
    (State.coreFault s c code arr half pc force).off M = s.off M := by
  refine off_mono ?_ hM
  simp [State.coreFault, off_ite]
@[simp] theorem State.illegal_off {M : Nat} (s : State) (c pc : Nat) (hM : 0x100041916 ||| M = M) :
    (State.illegal s c pc).off M = s.off M := by
  refine off_mono ?_ hM
  simp [State.illegal]
@[simp] theorem State.addrFault_off {M : Nat} (s : State) (c pc : Nat) (hM : 0x100041916 ||| M = M) :
    (State.addrFault s c pc).off M = s.off M := by
  refine off_mono ?_ hM
  simp [State.addrFault]
@[simp] theorem State.fetchCorr_off {M : Nat} (s : State) (c : Nat) (ws : List Nat) (hM : 0x100040806 ||| M = M) :
    (State.fetchCorr s c ws).off M = s.off M := by
  refine off_mono ?_ hM
  simp [State.fetchCorr, off_ite, foldl_off]
@[simp] theorem State.issue_off {M : Nat} (s : State) (c len : Nat) (k : State → Nat → State) (hk : ∀ (y0 : State) (y1 : Nat), (k y0 y1).off M = y0.off M) (hM : 0x100041916 ||| M = M) :
    (State.issue s c len k).off M = s.off M := by
  have h1 : ∀ (x : State) n, (x.modCore c (fun x => { x with pc := n })).off M = x.off M := fun x n => State.modCore_off _ _ _ (off_sub hM (by decide))
  have h2 : ∀ a b d p q, (s.coreFault c a b d p q).off M = s.off M := fun a b d p q => State.coreFault_off _ _ _ _ _ _ _ (off_sub hM (by decide))
  have h3 : ∀ w, (s.fetchCorr c w).off M = s.off M := fun w => State.fetchCorr_off _ _ _ (off_sub hM (by decide))
  unfold State.issue; dsimp only
  refine off_if rfl (off_if (h2 _ _ _ _ _) (off_if (h2 _ _ _ _ _) ?_))
  rw [hk, h1, h3]

/-! ## ArrayUnit -/

@[simp] theorem State.arrayOperation_off {M : Nat} (s : State) (c : Nat) (w0 w1 w2 w3 : Word) (hM : 0x100041916 ||| M = M) :
    (State.arrayOperation s c w0 w1 w2 w3).off M = s.off M := by
  refine off_mono ?_ hM
  unfold State.arrayOperation; repeat' split <;> simp [off_ite, foldl_off]
@[simp] theorem State.setGov_off {M : Nat} (s : State) (d : Nat) (g : GovSt) (hM : 0x10 ||| M = M) :
    (State.setGov s d g).off M = s.off M := by
  refine off_mono ?_ hM
  simp [State.setGov, off_ite, foldl_off]
@[simp] theorem State.setRamp_off {M : Nat} (s : State) (c i : Nat) (r : Ramp) (hM : 0x10 ||| M = M) :
    (State.setRamp s c i r).off M = s.off M := by
  refine off_mono ?_ hM
  simp [State.setRamp, off_ite, foldl_off]
@[simp] theorem State.grantRamps_off {M : Nat} (s : State) (d : Nat) (x0 : Nat) (hM : 0x10 ||| M = M) :
    (State.grantRamps s d x0).off M = s.off M := by
  refine off_mono ?_ hM
  induction x0 generalizing s d  with
  | zero => simp [State.grantRamps]
  | succ n ih =>
    rw [State.grantRamps]; repeat' split <;> simp [ih, off_ite, foldl_off]
@[simp] theorem State.govern_off {M : Nat} (s : State) (d : Nat) (hM : 0x10 ||| M = M) :
    (State.govern s d).off M = s.off M := by
  refine off_mono ?_ hM
  simp [State.govern, off_ite, foldl_off]
@[simp] theorem State.govTime_off {M : Nat} (s : State) (d cycle : Nat) (hM : 0x10 ||| M = M) :
    (State.govTime s d cycle).off M = s.off M := by
  refine off_mono ?_ hM
  simp [State.govTime, off_ite, foldl_off]
@[simp] theorem State.arrayOpStart_off {M : Nat} (s : State) (c i cycle : Nat) (hM : 0x90 ||| M = M) :
    (State.arrayOpStart s c i cycle).off M = s.off M := by
  refine off_mono ?_ hM
  unfold State.arrayOpStart; simp only []; split <;> simp [off_ite, foldl_off]
@[simp] theorem State.arrayRampDone_off {M : Nat} (s : State) (c i steps cycle : Nat) (hM : 0x10 ||| M = M) :
    (State.arrayRampDone s c i steps cycle).off M = s.off M := by
  refine off_mono ?_ hM
  unfold State.arrayRampDone; (try dsimp only); (repeat' split) <;> simp [off_ite, fst_ite, foldl_off]
@[simp] theorem State.arrayRampDown_off {M : Nat} (s : State) (c i cycle : Nat) (hM : 0x10 ||| M = M) :
    (State.arrayRampDown s c i cycle).off M = s.off M := by
  refine off_mono ?_ hM
  simp [State.arrayRampDown, off_ite]
@[simp] theorem State.disableArr_off {M : Nat} (s : State) (c i : Nat) (hM : 0x10 ||| M = M) :
    (State.disableArr s c i).off M = s.off M := by
  refine off_mono ?_ hM
  simp [State.disableArr, off_ite, foldl_off]
@[simp] theorem State.warmArr_off {M : Nat} (s : State) (c n i : Nat) (hM : 0x10 ||| M = M) :
    (State.warmArr s c n i).off M = s.off M := by
  refine off_mono ?_ hM
  simp [State.warmArr, off_ite]
@[simp] theorem State.warm_off {M : Nat} (s : State) (c : Nat) (w : Word) (hM : 0x100041916 ||| M = M) :
    (State.warm s c w).off M = s.off M := by
  refine off_mono ?_ hM
  unfold State.warm; (try dsimp only); (repeat' split) <;> (try simp [off_ite, fst_ite, foldl_off]) <;> refine State.issue_off _ _ _ _ ?_ rfl <;> intros <;> (try dsimp only) <;> (repeat' split) <;> simp [off_ite, fst_ite, foldl_off]
@[simp] theorem State.warmHoldExpiry_off {M : Nat} (s : State) (c i : Nat) (hM : 0x10 ||| M = M) :
    (State.warmHoldExpiry s c i).off M = s.off M := by
  refine off_mono ?_ hM
  simp [State.warmHoldExpiry, off_ite, foldl_off]
@[simp] theorem State.writeOut_off {M : Nat} (s : State) (c : Nat) (o : ArrOp) (f : ArrF) (m : Nat) (bits : List Nat) (hM : 0x98 ||| M = M) :
    (State.writeOut s c o f m bits).off M = s.off M := by
  refine off_mono ?_ hM
  simp [State.writeOut, off_ite, foldl_off]
@[simp] theorem State.poisonElems_off {M : Nat} (s : State) (c : Nat) (f : ArrF) (es : List (Nat × Nat)) (hM : 0x8 ||| M = M) :
    (State.poisonElems s c f es).off M = s.off M := by
  refine off_mono ?_ hM
  simp [State.poisonElems, off_ite, foldl_off]
@[simp] theorem State.arrayAbort_off {M : Nat} (s : State) (c i : Nat) (o : ArrOp) (es : List (Nat × Nat)) (code : Nat) (hM : 0x10004191e ||| M = M) :
    (State.arrayAbort s c i o es code).off M = s.off M := by
  refine off_mono ?_ hM
  simp [State.arrayAbort, off_ite, foldl_off]
@[simp] theorem State.arrayDrain_off {M : Nat} (s : State) (c i half : Nat) (upto : Option Nat) (hM : 0x100041b9e ||| M = M) :
    (State.arrayDrain s c i half upto).1.off M = s.off M := by
  refine off_mono ?_ hM
  unfold State.arrayDrain; (try dsimp only); (repeat' split) <;> simp [off_ite, fst_ite, foldl_off]

/-! ## CoreCtl -/

@[simp] theorem State.ctl_off {M : Nat} (s : State) (c op : Nat) (w : Word) (k : CtlF → State → Nat → State) (hk : ∀ (y0 : CtlF) (y1 : State) (y2 : Nat), (k y0 y1 y2).off M = y1.off M) (hM : 0x100041916 ||| M = M) :
    (State.ctl s c op w k).off M = s.off M := by
  unfold State.ctl; (try dsimp only); (repeat' split) <;> simp_all [off_ite, fst_ite, foldl_off]
@[simp] theorem State.alu_off {M : Nat} (s : State) (c op : Nat) (w : Word) (g : Word → Word → BitVec 32 → Word) (hM : 0x100041916 ||| M = M) :
    (State.alu s c op w g).off M = s.off M := by
  refine off_mono ?_ hM
  simp [State.alu]
@[simp] theorem State.branch_off {M : Nat} (s : State) (c op : Nat) (w : Word) (cond : Word → Word → Bool) (hM : 0x100041916 ||| M = M) :
    (State.branch s c op w cond).off M = s.off M := by
  refine off_mono ?_ hM
  simp [State.branch, off_ite]
@[simp] theorem State.fetchCell_off {M : Nat} (s : State) (c : Nat) (cell : Option (BitVec 288)) (hM : 0x20 ||| M = M) :
    (State.fetchCell s c cell).off M = s.off M := by
  refine off_mono ?_ hM
  unfold State.fetchCell; (try dsimp only); (repeat' split) <;> simp [off_ite, fst_ite, foldl_off]
@[simp] theorem State.nop_off {M : Nat} (s : State) (c : Nat) (w : Word) (cell : Option (BitVec 288)) (hM : 0x100041936 ||| M = M) :
    (State.nop s c w cell).off M = s.off M := by
  refine off_mono ?_ hM
  simp [State.nop, off_ite, foldl_off]
@[simp] theorem State.mtcr_off {M : Nat} (s : State) (c : Nat) (w : Word) (hM : 0x100041916 ||| M = M) :
    (State.mtcr s c w).off M = s.off M := by
  refine off_mono ?_ hM
  unfold State.mtcr; refine State.ctl_off _ _ _ _ _ ?_ rfl; intro f s pc; dsimp only; split <;> simp
@[simp] theorem State.astat_off {M : Nat} (s : State) (c : Nat) (w : Word) (hM : 0x100041916 ||| M = M) :
    (State.astat s c w).off M = s.off M := by
  refine off_mono ?_ hM
  simp [State.astat]
@[simp] theorem State.astatDone_off {M : Nat} (s : State) (c : Nat) (hM : 0x10 ||| M = M) :
    (State.astatDone s c).off M = s.off M := by
  refine off_mono ?_ hM
  unfold State.astatDone; simp only []; split <;> simp [off_ite, foldl_off]
@[simp] theorem State.halt_off {M : Nat} (s : State) (c : Nat) (w : Word) (hM : 0x100041916 ||| M = M) :
    (State.halt s c w).off M = s.off M := by
  refine off_mono ?_ hM
  simp [State.halt]
@[simp] theorem State.reservedInstr_off {M : Nat} (s : State) (c : Nat) (w : Word) (hM : 0x100041916 ||| M = M) :
    (State.reservedInstr s c w).off M = s.off M := by
  refine off_mono ?_ hM
  simp [State.reservedInstr, off_ite]
@[simp] theorem State.imemLoadGo_off {M : Nat} (s : State) (c : Nat) (v : Word) (hM : 0x4 ||| M = M) :
    (State.imemLoadGo s c v).off M = s.off M := by
  refine off_mono ?_ hM
  simp [State.imemLoadGo, off_ite]
@[simp] theorem State.loadImem_off {M : Nat} (s : State) (c n : Nat) (d : Piece) (hM : 0x20 ||| M = M) :
    (State.loadImem s c n d).off M = s.off M := by
  refine off_mono ?_ hM
  simp [State.loadImem, off_ite, foldl_off]
@[simp] theorem State.imemLoadDone_off {M : Nat} (s : State) (c : Nat) (hM : 0x24 ||| M = M) :
    (State.imemLoadDone s c).off M = s.off M := by
  refine off_mono ?_ hM
  simp [State.imemLoadDone, off_ite]
@[simp] theorem State.coreRun_off {M : Nat} (s : State) (c : Nat) (hM : 0x14 ||| M = M) :
    (State.coreRun s c).off M = s.off M := by
  refine off_mono ?_ hM
  simp [State.coreRun, off_ite]
@[simp] theorem State.coreStop_off {M : Nat} (s : State) (c : Nat) (hM : 0x14 ||| M = M) :
    (State.coreStop s c).off M = s.off M := by
  refine off_mono ?_ hM
  simp [State.coreStop, off_ite, foldl_off]

/-! ## Route -/

@[simp] theorem State.setPort_off {M : Nat} (s : State) (p : Nat) (x : PortSt) (hM : 0x400000 ||| M = M) :
    (State.setPort s p x).off M = s.off M := by
  refine off_mono ?_ hM
  simp [State.setPort, off_ite, foldl_off]
@[simp] theorem State.portTo_off {M : Nat} (s : State) (p st : Nat) (hM : 0x4 ||| M = M) :
    (State.portTo s p st).off M = s.off M := by
  refine off_mono ?_ hM
  simp [State.portTo, off_ite, foldl_off]
@[simp] theorem State.pumpPort_off {M : Nat} (s : State) (p : Nat) (hM : 0x10a44199e ||| M = M) :
    (State.pumpPort s p).off M = s.off M := by
  refine off_mono ?_ hM
  simp [State.pumpPort, off_ite, foldl_off]
@[simp] theorem State.enqueue_off {M : Nat} (s : State) (p : Nat) (m : TxMsg) (k : Nat) (hM : 0x10a44199e ||| M = M) :
    (State.enqueue s p m k).off M = s.off M := by
  refine off_mono ?_ hM
  simp [State.enqueue, off_ite, foldl_off]
@[simp] theorem State.forward_off {M : Nat} (s : State) (m : TxMsg) (k : Nat) (hM : 0x10a44199e ||| M = M) :
    (State.forward s m k).off M = s.off M := by
  refine off_mono ?_ hM
  unfold State.forward; (try dsimp only); (repeat' split) <;> simp [off_ite, fst_ite, foldl_off]
@[simp] theorem State.send_off {M : Nat} (s : State) (m : TxMsg) (hM : 0x10a44199e ||| M = M) :
    (State.send s m).off M = s.off M := by
  refine off_mono ?_ hM
  simp [State.send, off_ite, foldl_off]
@[simp] theorem State.sendJob_off {M : Nat} (s : State) (job dst kind : Nat) (f : THdr → THdr) (hM : 0x10a44199e ||| M = M) :
    (State.sendJob s job dst kind f).off M = s.off M := by
  refine off_mono ?_ hM
  unfold State.sendJob; (try dsimp only); (repeat' split) <;> simp [off_ite, fst_ite, foldl_off]
@[simp] theorem State.sendPort_off {M : Nat} (s : State) (p kind : Nat) (hM : 0x10a44199e ||| M = M) :
    (State.sendPort s p kind).off M = s.off M := by
  refine off_mono ?_ hM
  simp [State.sendPort, off_ite, foldl_off]

/-! ## Xfer -/

@[simp] theorem State.coreRefuse_off {M : Nat} (s : State) (c pc a : Nat) (r : Reach) (hM : 0x100041916 ||| M = M) :
    (State.coreRefuse s c pc a r).off M = s.off M := by
  refine off_mono ?_ hM
  unfold State.coreRefuse; split <;> simp
@[simp] theorem State.sendRemote_off {M : Nat} (s : State) (c q : Nat) (kind : RemKind) (m addr bytes : Nat) (hM : 0x10a44199e ||| M = M) :
    (State.sendRemote s c q kind m addr bytes).off M = s.off M := by
  refine off_mono ?_ hM
  unfold State.sendRemote; split <;> simp
@[simp] theorem State.xfer_off {M : Nat} (s : State) (c : Nat) (w0 w1 : Word) (hM : 0x10a44199e ||| M = M) :
    (State.xfer s c w0 w1).off M = s.off M := by
  refine off_mono ?_ hM
  unfold State.xfer; dsimp only
  refine off_if rfl (off_if (State.issue_off _ _ _ _ (fun s pc => State.coreFault_off _ _ _ _ _ _ _ rfl) rfl)
    (off_if (State.issue_off _ _ _ _ (fun s pc => State.illegal_off _ _ _ rfl) rfl)
    (off_if rfl (off_if rfl (State.issue_off _ _ _ _ (fun s pc => ?_) rfl)))))
  iterate 3 refine off_if (by simp) ?_
  split <;> simp
@[simp] theorem State.writeRow_off {M : Nat} (s : State) (c q a n : Nat) (d : Piece) (hM : 0x10804199e ||| M = M) :
    (State.writeRow s c q a n d).off M = s.off M := by
  refine off_mono ?_ hM
  unfold State.writeRow; split <;> simp
@[simp] theorem State.readRow_off {M : Nat} (s : State) (c a n : Nat) (hM : 0x100041996 ||| M = M) :
    (State.readRow s c a n).1.off M = s.off M := by
  refine off_mono ?_ hM
  unfold State.readRow; split <;> simp
@[simp] theorem State.xferRow_off {M : Nat} (s : State) (c : Nat) (x : XferPend) (r : Nat) (hM : 0x100041996 ||| M = M) :
    (State.xferRow s c x r).1.off M = s.off M := by
  refine off_mono ?_ hM
  unfold State.xferRow; (try dsimp only); (repeat' split) <;> simp [off_ite, fst_ite, foldl_off]
@[simp] theorem State.readRows_off {M : Nat} (s : State) (c : Nat) (x : XferPend) (r : Nat) (x0 : Nat) (hM : 0x100041996 ||| M = M) :
    (State.readRows s c x r x0).1.off M = s.off M := by
  refine off_mono ?_ hM
  induction x0 generalizing s c x r  with
  | zero => simp [State.readRows]
  | succ n ih => simp [State.readRows, ih, off_ite, foldl_off]
@[simp] theorem State.landWord_off {M : Nat} (s : State) (c : Nat) (x : XferPend) (r w : Nat) (hM : 0x10804199e ||| M = M) :
    (State.landWord s c x r w).1.off M = s.off M := by
  refine off_mono ?_ hM
  unfold State.landWord; (try dsimp only); (repeat' split) <;> simp [off_ite, fst_ite, foldl_off]
@[simp] theorem State.landWords_off {M : Nat} (s : State) (c : Nat) (x : XferPend) (x0 : List (Nat × Nat)) (hM : 0x10804199e ||| M = M) :
    (State.landWords s c x x0).1.off M = s.off M := by
  refine off_mono ?_ hM
  induction x0 generalizing s c x  with
  | nil => simp [State.landWords]
  | cons x t ih =>
    rw [State.landWords]; repeat' split <;> simp [ih, off_ite, foldl_off]
@[simp] theorem State.moveRows_off {M : Nat} (s : State) (c : Nat) (x : XferPend) (r : Nat) (x0 : Nat) (hM : 0x10804199e ||| M = M) :
    (State.moveRows s c x r x0).1.off M = s.off M := by
  refine off_mono ?_ hM
  induction x0 generalizing s c x r  with
  | zero => simp [State.moveRows]
  | succ n ih =>
    rw [State.moveRows]; repeat' split <;> simp [ih, off_ite, foldl_off]
@[simp] theorem State.xferWord_off {M : Nat} (s : State) (c : Nat) (x : XferPend) (status : Nat) (hM : 0x10 ||| M = M) :
    (State.xferWord s c x status).off M = s.off M := by
  refine off_mono ?_ hM
  unfold State.xferWord; split <;> simp
@[simp] theorem State.dropXfer_off {M : Nat} (s : State) (c q : Nat) (hM : 0x10 ||| M = M) :
    (State.dropXfer s c q).off M = s.off M := by
  refine off_mono ?_ hM
  simp [State.dropXfer, off_ite, foldl_off]
@[simp] theorem State.setXfer_off {M : Nat} (s : State) (c : Nat) (x : XferPend) (hM : 0x10 ||| M = M) :
    (State.setXfer s c x).off M = s.off M := by
  refine off_mono ?_ hM
  simp [State.setXfer, off_ite, foldl_off]
@[simp] theorem State.unreachable_off {M : Nat} (s : State) (c m : Nat) (hM : 0x100041916 ||| M = M) :
    (State.unreachable s c m).off M = s.off M := by
  refine off_mono ?_ hM
  simp [State.unreachable]
@[simp] theorem State.xferLost_off {M : Nat} (s : State) (c : Nat) (x : XferPend) (hM : 0x10804199e ||| M = M) :
    (State.xferLost s c x).off M = s.off M := by
  refine off_mono ?_ hM
  unfold State.xferLost; (try dsimp only); (repeat' split) <;> simp [off_ite, fst_ite, foldl_off]
@[simp] theorem State.xferStep_off {M : Nat} (s : State) (c : Nat) (x : XferPend) (how : XferEnd) (hM : 0x10804199e ||| M = M) :
    (State.xferStep s c x how).off M = s.off M := by
  refine off_mono ?_ hM
  unfold State.xferStep; (try dsimp only); (repeat' split) <;> simp [off_ite, fst_ite, foldl_off]

/-! ## Sync -/

@[simp] theorem State.fireSig_off {M : Nat} (s : State) (c : Nat) (g : Sig) (hM : 0x10a44199e ||| M = M) :
    (State.fireSig s c g).off M = s.off M := by
  refine off_mono ?_ hM
  unfold State.fireSig; (try dsimp only); (repeat' split) <;> simp [off_ite, fst_ite, foldl_off]
@[simp] theorem State.fireSigs_off {M : Nat} (s : State) (c : Nat) (x0 : Nat) (hM : 0x10a44199e ||| M = M) :
    (State.fireSigs s c x0).off M = s.off M := by
  refine off_mono ?_ hM
  induction x0 generalizing s c  with
  | zero => simp [State.fireSigs]
  | succ n ih =>
    rw [State.fireSigs]; repeat' split <;> simp [ih, off_ite, foldl_off]
@[simp] theorem State.poke_off {M : Nat} (s : State) (c : Nat) (hM : 0x10a44199e ||| M = M) :
    (State.poke s c).off M = s.off M := by
  refine off_mono ?_ hM
  simp [State.poke, off_ite, foldl_off]
@[simp] theorem State.pokeCores_off {M : Nat} (s : State) (hM : 0x10a44199e ||| M = M) :
    (State.pokeCores s).off M = s.off M := by
  refine off_mono ?_ hM
  simp [State.pokeCores, off_ite, foldl_off]
@[simp] theorem State.xferComplete_off {M : Nat} (s : State) (c index : Nat) (how : XferEnd) (hM : 0x10a44199e ||| M = M) :
    (State.xferComplete s c index how).off M = s.off M := by
  refine off_mono ?_ hM
  unfold State.xferComplete; repeat' split <;> simp [off_ite, foldl_off]
@[simp] theorem State.sync_off {M : Nat} (s : State) (c op : Nat) (w : Word) (k : SyncF → State → Nat → State) (hk : ∀ (y0 : SyncF) (y1 : State) (y2 : Nat), (k y0 y1 y2).off M = y1.off M) (hM : 0x100041916 ||| M = M) :
    (State.sync s c op w k).off M = s.off M := by
  unfold State.sync; (try dsimp only); (repeat' split) <;> simp_all [off_ite, fst_ite, foldl_off]
@[simp] theorem State.fence_off {M : Nat} (s : State) (c : Nat) (w : Word) (hM : 0x100041916 ||| M = M) :
    (State.fence s c w).off M = s.off M := by
  refine off_mono ?_ hM
  simp [State.fence]
@[simp] theorem State.fenceDone_off {M : Nat} (s : State) (c : Nat) (hM : 0x10 ||| M = M) :
    (State.fenceDone s c).off M = s.off M := by
  refine off_mono ?_ hM
  unfold State.fenceDone; split <;> simp [off_ite]
@[simp] theorem State.waitOp_off {M : Nat} (s : State) (c : Nat) (w : Word) (hM : 0x100041916 ||| M = M) :
    (State.waitOp s c w).off M = s.off M := by
  refine off_mono ?_ hM
  simp [State.waitOp, off_ite]
@[simp] theorem State.release_off {M : Nat} (s : State) (c : Nat) (hM : 0x10 ||| M = M) :
    (State.release s c).off M = s.off M := by
  refine off_mono ?_ hM
  simp [State.release, off_ite, foldl_off]
@[simp] theorem State.waitSatisfied_off {M : Nat} (s : State) (c : Nat) (hM : 0x100041996 ||| M = M) :
    (State.waitSatisfied s c).off M = s.off M := by
  refine off_mono ?_ hM
  unfold State.waitSatisfied; split <;> simp [off_ite]
@[simp] theorem State.syncTimeout_off {M : Nat} (s : State) (c : Nat) (hM : 0x100041916 ||| M = M) :
    (State.syncTimeout s c).off M = s.off M := by
  refine off_mono ?_ hM
  unfold State.syncTimeout; split <;> simp [off_ite]
@[simp] theorem State.signalOp_off {M : Nat} (s : State) (c : Nat) (w : Word) (hM : 0x10a44199e ||| M = M) :
    (State.signalOp s c w).off M = s.off M := by
  refine off_mono ?_ hM
  unfold State.signalOp; (try dsimp only); (repeat' split) <;> (try simp [off_ite, fst_ite, foldl_off]) <;> refine State.sync_off _ _ _ _ ?_ rfl <;> intros <;> (try dsimp only) <;> (repeat' split) <;> simp [off_ite, fst_ite, foldl_off]
@[simp] theorem State.atomicWrite_off {M : Nat} (s : State) (a : Nat) (aop : AOp) (old b expected : Word) (hM : 0x8000098 ||| M = M) :
    (State.atomicWrite s a aop old b expected).off M = s.off M := by
  refine off_mono ?_ hM
  simp [State.atomicWrite, off_ite]
@[simp] theorem State.atomicOp_off {M : Nat} (s : State) (c : Nat) (aop : AOp) (w : Word) (hM : 0x10a44199e ||| M = M) :
    (State.atomicOp s c aop w).off M = s.off M := by
  refine off_mono ?_ hM
  unfold State.atomicOp; dsimp only
  split
  · rfl
  · split
    · rfl
    · refine State.sync_off _ _ _ _ _ ?_ rfl
      intro f s pc; (repeat' split) <;> simp

/-! ## House -/

@[simp] theorem State.houseFound_off {M : Nat} (s : State) (a : Nat) (hM : 0x100060806 ||| M = M) :
    (State.houseFound s a).off M = s.off M := by
  refine off_mono ?_ hM
  simp [State.houseFound, off_ite]
@[simp] theorem State.houseConsumed_off {M : Nat} (s : State) (hM : 0x10006080e ||| M = M) :
    (State.houseConsumed s).off M = s.off M := by
  refine off_mono ?_ hM
  unfold State.houseConsumed; dsimp only; (repeat' split) <;> simp

/-! ## Records -/

@[simp] theorem State.bootErr_off {M : Nat} (s : State) (code detail : Nat) (named : Bool) (hM : 0x100040806 ||| M = M) :
    (State.bootErr s code detail named).off M = s.off M := by
  refine off_mono ?_ hM
  simp [State.bootErr]
@[simp] theorem State.appendField_off {M : Nat} (s : State) (r : FieldRec) (hM : 0x120040806 ||| M = M) :
    (State.appendField s r).off M = s.off M := by
  refine off_mono ?_ hM
  simp [State.appendField, off_ite, foldl_off]
@[simp] theorem State.spareExhausted_off {M : Nat} (s : State) (c : Nat) (hM : 0x100040806 ||| M = M) :
    (State.spareExhausted s c).off M = s.off M := by
  refine off_mono ?_ hM
  simp [State.spareExhausted]
@[simp] theorem State.retireCore_off {M : Nat} (s : State) (c : Nat) (hM : 0x1a0040806 ||| M = M) :
    (State.retireCore s c).off M = s.off M := by
  refine off_mono ?_ hM
  simp [State.retireCore, off_ite, foldl_off]

/-! ## Hbm -/

@[simp] theorem State.setStk_off {M : Nat} (s : State) (k : Nat) (h : HbmSt) (hM : 0x100000 ||| M = M) :
    (State.setStk s k h).off M = s.off M := by
  refine off_mono ?_ hM
  simp [State.setStk, off_ite, foldl_off]
@[simp] theorem State.hbmError_off {M : Nat} (s : State) (k code cls ch : Nat) (pc : Option Nat) (place : Option (Nat × Nat)) (hM : 0x100040806 ||| M = M) :
    (State.hbmError s k code cls ch pc place).off M = s.off M := by
  refine off_mono ?_ hM
  simp [State.hbmError, off_ite]
@[simp] theorem State.hbmTempSample_off {M : Nat} (s : State) (temps : List (BitVec 8)) (hM : 0x4 ||| M = M) :
    (State.hbmTempSample s temps).off M = s.off M := by
  refine off_mono ?_ hM
  unfold State.hbmTempSample; apply foldl_off; intro s k; split <;> simp
@[simp] theorem State.nextRetrain_off {M : Nat} (s : State) (k : Nat) (hM : 0x100000 ||| M = M) :
    (State.nextRetrain s k).off M = s.off M := by
  refine off_mono ?_ hM
  unfold State.nextRetrain; (try dsimp only); (repeat' split) <;> simp [off_ite, fst_ite, foldl_off]
@[simp] theorem State.migStart_off {M : Nat} (s : State) (k c : Nat) (back : Bool) (hM : 0x100004 ||| M = M) :
    (State.migStart s k c back).off M = s.off M := by
  refine off_mono ?_ hM
  simp [State.migStart, off_ite]
@[simp] theorem State.hbmMigGo_off {M : Nat} (s : State) (k : Nat) (v : Word) (hM : 0x100004 ||| M = M) :
    (State.hbmMigGo s k v).off M = s.off M := by
  refine off_mono ?_ hM
  simp [State.hbmMigGo, off_ite]
@[simp] theorem State.remap_off {M : Nat} (s : State) (k c d : Nat) (hM : 0x4 ||| M = M) :
    (State.remap s k c d).off M = s.off M := by
  refine off_mono ?_ hM
  simp [State.remap, off_ite, foldl_off]
@[simp] theorem State.becomeSpare_off {M : Nat} (s : State) (k c : Nat) (hM : 0x4 ||| M = M) :
    (State.becomeSpare s k c).off M = s.off M := by
  refine off_mono ?_ hM
  simp [State.becomeSpare]
@[simp] theorem State.hbmMigSwitch_off {M : Nat} (s : State) (k : Nat) (ok : Bool) (hM : 0x100140806 ||| M = M) :
    (State.hbmMigSwitch s k ok).off M = s.off M := by
  refine off_mono ?_ hM
  unfold State.hbmMigSwitch; split <;> simp [off_ite]
@[simp] theorem State.hbmPprDone_off {M : Nat} (s : State) (k : Nat) (ok : Bool) (pc bank row : Nat) (hM : 0x120140806 ||| M = M) :
    (State.hbmPprDone s k ok pc bank row).off M = s.off M := by
  refine off_mono ?_ hM
  unfold State.hbmPprDone; (try dsimp only); (repeat' split) <;> simp [off_ite, fst_ite, foldl_off]
@[simp] theorem State.hbmRetrain_off {M : Nat} (s : State) (k pc : Nat) (hM : 0x100000 ||| M = M) :
    (State.hbmRetrain s k pc).off M = s.off M := by
  refine off_mono ?_ hM
  simp [State.hbmRetrain, off_ite]
@[simp] theorem State.retrainFailed_off {M : Nat} (s : State) (k pc : Nat) (hM : 0x100140806 ||| M = M) :
    (State.retrainFailed s k pc).off M = s.off M := by
  refine off_mono ?_ hM
  simp [State.retrainFailed, off_ite]
@[simp] theorem State.retrainOk_off {M : Nat} (s : State) (k pc : Nat) (hM : 0x100004 ||| M = M) :
    (State.retrainOk s k pc).off M = s.off M := by
  refine off_mono ?_ hM
  simp [State.retrainOk]
@[simp] theorem State.hbmRetrainDone_off {M : Nat} (s : State) (k : Nat) (ok : Bool) (ns : BitVec 16) (hM : 0x100140806 ||| M = M) :
    (State.hbmRetrainDone s k ok ns).off M = s.off M := by
  refine off_mono ?_ hM
  unfold State.hbmRetrainDone; split <;> simp [off_ite]
@[simp] theorem State.hbmRetrainRetry_off {M : Nat} (s : State) (k pc : Nat) (ok : Bool) (hM : 0x100140806 ||| M = M) :
    (State.hbmRetrainRetry s k pc ok).off M = s.off M := by
  refine off_mono ?_ hM
  simp [State.hbmRetrainRetry, off_ite]
@[simp] theorem State.rprWrite_off {M : Nat} (s : State) (k : Nat) (v : Word) (hM : 0x100004 ||| M = M) :
    (State.rprWrite s k v).off M = s.off M := by
  refine off_mono ?_ hM
  simp [State.rprWrite, off_ite]
@[simp] theorem State.rprComplete_off {M : Nat} (s : State) (k : Nat) (ok : Bool) (hM : 0x100004 ||| M = M) :
    (State.rprComplete s k ok).off M = s.off M := by
  refine off_mono ?_ hM
  unfold State.rprComplete; repeat' split <;> simp [off_ite, foldl_off]
@[simp] theorem State.tgWrite_off {M : Nat} (s : State) (k : Nat) (v : Word) (hM : 0x100004 ||| M = M) :
    (State.tgWrite s k v).off M = s.off M := by
  refine off_mono ?_ hM
  simp [State.tgWrite, off_ite]
@[simp] theorem State.tgAbortWrite_off {M : Nat} (s : State) (k : Nat) (hM : 0x100000 ||| M = M) :
    (State.tgAbortWrite s k).off M = s.off M := by
  refine off_mono ?_ hM
  simp [State.tgAbortWrite, off_ite]
@[simp] theorem State.tgDone_off {M : Nat} (s : State) (k : Nat) (mis line byte mbps : Nat) (hM : 0x100140806 ||| M = M) :
    (State.tgDone s k mis line byte mbps).off M = s.off M := by
  refine off_mono ?_ hM
  unfold State.tgDone; split <;> simp [off_ite]

/-! ## Train -/

@[simp] theorem State.setTrn_off {M : Nat} (s : State) (p : Nat) (t : TrnSt) (hM : 0x800000 ||| M = M) :
    (State.setTrn s p t).off M = s.off M := by
  refine off_mono ?_ hM
  simp [State.setTrn, off_ite, foldl_off]
@[simp] theorem State.trnErr_off {M : Nat} (s : State) (p code cls layer mb : Nat) (hM : 0x100041916 ||| M = M) :
    (State.trnErr s p code cls layer mb).off M = s.off M := by
  refine off_mono ?_ hM
  simp [State.trnErr, off_ite]
@[simp] theorem State.modShard_off {M : Nat} (s : State) (p n : Nat) (f : Shard → Shard) (hM : 0x800000 ||| M = M) :
    (State.modShard s p n f).off M = s.off M := by
  refine off_mono ?_ hM
  simp [State.modShard, off_ite, foldl_off]
@[simp] theorem State.modShards_off {M : Nat} (s : State) (p : Nat) (f : Shard → Shard) (hM : 0x800000 ||| M = M) :
    (State.modShards s p f).off M = s.off M := by
  refine off_mono ?_ hM
  simp [State.modShards, off_ite, foldl_off]
@[simp] theorem State.setKd_off {M : Nat} (s : State) (k : KdSet) (hM : 0x4 ||| M = M) :
    (State.setKd s k).off M = s.off M := by
  refine off_mono ?_ hM
  simp [State.setKd, off_ite, foldl_off]
@[simp] theorem State.setKds_off {M : Nat} (s : State) (u : MbUnit) (hM : 0x4 ||| M = M) :
    (State.setKds s u).off M = s.off M := by
  refine off_mono ?_ hM
  simp [State.setKds, off_ite, foldl_off]
@[simp] theorem State.tryAdmit_off {M : Nat} (s : State) (p : Nat) (u : MbUnit) (hM : 0x100841916 ||| M = M) :
    (State.tryAdmit s p u).1.off M = s.off M := by
  refine off_mono ?_ hM
  unfold State.tryAdmit; dsimp only; repeat' split
  all_goals simp [foldl_off]
@[simp] theorem State.stashWait_off {M : Nat} (s : State) (p : Nat) (waits : Bool) (hM : 0x800004 ||| M = M) :
    (State.stashWait s p waits).off M = s.off M := by
  refine off_mono ?_ hM
  unfold State.stashWait; simp only []; split <;> simp [off_ite, foldl_off]
@[simp] theorem State.trnRegs_off {M : Nat} (s : State) (p : Nat) (hM : 0x4 ||| M = M) :
    (State.trnRegs s p).off M = s.off M := by
  refine off_mono ?_ hM
  simp [State.trnRegs]
@[simp] theorem State.trnLoop_off {M : Nat} (s : State) (p : Nat) (x0 : Nat) (hM : 0x100841916 ||| M = M) :
    (State.trnLoop s p x0).off M = s.off M := by
  refine off_mono ?_ hM
  induction x0 generalizing s with
  | zero => rfl
  | succ n ih =>
    rw [State.trnLoop]; split
    · simp
    · split
      · simp
      · have h := State.tryAdmit_off (M := 0x100841916) s p ‹_› rfl
        split <;> rename_i e <;> rw [e] at h <;> simp only at h
        · rw [ih, h]
        · simp [h]
        · simp [h]
        · dsimp only; split <;> simp [h]
@[simp] theorem State.trnGo_off {M : Nat} (s : State) (p : Nat) (hM : 0x100841916 ||| M = M) :
    (State.trnGo s p).off M = s.off M := by
  refine off_mono ?_ hM
  simp [State.trnGo]
@[simp] theorem State.setDesc_off {M : Nat} (s : State) (p i : Nat) (f : Nat → Bool) (q : Nat) (hM : 0x8000098 ||| M = M) :
    (State.setDesc s p i f q).off M = s.off M := by
  refine off_mono ?_ hM
  simp [State.setDesc, off_ite, foldl_off]
@[simp] theorem State.descState_off {M : Nat} (s : State) (p : Nat) (u : MbUnit) (on : StashEnt → Bool) (f : Nat → Bool) (q : Nat) (hM : 0x8000098 ||| M = M) :
    (State.descState s p u on f q).off M = s.off M := by
  refine off_mono ?_ hM
  simp [State.descState, off_ite, foldl_off]
@[simp] theorem State.stashWrite_off {M : Nat} (s : State) (p : Nat) (u : MbUnit) (layer slot n fmt : Nat) (hM : 0x8800098 ||| M = M) :
    (State.stashWrite s p u layer slot n fmt).off M = s.off M := by
  refine off_mono ?_ hM
  unfold State.stashWrite; (try dsimp only); (repeat' split) <;> simp [off_ite, fst_ite, foldl_off]
@[simp] theorem State.mbAdmit_off {M : Nat} (s : State) (p : Nat) (k : MbKey) (h : MbHeader) (hM : 0x100841916 ||| M = M) :
    (State.mbAdmit s p k h).off M = s.off M := by
  refine off_mono ?_ hM
  simp [State.mbAdmit, off_ite]
@[simp] theorem State.fwdComplete_off {M : Nat} (s : State) (p : Nat) (k : MbKey) (what : FwdEnd) (hM : 0x10884199e ||| M = M) :
    (State.fwdComplete s p k what).off M = s.off M := by
  refine off_mono ?_ hM
  unfold State.fwdComplete; (try dsimp only); (repeat' split) <;> simp [off_ite, fst_ite, foldl_off]
@[simp] theorem State.bwdStart_off {M : Nat} (s : State) (p : Nat) (k : MbKey) (dy : Bool) (hM : 0x100841916 ||| M = M) :
    (State.bwdStart s p k dy).off M = s.off M := by
  refine off_mono ?_ hM
  unfold State.bwdStart; split <;> simp [off_ite]
@[simp] theorem State.dropRefs_off {M : Nat} (s : State) (p : Nat) (u : MbUnit) (here : Nat → Bool) (far : Nat × Nat → Bool) (hM : 0x800000 ||| M = M) :
    (State.dropRefs s p u here far).off M = s.off M := by
  refine off_mono ?_ hM
  simp [State.dropRefs, off_ite, foldl_off]
@[simp] theorem State.kvGradAdd_off {M : Nat} (s : State) (p : Nat) (u : MbUnit) (e : StashEnt) (first : Nat) (vals : List (BitVec 40)) (stream base : Nat) (hM : 0x8000098 ||| M = M) :
    (State.kvGradAdd s p u e first vals stream base).off M = s.off M := by
  refine off_mono ?_ hM
  simp [State.kvGradAdd, off_ite, foldl_off]
@[simp] theorem State.replayBatch_off {M : Nat} (s : State) (p batch : Nat) (hM : 0x10884199e ||| M = M) :
    (State.replayBatch s p batch).off M = s.off M := by
  refine off_mono ?_ hM
  simp [State.replayBatch, off_ite, foldl_off]
@[simp] theorem State.stashPoison_off {M : Nat} (s : State) (p : Nat) (k : MbKey) (house : Bool) (hM : 0x18ac6199e ||| M = M) :
    (State.stashPoison s p k house).off M = s.off M := by
  refine off_mono ?_ hM
  unfold State.stashPoison; repeat' split <;> simp [off_ite, foldl_off]
@[simp] theorem State.bwdEnd_off {M : Nat} (s : State) (p : Nat) (u : MbUnit) (hM : 0x108841b9e ||| M = M) :
    (State.bwdEnd s p u).off M = s.off M := by
  refine off_mono ?_ hM
  simp [State.bwdEnd, off_ite, foldl_off]
@[simp] theorem State.bwdComplete_off {M : Nat} (s : State) (p : Nat) (k : MbKey) (what : BwdEnd) (hM : 0x18ac61b9e ||| M = M) :
    (State.bwdComplete s p k what).off M = s.off M := by
  refine off_mono ?_ hM
  unfold State.bwdComplete; (try dsimp only); (repeat' split) <;> simp [off_ite, fst_ite, foldl_off]
@[simp] theorem State.slotClaim_off {M : Nat} (s : State) (p n step : Nat) (hM : 0x100841916 ||| M = M) :
    (State.slotClaim s p n step).off M = s.off M := by
  refine off_mono ?_ hM
  simp [State.slotClaim]
@[simp] theorem State.versionReport_off {M : Nat} (s : State) (p n step : Nat) (what : VerReport) (hM : 0x100841916 ||| M = M) :
    (State.versionReport s p n step what).off M = s.off M := by
  refine off_mono ?_ hM
  unfold State.versionReport; (try dsimp only); (repeat' split) <;> simp [off_ite, fst_ite, foldl_off]
@[simp] theorem State.versionTimeout_off {M : Nat} (s : State) (p : Nat) (what : VerWait) (hM : 0x10a44199e ||| M = M) :
    (State.versionTimeout s p what).off M = s.off M := by
  refine off_mono ?_ hM
  unfold State.versionTimeout; (repeat' split) <;> simp
@[simp] theorem State.trnEnable_off {M : Nat} (s : State) (p : Nat) (hM : 0x100841916 ||| M = M) :
    (State.trnEnable s p).off M = s.off M := by
  refine off_mono ?_ hM
  simp [State.trnEnable, off_ite]
@[simp] theorem State.trnOff_off {M : Nat} (s : State) (p : Nat) (hM : 0x800004 ||| M = M) :
    (State.trnOff s p).off M = s.off M := by
  refine off_mono ?_ hM
  simp [State.trnOff, off_ite, foldl_off]
@[simp] theorem State.trnDisable_off {M : Nat} (s : State) (p : Nat) (hM : 0x800004 ||| M = M) :
    (State.trnDisable s p).off M = s.off M := by
  refine off_mono ?_ hM
  simp [State.trnDisable, off_ite]
@[simp] theorem State.drainOp_off {M : Nat} (s : State) (c i half : Nat) (rows : Option Nat) (stash : Option MbKey) (house : Bool) (hM : 0x18ac61b9e ||| M = M) :
    (State.drainOp s c i half rows stash house).off M = s.off M := by
  refine off_mono ?_ hM
  unfold State.drainOp; have h := State.arrayDrain_off (M := 0x18ac61b9e) s c i half rows rfl
  split <;> rename_i e _ <;> simp_all

/-! ## Gate -/

@[simp] theorem State.standbyExit_off {M : Nat} (s : State) (hM : 0x100004 ||| M = M) :
    (State.standbyExit s).off M = s.off M := by
  refine off_mono ?_ hM
  simp [State.standbyExit, off_ite, foldl_off]
@[simp] theorem State.dispatched_off {M : Nat} (s : State) (k : State → State) (hk : ∀ (y0 : State), (k y0).off M = y0.off M) (hM : 0x100004 ||| M = M) :
    (State.dispatched s k).off M = s.off M := by
  unfold State.dispatched; split
  · rw [hk]; exact State.standbyExit_off _ (off_sub hM (by decide))
  · rfl
@[simp] theorem State.gate_off {M : Nat} (s : State) (p : Post) (op : Nat) (masks : List Word) (k : State → Job → State) (hk : ∀ (y0 : State) (y1 : Job), (k y0 y1).off M = y0.off M) (hM : 0x100a04 ||| M = M) :
    (State.gate s p op masks k).off M = s.off M := by
  unfold State.gate; apply State.dispatched_off _ _ ?_ (off_sub hM (by decide)); intro s; repeat' split
  all_goals first | exact hk _ _ | exact State.reply_off _ _ _ _ (off_sub hM (by decide))

end Sys2Proof.Machine
end

