-- ==== Sys2Proof/Laws/OffWork.lean ====
section
/-! SUPPORT. What each operation of Slow to Sram leaves alone: it writes only areas of the mask (Sys2Proof.Machine.Area) in its
hypothesis. -/
namespace Sys2Proof.Machine

/-! ## Slow -/

@[simp] theorem State.nolError_off {M : Nat} (s : State) (m code cls part job : Nat) (ch : Option Nat) (flash : Bool) (hM : 0x100041916 ||| M = M) :
    (State.nolError s m code cls part job ch flash).off M = s.off M := by
  refine off_mono ?_ hM
  simp [State.nolError, off_ite]
@[simp] theorem State.putObj_off {M : Nat} (s : State) (i : Nat) (o : Option Obj) (hM : 0x200000 ||| M = M) :
    (State.putObj s i o).off M = s.off M := by
  refine off_mono ?_ hM
  simp [State.putObj, off_ite, foldl_off]
@[simp] theorem State.setNol_off {M : Nat} (s : State) (m : Nat) (x : NolSt) (hM : 0x200000 ||| M = M) :
    (State.setNol s m x).off M = s.off M := by
  refine off_mono ?_ hM
  simp [State.setNol, off_ite, foldl_off]
@[simp] theorem State.newObj_off {M : Nat} (s : State) (o : Nat → Obj) (xx : State × Nat) (e : State.newObj s o = some xx) (hM : 0x200002 ||| M = M) :
    xx.1.off M = s.off M := by
  refine off_mono ?_ hM
  unfold State.newObj at e; split at e; · cases e
  · simp only [Option.some.injEq] at e; subst e; simp
@[simp] theorem State.dropObj_off {M : Nat} (s : State) (h : Nat) (hM : 0x200000 ||| M = M) :
    (State.dropObj s h).off M = s.off M := by
  refine off_mono ?_ hM
  unfold State.dropObj; split <;> simp
@[simp] theorem State.countFlash_off {M : Nat} (s : State) (p n : Nat) (hM : 0x200004 ||| M = M) :
    (State.countFlash s p n).off M = s.off M := by
  refine off_mono ?_ hM
  simp [State.countFlash, off_ite, foldl_off]
@[simp] theorem State.refusePost_off {M : Nat} (s : State) (p : Post) (op part a : Nat) (r : Reach) (hM : 0x100041b16 ||| M = M) :
    (State.refusePost s p op part a r).off M = s.off M := by
  refine off_mono ?_ hM
  simp [State.refusePost]
@[simp] theorem State.objPut_off {M : Nat} (s : State) (post : Post) (dmaFail : Bool) (hM : 0x100343b16 ||| M = M) :
    (State.objPut s post dmaFail).off M = s.off M := by
  refine off_mono ?_ hM
  unfold State.objPut; refine State.gate_off _ _ _ _ _ ?_ rfl; intros; dsimp only; repeat' split
  all_goals simp
  all_goals rename_i e; exact State.newObj_off _ _ _ e rfl
@[simp] theorem State.objSealed_off {M : Nat} (s : State) (h : Nat) (hM : 0x100343b96 ||| M = M) :
    (State.objSealed s h).off M = s.off M := by
  refine off_mono ?_ hM
  unfold State.objSealed; split <;> simp [off_ite]
@[simp] theorem State.objGet_off {M : Nat} (s : State) (post : Post) (hM : 0x100143b16 ||| M = M) :
    (State.objGet s post).off M = s.off M := by
  refine off_mono ?_ hM
  unfold State.objGet; refine State.gate_off _ _ _ _ _ ?_ rfl; intros; (try dsimp only); (repeat' split) <;> simp [off_ite, fst_ite, foldl_off]
@[simp] theorem State.deleteReady_off {M : Nat} (s : State) (h : Nat) (hM : 0x303a04 ||| M = M) :
    (State.deleteReady s h).off M = s.off M := by
  refine off_mono ?_ hM
  simp [State.deleteReady, off_ite]
@[simp] theorem State.objGetComplete_off {M : Nat} (s : State) (h : Nat) (failed : List Nat) (hM : 0x108343b9e ||| M = M) :
    (State.objGetComplete s h failed).off M = s.off M := by
  refine off_mono ?_ hM
  unfold State.objGetComplete; repeat' split <;> simp [off_ite, foldl_off]
@[simp] theorem State.objDelete_off {M : Nat} (s : State) (post : Post) (hM : 0x303a04 ||| M = M) :
    (State.objDelete s post).off M = s.off M := by
  refine off_mono ?_ hM
  unfold State.objDelete; refine State.gate_off _ _ _ _ _ ?_ rfl; intros; (try dsimp only); (repeat' split) <;> simp [off_ite, fst_ite, foldl_off]
@[simp] theorem State.objectExpiry_off {M : Nat} (s : State) (h : Nat) (hM : 0x100343b16 ||| M = M) :
    (State.objectExpiry s h).off M = s.off M := by
  refine off_mono ?_ hM
  unfold State.objectExpiry; (repeat' split) <;> simp
@[simp] theorem State.setBlk_off {M : Nat} (s : State) (m b : Nat) (x : Blk) (hM : 0x200000 ||| M = M) :
    (State.setBlk s m b x).off M = s.off M := by
  refine off_mono ?_ hM
  simp [State.setBlk, off_ite, foldl_off]
@[simp] theorem State.wearRegs_off {M : Nat} (s : State) (m : Nat) (hM : 0x4 ||| M = M) :
    (State.wearRegs s m).off M = s.off M := by
  refine off_mono ?_ hM
  simp [State.wearRegs]
@[simp] theorem State.rewrite_off {M : Nat} (s : State) (m b t : Nat) (hM : 0x200004 ||| M = M) :
    (State.rewrite s m b t).off M = s.off M := by
  refine off_mono ?_ hM
  simp [State.rewrite]
@[simp] theorem State.flashMove_off {M : Nat} (s : State) (m : Nat) (why : MoveWhy) (b t : Nat) (held : List Nat) (hM : 0x200004 ||| M = M) :
    (State.flashMove s m why b t held).off M = s.off M := by
  refine off_mono ?_ hM
  unfold State.flashMove; repeat' split <;> simp [off_ite, foldl_off]
@[simp] theorem State.flashBlockFail_off {M : Nat} (s : State) (m b t : Nat) (hM : 0x100241916 ||| M = M) :
    (State.flashBlockFail s m b t).off M = s.off M := by
  refine off_mono ?_ hM
  simp [State.flashBlockFail, off_ite]
@[simp] theorem State.pageRead_off {M : Nat} (s : State) (m ch b : Nat) (how : PageRead) (hM : 0x100241916 ||| M = M) :
    (State.pageRead s m ch b how).off M = s.off M := by
  refine off_mono ?_ hM
  unfold State.pageRead; split <;> simp
@[simp] theorem State.nolOffline_off {M : Nat} (s : State) (m : Nat) (raise : State → Nat → Nat → State) (hraise : ∀ (y0 : State) (y1 : Nat) (y2 : Nat), (raise y0 y1 y2).off M = y0.off M) (hM : 0x4 ||| M = M) :
    (State.nolOffline s m raise).off M = s.off M := by
  unfold State.nolOffline; dsimp only; split
  · rw [hraise]; exact State.wrs_off _ _ (off_sub hM (by decide))
  · rw [foldl_off _ (fun s p => hraise _ _ _)]; exact State.wrs_off _ _ (off_sub hM (by decide))
@[simp] theorem State.liftDown_off {M : Nat} (s : State) (m : Nat) (hM : 0x100041916 ||| M = M) :
    (State.liftDown s m).off M = s.off M := by
  refine off_mono ?_ hM
  simp [State.liftDown]
@[simp] theorem State.liftFrame_off {M : Nat} (s : State) (m : Nat) (raw : BitVec 288) (hM : 0x100041916 ||| M = M) :
    (State.liftFrame s m raw).off M = s.off M := by
  refine off_mono ?_ hM
  simp [State.liftFrame, off_ite]
@[simp] theorem State.liftRecal_off {M : Nat} (s : State) (m : Nat) (ok retrainOk : Bool) (hM : 0x100041916 ||| M = M) :
    (State.liftRecal s m ok retrainOk).off M = s.off M := by
  refine off_mono ?_ hM
  simp [State.liftRecal, off_ite]

/-! ## Vec -/

@[simp] theorem State.vec_off {M : Nat} (s : State) (c op : Nat) (w0 w1 : Word) (hM : 0x10004199e ||| M = M) :
    (State.vec s c op w0 w1).off M = s.off M := by
  refine off_mono ?_ hM
  unfold State.vec; (try dsimp only); (repeat' split) <;> (try simp [off_ite, fst_ite, foldl_off]) <;> refine State.issue_off _ _ _ _ ?_ rfl <;> intros <;> (try dsimp only) <;> (repeat' split) <;> simp [off_ite, fst_ite, foldl_off]
@[simp] theorem State.vecLand_off {M : Nat} (s : State) (c : Nat) (v : VecPend) (lo hi : Nat) (hM : 0x98 ||| M = M) :
    (State.vecLand s c v lo hi).off M = s.off M := by
  refine off_mono ?_ hM
  simp [State.vecLand, off_ite, foldl_off]
@[simp] theorem State.vecComplete_off {M : Nat} (s : State) (c : Nat) (upto : Option Nat) (hM : 0x100041b9e ||| M = M) :
    (State.vecComplete s c upto).off M = s.off M := by
  refine off_mono ?_ hM
  unfold State.vecComplete; repeat' split <;> simp [off_ite, foldl_off]

/-! ## Roll -/

@[simp] theorem State.modRoll_off {M : Nat} (s : State) (f : RollSt → RollSt) (hM : 0x1000000 ||| M = M) :
    (State.modRoll s f).off M = s.off M := by
  refine off_mono ?_ hM
  simp [State.modRoll, off_ite, foldl_off]
@[simp] theorem State.setCtx_off {M : Nat} (s : State) (n : Nat) (c : Ctx) (hM : 0x1000000 ||| M = M) :
    (State.setCtx s n c).off M = s.off M := by
  refine off_mono ?_ hM
  simp [State.setCtx, off_ite, foldl_off]
@[simp] theorem State.modCtx_off {M : Nat} (s : State) (n : Nat) (f : Ctx → Ctx) (hM : 0x1000000 ||| M = M) :
    (State.modCtx s n f).off M = s.off M := by
  refine off_mono ?_ hM
  simp [State.modCtx, off_ite, foldl_off]
@[simp] theorem State.rollErr_off {M : Nat} (s : State) (p code cls ctx adapter : Nat) (hM : 0x100041916 ||| M = M) :
    (State.rollErr s p code cls ctx adapter).off M = s.off M := by
  refine off_mono ?_ hM
  simp [State.rollErr, off_ite]
@[simp] theorem State.setSring_off {M : Nat} (s : State) (p r : Nat) (x : Option StreamRing) (hM : 0x1000000 ||| M = M) :
    (State.setSring s p r x).off M = s.off M := by
  refine off_mono ?_ hM
  simp [State.setSring, off_ite, foldl_off]
@[simp] theorem State.writeRecs_off {M : Nat} (s : State) (j : Job) (x : StreamRing) (w : Nat) (x0 : List (Nat × Nat)) (hM : 0x200 ||| M = M) :
    (State.writeRecs s j x w x0).off M = s.off M := by
  refine off_mono ?_ hM
  induction x0 generalizing s j x w  with
  | nil => simp [State.writeRecs]
  | cons x t ih => simp [State.writeRecs, ih, off_ite, foldl_off]
@[simp] theorem State.flushRing_off {M : Nat} (s : State) (p r : Nat) (hM : 0x1000a00 ||| M = M) :
    (State.flushRing s p r).off M = s.off M := by
  refine off_mono ?_ hM
  unfold State.flushRing; split <;> simp [off_ite]
@[simp] theorem State.pushRec_off {M : Nat} (s : State) (p r w0 w1 : Nat) (hM : 0x1000a00 ||| M = M) :
    (State.pushRec s p r w0 w1).off M = s.off M := by
  refine off_mono ?_ hM
  unfold State.pushRec; split <;> simp
@[simp] theorem State.stallTick_off {M : Nat} (s : State) (p : Nat) (hM : 0x1000004 ||| M = M) :
    (State.stallTick s p).off M = s.off M := by
  refine off_mono ?_ hM
  unfold State.stallTick; split <;> simp
@[simp] theorem State.setBalance_off {M : Nat} (s : State) (a v : Nat) (hM : 0x1000000 ||| M = M) :
    (State.setBalance s a v).off M = s.off M := by
  refine off_mono ?_ hM
  simp [State.setBalance, off_ite, foldl_off]
@[simp] theorem State.emitTok_off {M : Nat} (s : State) (n : Nat) (t : Nat × Nat × Bool) (hM : 0x1000a00 ||| M = M) :
    (State.emitTok s n t).1.off M = s.off M := by
  refine off_mono ?_ hM
  unfold State.emitTok; dsimp only; split; · simp
  split <;> simp [off_ite]
@[simp] theorem State.emitAll_off {M : Nat} (s : State) (n : Nat) (x0 : List (Nat × Nat × Bool)) (hM : 0x1000a00 ||| M = M) :
    (State.emitAll s n x0).1.off M = s.off M := by
  refine off_mono ?_ hM
  induction x0 generalizing s with
  | nil => rfl
  | cons t ts ih =>
    rw [State.emitAll]; have h := State.emitTok_off (M := 0x1000a00) s n t rfl
    split <;> rename_i e <;> rw [e] at h
    · rw [ih, h]
    · exact h
@[simp] theorem State.enterDecode_off {M : Nat} (s : State) (n : Nat) (hM : 0x1000000 ||| M = M) :
    (State.enterDecode s n).off M = s.off M := by
  refine off_mono ?_ hM
  simp [State.enterDecode, off_ite, foldl_off]
@[simp] theorem State.setAslot_off {M : Nat} (s : State) (i : Nat) (x : AdSlot) (hM : 0x1000000 ||| M = M) :
    (State.setAslot s i x).off M = s.off M := by
  refine off_mono ?_ hM
  simp [State.setAslot, off_ite, foldl_off]
@[simp] theorem State.unpin_off {M : Nat} (s : State) (n : Nat) (hM : 0x1000004 ||| M = M) :
    (State.unpin s n).off M = s.off M := by
  refine off_mono ?_ hM
  unfold State.unpin; split <;> simp
@[simp] theorem State.retireSlot_off {M : Nat} (s : State) (i : Nat) (hM : 0x1000000 ||| M = M) :
    (State.retireSlot s i).off M = s.off M := by
  refine off_mono ?_ hM
  simp [State.retireSlot, off_ite, foldl_off]
@[simp] theorem State.setPfx_off {M : Nat} (s : State) (h : Nat) (x : Option Pfx) (hM : 0x1000000 ||| M = M) :
    (State.setPfx s h x).off M = s.off M := by
  refine off_mono ?_ hM
  simp [State.setPfx, off_ite, foldl_off]
@[simp] theorem State.settlePfx_off {M : Nat} (s : State) (h : Nat) (hM : 0x1000000 ||| M = M) :
    (State.settlePfx s h).off M = s.off M := by
  refine off_mono ?_ hM
  unfold State.settlePfx; split <;> simp [off_ite]
@[simp] theorem State.pastePages_off {M : Nat} (s : State) (p : Nat) (data : Tab Byte) (poison : List Rng) (x0 : List Nat) (x1 : Nat) (hM : 0x8000098 ||| M = M) :
    (State.pastePages s p data poison x0 x1).off M = s.off M := by
  refine off_mono ?_ hM
  induction x0 generalizing s p data poison x1 with
  | nil => simp [State.pastePages]
  | cons x t ih => simp [State.pastePages, ih, off_ite, foldl_off]
@[simp] theorem State.rbRegs_off {M : Nat} (s : State) (p : Nat) (hM : 0x4 ||| M = M) :
    (State.rbRegs s p).off M = s.off M := by
  refine off_mono ?_ hM
  simp [State.rbRegs]
@[simp] theorem State.setBatches_off {M : Nat} (s : State) (p : Nat) (b : BatchSt) (hM : 0x1000004 ||| M = M) :
    (State.setBatches s p b).off M = s.off M := by
  refine off_mono ?_ hM
  simp [State.setBatches]
@[simp] theorem State.batchesDone_off {M : Nat} (s : State) (p : Nat) (hM : 0x101841916 ||| M = M) :
    (State.batchesDone s p).off M = s.off M := by
  refine off_mono ?_ hM
  simp [State.batchesDone, off_ite]
@[simp] theorem State.setPark_off {M : Nat} (s : State) (t : Nat) (x : Option Park) (hM : 0x1000000 ||| M = M) :
    (State.setPark s t x).off M = s.off M := by
  refine off_mono ?_ hM
  simp [State.setPark, off_ite, foldl_off]
@[simp] theorem State.parkRegs_off {M : Nat} (s : State) (hM : 0x4 ||| M = M) :
    (State.parkRegs s).off M = s.off M := by
  refine off_mono ?_ hM
  simp [State.parkRegs, off_ite, foldl_off]
@[simp] theorem State.demote_off {M : Nat} (s : State) (i : Nat) (k : Park) (o : Obj) (hM : 0x1200004 ||| M = M) :
    (State.demote s i k o).off M = s.off M := by
  refine off_mono ?_ hM
  simp [State.demote, off_ite, foldl_off]
@[simp] theorem State.makeRoom_off {M : Nat} (s : State) (p bytes : Nat) (x0 : Nat) (hM : 0x1200004 ||| M = M) :
    (State.makeRoom s p bytes x0).off M = s.off M := by
  refine off_mono ?_ hM
  induction x0 generalizing s with
  | zero => rfl
  | succ n ih =>
    rw [State.makeRoom]; repeat' split
    all_goals simp [ih]
@[simp] theorem State.dropPark_off {M : Nat} (s : State) (t : Nat) (hM : 0x1200004 ||| M = M) :
    (State.dropPark s t).off M = s.off M := by
  refine off_mono ?_ hM
  simp [State.dropPark, off_ite, foldl_off]

/-! ## RollCmd -/

@[simp] theorem State.runBoundary_off {M : Nat} (s : State) (p op : Nat) (act : State → Job → Payload → Bool → State × Nat × Nat) (hact : ∀ (y0 : State) (y1 : Job) (y2 : Payload) (y3 : Bool), (act y0 y1 y2 y3).1.off M = y0.off M) (hM : 0x3a00 ||| M = M) :
    (State.runBoundary s p op act).off M = s.off M := by
  unfold State.runBoundary; dsimp only; rw [foldl_off]
  · exact off_mono (m := 0x2000) (by simp) (off_sub hM (by decide))
  · intro s x; split
    · rw [State.complete_off _ _ _ _ _ (off_sub hM (by decide)), hact]
    · rfl
@[simp] theorem State.cancelCtx_off {M : Nat} (s : State) (n : Nat) (hM : 0x1000000 ||| M = M) :
    (State.cancelCtx s n).1.off M = s.off M := by
  refine off_mono ?_ hM
  unfold State.cancelCtx; dsimp only; split; · rfl
  split <;> simp
@[simp] theorem State.pauseCtx_off {M : Nat} (s : State) (n ttl : Nat) (hM : 0x1000000 ||| M = M) :
    (State.pauseCtx s n ttl).1.off M = s.off M := by
  refine off_mono ?_ hM
  unfold State.pauseCtx; dsimp only; split; · rfl
  split <;> simp
@[simp] theorem State.cancelNow_off {M : Nat} (s : State) (j : Job) (w : Payload) (u0 : Bool) (hM : 0x1000000 ||| M = M) :
    (State.cancelNow s j w u0).1.off M = s.off M := by
  refine off_mono ?_ hM
  unfold State.cancelNow; split <;> simp
@[simp] theorem State.pauseNow_off {M : Nat} (s : State) (j : Job) (w : Payload) (u0 : Bool) (hM : 0x1000000 ||| M = M) :
    (State.pauseNow s j w u0).1.off M = s.off M := by
  refine off_mono ?_ hM
  unfold State.pauseNow; repeat' split <;> simp [off_ite, foldl_off]
@[simp] theorem State.budgetNow_off {M : Nat} (s : State) (j : Job) (w : Payload) (u0 : Bool) (hM : 0x1000000 ||| M = M) :
    (State.budgetNow s j w u0).1.off M = s.off M := by
  refine off_mono ?_ hM
  unfold State.budgetNow; repeat' split <;> simp [off_ite, foldl_off]
@[simp] theorem State.admitNow_off {M : Nat} (s : State) (j : Job) (w : Payload) (dmaFail : Bool) (hM : 0x101241916 ||| M = M) :
    (State.admitNow s j w dmaFail).1.off M = s.off M := by
  refine off_mono ?_ hM
  unfold State.admitNow
  dsimp only
  refine fst_off rfl (fst_off rfl (fst_off rfl ?_))
  generalize (if (admitFields w).adapter = 0xffff then none else s.adapterPtr j.part (admitFields w).adapter) = ptr
  generalize (if (admitFields w).resume then s.parkRec (admitFields w).ticket else none) = park
  split
  · rfl
  · refine fst_off rfl (fst_off (by simp) (fst_off rfl (fst_off rfl (fst_off rfl (fst_off rfl ?_)))))
    split
    · rfl
    · dsimp only
      rw [off_ite, State.setBatches_off _ _ _ rfl, ite_self]
      cases ptr <;> cases park <;> simp [off_ite]
@[simp] theorem State.emitRound_off {M : Nat} (s : State) (n : Nat) (hM : 0x1000a00 ||| M = M) :
    (State.emitRound s n).off M = s.off M := by
  refine off_mono ?_ hM
  unfold State.emitRound; split <;> simp [off_ite]
@[simp] theorem State.markNow_off {M : Nat} (s : State) (what n : Nat) (hM : 0x1000000 ||| M = M) :
    (State.markNow s what n).off M = s.off M := by
  refine off_mono ?_ hM
  simp [State.markNow, off_ite]
@[simp] theorem State.decodeBoundary_off {M : Nat} (s : State) (p : Nat) (hM : 0x101a43b16 ||| M = M) :
    (State.decodeBoundary s p).off M = s.off M := by
  refine off_mono ?_ hM
  simp [State.decodeBoundary, off_ite, foldl_off]
@[simp] theorem State.admitPost_off {M : Nat} (s : State) (post : Post) (dmaFail : Bool) (hM : 0x102a04 ||| M = M) :
    (State.admitPost s post dmaFail).off M = s.off M := by
  refine off_mono ?_ hM
  simp [State.admitPost]
@[simp] theorem State.cancelPost_off {M : Nat} (s : State) (post : Post) (hM : 0x102a04 ||| M = M) :
    (State.cancelPost s post).off M = s.off M := by
  refine off_mono ?_ hM
  simp [State.cancelPost]
@[simp] theorem State.pausePost_off {M : Nat} (s : State) (post : Post) (hM : 0x102a04 ||| M = M) :
    (State.pausePost s post).off M = s.off M := by
  refine off_mono ?_ hM
  simp [State.pausePost]
@[simp] theorem State.budgetPost_off {M : Nat} (s : State) (post : Post) (op : Nat) (hM : 0x102a04 ||| M = M) :
    (State.budgetPost s post op).off M = s.off M := by
  refine off_mono ?_ hM
  simp [State.budgetPost, off_ite]
@[simp] theorem State.adapterLoad_off {M : Nat} (s : State) (post : Post) (hM : 0x100143b16 ||| M = M) :
    (State.adapterLoad s post).off M = s.off M := by
  refine off_mono ?_ hM
  unfold State.adapterLoad; refine State.gate_off _ _ _ _ _ ?_ rfl; intros; (try dsimp only); (repeat' split) <;> simp [off_ite, fst_ite, foldl_off]
@[simp] theorem State.adapterDispatch_off {M : Nat} (s : State) (p : Nat) (hM : 0x1002000 ||| M = M) :
    (State.adapterDispatch s p).off M = s.off M := by
  refine off_mono ?_ hM
  simp only [State.adapterDispatch]; repeat' split <;> simp [off_ite, foldl_off]
@[simp] theorem State.adapterComplete_off {M : Nat} (s : State) (i : Nat) (hM : 0x101043b16 ||| M = M) :
    (State.adapterComplete s i).off M = s.off M := by
  refine off_mono ?_ hM
  simp only [State.adapterComplete]; repeat' split <;> simp [off_ite, foldl_off]
@[simp] theorem State.adapterUnload_off {M : Nat} (s : State) (post : Post) (hM : 0x1101a04 ||| M = M) :
    (State.adapterUnload s post).off M = s.off M := by
  refine off_mono ?_ hM
  unfold State.adapterUnload; refine State.gate_off _ _ _ _ _ ?_ rfl; intros; (try dsimp only); (repeat' split) <;> simp [off_ite, fst_ite, foldl_off]
@[simp] theorem State.prefixCreate_off {M : Nat} (s : State) (post : Post) (hM : 0x1101a04 ||| M = M) :
    (State.prefixCreate s post).off M = s.off M := by
  refine off_mono ?_ hM
  unfold State.prefixCreate; refine State.gate_off _ _ _ _ _ ?_ rfl; intros; (try dsimp only); (repeat' split) <;> simp [off_ite, fst_ite, foldl_off]
@[simp] theorem State.prefixRelease_off {M : Nat} (s : State) (post : Post) (hM : 0x1101a04 ||| M = M) :
    (State.prefixRelease s post).off M = s.off M := by
  refine off_mono ?_ hM
  unfold State.prefixRelease; refine State.gate_off _ _ _ _ _ ?_ rfl; intros; (try dsimp only); (repeat' split) <;> simp [off_ite, fst_ite, foldl_off]
@[simp] theorem State.stopsetWrite_off {M : Nat} (s : State) (post : Post) (dmaFail : Bool) (hM : 0x1101a04 ||| M = M) :
    (State.stopsetWrite s post dmaFail).off M = s.off M := by
  refine off_mono ?_ hM
  simp [State.stopsetWrite, off_ite]
@[simp] theorem State.contextTake_off {M : Nat} (s : State) (n : Nat) (hM : 0x1000004 ||| M = M) :
    (State.contextTake s n).off M = s.off M := by
  refine off_mono ?_ hM
  simp only [State.contextTake]; repeat' split <;> simp [off_ite, foldl_off]
@[simp] theorem State.restoreComplete_off {M : Nat} (s : State) (n : Nat) (hM : 0x920009c ||| M = M) :
    (State.restoreComplete s n).off M = s.off M := by
  refine off_mono ?_ hM
  unfold State.restoreComplete; dsimp only; (repeat' split) <;> simp
@[simp] theorem State.kvPoison_off {M : Nat} (s : State) (n : Nat) (hM : 0x101041916 ||| M = M) :
    (State.kvPoison s n).off M = s.off M := by
  refine off_mono ?_ hM
  simp [State.kvPoison]
@[simp] theorem State.adapterPoison_off {M : Nat} (s : State) (i : Nat) (hM : 0x101041916 ||| M = M) :
    (State.adapterPoison s i).off M = s.off M := by
  refine off_mono ?_ hM
  simp [State.adapterPoison, off_ite, foldl_off]
@[simp] theorem State.prefillComplete_off {M : Nat} (s : State) (n : Nat) (what : PrefillEnd) (adapterPoison : Bool) (hM : 0x101041b16 ||| M = M) :
    (State.prefillComplete s n what adapterPoison).off M = s.off M := by
  refine off_mono ?_ hM
  unfold State.prefillComplete; (try dsimp only); (repeat' split) <;> simp [off_ite, fst_ite, foldl_off]
@[simp] theorem State.shipComplete_off {M : Nat} (s : State) (n : Nat) (how : ShipEnd) (hM : 0x10904199e ||| M = M) :
    (State.shipComplete s n how).off M = s.off M := by
  refine off_mono ?_ hM
  unfold State.shipComplete; (try dsimp only); (repeat' split) <;> simp [off_ite, fst_ite, foldl_off]
@[simp] theorem State.verifyRound_off {M : Nat} (s : State) (n : Nat) (draft logits : List (List (BitVec 32))) (kvPoison adapterPoison housePoison : Bool) (hM : 0x10106191e ||| M = M) :
    (State.verifyRound s n draft logits kvPoison adapterPoison housePoison).off M = s.off M := by
  refine off_mono ?_ hM
  simp [State.verifyRound, off_ite]
@[simp] theorem State.draftReprobe_off {M : Nat} (s : State) (n : Nat) (hM : 0x1000000 ||| M = M) :
    (State.draftReprobe s n).off M = s.off M := by
  refine off_mono ?_ hM
  simp [State.draftReprobe, off_ite]
@[simp] theorem State.parkComplete_off {M : Nat} (s : State) (n : Nat) (far : List (Byte × Bool)) (hM : 0x101a41916 ||| M = M) :
    (State.parkComplete s n far).off M = s.off M := by
  refine off_mono ?_ hM
  unfold State.parkComplete
  extract_lets c p count pages bytes full s1 d
  have h1 : s1.off 0x101a41916 = s.off 0x101a41916 := by simp [s1]
  split
  · rfl
  · split
    · simp [full, h1]
    · split
      · simp [full, h1]
      · rename_i e
        have h := State.newObj_off (M := 0x101a41916) _ _ _ e rfl
        simp only at h; simp [h, h1]
@[simp] theorem State.contextClose_off {M : Nat} (s : State) (n : Nat) (hM : 0x101a41b16 ||| M = M) :
    (State.contextClose s n).off M = s.off M := by
  refine off_mono ?_ hM
  simp only [State.contextClose]; repeat' split <;> simp [off_ite, foldl_off]
@[simp] theorem State.streamRoom_off {M : Nat} (s : State) (p r : Nat) (hM : 0x1000a04 ||| M = M) :
    (State.streamRoom s p r).off M = s.off M := by
  refine off_mono ?_ hM
  simp [State.streamRoom]
@[simp] theorem State.parkDemote_off {M : Nat} (s : State) (t : Nat) (hM : 0x1200004 ||| M = M) :
    (State.parkDemote s t).off M = s.off M := by
  refine off_mono ?_ hM
  unfold State.parkDemote; split <;> simp [off_ite]
@[simp] theorem State.parkExpiry_off {M : Nat} (s : State) (t : Nat) (hM : 0x1200a04 ||| M = M) :
    (State.parkExpiry s t).off M = s.off M := by
  refine off_mono ?_ hM
  unfold State.parkExpiry; repeat' split <;> simp [off_ite, foldl_off]
@[simp] theorem State.parkReadFailed_off {M : Nat} (s : State) (t : Nat) (hM : 0x101241916 ||| M = M) :
    (State.parkReadFailed s t).off M = s.off M := by
  refine off_mono ?_ hM
  unfold State.parkReadFailed; repeat' split <;> simp [off_ite, foldl_off]
@[simp] theorem State.flashRead_off {M : Nat} (s : State) (m ch b : Nat) (how : PageRead) (park : Option (BitVec 32)) (hM : 0x101241916 ||| M = M) :
    (State.flashRead s m ch b how park).off M = s.off M := by
  refine off_mono ?_ hM
  unfold State.flashRead; (try dsimp only); (repeat' split) <;> simp [off_ite, fst_ite, foldl_off]
@[simp] theorem State.rollEnable_off {M : Nat} (s : State) (p : Nat) (hM : 0x100041916 ||| M = M) :
    (State.rollEnable s p).off M = s.off M := by
  refine off_mono ?_ hM
  simp [State.rollEnable, off_ite]
@[simp] theorem State.rollAbort_off {M : Nat} (s : State) (p : Nat) (hM : 0x1000000 ||| M = M) :
    (State.rollAbort s p).off M = s.off M := by
  refine off_mono ?_ hM
  simp [State.rollAbort, off_ite, foldl_off]
@[simp] theorem State.rollDisable_off {M : Nat} (s : State) (p : Nat) (hM : 0x1000004 ||| M = M) :
    (State.rollDisable s p).off M = s.off M := by
  refine off_mono ?_ hM
  simp [State.rollDisable]

/-! ## Coll -/

@[simp] theorem State.modEng_off {M : Nat} (s : State) (f : CollEng → CollEng) (hM : 0x2000000 ||| M = M) :
    (State.modEng s f).off M = s.off M := by
  refine off_mono ?_ hM
  simp [State.modEng, off_ite, foldl_off]
@[simp] theorem State.setGrp_off {M : Nat} (s : State) (p g : Nat) (x : GrpSt) (hM : 0x2000000 ||| M = M) :
    (State.setGrp s p g x).off M = s.off M := by
  refine off_mono ?_ hM
  simp [State.setGrp, off_ite, foldl_off]
@[simp] theorem State.setColl_off {M : Nat} (s : State) (x : Coll) (hM : 0x2000000 ||| M = M) :
    (State.setColl s x).off M = s.off M := by
  refine off_mono ?_ hM
  simp [State.setColl, off_ite, foldl_off]
@[simp] theorem State.dropColl_off {M : Nat} (s : State) (x : Coll) (hM : 0x2000000 ||| M = M) :
    (State.dropColl s x).off M = s.off M := by
  refine off_mono ?_ hM
  simp [State.dropColl, off_ite, foldl_off]
@[simp] theorem State.collErr_off {M : Nat} (s : State) (p g q code cls : Nat) (peer : Option Nat) (hM : 0x100041916 ||| M = M) :
    (State.collErr s p g q code cls peer).off M = s.off M := by
  refine off_mono ?_ hM
  simp [State.collErr, off_ite]
@[simp] theorem State.collWord_off {M : Nat} (s : State) (c : Coll) (k : Nat) (hM : 0x10804199e ||| M = M) :
    (State.collWord s c k).off M = s.off M := by
  refine off_mono ?_ hM
  simp [State.collWord, off_ite]
@[simp] theorem State.collWrite_off {M : Nat} (s : State) (c : Coll) (n me : Nat) (x0 : List Nat) (hM : 0x10804199e ||| M = M) :
    (State.collWrite s c n me x0).1.off M = s.off M := by
  refine off_mono ?_ hM
  induction x0 generalizing s c n me  with
  | nil => simp [State.collWrite]
  | cons x t ih =>
    rw [State.collWrite]; repeat' split <;> simp [ih, off_ite, foldl_off]
@[simp] theorem State.collGo_off {M : Nat} (s : State) (p g q : Nat) (hM : 0x10a04199e ||| M = M) :
    (State.collGo s p g q).off M = s.off M := by
  refine off_mono ?_ hM
  unfold State.collGo; repeat' split <;> simp [off_ite, foldl_off]
@[simp] theorem State.collPoke_off {M : Nat} (s : State) (p : Nat) (hM : 0x10a04199e ||| M = M) :
    (State.collPoke s p).off M = s.off M := by
  refine off_mono ?_ hM
  simp [State.collPoke, off_ite, foldl_off]
@[simp] theorem State.collFail_off {M : Nat} (s : State) (c : Coll) (code : Nat) (peer : Option Nat) (hM : 0x2000000 ||| M = M) :
    (State.collFail s c code peer).off M = s.off M := by
  refine off_mono ?_ hM
  simp [State.collFail, off_ite]
@[simp] theorem State.unhold_off {M : Nat} (s : State) (p g : Nat) (x0 : Nat) (hM : 0x2000000 ||| M = M) :
    (State.unhold s p g x0).off M = s.off M := by
  refine off_mono ?_ hM
  induction x0 generalizing s p g  with
  | zero => simp [State.unhold]
  | succ n ih =>
    rw [State.unhold]; repeat' split <;> simp [ih, off_ite, foldl_off]
@[simp] theorem State.postColl_off {M : Nat} (s : State) (c : Coll) (hM : 0x2000000 ||| M = M) :
    (State.postColl s c).off M = s.off M := by
  refine off_mono ?_ hM
  simp [State.postColl]
@[simp] theorem State.takePost_off {M : Nat} (s : State) (c p : Nat) (r : PostReq) (hM : 0x10a04199e ||| M = M) :
    (State.takePost s c p r).off M = s.off M := by
  refine off_mono ?_ hM
  simp [State.takePost, off_ite, foldl_off]; repeat' split <;> simp [off_ite, foldl_off]
@[simp] theorem State.pump_off {M : Nat} (s : State) (x0 : Nat) (hM : 0x10a04199e ||| M = M) :
    (State.pump s x0).off M = s.off M := by
  refine off_mono ?_ hM
  induction x0 generalizing s  with
  | zero => simp [State.pump]
  | succ n ih =>
    rw [State.pump]; repeat' split <;> simp [ih, off_ite, foldl_off]
@[simp] theorem State.pumpAll_off {M : Nat} (s : State) (hM : 0x10a04199e ||| M = M) :
    (State.pumpAll s).off M = s.off M := by
  refine off_mono ?_ hM
  simp [State.pumpAll]
@[simp] theorem State.collIssue_off {M : Nat} (s : State) (c : Nat) (w0 w1 : Word) (op : Nat) (hM : 0x10a04199e ||| M = M) :
    (State.collIssue s c w0 w1 op).off M = s.off M := by
  refine off_mono ?_ hM
  unfold State.collIssue; (try dsimp only); (repeat' split) <;> (try simp [off_ite, fst_ite, foldl_off]) <;> refine State.issue_off _ _ _ _ ?_ rfl <;> intros <;> (try dsimp only) <;> (repeat' split) <;> simp [off_ite, fst_ite, foldl_off]
@[simp] theorem State.postKinded_off {M : Nat} (s : State) (kind : Nat) (by_ : Poster) (hM : 0x10a04199e ||| M = M) :
    (State.postKinded s kind by_).off M = s.off M := by
  refine off_mono ?_ hM
  unfold State.postKinded; repeat' split <;> simp [off_ite, foldl_off]
@[simp] theorem State.collAdmit_off {M : Nat} (s : State) (p g q : Nat) (hM : 0x102041916 ||| M = M) :
    (State.collAdmit s p g q).off M = s.off M := by
  refine off_mono ?_ hM
  unfold State.collAdmit; split <;> simp [off_ite]
@[simp] theorem State.collOpen_off {M : Nat} (s : State) (p g q : Nat) (agree : Bool) (peer : Nat) (hM : 0x10a04199e ||| M = M) :
    (State.collOpen s p g q agree peer).off M = s.off M := by
  refine off_mono ?_ hM
  unfold State.collOpen; split <;> simp [off_ite]
@[simp] theorem State.collData_off {M : Nat} (s : State) (p g q : Nat) (small : Bool) (x : CollPart) (hM : 0x10a04199e ||| M = M) :
    (State.collData s p g q small x).off M = s.off M := by
  refine off_mono ?_ hM
  unfold State.collData; split <;> simp [off_ite]
@[simp] theorem State.loseSegment_off {M : Nat} (s : State) (p seg : Nat) (hM : 0x4000000 ||| M = M) :
    (State.loseSegment s p seg).off M = s.off M := by
  refine off_mono ?_ hM
  unfold State.loseSegment; (try dsimp only); (repeat' split) <;> simp [off_ite, fst_ite, foldl_off]
@[simp] theorem State.chunkAgain_off {M : Nat} (s : State) (p g q k peer xid : Nat) (hM : 0x10e44199e ||| M = M) :
    (State.chunkAgain s p g q k peer xid).off M = s.off M := by
  refine off_mono ?_ hM
  unfold State.chunkAgain; split <;> simp [off_ite]
@[simp] theorem State.collStatus_off {M : Nat} (s : State) (c : Coll) (status qs qb origCode origModule : Nat) (hM : 0x10804199e ||| M = M) :
    (State.collStatus s c status qs qb origCode origModule).off M = s.off M := by
  refine off_mono ?_ hM
  simp [State.collStatus, off_ite]
@[simp] theorem State.addResident_off {M : Nat} (s : State) (c : Coll) (t : GatherTag) (hM : 0x2000000 ||| M = M) :
    (State.addResident s c t).off M = s.off M := by
  refine off_mono ?_ hM
  simp [State.addResident, off_ite, foldl_off]
@[simp] theorem State.collClose_off {M : Nat} (s : State) (p g q : Nat) (codes : List (BitVec 16)) (noise : List (NoiseSum × NoiseSum)) (hM : 0x10a04199e ||| M = M) :
    (State.collClose s p g q codes noise).off M = s.off M := by
  refine off_mono ?_ hM
  unfold State.collClose; repeat' split <;> simp [off_ite, foldl_off]
@[simp] theorem State.collTimeout_off {M : Nat} (s : State) (p g q : Nat) (found : ProbeFind) (peer : Nat) (hM : 0x10a04199e ||| M = M) :
    (State.collTimeout s p g q found peer).off M = s.off M := by
  refine off_mono ?_ hM
  unfold State.collTimeout; repeat' split <;> simp [off_ite, foldl_off]
@[simp] theorem State.collEnable_off {M : Nat} (s : State) (p : Nat) (hM : 0x100041916 ||| M = M) :
    (State.collEnable s p).off M = s.off M := by
  refine off_mono ?_ hM
  simp [State.collEnable, off_ite]
@[simp] theorem State.collDisable_off {M : Nat} (s : State) (p : Nat) (hM : 0x4 ||| M = M) :
    (State.collDisable s p).off M = s.off M := by
  refine off_mono ?_ hM
  simp [State.collDisable, off_ite]
@[simp] theorem State.collAbort_off {M : Nat} (s : State) (p origCode origModule : Nat) (hM : 0x10a04199e ||| M = M) :
    (State.collAbort s p origCode origModule).off M = s.off M := by
  refine off_mono ?_ hM
  simp [State.collAbort, off_ite, foldl_off]
@[simp] theorem State.collForget_off {M : Nat} (s : State) (p : Nat) (hM : 0x2000000 ||| M = M) :
    (State.collForget s p).off M = s.off M := by
  refine off_mono ?_ hM
  simp [State.collForget, off_ite, foldl_off]

/-! ## Sram -/

@[simp] theorem State.setSeg_off {M : Nat} (s : State) (i : Nat) (x : SegSt) (hM : 0x80 ||| M = M) :
    (State.setSeg s i x).off M = s.off M := by
  refine off_mono ?_ hM
  simp [State.setSeg, off_ite, foldl_off]
@[simp] theorem State.fillSeg_off {M : Nat} (s : State) (w : Nat) (ab : Bool) (g : Nat) (d : Tab Byte) (bad : Nat → Bool) (hM : 0x48 ||| M = M) :
    (State.fillSeg s w ab g d bad).off M = s.off M := by
  refine off_mono ?_ hM
  simp [State.fillSeg, off_ite]
@[simp] theorem State.zeroSeg_off {M : Nat} (s : State) (w : Nat) (ab : Bool) (g : Nat) (hM : 0x48 ||| M = M) :
    (State.zeroSeg s w ab g).off M = s.off M := by
  refine off_mono ?_ hM
  simp [State.zeroSeg]
@[simp] theorem State.segRequest_off {M : Nat} (s : State) (w : Nat) (v : Word) (hM : 0x4 ||| M = M) :
    (State.segRequest s w v).off M = s.off M := by
  refine off_mono ?_ hM
  simp [State.segRequest, off_ite]
@[simp] theorem State.segChange_off {M : Nat} (s : State) (w : Nat) (ab : Bool) (g : Nat) (hM : 0xc8 ||| M = M) :
    (State.segChange s w ab g).off M = s.off M := by
  refine off_mono ?_ hM
  unfold State.segChange; split <;> simp [off_ite]
@[simp] theorem State.segReturn_off {M : Nat} (s : State) (w : Nat) (ab : Bool) (g : Nat) (hM : 0x80 ||| M = M) :
    (State.segReturn s w ab g).off M = s.off M := by
  refine off_mono ?_ hM
  unfold State.segReturn; split <;> simp [off_ite]
@[simp] theorem State.setMarch_off {M : Nat} (s : State) (w : Nat) (m : Option March) (hM : 0x80 ||| M = M) :
    (State.setMarch s w m).off M = s.off M := by
  refine off_mono ?_ hM
  simp [State.setMarch, off_ite, foldl_off]
@[simp] theorem State.marchAbort_off {M : Nat} (s : State) (w : Nat) (hM : 0x80 ||| M = M) :
    (State.marchAbort s w).off M = s.off M := by
  refine off_mono ?_ hM
  unfold State.marchAbort; split <;> simp
@[simp] theorem State.marchWrite_off {M : Nat} (s : State) (w : Nat) (v : Word) (hM : 0x84 ||| M = M) :
    (State.marchWrite s w v).off M = s.off M := by
  refine off_mono ?_ hM
  simp [State.marchWrite, off_ite]
@[simp] theorem State.marchLeaves_off {M : Nat} (s : State) (w : Nat) (m : March) (hM : 0x10004195e ||| M = M) :
    (State.marchLeaves s w m).off M = s.off M := by
  refine off_mono ?_ hM
  simp [State.marchLeaves, off_ite, foldl_off]
@[simp] theorem State.marchDone_off {M : Nat} (s : State) (w : Nat) (fails : List MarchFail) (cycles : Nat) (hM : 0x1a00419de ||| M = M) :
    (State.marchDone s w fails cycles).off M = s.off M := by
  refine off_mono ?_ hM
  unfold State.marchDone; repeat' split <;> simp [off_ite, foldl_off]
@[simp] theorem State.repairRow_off {M : Nat} (s : State) (k ch pc bank row : Nat) (hM : 0x120140806 ||| M = M) :
    (State.repairRow s k ch pc bank row).off M = s.off M := by
  refine off_mono ?_ hM
  unfold State.repairRow; (try dsimp only); (repeat' split) <;> simp [off_ite, fst_ite, foldl_off]
@[simp] theorem State.countRow_off {M : Nat} (s : State) (k ch pc bank row : Nat) (hM : 0x120140806 ||| M = M) :
    (State.countRow s k ch pc bank row).off M = s.off M := by
  refine off_mono ?_ hM
  simp [State.countRow, off_ite]
@[simp] theorem State.scrubHbm_off {M : Nat} (s : State) (a st : Nat) (d : List Byte) (hM : 0x12016089e ||| M = M) :
    (State.scrubHbm s a st d).off M = s.off M := by
  refine off_mono ?_ hM
  unfold State.scrubHbm; split <;> simp [off_ite]
@[simp] theorem State.scrubSlow_off {M : Nat} (s : State) (a st : Nat) (d : List Byte) (hM : 0x10004199e ||| M = M) :
    (State.scrubSlow s a st d).off M = s.off M := by
  refine off_mono ?_ hM
  simp [State.scrubSlow, off_ite, foldl_off]
@[simp] theorem State.scrubSram_off {M : Nat} (s : State) (w st : Nat) (hM : 0x100040806 ||| M = M) :
    (State.scrubSram s w st).off M = s.off M := by
  refine off_mono ?_ hM
  simp [State.scrubSram, off_ite]
@[simp] theorem State.scrubWin_off {M : Nat} (s : State) (a st : Nat) (d : List Byte) (hM : 0x10004080e ||| M = M) :
    (State.scrubWin s a st d).off M = s.off M := by
  refine off_mono ?_ hM
  unfold State.scrubWin; split <;> simp [off_ite]
@[simp] theorem State.scrubVisit_off {M : Nat} (s : State) (t : ScrubTarget) (raw : BitVec 288) (hM : 0x1201619fe ||| M = M) :
    (State.scrubVisit s t raw).off M = s.off M := by
  refine off_mono ?_ hM
  unfold State.scrubVisit; repeat' split <;> simp [off_ite, foldl_off]
@[simp] theorem State.scrubPromote_off {M : Nat} (s : State) (act age : Nat) (hM : 0x40004 ||| M = M) :
    (State.scrubPromote s act age).off M = s.off M := by
  refine off_mono ?_ hM
  simp [State.scrubPromote, off_ite]
@[simp] theorem State.rasErr_off {M : Nat} (s : State) (code cls part job unit : Nat) (hM : 0x100040806 ||| M = M) :
    (State.rasErr s code cls part job unit).off M = s.off M := by
  refine off_mono ?_ hM
  simp [State.rasErr]
@[simp] theorem State.scrubLate_off {M : Nat} (s : State) (act : Nat) (hM : 0x100040806 ||| M = M) :
    (State.scrubLate s act).off M = s.off M := by
  refine off_mono ?_ hM
  simp [State.scrubLate, off_ite]

end Sys2Proof.Machine
end

