-- ==== Sys2Proof/Laws/OffFabric.lean ====
section
/-! SUPPORT. What each operation of Turn to Brake leaves alone: it writes only areas of the mask (Sys2Proof.Machine.Area) in its
hypothesis. -/
namespace Sys2Proof.Machine

/-! ## Turn -/

@[simp] theorem State.modSched_off {M : Nat} (s : State) (f : SchedSt → SchedSt) (hM : 0x4000000 ||| M = M) :
    (State.modSched s f).off M = s.off M := by
  refine off_mono ?_ hM
  simp [State.modSched, off_ite, foldl_off]
@[simp] theorem State.setTurn_off {M : Nat} (s : State) (p : Nat) (t : Option TurnSt) (hM : 0x4000000 ||| M = M) :
    (State.setTurn s p t).off M = s.off M := by
  refine off_mono ?_ hM
  simp [State.setTurn, off_ite, foldl_off]
@[simp] theorem State.setWload_off {M : Nat} (s : State) (p : Nat) (w : Option WLoad) (hM : 0x4000000 ||| M = M) :
    (State.setWload s p w).off M = s.off M := by
  refine off_mono ?_ hM
  simp [State.setWload, off_ite, foldl_off]
@[simp] theorem State.schedErr_off {M : Nat} (s : State) (p code cls round peer : Nat) (hM : 0x100041916 ||| M = M) :
    (State.schedErr s p code cls round peer).off M = s.off M := by
  refine off_mono ?_ hM
  simp [State.schedErr, off_ite]
@[simp] theorem State.finishKind_off {M : Nat} (s : State) (p : Nat) (k : PendKind) (status : Nat) (hM : 0x3a00 ||| M = M) :
    (State.finishKind s p k status).off M = s.off M := by
  refine off_mono ?_ hM
  simp [State.finishKind]
@[simp] theorem State.freeStep_off {M : Nat} (s : State) (p step : Nat) (hM : 0x800000 ||| M = M) :
    (State.freeStep s p step).off M = s.off M := by
  refine off_mono ?_ hM
  simp [State.freeStep, off_ite, foldl_off]
@[simp] theorem State.closeBatches_off {M : Nat} (s : State) (p : Nat) (f : Batch → Bool) (nums : List Nat) (hM : 0x101841916 ||| M = M) :
    (State.closeBatches s p f nums).off M = s.off M := by
  refine off_mono ?_ hM
  simp [State.closeBatches]
@[simp] theorem State.batchClose_off {M : Nat} (s : State) (post : Post) (hM : 0x101941b16 ||| M = M) :
    (State.batchClose s post).off M = s.off M := by
  refine off_mono ?_ hM
  simp [State.batchClose]
@[simp] theorem State.movePointer_off {M : Nat} (s : State) (p step : Nat) (f4 : Bool) (hM : 0x4 ||| M = M) :
    (State.movePointer s p step f4).off M = s.off M := by
  refine off_mono ?_ hM
  simp [State.movePointer]
@[simp] theorem State.wptrSet_off {M : Nat} (s : State) (post : Post) (hM : 0x101a04 ||| M = M) :
    (State.wptrSet s post).off M = s.off M := by
  refine off_mono ?_ hM
  simp [State.wptrSet, off_ite]
@[simp] theorem State.postInternal_off {M : Nat} (s : State) (p g q : Nat) (d : CollDesc) (hM : 0x10a04199e ||| M = M) :
    (State.postInternal s p g q d).off M = s.off M := by
  refine off_mono ?_ hM
  simp [State.postInternal, off_ite]
@[simp] theorem State.dropInternal_off {M : Nat} (s : State) (p name status : Nat) (hM : 0x10a04199e ||| M = M) :
    (State.dropInternal s p name status).off M = s.off M := by
  refine off_mono ?_ hM
  unfold State.dropInternal; split <;> simp [off_ite]
@[simp] theorem State.endTurn_off {M : Nat} (s : State) (p : Nat) (t : TurnSt) (status coll : Nat) (hM : 0x10e843b9e ||| M = M) :
    (State.endTurn s p t status coll).off M = s.off M := by
  refine off_mono ?_ hM
  simp [State.endTurn]
@[simp] theorem State.castVote_off {M : Nat} (s : State) (p : Nat) (t : TurnSt) (code : Nat) (hM : 0x4000004 ||| M = M) :
    (State.castVote s p t code).off M = s.off M := by
  refine off_mono ?_ hM
  simp [State.castVote, off_ite, foldl_off]
@[simp] theorem State.turnCheck_off {M : Nat} (s : State) (p : Nat) (hM : 0x4000004 ||| M = M) :
    (State.turnCheck s p).off M = s.off M := by
  refine off_mono ?_ hM
  unfold State.turnCheck; (try dsimp only); (repeat' split) <;> simp [off_ite, fst_ite, foldl_off]
@[simp] theorem State.turnPost_off {M : Nat} (s : State) (post : Post) (rollout : Bool) (hM : 0x10f943b9e ||| M = M) :
    (State.turnPost s post rollout).off M = s.off M := by
  refine off_mono ?_ hM
  unfold State.turnPost; (try dsimp only); (repeat' split) <;> (try simp [off_ite, fst_ite, foldl_off]) <;> refine State.gate_off _ _ _ _ _ ?_ rfl <;> intros <;> (try dsimp only) <;> (repeat' split) <;> simp [off_ite, fst_ite, foldl_off]
@[simp] theorem State.turnQuiesced_off {M : Nat} (s : State) (p : Nat) (hM : 0x4000004 ||| M = M) :
    (State.turnQuiesced s p).off M = s.off M := by
  refine off_mono ?_ hM
  unfold State.turnQuiesced; split <;> simp [off_ite]
@[simp] theorem State.turnTimeout_off {M : Nat} (s : State) (p : Nat) (hM : 0x4000004 ||| M = M) :
    (State.turnTimeout s p).off M = s.off M := by
  refine off_mono ?_ hM
  unfold State.turnTimeout; split <;> simp [off_ite]
@[simp] theorem State.startRound_off {M : Nat} (s : State) (p : Nat) (t : TurnSt) (hM : 0x6000004 ||| M = M) :
    (State.startRound s p t).off M = s.off M := by
  refine off_mono ?_ hM
  unfold State.startRound; (try dsimp only); (repeat' split) <;> simp [off_ite, fst_ite, foldl_off]
@[simp] theorem State.carveFail_off {M : Nat} (s : State) (p : Nat) (t : TurnSt) (code : Nat) (peer : Option Nat) (hM : 0x10e843b9e ||| M = M) :
    (State.carveFail s p t code peer).off M = s.off M := by
  refine off_mono ?_ hM
  simp [State.carveFail]
@[simp] theorem State.carveShare_off {M : Nat} (s : State) (p : Nat) (t : TurnSt) (mibs : Nat) (hM : 0x2000000 ||| M = M) :
    (State.carveShare s p t mibs).off M = s.off M := by
  refine off_mono ?_ hM
  unfold State.carveShare; (try dsimp only); (repeat' split) <;> simp [off_ite, fst_ite, foldl_off]
@[simp] theorem State.carveDone_off {M : Nat} (s : State) (p : Nat) (t : TurnSt) (hM : 0x6000004 ||| M = M) :
    (State.carveDone s p t).off M = s.off M := by
  refine off_mono ?_ hM
  simp [State.carveDone]
@[simp] theorem State.carveStart_off {M : Nat} (s : State) (p : Nat) (hM : 0x6000004 ||| M = M) :
    (State.carveStart s p).off M = s.off M := by
  refine off_mono ?_ hM
  unfold State.carveStart; (try dsimp only); (repeat' split) <;> simp [off_ite, fst_ite, foldl_off]
@[simp] theorem State.turnVote_off {M : Nat} (s : State) (p : Nat) (votes : List Vote) (hM : 0x10e843b9e ||| M = M) :
    (State.turnVote s p votes).off M = s.off M := by
  refine off_mono ?_ hM
  unfold State.turnVote; repeat' split <;> simp [off_ite, foldl_off]
@[simp] theorem State.writeChunk_off {M : Nat} (s : State) (p : Nat) (t : TurnSt) (h : HeldChunk) (hM : 0x8000098 ||| M = M) :
    (State.writeChunk s p t h).off M = s.off M := by
  refine off_mono ?_ hM
  unfold State.writeChunk; split <;> simp
@[simp] theorem State.writeHeld_off {M : Nat} (s : State) (p : Nat) (t : TurnSt) (hM : 0xc000098 ||| M = M) :
    (State.writeHeld s p t).off M = s.off M := by
  refine off_mono ?_ hM
  simp [State.writeHeld, off_ite, foldl_off]
@[simp] theorem State.carveData_off {M : Nat} (s : State) (p xid k src : Nat) (data : List (Byte × Bool)) (hM : 0xe00009c ||| M = M) :
    (State.carveData s p xid k src data).off M = s.off M := by
  refine off_mono ?_ hM
  unfold State.carveData; (try dsimp only); (repeat' split) <;> simp [off_ite, fst_ite, foldl_off]
@[simp] theorem State.carveBarrier_off {M : Nat} (s : State) (p status : Nat) (hM : 0x10e843b9e ||| M = M) :
    (State.carveBarrier s p status).off M = s.off M := by
  refine off_mono ?_ hM
  unfold State.carveBarrier; split <;> simp [off_ite]
@[simp] theorem State.carveWrites_off {M : Nat} (s : State) (p : Nat) (hM : 0x6000004 ||| M = M) :
    (State.carveWrites s p).off M = s.off M := by
  refine off_mono ?_ hM
  unfold State.carveWrites; split <;> simp [off_ite]
@[simp] theorem State.narrow_off {M : Nat} (s : State) (p : Nat) (base : Nat) (t : F4Tensor) (hM : 0x8000098 ||| M = M) :
    (State.narrow s p base t).off M = s.off M := by
  refine off_mono ?_ hM
  simp [State.narrow, off_ite, foldl_off]
@[simp] theorem State.setStage_off {M : Nat} (s : State) (k : Nat) (x : StageSt) (hM : 0x4000000 ||| M = M) :
    (State.setStage s k x).off M = s.off M := by
  refine off_mono ?_ hM
  simp [State.setStage, off_ite, foldl_off]
@[simp] theorem State.installQueues_off {M : Nat} (s : State) (p : Nat) (qs : List (StageQ × Fin 65)) (hM : 0x4000000 ||| M = M) :
    (State.installQueues s p qs).off M = s.off M := by
  refine off_mono ?_ hM
  simp [State.installQueues, off_ite, foldl_off]
@[simp] theorem State.installCores_off {M : Nat} (s : State) (p : Nat) (m : Mapping) (hM : 0x1000024 ||| M = M) :
    (State.installCores s p m).off M = s.off M := by
  refine off_mono ?_ hM
  simp [State.installCores, off_ite, foldl_off]
@[simp] theorem State.installMapping_off {M : Nat} (s : State) (p : Nat) (m : Mapping) (hM : 0x5000024 ||| M = M) :
    (State.installMapping s p m).off M = s.off M := by
  refine off_mono ?_ hM
  simp [State.installMapping, off_ite, foldl_off]
@[simp] theorem State.installFail_off {M : Nat} (s : State) (p : Nat) (t : TurnSt) (hM : 0x10e843b9e ||| M = M) :
    (State.installFail s p t).off M = s.off M := by
  refine off_mono ?_ hM
  simp [State.installFail, off_ite]
@[simp] theorem State.turnInstall_off {M : Nat} (s : State) (p : Nat) (m : Option Mapping) (hM : 0x10f843bbe ||| M = M) :
    (State.turnInstall s p m).off M = s.off M := by
  refine off_mono ?_ hM
  unfold State.turnInstall; (try dsimp only); (repeat' split) <;> simp [off_ite, fst_ite, foldl_off]
@[simp] theorem State.turnFinal_off {M : Nat} (s : State) (p status : Nat) (hM : 0x10e843b9e ||| M = M) :
    (State.turnFinal s p status).off M = s.off M := by
  refine off_mono ?_ hM
  unfold State.turnFinal; split <;> simp [off_ite]
@[simp] theorem State.weightLoad_off {M : Nat} (s : State) (post : Post) (m : Option Mapping) (hM : 0x10e147b9e ||| M = M) :
    (State.weightLoad s post m).off M = s.off M := by
  refine off_mono ?_ hM
  unfold State.weightLoad; refine State.gate_off _ _ _ _ _ ?_ rfl; intros; (try dsimp only); (repeat' split) <;> simp [off_ite, fst_ite, foldl_off]
@[simp] theorem State.endLoad_off {M : Nat} (s : State) (p : Nat) (l : WLoad) (status : Nat) (hM : 0x10e947b9e ||| M = M) :
    (State.endLoad s p l status).off M = s.off M := by
  refine off_mono ?_ hM
  simp [State.endLoad]
@[simp] theorem State.openExchange_off {M : Nat} (s : State) (p g q : Nat) (agree : Bool) (peer : Nat) (peers : List OpenPeer) (hM : 0x10e947b9e ||| M = M) :
    (State.openExchange s p g q agree peer peers).off M = s.off M := by
  refine off_mono ?_ hM
  unfold State.openExchange; (try dsimp only); (repeat' split) <;> simp [off_ite, fst_ite, foldl_off]
@[simp] theorem State.keepFrag_off {M : Nat} (s : State) (p stripe k : Nat) (d : List Byte) (hM : 0x4200002 ||| M = M) :
    (State.keepFrag s p stripe k d).off M = s.off M := by
  refine off_mono ?_ hM
  unfold State.keepFrag; refine off_if rfl ?_; split
  · rename_i e; have h := State.newObj_off (M := 0x4200002) _ _ _ e rfl
    simp only at h; simp [h]
  · rfl
@[simp] theorem State.keepStripe_off {M : Nat} (s : State) (p : Nat) (l : WLoad) (j : Nat) (hM : 0x4200002 ||| M = M) :
    (State.keepStripe s p l j).off M = s.off M := by
  refine off_mono ?_ hM
  simp [State.keepStripe, off_ite, foldl_off]
@[simp] theorem State.placeSeg_off {M : Nat} (s : State) (p : Nat) (l : WLoad) (h : Payload) (data : List Byte) (hM : 0x8000098 ||| M = M) :
    (State.placeSeg s p l h data).off M = s.off M := by
  refine off_mono ?_ hM
  simp [State.placeSeg, off_ite, foldl_off]
@[simp] theorem State.takeSeg_off {M : Nat} (s : State) (p : Nat) (l : WLoad) (seg : Nat) (h : Payload) (data : List Byte) (hM : 0xc20009a ||| M = M) :
    (State.takeSeg s p l seg h data).off M = s.off M := by
  refine off_mono ?_ hM
  simp [State.takeSeg, off_ite, foldl_off]
@[simp] theorem State.sendSeg_off {M : Nat} (s : State) (p : Nat) (l : WLoad) (seg n : Nat) (hM : 0x10a44199e ||| M = M) :
    (State.sendSeg s p l seg n).off M = s.off M := by
  refine off_mono ?_ hM
  simp [State.sendSeg, off_ite, foldl_off]
@[simp] theorem State.gondola_off {M : Nat} (s : State) (p seg : Nat) (how : SegFrom) (hM : 0x10ef47b9e ||| M = M) :
    (State.gondola s p seg how).off M = s.off M := by
  refine off_mono ?_ hM
  unfold State.gondola; repeat' split <;> simp [off_ite, foldl_off]
@[simp] theorem State.loadPublish_off {M : Nat} (s : State) (p : Nat) (codes : List (BitVec 16)) (hM : 0x10eb47b9e ||| M = M) :
    (State.loadPublish s p codes).off M = s.off M := by
  refine off_mono ?_ hM
  unfold State.loadPublish; split <;> simp [off_ite]
@[simp] theorem State.gatherStart_off {M : Nat} (s : State) (p : Nat) (k : MbKey) (layer tensor computing seq : Nat) (hM : 0x10a04199e ||| M = M) :
    (State.gatherStart s p k layer tensor computing seq).off M = s.off M := by
  refine off_mono ?_ hM
  unfold State.gatherStart; (try dsimp only); (repeat' split) <;> simp [off_ite, fst_ite, foldl_off]
@[simp] theorem State.stageSend_off {M : Nat} (s : State) (p : Nat) (q : StageQ) (k : MbKey) (us : Nat) (hM : 0x4800000 ||| M = M) :
    (State.stageSend s p q k us).off M = s.off M := by
  refine off_mono ?_ hM
  unfold State.stageSend; (try dsimp only); (repeat' split) <;> simp [off_ite, fst_ite, foldl_off]
@[simp] theorem State.stageArrive_off {M : Nat} (s : State) (p : Nat) (q : StageQ) (e : MbKey) (hM : 0x4000000 ||| M = M) :
    (State.stageArrive s p q e).off M = s.off M := by
  refine off_mono ?_ hM
  unfold State.stageArrive; (try dsimp only); (repeat' split) <;> simp [off_ite, fst_ite, foldl_off]
@[simp] theorem State.stageReturn_off {M : Nat} (s : State) (p : Nat) (q : StageQ) (us : Nat) (hM : 0x4000000 ||| M = M) :
    (State.stageReturn s p q us).off M = s.off M := by
  refine off_mono ?_ hM
  unfold State.stageReturn; repeat' split <;> simp [off_ite, foldl_off]
@[simp] theorem State.internalClosed_off {M : Nat} (s : State) (p g q : Nat) (codes : List (BitVec 16)) (hM : 0x10e947b9e ||| M = M) :
    (State.internalClosed s p g q codes).off M = s.off M := by
  refine off_mono ?_ hM
  unfold State.internalClosed; repeat' split <;> simp [off_ite, foldl_off]
@[simp] theorem State.groupTimeout_off {M : Nat} (s : State) (p g q : Nat) (found : ProbeFind) (peer : Nat) (hM : 0x10e843b9e ||| M = M) :
    (State.groupTimeout s p g q found peer).off M = s.off M := by
  refine off_mono ?_ hM
  unfold State.groupTimeout; (try dsimp only); (repeat' split) <;> simp [off_ite, fst_ite, foldl_off]
@[simp] theorem State.permute_off {M : Nat} (s : State) (by_ : Poster) (hM : 0x10e04199e ||| M = M) :
    (State.permute s by_).off M = s.off M := by
  refine off_mono ?_ hM
  unfold State.permute; (try dsimp only); (repeat' split) <;> simp [off_ite, fst_ite, foldl_off]
@[simp] theorem State.closingRound_off {M : Nat} (s : State) (p g q : Nat) (codes : List (BitVec 16)) (noise : List (NoiseSum × NoiseSum)) (hM : 0x10e947b9e ||| M = M) :
    (State.closingRound s p g q codes noise).off M = s.off M := by
  refine off_mono ?_ hM
  unfold State.closingRound; split <;> simp [off_ite]
@[simp] theorem State.turnAbort_off {M : Nat} (s : State) (p : Nat) (hM : 0x10e947b9e ||| M = M) :
    (State.turnAbort s p).off M = s.off M := by
  refine off_mono ?_ hM
  unfold State.turnAbort; repeat' split <;> simp [off_ite, foldl_off]
@[simp] theorem State.schedForget_off {M : Nat} (s : State) (p : Nat) (hM : 0x5200004 ||| M = M) :
    (State.schedForget s p).off M = s.off M := by
  refine off_mono ?_ hM
  simp [State.schedForget, off_ite, foldl_off]

/-! ## Update -/

@[simp] theorem State.setUpd_off {M : Nat} (s : State) (p : Nat) (u : UpdSt) (hM : 0x8000000 ||| M = M) :
    (State.setUpd s p u).off M = s.off M := by
  refine off_mono ?_ hM
  simp [State.setUpd, off_ite, foldl_off]
@[simp] theorem State.updErr_off {M : Nat} (s : State) (p code cls layer entry : Nat) (f : Nat → Bool) (hM : 0x100041916 ||| M = M) :
    (State.updErr s p code cls layer entry f).off M = s.off M := by
  refine off_mono ?_ hM
  simp [State.updErr, off_ite, foldl_off]
@[simp] theorem State.updEnd_off {M : Nat} (s : State) (p : Nat) (u : UpdSt) (stage status : Nat) (hM : 0x8003a04 ||| M = M) :
    (State.updEnd s p u stage status).off M = s.off M := by
  refine off_mono ?_ hM
  simp [State.updEnd, off_ite, foldl_off]
@[simp] theorem State.updFail_off {M : Nat} (s : State) (p : Nat) (u : UpdSt) (code cls layer entry : Nat) (hM : 0x108043b16 ||| M = M) :
    (State.updFail s p u code cls layer entry).off M = s.off M := by
  refine off_mono ?_ hM
  simp [State.updFail]
@[simp] theorem State.updPost_off {M : Nat} (s : State) (post : Post) (hM : 0x108143b16 ||| M = M) :
    (State.updPost s post).off M = s.off M := by
  refine off_mono ?_ hM
  unfold State.updPost; refine State.gate_off _ _ _ _ _ ?_ rfl; intros; (try dsimp only); (repeat' split) <;> simp [off_ite, fst_ite, foldl_off]
@[simp] theorem State.intakeCheck_off {M : Nat} (s : State) (hM : 0x108043b16 ||| M = M) :
    (State.intakeCheck s).off M = s.off M := by
  refine off_mono ?_ hM
  unfold State.intakeCheck; refine foldl_off _ (fun s p => ?_) _ _
  split
  · (repeat' split) <;> simp
  · rfl
@[simp] theorem State.gradLine_off {M : Nat} (s : State) (p a : Nat) (data : List (Byte × Bool)) (hM : 0x108043b9e ||| M = M) :
    (State.gradLine s p a data).off M = s.off M := by
  refine off_mono ?_ hM
  unfold State.gradLine; repeat' split <;> simp [off_ite, foldl_off]
@[simp] theorem State.pass1Done_off {M : Nat} (s : State) (p : Nat) (hM : 0x10a043b9e ||| M = M) :
    (State.pass1Done s p).off M = s.off M := by
  refine off_mono ?_ hM
  unfold State.pass1Done; repeat' split <;> simp [off_ite, foldl_off]
@[simp] theorem State.normDone_off {M : Nat} (s : State) (p status : Nat) (peers : List NormPeer) (hM : 0x10a843b9e ||| M = M) :
    (State.normDone s p status peers).off M = s.off M := by
  refine off_mono ?_ hM
  unfold State.normDone; (try dsimp only); (repeat' split) <;> simp [off_ite, fst_ite, foldl_off]
@[simp] theorem State.laneStep_off {M : Nat} (s : State) (p : Nat) (u : UpdSt) (e : UpdEnt) (i elem : Nat) (hM : 0x108043b9e ||| M = M) :
    (State.laneStep s p u e i elem).off M = s.off M := by
  refine off_mono ?_ hM
  unfold State.laneStep; simp only []; split <;> simp [off_ite, foldl_off]
@[simp] theorem State.updInstr_off {M : Nat} (s : State) (p op i elem : Nat) (hM : 0x108043b9e ||| M = M) :
    (State.updInstr s p op i elem).off M = s.off M := by
  refine off_mono ?_ hM
  unfold State.updInstr; repeat' split <;> simp [off_ite, foldl_off]
@[simp] theorem State.laneRun_off {M : Nat} (s : State) (p i elem : Nat) (x0 : Nat) (hM : 0x108043b9e ||| M = M) :
    (State.laneRun s p i elem x0).off M = s.off M := by
  refine off_mono ?_ hM
  induction x0 generalizing s p i elem  with
  | zero => simp [State.laneRun]
  | succ n ih =>
    rw [State.laneRun]; repeat' split <;> simp [ih, off_ite, foldl_off]
@[simp] theorem State.pass2Done_off {M : Nat} (s : State) (p layer : Nat) (hM : 0x10a043b9e ||| M = M) :
    (State.pass2Done s p layer).off M = s.off M := by
  refine off_mono ?_ hM
  unfold State.pass2Done; dsimp only
  repeat' split
  all_goals try rfl
  all_goals (try simp); exact foldl_off _ (fun s i => by split <;> simp [foldl_off]) _ _
@[simp] theorem State.amaxDone_off {M : Nat} (s : State) (p layer : Nat) (peers : List (BitVec 32)) (hM : 0x10a043b9e ||| M = M) :
    (State.amaxDone s p layer peers).off M = s.off M := by
  refine off_mono ?_ hM
  unfold State.amaxDone; (try dsimp only); (repeat' split) <;> simp [off_ite, fst_ite, foldl_off]
@[simp] theorem State.updClaim_off {M : Nat} (s : State) (p layer : Nat) (hM : 0x8800000 ||| M = M) :
    (State.updClaim s p layer).off M = s.off M := by
  refine off_mono ?_ hM
  unfold State.updClaim; split <;> simp [off_ite]
@[simp] theorem State.returnTensor_off {M : Nat} (s : State) (p : Nat) (u : UpdSt) (e : UpdEnt) (first : Nat) (t : UpdTens) (hM : 0x8000098 ||| M = M) :
    (State.returnTensor s p u e first t).off M = s.off M := by
  refine off_mono ?_ hM
  simp [State.returnTensor]
@[simp] theorem State.returnEnt_off {M : Nat} (s : State) (p : Nat) (u : UpdSt) (e : UpdEnt) (first : Nat) (x0 : List UpdTens) (hM : 0x8000098 ||| M = M) :
    (State.returnEnt s p u e first x0).off M = s.off M := by
  refine off_mono ?_ hM
  induction x0 generalizing s p u e first  with
  | nil => simp [State.returnEnt]
  | cons x t ih => simp [State.returnEnt, ih, off_ite, foldl_off]
@[simp] theorem State.applied_off {M : Nat} (s : State) (p : Nat) (hM : 0x800000 ||| M = M) :
    (State.applied s p).off M = s.off M := by
  refine off_mono ?_ hM
  unfold State.applied; (try dsimp only); (repeat' split) <;> simp [off_ite, fst_ite, foldl_off]
@[simp] theorem State.returnDone_off {M : Nat} (s : State) (p layer : Nat) (hM : 0x10c843b9e ||| M = M) :
    (State.returnDone s p layer).off M = s.off M := by
  refine off_mono ?_ hM
  unfold State.returnDone; repeat' split <;> simp [off_ite, foldl_off]
@[simp] theorem State.collClosing_off {M : Nat} (s : State) (p g q : Nat) (codes : List (BitVec 16)) (noise : List (NoiseSum × NoiseSum)) (hM : 0x10e947b9e ||| M = M) :
    (State.collClosing s p g q codes noise).off M = s.off M := by
  refine off_mono ?_ hM
  unfold State.collClosing; split <;> simp [off_ite]
@[simp] theorem State.updAbort_off {M : Nat} (s : State) (p : Nat) (hM : 0x8003a04 ||| M = M) :
    (State.updAbort s p).off M = s.off M := by
  refine off_mono ?_ hM
  unfold State.updAbort; split <;> simp [off_ite]
@[simp] theorem State.updForget_off {M : Nat} (s : State) (p : Nat) (hM : 0x8000004 ||| M = M) :
    (State.updForget s p).off M = s.off M := by
  refine off_mono ?_ hM
  simp [State.updForget, off_ite, foldl_off]

/-! ## Fabric -/

@[simp] theorem State.portErr_off {M : Nat} (s : State) (p code cls : Nat) (hM : 0x100040806 ||| M = M) :
    (State.portErr s p code cls).off M = s.off M := by
  refine off_mono ?_ hM
  simp [State.portErr]
@[simp] theorem State.fabErr_off {M : Nat} (s : State) (code cls module : Nat) (hM : 0x100040806 ||| M = M) :
    (State.fabErr s code cls module).off M = s.off M := by
  refine off_mono ?_ hM
  simp [State.fabErr]
@[simp] theorem State.routed_off {M : Nat} (s : State) (hM : 0x6 ||| M = M) :
    (State.routed s).off M = s.off M := by
  refine off_mono ?_ hM
  simp [State.routed]
@[simp] theorem State.countMods_off {M : Nat} (s : State) (hM : 0x4 ||| M = M) :
    (State.countMods s).off M = s.off M := by
  refine off_mono ?_ hM
  simp [State.countMods]
@[simp] theorem State.flood_off {M : Nat} (s : State) (hM : 0x10a44199e ||| M = M) :
    (State.flood s).off M = s.off M := by
  refine off_mono ?_ hM
  simp [State.flood, off_ite, foldl_off]
@[simp] theorem State.portLeave_off {M : Nat} (s : State) (p st : Nat) (hM : 0x10a44199e ||| M = M) :
    (State.portLeave s p st).off M = s.off M := by
  refine off_mono ?_ hM
  simp [State.portLeave, off_ite, foldl_off]
@[simp] theorem State.portRetrain_off {M : Nat} (s : State) (p : Nat) (hM : 0x18a44199e ||| M = M) :
    (State.portRetrain s p).off M = s.off M := by
  refine off_mono ?_ hM
  simp [State.portRetrain, off_ite, foldl_off]
@[simp] theorem State.portLoss_off {M : Nat} (s : State) (p st : Nat) (hM : 0x10a44199e ||| M = M) :
    (State.portLoss s p st).off M = s.off M := by
  refine off_mono ?_ hM
  simp [State.portLoss, off_ite]
@[simp] theorem State.portEnable_off {M : Nat} (s : State) (p : Nat) (hM : 0x4 ||| M = M) :
    (State.portEnable s p).off M = s.off M := by
  refine off_mono ?_ hM
  simp [State.portEnable, off_ite]
@[simp] theorem State.portDisable_off {M : Nat} (s : State) (p : Nat) (hM : 0x10a44199e ||| M = M) :
    (State.portDisable s p).off M = s.off M := by
  refine off_mono ?_ hM
  simp [State.portDisable]
@[simp] theorem State.signalDetect_off {M : Nat} (s : State) (p : Nat) (hM : 0x4 ||| M = M) :
    (State.signalDetect s p).off M = s.off M := by
  refine off_mono ?_ hM
  simp [State.signalDetect, off_ite]
@[simp] theorem State.trainingDone_off {M : Nat} (s : State) (p : Nat) (hM : 0x400006 ||| M = M) :
    (State.trainingDone s p).off M = s.off M := by
  refine off_mono ?_ hM
  simp [State.trainingDone, off_ite]
@[simp] theorem State.trainingFail_off {M : Nat} (s : State) (p : Nat) (hM : 0x100440806 ||| M = M) :
    (State.trainingFail s p).off M = s.off M := by
  refine off_mono ?_ hM
  simp [State.trainingFail, off_ite]
@[simp] theorem State.quarantine_off {M : Nat} (s : State) (p reason code : Nat) (hM : 0x100040806 ||| M = M) :
    (State.quarantine s p reason code).off M = s.off M := by
  refine off_mono ?_ hM
  simp [State.quarantine]
@[simp] theorem State.portActive_off {M : Nat} (s : State) (p : Nat) (hM : 0x10a44199e ||| M = M) :
    (State.portActive s p).off M = s.off M := by
  refine off_mono ?_ hM
  simp [State.portActive, off_ite]
@[simp] theorem State.probe_off {M : Nat} (s : State) (p : Nat) (f : ProbeF) (tagOk : Bool) (hM : 0x10a44199e ||| M = M) :
    (State.probe s p f tagOk).off M = s.off M := by
  refine off_mono ?_ hM
  unfold State.probe; repeat' split <;> simp [off_ite, foldl_off]
@[simp] theorem State.probeAck_off {M : Nat} (s : State) (p : Nat) (chal : Word) (tagOk : Bool) (hM : 0x10a44199e ||| M = M) :
    (State.probeAck s p chal tagOk).off M = s.off M := by
  refine off_mono ?_ hM
  simp [State.probeAck, off_ite]
@[simp] theorem State.probeTimeout_off {M : Nat} (s : State) (p : Nat) (hM : 0x4 ||| M = M) :
    (State.probeTimeout s p).off M = s.off M := by
  refine off_mono ?_ hM
  simp [State.probeTimeout, off_ite]
@[simp] theorem State.lossOfSignal_off {M : Nat} (s : State) (p : Nat) (hM : 0x10a44199e ||| M = M) :
    (State.lossOfSignal s p).off M = s.off M := by
  refine off_mono ?_ hM
  simp [State.lossOfSignal, off_ite]
@[simp] theorem State.fecErrors_off {M : Nat} (s : State) (p corrected uncorrectable : Nat) (hM : 0x18a44199e ||| M = M) :
    (State.fecErrors s p corrected uncorrectable).off M = s.off M := by
  refine off_mono ?_ hM
  simp [State.fecErrors, off_ite]
@[simp] theorem State.failedHoldoff_off {M : Nat} (s : State) (p : Nat) (hM : 0x4 ||| M = M) :
    (State.failedHoldoff s p).off M = s.off M := by
  refine off_mono ?_ hM
  simp [State.failedHoldoff, off_ite]
@[simp] theorem State.waxDue_off {M : Nat} (s : State) (p : Nat) (hM : 0x10a44199e ||| M = M) :
    (State.waxDue s p).off M = s.off M := by
  refine off_mono ?_ hM
  simp [State.waxDue, off_ite, foldl_off]
@[simp] theorem State.waxDone_off {M : Nat} (s : State) (p : Nat) (ok : Bool) (ns : Nat) (hM : 0x18a44199e ||| M = M) :
    (State.waxDone s p ok ns).off M = s.off M := by
  refine off_mono ?_ hM
  simp [State.waxDone, off_ite]
@[simp] theorem State.dropMsg_off {M : Nat} (s : State) (src : Nat) (hM : 0x100040806 ||| M = M) :
    (State.dropMsg s src).off M = s.off M := by
  refine off_mono ?_ hM
  simp [State.dropMsg]
@[simp] theorem State.quarantineAll_off {M : Nat} (s : State) (hM : 0x10a44199e ||| M = M) :
    (State.quarantineAll s).off M = s.off M := by
  refine off_mono ?_ hM
  simp [State.quarantineAll, off_ite, foldl_off]
@[simp] theorem State.topologyUpdate_off {M : Nat} (s : State) (p : Nat) (u : TopoUpd) (tagOk : Bool) (hM : 0x10a44199e ||| M = M) :
    (State.topologyUpdate s p u tagOk).off M = s.off M := by
  refine off_mono ?_ hM
  simp [State.topologyUpdate, off_ite, foldl_off]
@[simp] theorem State.reachAdvert_off {M : Nat} (s : State) (p : Nat) (racks : List Nat) (seq : Nat) (hM : 0x10a44199e ||| M = M) :
    (State.reachAdvert s p racks seq).off M = s.off M := by
  refine off_mono ?_ hM
  simp [State.reachAdvert, off_ite]
@[simp] theorem State.replay_off {M : Nat} (s : State) (p : Nat) (hM : 0x18a44199e ||| M = M) :
    (State.replay s p).off M = s.off M := by
  refine off_mono ?_ hM
  simp [State.replay, off_ite]
@[simp] theorem State.flit_off {M : Nat} (s : State) (p : Nat) (h : FlitHdr) (crcOk : Bool) (hM : 0x18a44199e ||| M = M) :
    (State.flit s p h crcOk).off M = s.off M := by
  refine off_mono ?_ hM
  simp [State.flit, off_ite]
@[simp] theorem State.ethFrame_off {M : Nat} (s : State) (p : Nat) (ok : Bool) (version : Nat) (flits : List (FlitHdr × Bool)) (hM : 0x18a44199e ||| M = M) :
    (State.ethFrame s p ok version flits).off M = s.off M := by
  refine off_mono ?_ hM
  simp [State.ethFrame, off_ite, foldl_off]
@[simp] theorem State.pfcPause_off {M : Nat} (s : State) (p : Nat) (pcp : BitVec 8) (quanta : Nat) (hM : 0x10a44199e ||| M = M) :
    (State.pfcPause s p pcp quanta).off M = s.off M := by
  refine off_mono ?_ hM
  simp [State.pfcPause, off_ite]
@[simp] theorem State.deliver_off {M : Nat} (s : State) (port : Nat) (h : THdr) (tagOk : Bool) (k : State → Job → State) (hk : ∀ (y0 : State) (y1 : Job), (k y0 y1).off M = y0.off M) (hM : 0x10a44199e ||| M = M) :
    (State.deliver s port h tagOk k).off M = s.off M := by
  have h0 : ∀ a, (s.send a).off M = s.off M := fun a => State.send_off _ _ (off_sub hM (by decide))
  have h1 : ∀ (x : State) a, (x.dropMsg a).off M = x.off M := fun x a => State.dropMsg_off _ _ (off_sub hM (by decide))
  have h2 : ∀ (x : State) f n, (x.count f n).off M = x.off M := fun x f n => State.count_off _ _ _ (off_sub hM (by decide))
  have h3 : ∀ (x : State) r, State.off M { x with fab := { x.fab with recv := r } } = x.off M := fun x r => off_mono (m := 0x400000) (by simp) (off_sub hM (by decide))
  unfold State.deliver; dsimp only
  refine off_if rfl (off_if (h0 _) (off_if (h1 _ _) (off_if (h2 _ _ _) ?_)))
  split
  · rw [hk, h3]
  · exact h3 _ _
@[simp] theorem State.ackChunk_off {M : Nat} (s : State) (j : Job) (h : THdr) (xid : Nat) (hM : 0x10a44199e ||| M = M) :
    (State.ackChunk s j h xid).off M = s.off M := by
  refine off_mono ?_ hM
  simp [State.ackChunk, off_ite, foldl_off]
@[simp] theorem State.takeChunk_off {M : Nat} (s : State) (p g q k src : Nat) (x0 : ChunkData) (hM : 0x10e04199e ||| M = M) :
    (State.takeChunk s p g q k src x0).off M = s.off M := by
  refine off_mono ?_ hM
  cases x0 <;> simp [State.takeChunk]
@[simp] theorem State.chunkArrive_off {M : Nat} (s : State) (port : Nat) (h : THdr) (tagOk : Bool) (d : ChunkData) (hM : 0x10e44199e ||| M = M) :
    (State.chunkArrive s port h tagOk d).off M = s.off M := by
  refine off_mono ?_ hM
  unfold State.chunkArrive; repeat' split <;> simp [off_ite, foldl_off]
@[simp] theorem State.smallToken_off {M : Nat} (s : State) (port : Nat) (h : THdr) (tagOk : Bool) (t : SmallTok) (hM : 0x10a44199e ||| M = M) :
    (State.smallToken s port h tagOk t).off M = s.off M := by
  refine off_mono ?_ hM
  unfold State.smallToken; refine State.deliver_off _ _ _ _ _ ?_ rfl; intros; (try dsimp only); (repeat' split) <;> simp [off_ite, fst_ite, foldl_off]
@[simp] theorem State.modColl_off {M : Nat} (s : State) (p g q : Nat) (f : Coll → Coll) (hM : 0x2000000 ||| M = M) :
    (State.modColl s p g q f).off M = s.off M := by
  refine off_mono ?_ hM
  unfold State.modColl; split <;> simp
@[simp] theorem State.chunkRequest_off {M : Nat} (s : State) (port : Nat) (h : THdr) (tagOk : Bool) (hM : 0x10a44199e ||| M = M) :
    (State.chunkRequest s port h tagOk).off M = s.off M := by
  refine off_mono ?_ hM
  unfold State.chunkRequest; refine State.deliver_off _ _ _ _ _ ?_ rfl; intros; (try dsimp only); (repeat' split) <;> simp [off_ite, fst_ite, foldl_off]
@[simp] theorem State.chunkAck_off {M : Nat} (s : State) (port : Nat) (h : THdr) (tagOk : Bool) (hM : 0x10a44199e ||| M = M) :
    (State.chunkAck s port h tagOk).off M = s.off M := by
  refine off_mono ?_ hM
  simp [State.chunkAck]
@[simp] theorem State.answer_off {M : Nat} (s : State) (h : THdr) (a : RemAns) (hM : 0x10a44199e ||| M = M) :
    (State.answer s h a).off M = s.off M := by
  refine off_mono ?_ hM
  simp [State.answer, off_ite, foldl_off]
@[simp] theorem State.serveRemote_off {M : Nat} (s : State) (m : HeldMsg) (hM : 0x10a44199e ||| M = M) :
    (State.serveRemote s m).off M = s.off M := by
  refine off_mono ?_ hM
  unfold State.serveRemote; (try dsimp only); (repeat' split) <;> simp [off_ite, fst_ite, foldl_off]
@[simp] theorem State.takeRemote_off {M : Nat} (s : State) (m : HeldMsg) (hM : 0x10a44199e ||| M = M) :
    (State.takeRemote s m).off M = s.off M := by
  refine off_mono ?_ hM
  simp [State.takeRemote, off_ite, foldl_off]
@[simp] theorem State.serveHeld_off {M : Nat} (s : State) (hM : 0x10a44199e ||| M = M) :
    (State.serveHeld s).off M = s.off M := by
  refine off_mono ?_ hM
  simp [State.serveHeld, off_ite, foldl_off]
@[simp] theorem State.remoteStore_off {M : Nat} (s : State) (port : Nat) (h : THdr) (tagOk : Bool) (data : List (Byte × Bool)) (hM : 0x10a44199e ||| M = M) :
    (State.remoteStore s port h tagOk data).off M = s.off M := by
  refine off_mono ?_ hM
  unfold State.remoteStore; refine State.deliver_off _ _ _ _ _ ?_ rfl; intros; (try dsimp only); (repeat' split) <;> simp [off_ite, fst_ite, foldl_off]
@[simp] theorem State.remoteAtomic_off {M : Nat} (s : State) (port : Nat) (h : THdr) (tagOk : Bool) (op : AOp) (operand expected : Word) (hM : 0x10a44199e ||| M = M) :
    (State.remoteAtomic s port h tagOk op operand expected).off M = s.off M := by
  refine off_mono ?_ hM
  simp [State.remoteAtomic, off_ite]
@[simp] theorem State.endRemote_off {M : Nat} (s : State) (r : Remote) (hM : 0x100 ||| M = M) :
    (State.endRemote s r).off M = s.off M := by
  refine off_mono ?_ hM
  simp [State.endRemote, off_ite, foldl_off]
@[simp] theorem State.refusedRemote_off {M : Nat} (s : State) (r : Remote) (hM : 0x10 ||| M = M) :
    (State.refusedRemote s r).off M = s.off M := by
  refine off_mono ?_ hM
  unfold State.refusedRemote; (try dsimp only); (repeat' split) <;> simp [off_ite, fst_ite, foldl_off]
@[simp] theorem State.storeAck_off {M : Nat} (s : State) (port : Nat) (h : THdr) (tagOk positive : Bool) (hM : 0x10a44199e ||| M = M) :
    (State.storeAck s port h tagOk positive).off M = s.off M := by
  refine off_mono ?_ hM
  unfold State.storeAck; refine State.deliver_off _ _ _ _ _ ?_ rfl; intros; (try dsimp only); (repeat' split) <;> simp [off_ite, fst_ite, foldl_off]
@[simp] theorem State.atomicResult_off {M : Nat} (s : State) (port : Nat) (h : THdr) (tagOk positive : Bool) (old : Word) (hM : 0x10a44199e ||| M = M) :
    (State.atomicResult s port h tagOk positive old).off M = s.off M := by
  refine off_mono ?_ hM
  unfold State.atomicResult; refine State.deliver_off _ _ _ _ _ ?_ rfl; intros; (try dsimp only); (repeat' split) <;> simp [off_ite, fst_ite, foldl_off]
@[simp] theorem State.remoteTimeout_off {M : Nat} (s : State) (ctr key : Nat) (hM : 0x10a44199e ||| M = M) :
    (State.remoteTimeout s ctr key).off M = s.off M := by
  refine off_mono ?_ hM
  unfold State.remoteTimeout; (try dsimp only); (repeat' split) <;> simp [off_ite, fst_ite, foldl_off]

/-! ## Jobs -/

@[simp] theorem State.winEnable_off {M : Nat} (s : State) (b : WinBlock) (p : Nat) (on : Bool) (hM : 0x101841916 ||| M = M) :
    (State.winEnable s b p on).off M = s.off M := by
  refine off_mono ?_ hM
  unfold State.winEnable; split <;> simp [off_ite]
@[simp] theorem State.winWrite_off {M : Nat} (s : State) (b : WinBlock) (p o off : Nat) (v : Word) (hM : 0x101841916 ||| M = M) :
    (State.winWrite s b p o off v).off M = s.off M := by
  refine off_mono ?_ hM
  simp [State.winWrite, off_ite]
@[simp] theorem State.writeGroups_off {M : Nat} (s : State) (base top : Nat) (x0 : List GroupDef) (hM : 0x8000098 ||| M = M) :
    (State.writeGroups s base top x0).off M = s.off M := by
  refine off_mono ?_ hM
  induction x0 generalizing s base top  with
  | nil => simp [State.writeGroups]
  | cons x t ih =>
    rw [State.writeGroups]; repeat' split <;> simp [ih, off_ite, foldl_off]
@[simp] theorem State.buildGroups_off {M : Nat} (s : State) (p r : Nat) (gs : List GroupDef) (hM : 0x800009c ||| M = M) :
    (State.buildGroups s p r gs).off M = s.off M := by
  refine off_mono ?_ hM
  simp [State.buildGroups]
@[simp] theorem State.loadKey_off {M : Nat} (s : State) (id : Nat) (key : BitVec 256) (hM : 0x401000 ||| M = M) :
    (State.loadKey s id key).off M = s.off M := by
  refine off_mono ?_ hM
  unfold State.loadKey; split <;> simp
@[simp] theorem State.clearKey_off {M : Nat} (s : State) (j : Job) (hM : 0x400000 ||| M = M) :
    (State.clearKey s j).off M = s.off M := by
  refine off_mono ?_ hM
  unfold State.clearKey; split <;> simp
@[simp] theorem State.abortWaiting_off {M : Nat} (s : State) (id : Nat) (hM : 0x101343b16 ||| M = M) :
    (State.abortWaiting s id).off M = s.off M := by
  refine off_mono ?_ hM
  unfold State.abortWaiting; dsimp only; rw [State.finish_off _ _ _ _ rfl, foldl_off]
  intro s x; split <;> simp
@[simp] theorem State.resetDone_off {M : Nat} (s : State) (id : Nat) (hM : 0x10fb47b9e ||| M = M) :
    (State.resetDone s id).off M = s.off M := by
  refine off_mono ?_ hM
  unfold State.resetDone; split <;> simp [off_ite]
@[simp] theorem State.installJob_off {M : Nat} (s : State) (port fn r : Nat) (d : JobDesc) (gs : List GroupDef) (rs : List StreamRing) (sets : List (Word × Word)) (talk : List (List Nat)) (hM : 0x109c4199e ||| M = M) :
    (State.installJob s port fn r d gs rs sets talk).off M = s.off M := by
  refine off_mono ?_ hM
  unfold State.installJob
  refine (State.collEnable_off _ _ rfl).trans ((State.rollEnable_off _ _ rfl).trans ((State.trnEnable_off _ _ rfl).trans
    ((State.loadKey_off _ _ _ rfl).trans ((foldl_off _ (fun s x => by simp) _ _).trans ((foldl_off _ (fun s x => by simp) _ _).trans
    ((State.wr_off _ _ _ rfl).trans ((State.buildGroups_off _ _ _ _ rfl).trans ((foldl_off _ (fun s x => ?_) _ _).trans ?_))))))))
  · split <;> simp
  · simp
@[simp] theorem State.jobStart_off {M : Nat} (s : State) (post : Post) (dmaFail : Bool) (talk : List (List Nat)) (hM : 0x109d41b9e ||| M = M) :
    (State.jobStart s post dmaFail talk).off M = s.off M := by
  refine off_mono ?_ hM
  unfold State.jobStart; refine State.dispatched_off _ _ ?_ rfl; intros; (try dsimp only); (repeat' split) <;> simp [off_ite, fst_ite, foldl_off]
@[simp] theorem State.jobAbort_off {M : Nat} (s : State) (post : Post) (hM : 0x100141b16 ||| M = M) :
    (State.jobAbort s post).off M = s.off M := by
  refine off_mono ?_ hM
  unfold State.jobAbort; refine State.dispatched_off _ _ ?_ rfl; intros; (try dsimp only); (repeat' split) <;> simp [off_ite, fst_ite, foldl_off]
@[simp] theorem State.jobEnd_off {M : Nat} (s : State) (post : Post) (hM : 0xd01a04 ||| M = M) :
    (State.jobEnd s post).off M = s.off M := by
  refine off_mono ?_ hM
  unfold State.jobEnd; refine State.dispatched_off _ _ ?_ rfl; intros; (try dsimp only); (repeat' split) <;> simp [off_ite, fst_ite, foldl_off]
@[simp] theorem State.zeroPart_off {M : Nat} (s : State) (p : Nat) (hM : 0x8000098 ||| M = M) :
    (State.zeroPart s p).off M = s.off M := by
  refine off_mono ?_ hM
  unfold State.zeroPart; dsimp only; rw [foldl_off]
  · split <;> simp
  · intro s c; rw [State.paste_off _ _ _ _ rfl, foldl_off _ (by simp)]
@[simp] theorem State.forgetPart_off {M : Nat} (s : State) (p : Nat) (hM : 0xfa0c004 ||| M = M) :
    (State.forgetPart s p).off M = s.off M := by
  refine off_mono ?_ hM
  simp [State.forgetPart]
@[simp] theorem State.jobEnded_off {M : Nat} (s : State) (p : Nat) (hM : 0xfa0da9c ||| M = M) :
    (State.jobEnded s p).off M = s.off M := by
  refine off_mono ?_ hM
  unfold State.jobEnded; dsimp only; (repeat' split)
  · rfl
  · rfl
  all_goals rw [State.putCpl_off _ _ _ _ _ rfl, State.unreserve_off _ _ _ _ rfl, foldl_off _ (by simp)]; simp
@[simp] theorem State.jobTakeover_off {M : Nat} (s : State) (post : Post) (dmaFail : Bool) (hM : 0x1101a04 ||| M = M) :
    (State.jobTakeover s post dmaFail).off M = s.off M := by
  refine off_mono ?_ hM
  unfold State.jobTakeover; refine State.dispatched_off _ _ ?_ rfl; intros; (try dsimp only); (repeat' split) <;> simp [off_ite, fst_ite, foldl_off]

/-! ## HostIf -/

@[simp] theorem State.dispatchEntry_off {M : Nat} (s : State) (op : Nat) (post : Post) (hM : 0x10ff47b9e ||| M = M) :
    (State.dispatchEntry s op post).off M = s.off M := by
  refine off_mono ?_ hM
  unfold State.dispatchEntry; (try dsimp only); (repeat' split) <;> simp [off_ite, fst_ite, foldl_off]
@[simp] theorem State.pollRing_off {M : Nat} (s : State) (port : Fin 2) (fn : Fin 9) (j : Fin 8) (x0 : Nat) (hM : 0x10ff47b9e ||| M = M) :
    (State.pollRing s port fn j x0).off M = s.off M := by
  refine off_mono ?_ hM
  induction x0 generalizing s port fn j  with
  | zero => simp [State.pollRing]
  | succ n ih => simp [State.pollRing, ih, off_ite, foldl_off]
@[simp] theorem State.journalPoll_off {M : Nat} (s : State) (port : Fin 2) (fn : Fin 9) (j : Fin 8) (readFail : Bool) (hM : 0x10ff47b9e ||| M = M) :
    (State.journalPoll s port fn j readFail).off M = s.off M := by
  refine off_mono ?_ hM
  simp [State.journalPoll, off_ite]
@[simp] theorem State.holdoffEnd_off {M : Nat} (s : State) (port fn v : Nat) (hM : 0x800 ||| M = M) :
    (State.holdoffEnd s port fn v).off M = s.off M := by
  refine off_mono ?_ hM
  simp [State.holdoffEnd, off_ite]
@[simp] theorem State.setLink_off {M : Nat} (s : State) (port : Nat) (up : Bool) (hM : 0x400 ||| M = M) :
    (State.setLink s port up).off M = s.off M := by
  refine off_mono ?_ hM
  simp [State.setLink, off_ite]
@[simp] theorem State.windowReset_off {M : Nat} (s : State) (w : Nat) (hM : 0xc04 ||| M = M) :
    (State.windowReset s w).off M = s.off M := by
  refine off_mono ?_ hM
  simp [State.windowReset, off_ite, foldl_off]
@[simp] theorem State.portReset_off {M : Nat} (s : State) (port : Nat) (hM : 0xc04 ||| M = M) :
    (State.portReset s port).off M = s.off M := by
  refine off_mono ?_ hM
  simp [State.portReset, off_ite, foldl_off]
@[simp] theorem State.orphanReset_off {M : Nat} (s : State) (j : Job) (hM : 0x100041916 ||| M = M) :
    (State.orphanReset s j).off M = s.off M := by
  refine off_mono ?_ hM
  simp [State.orphanReset]
@[simp] theorem State.linkDown_off {M : Nat} (s : State) (port : Nat) (hM : 0x100041d16 ||| M = M) :
    (State.linkDown s port).off M = s.off M := by
  refine off_mono ?_ hM
  simp [State.linkDown, off_ite, foldl_off]
@[simp] theorem State.orphanTimeout_off {M : Nat} (s : State) (id : Nat) (hM : 0x100041916 ||| M = M) :
    (State.orphanTimeout s id).off M = s.off M := by
  refine off_mono ?_ hM
  unfold State.orphanTimeout; split <;> simp [off_ite]
@[simp] theorem State.linkReturn_off {M : Nat} (s : State) (port : Nat) (hM : 0xc04 ||| M = M) :
    (State.linkReturn s port).off M = s.off M := by
  refine off_mono ?_ hM
  simp [State.linkReturn, off_ite]
@[simp] theorem State.flrReset_off {M : Nat} (s : State) (port fn : Nat) (hM : 0x100041d16 ||| M = M) :
    (State.flrReset s port fn).off M = s.off M := by
  refine off_mono ?_ hM
  simp [State.flrReset, off_ite, foldl_off]
@[simp] theorem State.hotReset_off {M : Nat} (s : State) (port : Nat) (hM : 0x100041d16 ||| M = M) :
    (State.hotReset s port).off M = s.off M := by
  refine off_mono ?_ hM
  simp [State.hotReset, off_ite, foldl_off]
@[simp] theorem State.setCfgReady_off {M : Nat} (s : State) (port : Nat) (b : Bool) (hM : 0x400 ||| M = M) :
    (State.setCfgReady s port b).off M = s.off M := by
  refine off_mono ?_ hM
  simp [State.setCfgReady, off_ite]
@[simp] theorem State.perst_off {M : Nat} (s : State) (port : Nat) (hM : 0x100041d16 ||| M = M) :
    (State.perst s port).off M = s.off M := by
  refine off_mono ?_ hM
  simp [State.perst, off_ite]
@[simp] theorem State.configurationReady_off {M : Nat} (s : State) (port ms : Nat) (hM : 0x404 ||| M = M) :
    (State.configurationReady s port ms).off M = s.off M := by
  refine off_mono ?_ hM
  simp [State.configurationReady, off_ite]
@[simp] theorem State.setAns_off {M : Nat} (s : State) (port : Nat) (a : PcieAns) (hM : 0x400 ||| M = M) :
    (State.setAns s port a).off M = s.off M := by
  refine off_mono ?_ hM
  simp [State.setAns, off_ite]
@[simp] theorem State.configRequest_off {M : Nat} (s : State) (port fn reg : Nat) (hM : 0x402 ||| M = M) :
    (State.configRequest s port fn reg).off M = s.off M := by
  refine off_mono ?_ hM
  simp [State.configRequest, off_ite, foldl_off]
@[simp] theorem State.mailboxPoll_off {M : Nat} (s : State) (port fn : Nat) (hM : 0x400 ||| M = M) :
    (State.mailboxPoll s port fn).off M = s.off M := by
  refine off_mono ?_ hM
  simp [State.mailboxPoll, off_ite, foldl_off]
@[simp] theorem State.barRange_off {M : Nat} (s : State) (port fn : Nat) (detail : Option Nat) (hM : 0x100040806 ||| M = M) :
    (State.barRange s port fn detail).off M = s.off M := by
  refine off_mono ?_ hM
  simp [State.barRange]
@[simp] theorem State.bar2Access_off {M : Nat} (s : State) (port fn off : Nat) (op : Bar2Op) (hM : 0x108040c9e ||| M = M) :
    (State.bar2Access s port fn off op).off M = s.off M := by
  refine off_mono ?_ hM
  unfold State.bar2Access; split <;> simp [off_ite]
@[simp] theorem State.bar0Misaligned_off {M : Nat} (s : State) (port fn : Nat) (read : Bool) (hM : 0x100040c06 ||| M = M) :
    (State.bar0Misaligned s port fn read).off M = s.off M := by
  refine off_mono ?_ hM
  simp [State.bar0Misaligned, off_ite]
@[simp] theorem State.ignoreWrite_off {M : Nat} (s : State) (port fn off : Nat) (hM : 0x100040c06 ||| M = M) :
    (State.ignoreWrite s port fn off).off M = s.off M := by
  refine off_mono ?_ hM
  simp [State.ignoreWrite, off_ite, foldl_off]
@[simp] theorem State.hostWinWrite_off {M : Nat} (s : State) (port fn o : Nat) (v : Word) (hM : 0x100040c06 ||| M = M) :
    (State.hostWinWrite s port fn o v).off M = s.off M := by
  refine off_mono ?_ hM
  simp [State.hostWinWrite, off_ite]
@[simp] theorem State.bar2BaseWrite_off {M : Nat} (s : State) (port fn : Nat) (v : Word) (hM : 0x100040c06 ||| M = M) :
    (State.bar2BaseWrite s port fn v).off M = s.off M := by
  refine off_mono ?_ hM
  simp [State.bar2BaseWrite, off_ite]

/-! ## Brake -/

@[simp] theorem State.setCauses_off {M : Nat} (s : State) (d v : Nat) (hM : 0x100000000 ||| M = M) :
    (State.setCauses s d v).off M = s.off M := by
  refine off_mono ?_ hM
  simp [State.setCauses, off_ite, foldl_off]
@[simp] theorem State.setSteps_off {M : Nat} (s : State) (d v : Nat) (hM : 0x100000000 ||| M = M) :
    (State.setSteps s d v).off M = s.off M := by
  refine off_mono ?_ hM
  simp [State.setSteps, off_ite, foldl_off]
@[simp] theorem State.pwrErr_off {M : Nat} (s : State) (code cls : Nat) (die : Option Nat) (hM : 0x100040806 ||| M = M) :
    (State.pwrErr s code cls die).off M = s.off M := by
  refine off_mono ?_ hM
  simp [State.pwrErr]
@[simp] theorem State.brakeDie_off {M : Nat} (s : State) (b : BrakeBit) (d : Nat) (hM : 0x100000004 ||| M = M) :
    (State.brakeDie s b d).off M = s.off M := by
  refine off_mono ?_ hM
  simp [State.brakeDie, off_ite, foldl_off]
@[simp] theorem State.brake_off {M : Nat} (s : State) (b : BrakeBit) (dies : List Nat) (hM : 0x100040806 ||| M = M) :
    (State.brake s b dies).off M = s.off M := by
  refine off_mono ?_ hM
  unfold State.brake; simp only []; split <;> simp [off_ite, foldl_off]
@[simp] theorem State.unbrake_off {M : Nat} (s : State) (b : BrakeBit) (dies : List Nat) (hM : 0x100000000 ||| M = M) :
    (State.unbrake s b dies).off M = s.off M := by
  refine off_mono ?_ hM
  simp [State.unbrake, off_ite, foldl_off]
@[simp] theorem State.pinBrake_off {M : Nat} (s : State) (hM : 0x100040806 ||| M = M) :
    (State.pinBrake s).off M = s.off M := by
  refine off_mono ?_ hM
  simp [State.pinBrake, off_ite]
@[simp] theorem State.pwrCtlWrite_off {M : Nat} (s : State) (v : Word) (hM : 0x100040806 ||| M = M) :
    (State.pwrCtlWrite s v).off M = s.off M := by
  refine off_mono ?_ hM
  simp [State.pwrCtlWrite, off_ite, foldl_off]
@[simp] theorem State.droop_off {M : Nat} (s : State) (d mv : Nat) (hM : 0x100040806 ||| M = M) :
    (State.droop s d mv).off M = s.off M := by
  refine off_mono ?_ hM
  simp [State.droop, off_ite]
@[simp] theorem State.brakeIn_off {M : Nat} (s : State) (ns : Nat) (hM : 0x100040806 ||| M = M) :
    (State.brakeIn s ns).off M = s.off M := by
  refine off_mono ?_ hM
  simp [State.brakeIn, off_ite]
@[simp] theorem State.brakeOut_off {M : Nat} (s : State) (hM : 0x100000000 ||| M = M) :
    (State.brakeOut s).off M = s.off M := by
  refine off_mono ?_ hM
  simp [State.brakeOut, off_ite, foldl_off]
@[simp] theorem State.brakeRelease_off {M : Nat} (s : State) (d : Nat) (hM : 0x100000004 ||| M = M) :
    (State.brakeRelease s d).off M = s.off M := by
  refine off_mono ?_ hM
  simp [State.brakeRelease, off_ite]
@[simp] theorem State.slewing_off {M : Nat} (s : State) (d : Nat) (hM : 0x4 ||| M = M) :
    (State.slewing s d).off M = s.off M := by
  refine off_mono ?_ hM
  simp [State.slewing, off_ite, foldl_off]
@[simp] theorem State.setTarget_off {M : Nat} (s : State) (d t : Nat) (hM : 0x4 ||| M = M) :
    (State.setTarget s d t).off M = s.off M := by
  refine off_mono ?_ hM
  simp [State.setTarget, off_ite, foldl_off]
@[simp] theorem State.aclkWrite_off {M : Nat} (s : State) (d : Nat) (v : Word) (hM : 0x100000004 ||| M = M) :
    (State.aclkWrite s d v).off M = s.off M := by
  refine off_mono ?_ hM
  simp [State.aclkWrite, off_ite, foldl_off]
@[simp] theorem State.slewStep_off {M : Nat} (s : State) (d : Nat) (hM : 0x4 ||| M = M) :
    (State.slewStep s d).off M = s.off M := by
  refine off_mono ?_ hM
  simp [State.slewStep, off_ite, foldl_off]

end Sys2Proof.Machine
end

