-- ==== Sys2Proof/Laws/OffModule.lean ====
section
/-! SUPPORT. What each operation of Boot to RegWrite leaves alone: it writes only areas of the mask (Sys2Proof.Machine.Area) in its
hypothesis. -/
namespace Sys2Proof.Machine

/-! ## Boot -/

@[simp] theorem State.dumpSet_off {M : Nat} (s : State) (i v : Nat) (hM : 0x80000 ||| M = M) :
    (State.dumpSet s i v).off M = s.off M := by
  refine off_mono ?_ hM
  simp [State.dumpSet, off_ite, foldl_off]
@[simp] theorem State.fatalStop_off {M : Nat} (s : State) (code : Nat) (hM : 0x10a44199e ||| M = M) :
    (State.fatalStop s code).off M = s.off M := by
  refine off_mono ?_ hM
  simp [State.fatalStop, off_ite, foldl_off]
@[simp] theorem State.fatalErr_off {M : Nat} (s : State) (code unit : Nat) (hM : 0x10a4c199e ||| M = M) :
    (State.fatalErr s code unit).off M = s.off M := by
  refine off_mono ?_ hM
  unfold State.fatalErr; split
  · rw [State.fatalStop_off _ _ rfl, State.dumpSet_off _ _ _ rfl, State.dumpSet_off _ _ _ rfl]; simp
  · rw [State.fatalStop_off _ _ rfl, State.event_off _ _ _ _ _ _ _ rfl]; simp
@[simp] theorem State.answerTo_off {M : Nat} (s : State) (path : Path) (a : Answer) (hM : 0x10000 ||| M = M) :
    (State.answerTo s path a).off M = s.off M := by
  refine off_mono ?_ hM
  simp [State.answerTo, off_ite, foldl_off]
@[simp] theorem State.setSlot_off {M : Nat} (s : State) (b : Bool) (x : ImgSlot) (hM : 0x40000000 ||| M = M) :
    (State.setSlot s b x).off M = s.off M := by
  refine off_mono ?_ hM
  unfold State.setSlot; split <;> simp
@[simp] theorem State.measure_off {M : Nat} (s : State) (i : Nat) (d : BitVec 384) (hM : 0x4 ||| M = M) :
    (State.measure s i d).off M = s.off M := by
  refine off_mono ?_ hM
  simp [State.measure, off_ite, foldl_off]
@[simp] theorem State.recovery_off {M : Nat} (s : State) (code detail : Nat) (hM : 0x10a4c199e ||| M = M) :
    (State.recovery s code detail).off M = s.off M := by
  refine off_mono ?_ hM
  simp [State.recovery]
@[simp] theorem State.bootRom_off {M : Nat} (s : State) (hM : 0x4 ||| M = M) :
    (State.bootRom s).off M = s.off M := by
  refine off_mono ?_ hM
  simp [State.bootRom, off_ite, foldl_off]
@[simp] theorem State.bootImage_off {M : Nat} (s : State) (hM : 0x14a4c199e ||| M = M) :
    (State.bootImage s).off M = s.off M := by
  refine off_mono ?_ hM
  unfold State.bootImage; dsimp only; split
  · rw [State.wrs_off _ _ rfl, State.recovery_off _ _ _ rfl, State.wrs_off _ _ rfl]
  · rw [State.wr_off _ _ _ rfl, State.measure_off _ _ _ rfl, State.wrs_off _ _ rfl]; simp
@[simp] theorem State.setCoord_off {M : Nat} (s : State) (rack tray slot fabric : Nat) (hM : 0x4 ||| M = M) :
    (State.setCoord s rack tray slot fabric).off M = s.off M := by
  refine off_mono ?_ hM
  simp [State.setCoord, off_ite, foldl_off]
@[simp] theorem State.bootCoord_off {M : Nat} (s : State) (strap : BitVec 6) (hM : 0x140040806 ||| M = M) :
    (State.bootCoord s strap).off M = s.off M := by
  refine off_mono ?_ hM
  unfold State.bootCoord; dsimp only
  rw [off_ite, State.bootErr_off _ _ _ _ rfl, ite_self]; simp
@[simp] theorem State.bootOwnerKeys_off {M : Nat} (s : State) (hM : 0x8004 ||| M = M) :
    (State.bootOwnerKeys s).off M = s.off M := by
  refine off_mono ?_ hM
  simp [State.bootOwnerKeys, off_ite, foldl_off]
@[simp] theorem State.bootParts_off {M : Nat} (s : State) (hM : 0x100044806 ||| M = M) :
    (State.bootParts s).off M = s.off M := by
  refine off_mono ?_ hM
  simp [State.bootParts, off_ite]
@[simp] theorem State.bootCal_off {M : Nat} (s : State) (strap : BitVec 6) (hM : 0x14a4cd99e ||| M = M) :
    (State.bootCal s strap).off M = s.off M := by
  refine off_mono ?_ hM
  unfold State.bootCal; dsimp only; split
  · simp
  · rw [State.wr_off _ _ _ rfl, State.bootParts_off _ rfl, State.bootOwnerKeys_off _ rfl, State.bootCoord_off _ _ rfl, foldl_off _ (by intro s k; split <;> simp), State.wrs_off _ _ rfl]
    simp [off_ite]
@[simp] theorem State.bootCores_off {M : Nat} (s : State) (hM : 0x4 ||| M = M) :
    (State.bootCores s).off M = s.off M := by
  refine off_mono ?_ hM
  simp [State.bootCores]
@[simp] theorem State.bootRecords_off {M : Nat} (s : State) (hM : 0x100040816 ||| M = M) :
    (State.bootRecords s).off M = s.off M := by
  refine off_mono ?_ hM
  unfold State.bootRecords; dsimp only
  rw [State.wr_off _ _ _ rfl, State.bootCores_off _ rfl, State.measure_off _ _ _ rfl, foldl_off _ (by simp), foldl_off _ (by simp), foldl_off _ (by intro s r; split <;> simp)]
@[simp] theorem State.bootFirmware_off {M : Nat} (s : State) (failed : List Nat) (hM : 0x1a0040816 ||| M = M) :
    (State.bootFirmware s failed).off M = s.off M := by
  refine off_mono ?_ hM
  simp [State.bootFirmware, off_ite, foldl_off]
@[simp] theorem State.rowRepairs_off {M : Nat} (s : State) (x0 : List FieldRec) (hM : 0x120140806 ||| M = M) :
    (State.rowRepairs s x0).off M = s.off M := by
  refine off_mono ?_ hM
  induction x0 generalizing s  with
  | nil => simp [State.rowRepairs]
  | cons x t ih => simp [State.rowRepairs, ih, off_ite, foldl_off]
@[simp] theorem State.bootChannels_off {M : Nat} (s : State) (k : Nat) (hM : 0x4 ||| M = M) :
    (State.bootChannels s k).off M = s.off M := by
  refine off_mono ?_ hM
  simp [State.bootChannels, off_ite, foldl_off]
@[simp] theorem State.bootRegions_off {M : Nat} (s : State) (x0 : Nat) (x1 : Nat) (x2 : Tab PartSt) (hM : 0x4 ||| M = M) :
    (State.bootRegions s x0 x1 x2).off M = s.off M := by
  refine off_mono ?_ hM
  induction x2 generalizing s x0 x1 with
  | nil => rfl
  | cons e t ih => rw [State.bootRegions, ih, State.wrs_off _ _ rfl, foldl_off _ (by simp)]
@[simp] theorem State.bootStacks_off {M : Nat} (s : State) (trained : List Nat) (hM : 0x100044806 ||| M = M) :
    (State.bootStacks s trained).off M = s.off M := by
  refine off_mono ?_ hM
  simp [State.bootStacks, off_ite, foldl_off]
@[simp] theorem State.nolKeys_off {M : Nat} (s : State) (m : Nat) (hM : 0x200002 ||| M = M) :
    (State.nolKeys s m).off M = s.off M := by
  refine off_mono ?_ hM
  simp [State.nolKeys, off_ite, foldl_off]
@[simp] theorem State.bootNols_off {M : Nat} (s : State) (ok : List Nat) (hM : 0x100240806 ||| M = M) :
    (State.bootNols s ok).off M = s.off M := by
  refine off_mono ?_ hM
  simp [State.bootNols, off_ite, foldl_off]
@[simp] theorem State.bootObjects_off {M : Nat} (s : State) (hM : 0x101240806 ||| M = M) :
    (State.bootObjects s).off M = s.off M := by
  refine off_mono ?_ hM
  simp [State.bootObjects, off_ite, foldl_off]
@[simp] theorem State.bootLife_off {M : Nat} (s : State) (hM : 0x80000004 ||| M = M) :
    (State.bootLife s).off M = s.off M := by
  refine off_mono ?_ hM
  simp [State.bootLife, off_ite]
@[simp] theorem State.bootPorts_off {M : Nat} (s : State) (hM : 0x4 ||| M = M) :
    (State.bootPorts s).off M = s.off M := by
  refine off_mono ?_ hM
  simp [State.bootPorts, off_ite, foldl_off]
@[simp] theorem State.bootTrain_off {M : Nat} (s : State) (trained nolOk : List Nat) (hM : 0x1e1344806 ||| M = M) :
    (State.bootTrain s trained nolOk).off M = s.off M := by
  refine off_mono ?_ hM
  simp [State.bootTrain, off_ite, foldl_off]
@[simp] theorem State.bootStage_off {M : Nat} (s : State) (trained nolOk failed : List Nat) (strap : BitVec 6) (hM : 0x1eb7cd99e ||| M = M) :
    (State.bootStage s trained nolOk failed strap).off M = s.off M := by
  refine off_mono ?_ hM
  unfold State.bootStage; (try dsimp only); (repeat' split) <;> simp [off_ite, fst_ite, foldl_off]
@[simp] theorem State.jobReady_off {M : Nat} (s : State) (ms : Nat) (hM : 0x140040806 ||| M = M) :
    (State.jobReady s ms).off M = s.off M := by
  refine off_mono ?_ hM
  unfold State.jobReady; (try dsimp only); (repeat' split) <;> simp [off_ite, fst_ite, foldl_off]
@[simp] theorem State.afterReset_off {M : Nat} (s : State) (regs : Tab Word) (hM : 0x1cffffffc ||| M = M) :
    (State.afterReset s regs).off M = s.off M := by
  refine off_mono ?_ hM
  unfold State.afterReset; dsimp only; rw [State.wr_off _ _ _ rfl]; simp
@[simp] theorem State.coldReset_off {M : Nat} (s : State) (hM : 0x1cffffffe ||| M = M) :
    (State.coldReset s).off M = s.off M := by
  refine off_mono ?_ hM
  unfold State.coldReset; split
  · rfl
  · dsimp only; rw [State.pinBrake_off _ rfl]; refine Eq.trans ?_ (State.afterReset_off s s.keptRegs rfl); simp
@[simp] theorem State.warmReset_off {M : Nat} (s : State) (hM : 0x1cffffffe ||| M = M) :
    (State.warmReset s).off M = s.off M := by
  refine off_mono ?_ hM
  simp [State.warmReset, off_ite, foldl_off]
@[simp] theorem State.bootWatchdog_off {M : Nat} (s : State) (hM : 0x1cffffffe ||| M = M) :
    (State.bootWatchdog s).off M = s.off M := by
  refine off_mono ?_ hM
  simp [State.bootWatchdog, off_ite]
@[simp] theorem State.firmwareUpdate_off {M : Nat} (s : State) (path : Path) (img : ImageCopy) (hM : 0x40010000 ||| M = M) :
    (State.firmwareUpdate s path img).off M = s.off M := by
  refine off_mono ?_ hM
  simp [State.firmwareUpdate]
@[simp] theorem State.pldmIdentify_off {M : Nat} (s : State) (path : Path) (hM : 0x10000 ||| M = M) :
    (State.pldmIdentify s path).off M = s.off M := by
  refine off_mono ?_ hM
  simp [State.pldmIdentify, off_ite, foldl_off]

/-! ## Sec -/

@[simp] theorem State.secRec_off {M : Nat} (s : State) (code p : Nat) (hM : 0x4 ||| M = M) :
    (State.secRec s code p).off M = s.off M := by
  refine off_mono ?_ hM
  simp [State.secRec]
@[simp] theorem State.served_off {M : Nat} (s : State) (path : Path) (k : State → State) (hk : ∀ (y0 : State), (k y0).off M = y0.off M) (hM : 0x10000 ||| M = M) :
    (State.served s path k).off M = s.off M := by
  unfold State.served; split
  · rfl
  · split
    · exact State.answerTo_off _ _ _ (off_sub hM (by decide))
    · exact hk _
@[simp] theorem State.writeOwner_off {M : Nat} (s : State) (f : Nat → OwnerBlock) (hM : 0x40000000 ||| M = M) :
    (State.writeOwner s f).off M = s.off M := by
  refine off_mono ?_ hM
  simp [State.writeOwner, off_ite, foldl_off]
@[simp] theorem State.ownerWrite_off {M : Nat} (s : State) (path : Path) (blk : OwnerBlock) (sigOk : Bool) (hM : 0x40010000 ||| M = M) :
    (State.ownerWrite s path blk sigOk).off M = s.off M := by
  refine off_mono ?_ hM
  unfold State.ownerWrite; refine State.served_off _ _ _ ?_ rfl; intros; (try dsimp only); (repeat' split) <;> simp [off_ite, fst_ite, foldl_off]
@[simp] theorem State.svnCommit_off {M : Nat} (s : State) (path : Path) (svn : Nat) (sigOk : Bool) (hM : 0x10010004 ||| M = M) :
    (State.svnCommit s path svn sigOk).off M = s.off M := by
  refine off_mono ?_ hM
  unfold State.svnCommit; refine State.served_off _ _ _ ?_ rfl; intros; (try dsimp only); (repeat' split) <;> simp [off_ite, fst_ite, foldl_off]
@[simp] theorem State.revoke_off {M : Nat} (s : State) (path : Path) (slot : Nat) (tokenOk ownerOk : Bool) (hM : 0x10010004 ||| M = M) :
    (State.revoke s path slot tokenOk ownerOk).off M = s.off M := by
  refine off_mono ?_ hM
  unfold State.revoke; refine State.served_off _ _ _ ?_ rfl; intros; (try dsimp only); (repeat' split) <;> simp [off_ite, fst_ite, foldl_off]
@[simp] theorem State.spdmError_off {M : Nat} (s : State) (path : Path) (limit : Bool) (hM : 0x100050806 ||| M = M) :
    (State.spdmError s path limit).off M = s.off M := by
  refine off_mono ?_ hM
  simp [State.spdmError, off_ite, foldl_off]
@[simp] theorem State.getVersion_off {M : Nat} (s : State) (path : Path) (hM : 0x10000 ||| M = M) :
    (State.getVersion s path).off M = s.off M := by
  refine off_mono ?_ hM
  unfold State.getVersion; refine State.served_off _ _ _ ?_ rfl; intros; (try dsimp only); (repeat' split) <;> simp [off_ite, fst_ite, foldl_off]
@[simp] theorem State.getCapabilities_off {M : Nat} (s : State) (path : Path) (hM : 0x10000 ||| M = M) :
    (State.getCapabilities s path).off M = s.off M := by
  refine off_mono ?_ hM
  unfold State.getCapabilities; refine State.served_off _ _ _ ?_ rfl; intros; (try dsimp only); (repeat' split) <;> simp [off_ite, fst_ite, foldl_off]
@[simp] theorem State.negotiate_off {M : Nat} (s : State) (path : Path) (offered : Bool) (hM : 0x100050806 ||| M = M) :
    (State.negotiate s path offered).off M = s.off M := by
  refine off_mono ?_ hM
  unfold State.negotiate; refine State.served_off _ _ _ ?_ rfl; intros; (try dsimp only); (repeat' split) <;> simp [off_ite, fst_ite, foldl_off]
@[simp] theorem State.getDigests_off {M : Nat} (s : State) (path : Path) (hM : 0x10000 ||| M = M) :
    (State.getDigests s path).off M = s.off M := by
  refine off_mono ?_ hM
  unfold State.getDigests; refine State.served_off _ _ _ ?_ rfl; intros; (try dsimp only); (repeat' split) <;> simp [off_ite, fst_ite, foldl_off]
@[simp] theorem State.getCertificate_off {M : Nat} (s : State) (path : Path) (slot off len : Nat) (hM : 0x100050806 ||| M = M) :
    (State.getCertificate s path slot off len).off M = s.off M := by
  refine off_mono ?_ hM
  unfold State.getCertificate; refine State.served_off _ _ _ ?_ rfl; intros; (try dsimp only); (repeat' split) <;> simp [off_ite, fst_ite, foldl_off]
@[simp] theorem State.challenge_off {M : Nat} (s : State) (path : Path) (slot : Nat) (nonce : BitVec 256) (hM : 0x100050806 ||| M = M) :
    (State.challenge s path slot nonce).off M = s.off M := by
  refine off_mono ?_ hM
  unfold State.challenge; refine State.served_off _ _ _ ?_ rfl; intros; (try dsimp only); (repeat' split) <;> simp [off_ite, fst_ite, foldl_off]
@[simp] theorem State.getMeasurements_off {M : Nat} (s : State) (path : Path) (index : Nat) (nonce : BitVec 256) (hM : 0x10000 ||| M = M) :
    (State.getMeasurements s path index nonce).off M = s.off M := by
  refine off_mono ?_ hM
  unfold State.getMeasurements; refine State.served_off _ _ _ ?_ rfl; intros; (try dsimp only); (repeat' split) <;> simp [off_ite, fst_ite, foldl_off]
@[simp] theorem State.setSessions_off {M : Nat} (s : State) (l : List Session) (hM : 0x10000 ||| M = M) :
    (State.setSessions s l).off M = s.off M := by
  refine off_mono ?_ hM
  simp [State.setSessions, off_ite, foldl_off]
@[simp] theorem State.keyExchange_off {M : Nat} (s : State) (path : Path) (hM : 0x100050806 ||| M = M) :
    (State.keyExchange s path).off M = s.off M := by
  refine off_mono ?_ hM
  unfold State.keyExchange; refine State.served_off _ _ _ ?_ rfl; intros; (try dsimp only); (repeat' split) <;> simp [off_ite, fst_ite, foldl_off]
@[simp] theorem State.inSession_off {M : Nat} (s : State) (path : Path) (id : Nat) (finished : Bool) (k : State → Session → State) (hk : ∀ (y0 : State) (y1 : Session), (k y0 y1).off M = y0.off M) (hM : 0x100050806 ||| M = M) :
    (State.inSession s path id finished k).off M = s.off M := by
  unfold State.inSession; refine State.served_off _ _ _ ?_ (off_sub hM (by decide)); intro s
  (repeat' split) <;> first | exact hk _ _ | exact State.spdmError_off _ _ _ (off_sub hM (by decide))
@[simp] theorem State.modSession_off {M : Nat} (s : State) (x : Session) (f : Session → Session) (hM : 0x10000 ||| M = M) :
    (State.modSession s x f).off M = s.off M := by
  refine off_mono ?_ hM
  simp [State.modSession, off_ite, foldl_off]
@[simp] theorem State.finishSession_off {M : Nat} (s : State) (path : Path) (id : Nat) (ok : Bool) (hM : 0x100050806 ||| M = M) :
    (State.finishSession s path id ok).off M = s.off M := by
  refine off_mono ?_ hM
  unfold State.finishSession; refine State.inSession_off _ _ _ _ _ ?_ rfl; intros; (try dsimp only); (repeat' split) <;> simp [off_ite, fst_ite, foldl_off]
@[simp] theorem State.heartbeat_off {M : Nat} (s : State) (path : Path) (id : Nat) (hM : 0x100050806 ||| M = M) :
    (State.heartbeat s path id).off M = s.off M := by
  refine off_mono ?_ hM
  unfold State.heartbeat; refine State.inSession_off _ _ _ _ _ ?_ rfl; intros; (try dsimp only); (repeat' split) <;> simp [off_ite, fst_ite, foldl_off]
@[simp] theorem State.keyUpdate_off {M : Nat} (s : State) (path : Path) (id : Nat) (hM : 0x100050806 ||| M = M) :
    (State.keyUpdate s path id).off M = s.off M := by
  refine off_mono ?_ hM
  unfold State.keyUpdate; refine State.inSession_off _ _ _ _ _ ?_ rfl; intros; (try dsimp only); (repeat' split) <;> simp [off_ite, fst_ite, foldl_off]
@[simp] theorem State.endSession_off {M : Nat} (s : State) (path : Path) (id : Nat) (hM : 0x100050806 ||| M = M) :
    (State.endSession s path id).off M = s.off M := by
  refine off_mono ?_ hM
  unfold State.endSession; refine State.inSession_off _ _ _ _ _ ?_ rfl; intros; (try dsimp only); (repeat' split) <;> simp [off_ite, fst_ite, foldl_off]
@[simp] theorem State.chunkSend_off {M : Nat} (s : State) (path : Path) (seq : Nat) (last : Bool) (data : List Byte) (hM : 0x100050806 ||| M = M) :
    (State.chunkSend s path seq last data).off M = s.off M := by
  refine off_mono ?_ hM
  unfold State.chunkSend; refine State.served_off _ _ _ ?_ rfl; intros; (try dsimp only); (repeat' split) <;> simp [off_ite, fst_ite, foldl_off]
@[simp] theorem State.chunkGet_off {M : Nat} (s : State) (path : Path) (seq : Nat) (hM : 0x10000 ||| M = M) :
    (State.chunkGet s path seq).off M = s.off M := by
  refine off_mono ?_ hM
  unfold State.chunkGet; refine State.served_off _ _ _ ?_ rfl; intros; (try dsimp only); (repeat' split) <;> simp [off_ite, fst_ite, foldl_off]
@[simp] theorem State.keyPut_off {M : Nat} (s : State) (path : Path) (session : Nat) (k : KeyBody) (hM : 0x140058806 ||| M = M) :
    (State.keyPut s path session k).off M = s.off M := by
  refine off_mono ?_ hM
  unfold State.keyPut; refine State.inSession_off _ _ _ _ _ ?_ rfl; intros; (try dsimp only); (repeat' split) <;> simp [off_ite, fst_ite, foldl_off]
@[simp] theorem State.keyDel_off {M : Nat} (s : State) (path : Path) (session kind id : Nat) (hM : 0x100058806 ||| M = M) :
    (State.keyDel s path session kind id).off M = s.off M := by
  refine off_mono ?_ hM
  unfold State.keyDel; refine State.inSession_off _ _ _ _ _ ?_ rfl; intros; (try dsimp only); (repeat' split) <;> simp [off_ite, fst_ite, foldl_off]
@[simp] theorem State.keyExpiry_off {M : Nat} (s : State) (i : Nat) (hM : 0x8000 ||| M = M) :
    (State.keyExpiry s i).off M = s.off M := by
  refine off_mono ?_ hM
  unfold State.keyExpiry; split <;> simp [off_ite]
@[simp] theorem State.houseLoad_off {M : Nat} (s : State) (path : Path) (h : Nat) (hM : 0x30004 ||| M = M) :
    (State.houseLoad s path h).off M = s.off M := by
  refine off_mono ?_ hM
  unfold State.houseLoad; refine State.served_off _ _ _ ?_ rfl; intros; (try dsimp only); (repeat' split) <;> simp [off_ite, fst_ite, foldl_off]
@[simp] theorem State.houseLoaded_off {M : Nat} (s : State) (data : List (Nat × Byte)) (poisoned : Bool) (hM : 0x802009c ||| M = M) :
    (State.houseLoaded s data poisoned).off M = s.off M := by
  refine off_mono ?_ hM
  unfold State.houseLoaded
  have h : ∀ (m : BitVec 384) (a n : Nat) (d : Piece), State.off 0x802009c (({ (s.paste a n d) with sec := { (s.paste a n d).sec with houseManifest := m } } : State).wr R.SEC.HOUSE_STAT.STATE 2) = s.off 0x802009c := by
    intro m a n d; rw [State.wr_off _ _ _ rfl]; simp
  have h0 : ∀ v, State.off 0x802009c (s.wr R.SEC.HOUSE_STAT.STATE v) = s.off 0x802009c := fun v => State.wr_off _ _ _ rfl
  refine off_if rfl ?_
  generalize s.houseRegion = r
  generalize s.houseKey = k
  cases r with
  | none => exact h0 _
  | some r =>
    cases k with
    | none => exact h0 _
    | some k => exact off_if (h0 _) (h _ _ _ _)
@[simp] theorem State.houseRebuilt_off {M : Nat} (s : State) (a : Nat) (src : RebuildSrc) (data : List Byte) (hM : 0x10806199e ||| M = M) :
    (State.houseRebuilt s a src data).off M = s.off M := by
  refine off_mono ?_ hM
  unfold State.houseRebuilt; (try dsimp only); (repeat' split) <;> simp [off_ite, fst_ite, foldl_off]
@[simp] theorem State.liftGmac_off {M : Nat} (s : State) (m : Nat) (ok : Bool) (hM : 0x100041916 ||| M = M) :
    (State.liftGmac s m ok).off M = s.off M := by
  refine off_mono ?_ hM
  simp [State.liftGmac, off_ite]

/-! ## Ras -/

@[simp] theorem State.cpScope_off {M : Nat} (s : State) (code cp : Nat) (hM : 0x100041916 ||| M = M) :
    (State.cpScope s code cp).off M = s.off M := by
  refine off_mono ?_ hM
  simp [State.cpScope, off_ite]
@[simp] theorem State.cpFaulted_off {M : Nat} (s : State) (code cp : Nat) (hM : 0x100041916 ||| M = M) :
    (State.cpFaulted s code cp).off M = s.off M := by
  refine off_mono ?_ hM
  simp [State.cpFaulted]
@[simp] theorem State.cpMemoryError_off {M : Nat} (s : State) (cp : Nat) (hM : 0x100041916 ||| M = M) :
    (State.cpMemoryError s cp).off M = s.off M := by
  refine off_mono ?_ hM
  simp [State.cpMemoryError, off_ite]
@[simp] theorem State.cpWatchdog_off {M : Nat} (s : State) (cp : Nat) (hM : 0x100041916 ||| M = M) :
    (State.cpWatchdog s cp).off M = s.off M := by
  refine off_mono ?_ hM
  simp [State.cpWatchdog, off_ite]
@[simp] theorem State.cpAudit_off {M : Nat} (s : State) (cp : Nat) (mismatch : Bool) (hM : 0x100041916 ||| M = M) :
    (State.cpAudit s cp mismatch).off M = s.off M := by
  refine off_mono ?_ hM
  simp [State.cpAudit, off_ite]
@[simp] theorem State.scrubAny_off {M : Nat} (s : State) (t : ScrubTarget) (raw : BitVec 288) (hM : 0x1201619fe ||| M = M) :
    (State.scrubAny s t raw).off M = s.off M := by
  refine off_mono ?_ hM
  unfold State.scrubAny; split <;> simp [off_ite]
@[simp] theorem State.cpReloadDone_off {M : Nat} (s : State) (cp : Nat) (hM : 0x10a4c199e ||| M = M) :
    (State.cpReloadDone s cp).off M = s.off M := by
  refine off_mono ?_ hM
  simp [State.cpReloadDone, off_ite, foldl_off]
@[simp] theorem State.mpWatchdog_off {M : Nat} (s : State) (hM : 0x10a4c199e ||| M = M) :
    (State.mpWatchdog s).off M = s.off M := by
  refine off_mono ?_ hM
  simp [State.mpWatchdog, off_ite, foldl_off]
@[simp] theorem State.dumpRelease_off {M : Nat} (s : State) (path : Path) (hM : 0x90004 ||| M = M) :
    (State.dumpRelease s path).off M = s.off M := by
  refine off_mono ?_ hM
  unfold State.dumpRelease; refine State.served_off _ _ _ ?_ rfl; intros; (try dsimp only); (repeat' split) <;> simp [off_ite, fst_ite, foldl_off]
@[simp] theorem State.autoReset_off {M : Nat} (s : State) (hM : 0x1cffffffe ||| M = M) :
    (State.autoReset s).off M = s.off M := by
  refine off_mono ?_ hM
  simp [State.autoReset, off_ite, foldl_off]
@[simp] theorem State.telemetry_off {M : Nat} (s : State) (watts : Nat) (hM : 0x4 ||| M = M) :
    (State.telemetry s watts).off M = s.off M := by
  refine off_mono ?_ hM
  simp [State.telemetry]
@[simp] theorem State.lifeCount_off {M : Nat} (s : State) (i n : Nat) (hM : 0x80000000 ||| M = M) :
    (State.lifeCount s i n).off M = s.off M := by
  refine off_mono ?_ hM
  simp [State.lifeCount, off_ite, foldl_off]
@[simp] theorem State.commit_off {M : Nat} (s : State) (hM : 0x80000004 ||| M = M) :
    (State.commit s).off M = s.off M := by
  refine off_mono ?_ hM
  simp [State.commit, off_ite, foldl_off]
@[simp] theorem State.clkErr_off {M : Nat} (s : State) (code cls : Nat) (pll : Option Nat) (hM : 0x100040806 ||| M = M) :
    (State.clkErr s code cls pll).off M = s.off M := by
  refine off_mono ?_ hM
  simp [State.clkErr]
@[simp] theorem State.lifetimeCommit_off {M : Nat} (s : State) (verified : Bool) (hM : 0x180040806 ||| M = M) :
    (State.lifetimeCommit s verified).off M = s.off M := by
  refine off_mono ?_ hM
  simp [State.lifetimeCommit, off_ite]

/-! ## Clk -/

@[simp] theorem State.aclkUnlock_off {M : Nat} (s : State) (d : Nat) (hM : 0x100041916 ||| M = M) :
    (State.aclkUnlock s d).off M = s.off M := by
  refine off_mono ?_ hM
  unfold State.aclkUnlock; simp only []; split <;> simp [off_ite, foldl_off]
@[simp] theorem State.pllUnlock_off {M : Nat} (s : State) (b : Nat) (hM : 0x10a4c1d9e ||| M = M) :
    (State.pllUnlock s b).off M = s.off M := by
  refine off_mono ?_ hM
  simp [State.pllUnlock, off_ite, foldl_off]
@[simp] theorem State.pllRelock_off {M : Nat} (s : State) (b : Nat) (hM : 0x100004 ||| M = M) :
    (State.pllRelock s b).off M = s.off M := by
  refine off_mono ?_ hM
  simp [State.pllRelock, off_ite]
@[simp] theorem State.calStep_off {M : Nat} (s : State) (v : Int) (src : Nat) (hM : 0x80000004 ||| M = M) :
    (State.calStep s v src).off M = s.off M := by
  refine off_mono ?_ hM
  simp [State.calStep]
@[simp] theorem State.calSlew_off {M : Nat} (s : State) (d : Int) (src : Nat) (hM : 0x80000004 ||| M = M) :
    (State.calSlew s d src).off M = s.off M := by
  refine off_mono ?_ hM
  simp [State.calSlew]
@[simp] theorem State.calSet_off {M : Nat} (s : State) (v : Int) (src : Nat) (force : Bool) (hM : 0x180040806 ||| M = M) :
    (State.calSet s v src force).off M = s.off M := by
  refine off_mono ?_ hM
  simp [State.calSet, off_ite]
@[simp] theorem State.setDateTime_off {M : Nat} (s : State) (path : Path) (time : Word) (force : Bool) (hM : 0x180050806 ||| M = M) :
    (State.setDateTime s path time force).off M = s.off M := by
  refine off_mono ?_ hM
  unfold State.setDateTime; refine State.served_off _ _ _ ?_ rfl; intros; (try dsimp only); (repeat' split) <;> simp [off_ite, fst_ite, foldl_off]
@[simp] theorem State.ptmExchange_off {M : Nat} (s : State) (port : Nat) (master : Option Word) (hM : 0x180040806 ||| M = M) :
    (State.ptmExchange s port master).off M = s.off M := by
  refine off_mono ?_ hM
  unfold State.ptmExchange; repeat' split <;> simp [off_ite, foldl_off]
@[simp] theorem State.supercapDepleted_off {M : Nat} (s : State) (hM : 0x6 ||| M = M) :
    (State.supercapDepleted s).off M = s.off M := by
  refine off_mono ?_ hM
  simp [State.supercapDepleted, off_ite]
@[simp] theorem State.shutdownCommit_off {M : Nat} (s : State) (lost finished : Bool) (hM : 0x80000004 ||| M = M) :
    (State.shutdownCommit s lost finished).off M = s.off M := by
  refine off_mono ?_ hM
  simp [State.shutdownCommit, off_ite]
@[simp] theorem State.powerOff_off {M : Nat} (s : State) (hM : 0x1cffffffc ||| M = M) :
    (State.powerOff s).off M = s.off M := by
  refine off_mono ?_ hM
  simp [State.powerOff, off_ite, foldl_off]
@[simp] theorem State.shutdown_off {M : Nat} (s : State) (lost finished : Bool) (hM : 0x1cffffffc ||| M = M) :
    (State.shutdown s lost finished).off M = s.off M := by
  refine off_mono ?_ hM
  simp [State.shutdown, off_ite]
@[simp] theorem State.vinLow_off {M : Nat} (s : State) (finished : Bool) (hM : 0x1cffffffc ||| M = M) :
    (State.vinLow s finished).off M = s.off M := by
  refine off_mono ?_ hM
  simp [State.vinLow]
@[simp] theorem State.auxRailLoss_off {M : Nat} (s : State) (finished : Bool) (hM : 0x1cffffffc ||| M = M) :
    (State.auxRailLoss s finished).off M = s.off M := by
  refine off_mono ?_ hM
  simp [State.auxRailLoss]
@[simp] theorem State.pwrEnDeassert_off {M : Nat} (s : State) (finished : Bool) (hM : 0x1cffffffc ||| M = M) :
    (State.pwrEnDeassert s finished).off M = s.off M := by
  refine off_mono ?_ hM
  simp [State.pwrEnDeassert]
@[simp] theorem State.calTick_off {M : Nat} (s : State) (hM : 0x80000004 ||| M = M) :
    (State.calTick s).off M = s.off M := by
  refine off_mono ?_ hM
  simp [State.calTick, off_ite]
@[simp] theorem State.secondTick_off {M : Nat} (s : State) (hM : 0x80000000 ||| M = M) :
    (State.secondTick s).off M = s.off M := by
  refine off_mono ?_ hM
  simp [State.secondTick, off_ite, foldl_off]
@[simp] theorem State.upTick_off {M : Nat} (s : State) (hM : 0x80000004 ||| M = M) :
    (State.upTick s).off M = s.off M := by
  refine off_mono ?_ hM
  simp [State.upTick, off_ite]
@[simp] theorem State.tick_off {M : Nat} (s : State) (hM : 0x80000014 ||| M = M) :
    (State.tick s).off M = s.off M := by
  refine off_mono ?_ hM
  simp [State.tick]

/-! ## Power -/

@[simp] theorem State.powerSample_off {M : Nat} (s : State) (watts mv : Nat) (hM : 0x100040806 ||| M = M) :
    (State.powerSample s watts mv).off M = s.off M := by
  refine off_mono ?_ hM
  simp [State.powerSample, off_ite, foldl_off]
@[simp] theorem State.powerLimitStep_off {M : Nat} (s : State) (average : Nat) (hM : 0x100040806 ||| M = M) :
    (State.powerLimitStep s average).off M = s.off M := by
  refine off_mono ?_ hM
  simp [State.powerLimitStep, off_ite, foldl_off]
@[simp] theorem State.standbyEnter_off {M : Nat} (s : State) (hM : 0x10004 ||| M = M) :
    (State.standbyEnter s).off M = s.off M := by
  refine off_mono ?_ hM
  simp [State.standbyEnter, off_ite, foldl_off]
@[simp] theorem State.stateReqWrite_off {M : Nat} (s : State) (v : Word) (hM : 0x110004 ||| M = M) :
    (State.stateReqWrite s v).off M = s.off M := by
  refine off_mono ?_ hM
  unfold State.stateReqWrite; split <;> simp
@[simp] theorem State.thmErr_off {M : Nat} (s : State) (code cls part : Nat) (unit : Option Nat) (hM : 0x100040806 ||| M = M) :
    (State.thmErr s code cls part unit).off M = s.off M := by
  refine off_mono ?_ hM
  simp [State.thmErr]
@[simp] theorem State.thmCrit_off {M : Nat} (s : State) (unit : Option Nat) (hM : 0x10a4c199e ||| M = M) :
    (State.thmCrit s unit).off M = s.off M := by
  refine off_mono ?_ hM
  simp [State.thmCrit, off_ite, foldl_off]
@[simp] theorem State.heatLower_off {M : Nat} (s : State) (d : Nat) (hM : 0x100000004 ||| M = M) :
    (State.heatLower s d).off M = s.off M := by
  refine off_mono ?_ hM
  simp [State.heatLower, off_ite, foldl_off]
@[simp] theorem State.heatRaise_off {M : Nat} (s : State) (d : Nat) (hM : 0x100000004 ||| M = M) :
    (State.heatRaise s d).off M = s.off M := by
  refine off_mono ?_ hM
  simp [State.heatRaise, off_ite, foldl_off]
@[simp] theorem State.dieReading_off {M : Nat} (s : State) (d t : Nat) (hM : 0x100000004 ||| M = M) :
    (State.dieReading s d t).off M = s.off M := by
  refine off_mono ?_ hM
  simp [State.dieReading, off_ite]
@[simp] theorem State.hubReading_off {M : Nat} (s : State) (t : Nat) (hM : 0x4 ||| M = M) :
    (State.hubReading s t).off M = s.off M := by
  refine off_mono ?_ hM
  simp [State.hubReading]
@[simp] theorem State.stackReading_off {M : Nat} (s : State) (k t : Nat) (hM : 0x100040806 ||| M = M) :
    (State.stackReading s k t).off M = s.off M := by
  refine off_mono ?_ hM
  simp [State.stackReading, off_ite]
@[simp] theorem State.levelMs_off {M : Nat} (s : State) (hM : 0x4 ||| M = M) :
    (State.levelMs s).off M = s.off M := by
  refine off_mono ?_ hM
  simp [State.levelMs, off_ite, foldl_off]
@[simp] theorem State.nolReading_off {M : Nat} (s : State) (m t dram flash : Nat) (hM : 0x4 ||| M = M) :
    (State.nolReading s m t dram flash).off M = s.off M := by
  refine off_mono ?_ hM
  simp [State.nolReading]
@[simp] theorem State.thermalCycle_off {M : Nat} (s : State) (hot : Nat) (hM : 0x80000000 ||| M = M) :
    (State.thermalCycle s hot).off M = s.off M := by
  refine off_mono ?_ hM
  simp [State.thermalCycle, off_ite]
@[simp] theorem State.thermalSample_off {M : Nat} (s : State) (t : Temps) (hM : 0x18a4c199e ||| M = M) :
    (State.thermalSample s t).off M = s.off M := by
  refine off_mono ?_ hM
  unfold State.thermalSample; repeat' split <;> simp [off_ite, foldl_off]
@[simp] theorem State.sensorFail_off {M : Nat} (s : State) (x : Sensor) (hM : 0x100040806 ||| M = M) :
    (State.sensorFail s x).off M = s.off M := by
  refine off_mono ?_ hM
  simp [State.sensorFail, off_ite, foldl_off]; repeat' split <;> simp [off_ite, foldl_off]
@[simp] theorem State.start_off {M : Nat} (s : State) (hM : 0x100000000 ||| M = M) :
    (State.start s).off M = s.off M := by
  refine off_mono ?_ hM
  simp [State.start, off_ite]
@[simp] theorem State.auxRailUp_off {M : Nat} (s : State) (hM : 0x100000000 ||| M = M) :
    (State.auxRailUp s).off M = s.off M := by
  refine off_mono ?_ hM
  simp [State.auxRailUp, off_ite]
@[simp] theorem State.mgmtBusSelect_off {M : Nat} (s : State) (i3c : Bool) (hM : 0x100000000 ||| M = M) :
    (State.mgmtBusSelect s i3c).off M = s.off M := by
  refine off_mono ?_ hM
  simp [State.mgmtBusSelect, off_ite]
@[simp] theorem State.setRack_off {M : Nat} (s : State) (path : Path) (rack : Nat) (hM : 0x100010000 ||| M = M) :
    (State.setRack s path rack).off M = s.off M := by
  refine off_mono ?_ hM
  unfold State.setRack; (try dsimp only); (repeat' split) <;> (try simp [off_ite, fst_ite, foldl_off]) <;> refine State.served_off _ _ _ ?_ rfl <;> intros <;> (try dsimp only) <;> (repeat' split) <;> simp [off_ite, fst_ite, foldl_off]
@[simp] theorem State.inputFault_off {M : Nat} (s : State) (unit : Nat) (hM : 0x100040806 ||| M = M) :
    (State.inputFault s unit).off M = s.off M := by
  refine off_mono ?_ hM
  simp [State.inputFault, off_ite, foldl_off]
@[simp] theorem State.pwrEnAssert_off {M : Nat} (s : State) (j1 j2 : Bool) (hM : 0x100040806 ||| M = M) :
    (State.pwrEnAssert s j1 j2).off M = s.off M := by
  refine off_mono ?_ hM
  simp [State.pwrEnAssert, off_ite]
@[simp] theorem State.vinRising_off {M : Nat} (s : State) (j1 j2 : Bool) (hM : 0x100000000 ||| M = M) :
    (State.vinRising s j1 j2).off M = s.off M := by
  refine off_mono ?_ hM
  simp [State.vinRising]
@[simp] theorem State.modPwrgd_off {M : Nat} (s : State) (brakePinLow : Bool) (hM : 0x1cffffffe ||| M = M) :
    (State.modPwrgd s brakePinLow).off M = s.off M := by
  refine off_mono ?_ hM
  simp [State.modPwrgd, off_ite, foldl_off]

/-! ## Views -/

@[simp] theorem State.dumpList_off {M : Nat} (s : State) (i : Nat) (ws : List Word) (hM : 0x80000 ||| M = M) :
    (State.dumpList s i ws).off M = s.off M := by
  refine off_mono ?_ hM
  simp [State.dumpList, off_ite, foldl_off]
@[simp] theorem State.dumpHeader_off {M : Nat} (s : State) (bytes : Nat) (hM : 0x80000 ||| M = M) :
    (State.dumpHeader s bytes).off M = s.off M := by
  refine off_mono ?_ hM
  simp [State.dumpHeader, off_ite, foldl_off]
@[simp] theorem State.dumpWritten_off {M : Nat} (s : State) (complete : Bool) (bytes : Nat) (hM : 0x1800c0806 ||| M = M) :
    (State.dumpWritten s complete bytes).off M = s.off M := by
  refine off_mono ?_ hM
  simp [State.dumpWritten, off_ite]

/-! ## RegWrite -/

@[simp] theorem State.nolWrite_off {M : Nat} (s : State) (m o off : Nat) (v : Word) (hM : 0x4 ||| M = M) :
    (State.nolWrite s m o off v).off M = s.off M := by
  refine off_mono ?_ hM
  simp [State.nolWrite, off_ite]
@[simp] theorem State.fabWrite_off {M : Nat} (s : State) (p o off : Nat) (v : Word) (hM : 0x10a44199e ||| M = M) :
    (State.fabWrite s p o off v).off M = s.off M := by
  refine off_mono ?_ hM
  simp [State.fabWrite, off_ite, foldl_off]
@[simp] theorem State.coreWrite_off {M : Nat} (s : State) (c o off : Nat) (v : Word) (hM : 0x14 ||| M = M) :
    (State.coreWrite s c o off v).off M = s.off M := by
  refine off_mono ?_ hM
  simp [State.coreWrite, off_ite, foldl_off]
@[simp] theorem State.hbmWrite_off {M : Nat} (s : State) (k off : Nat) (v : Word) (hM : 0x100004 ||| M = M) :
    (State.hbmWrite s k off v).off M = s.off M := by
  refine off_mono ?_ hM
  simp [State.hbmWrite, off_ite]
@[simp] theorem State.mbistWrite_off {M : Nat} (s : State) (w off : Nat) (v : Word) (hM : 0x84 ||| M = M) :
    (State.mbistWrite s w off v).off M = s.off M := by
  refine off_mono ?_ hM
  simp [State.mbistWrite, off_ite]
@[simp] theorem State.schedWrite_off {M : Nat} (s : State) (p o off : Nat) (v : Word) (hM : 0x105841916 ||| M = M) :
    (State.schedWrite s p o off v).off M = s.off M := by
  refine off_mono ?_ hM
  simp [State.schedWrite, off_ite, foldl_off]
@[simp] theorem State.fwWrite_off {M : Nat} (s : State) (off : Nat) (v : Word) (hM : 0x10fd5199e ||| M = M) :
    (State.fwWrite s off v).off M = s.off M := by
  refine off_mono ?_ hM
  unfold State.fwWrite
  refine off_if rfl ?_
  iterate 3 refine off_if (by simp) ?_
  refine off_if rfl ?_
  iterate 6 refine off_if (by simp) ?_
  split <;> simp
@[simp] theorem State.hostWrite_off {M : Nat} (s : State) (port fn off : Nat) (v : Word) (hM : 0x100040c06 ||| M = M) :
    (State.hostWrite s port fn off v).off M = s.off M := by
  refine off_mono ?_ hM
  simp [State.hostWrite, off_ite]
@[simp] theorem State.registerWrite_off {M : Nat} (s : State) (who : Writer) (off : Nat) (v : Word) (hM : 0x10fd51d9e ||| M = M) :
    (State.registerWrite s who off v).off M = s.off M := by
  refine off_mono ?_ hM
  unfold State.registerWrite; split <;> simp

end Sys2Proof.Machine
end

