-- ==== Sys2Proof/Laws/Tab.lean ====
section
/-! SUPPORT. Sparse tables and byte pieces: what a key reads as after each operation, and that the canonical form is kept. None of the
reading laws asks for a canonical table. -/
namespace Sys2Proof.Machine

/-! ## Reading -/

theorem Tab.get_insert {α : Type} (d x : α) (t : Tab α) (q k : Nat) :
    Tab.get d (Tab.insert x t q) k = if k = q then x else Tab.get d t k := by
  induction t with
  | nil => simp [Tab.insert, Tab.get]
  | cons e t ih =>
    obtain ⟨a, v⟩ := e
    simp only [Tab.insert]
    split
    · simp only [Tab.get]
    · split
      · rename_i h; subst h; simp only [Tab.get]; split <;> simp_all
      · simp only [Tab.get, ih]
        by_cases h1 : k = a <;> by_cases h2 : k = q <;> simp_all
theorem Tab.get_erase {α : Type} (d : α) (t : Tab α) (q k : Nat) :
    Tab.get d (t.erase q) k = if k = q then d else Tab.get d t k := by
  unfold Tab.erase
  induction t with
  | nil => simp [Tab.get]
  | cons e t ih =>
    obtain ⟨a, v⟩ := e
    rw [List.filter_cons]
    by_cases h1 : a = q
    · subst h1
      simp only [ne_eq, not_true_eq_false, decide_false, Bool.false_eq_true, if_false, Tab.get] at ih ⊢
      rw [ih]; split <;> simp_all
    · simp only [ne_eq, h1, not_false_eq_true, decide_true, if_true, Tab.get] at ih ⊢
      by_cases h2 : k = a
      · subst h2; simp [h1]
      · simp only [h2, if_false]; exact ih
/-- A key reads as what was last set there. -/
theorem Tab.get_set {α : Type} [DecidableEq α] (d : α) (t : Tab α) (q : Nat) (x : α) (k : Nat) :
    Tab.get d (Tab.set d t q x) k = if k = q then x else Tab.get d t k := by
  unfold Tab.set
  split
  · rename_i h; subst h; exact Tab.get_erase _ _ _ _
  · exact Tab.get_insert _ _ _ _ _
@[simp] theorem Tab.get_set_self {α : Type} [DecidableEq α] (d : α) (t : Tab α) (q : Nat) (x : α) :
    Tab.get d (Tab.set d t q x) q = x := by simp [Tab.get_set]
/-- Another key keeps its reading, whatever unlisted keys read as. -/
theorem Tab.get_set_ne {α : Type} [DecidableEq α] (d e : α) (t : Tab α) (q : Nat) (x : α) (k : Nat) (h : k ≠ q) :
    Tab.get e (Tab.set d t q x) k = Tab.get e t k := by
  unfold Tab.set
  split
  · simp [Tab.get_erase, h]
  · simp [Tab.get_insert, h]
/-- Every key reads as what it read, changed, where the default stays. -/
theorem Tab.get_mapVals {α : Type} [DecidableEq α] (d : α) (f : Nat → α → α) (t : Tab α) (k : Nat) (h : f k d = d) :
    Tab.get d (Tab.mapVals d f t) k = f k (Tab.get d t k) := by
  induction t with
  | nil => exact h.symm
  | cons e t ih =>
    obtain ⟨a, v⟩ := e
    unfold Tab.mapVals
    split
    · rename_i hv
      rw [Tab.get_erase, ih]
      by_cases hk : k = a
      · subst hk; simp [Tab.get, hv]
      · simp [Tab.get, hk]
    · by_cases hk : k = a
      · subst hk; simp [Tab.get]
      · simp [Tab.get, hk, ih]
theorem Tab.get_mapKeys {α : Type} [DecidableEq α] (d : Nat → α) (f : Nat → α → α) (t : Tab α) (k : Nat) (h : f k (d k) = d k) :
    Tab.get (d k) (Tab.mapKeys d f t) k = f k (Tab.get (d k) t k) := by
  induction t with
  | nil => simp only [Tab.mapKeys, Tab.get, h]
  | cons e t ih =>
    simp only [Tab.mapKeys, Tab.get]
    by_cases hk : k = e.1
    · subst hk
      by_cases hf : f e.1 e.2 = d e.1
      · rw [if_pos hf, Tab.get_erase, if_pos rfl, if_pos rfl, hf]
      · rw [if_neg hf]; simp only [Tab.get, if_pos]
    · by_cases hf : f e.1 e.2 = d e.1
      · rw [if_pos hf, Tab.get_erase, if_neg hk, if_neg hk, ih]
      · rw [if_neg hf]; simp only [Tab.get, if_neg hk, ih]
theorem Tab.get_append {α : Type} (d : α) (t u : Tab α) (k : Nat) :
    Tab.get d (t ++ u) k = if t.any (fun e => e.1 == k) then Tab.get d t k else Tab.get d u k := by
  induction t with
  | nil => simp
  | cons e t ih =>
    obtain ⟨a, v⟩ := e
    by_cases h : k = a
    · subst h; simp [Tab.get]
    · have h' : (a == k) = false := by simp; exact fun x => h x.symm
      simp only [List.cons_append, Tab.get, h, if_false, ih, List.any_cons, h', Bool.false_or]
theorem Tab.get_none {α : Type} (d : α) (t : Tab α) (k : Nat) (h : t.any (fun e => e.1 == k) = false) :
    Tab.get d t k = d := by
  induction t with
  | nil => rfl
  | cons e t ih =>
    obtain ⟨a, v⟩ := e
    simp only [List.any_cons, Bool.or_eq_false_iff, beq_eq_false_iff_ne] at h
    rw [Tab.get, if_neg (fun x : k = a => h.1 x.symm), ih h.2]
theorem Tab.get_filter {α : Type} (d : α) (t : Tab α) (p : Nat → Bool) (k : Nat) :
    Tab.get d (t.filter (fun e => p e.1)) k = if p k then Tab.get d t k else d := by
  induction t with
  | nil => simp [Tab.get]
  | cons e t ih =>
    obtain ⟨a, v⟩ := e
    rw [List.filter_cons]
    by_cases h : k = a
    · subst h; cases hp : p k <;> simp [hp, Tab.get] at ih ⊢; exact ih
    · cases hp : p a <;> simp [Tab.get, h, ih]
theorem Tab.get_shift {α : Type} (d : α) (t : Tab α) (lo k : Nat) :
    Tab.get d (t.map (fun e => (e.1 + lo, e.2))) k = if lo ≤ k then Tab.get d t (k - lo) else d := by
  induction t with
  | nil => simp [Tab.get]
  | cons e t ih =>
    obtain ⟨a, v⟩ := e
    simp only [List.map_cons, Tab.get, ih]
    by_cases h : lo ≤ k
    · by_cases h2 : k = a + lo
      · simp [h2]
      · have : k - lo ≠ a := by omega
        simp [h, h2, this]
    · have : k ≠ a + lo := by omega
      simp [h, this]

/-- The canonical form reads as the table did. -/
@[simp] theorem Tab.get_canon {α : Type} [DecidableEq α] (d : α) (t : Tab α) (k : Nat) : Tab.get d (Tab.canon d t) k = Tab.get d t k := by
  induction t with
  | nil => rfl
  | cons e t ih =>
    have e1 : Tab.canon d (e :: t) = Tab.set d (Tab.canon d t) e.1 e.2 := rfl
    rw [e1, Tab.get_set, ih]; simp only [Tab.get]
/-- A byte after a piece is pasted: the piece's inside the range, the old one outside it. -/
theorem get_pasteTab (m : Tab Byte) (lo n : Nat) (d : Tab Byte) (k : Nat) :
    Tab.get 0 (pasteTab m lo n d) k =
      if lo ≤ k ∧ k < lo + n then Tab.get 0 d (k - lo) else Tab.get 0 m k := by
  rw [← Tab.get_canon (0 : Byte) d]
  unfold pasteTab
  rw [Tab.get_append, Tab.get_append, Tab.get_shift,
    Tab.get_filter (0 : Byte) m (fun a => decide (a < lo)), Tab.get_filter (0 : Byte) (Tab.canon 0 d) (fun a => decide (a < n)),
    Tab.get_filter (0 : Byte) m (fun a => decide (lo + n ≤ a))]
  have hany : ∀ (t : Tab Byte) (p : Nat → Bool), p k = false → (t.filter (fun e => p e.1)).any (fun e => e.1 == k) = false := by
    intro t p hp; simp only [List.any_eq_false, List.mem_filter, beq_iff_eq, and_imp, Prod.forall]
    intro a b _ h e; subst e; simp [hp] at h
  by_cases h1 : k < lo
  · have h3 : ¬(lo ≤ k) := by omega
    have h4 : ¬(lo + n ≤ k) := by omega
    have e2 : (((Tab.canon 0 d).filter (fun e => decide (e.1 < n))).map (fun e => (e.1 + lo, e.2))).any (fun e => e.1 == k) = false := by
      simp only [List.any_eq_false, List.mem_map, beq_iff_eq, Prod.exists, forall_exists_index, and_imp, Prod.forall]
      intro a b x y _ h e; simp only [Prod.mk.injEq] at h; omega
    rw [List.any_append, e2, Bool.or_false]
    cases e1 : (m.filter (fun e => decide (e.1 < lo))).any (fun e => e.1 == k)
    · have := Tab.get_none (0 : Byte) _ k e1
      rw [Tab.get_filter (0 : Byte) m (fun a => decide (a < lo))] at this
      simp [h1] at this
      simp [h3, h4, this]
    · simp [h1, h3]
  · have h3 : lo ≤ k := by omega
    have e1 := hany m (fun a => decide (a < lo)) (by simp [h3])
    rw [List.any_append, e1, Bool.false_or]
    by_cases h2 : k < lo + n
    · have h5 : k - lo < n := by omega
      have h6 : ¬(lo + n ≤ k) := by omega
      cases e2 : (((Tab.canon 0 d).filter (fun e => decide (e.1 < n))).map (fun e => (e.1 + lo, e.2))).any (fun e => e.1 == k)
      · have := Tab.get_none (0 : Byte) _ k e2
        rw [Tab.get_shift, Tab.get_filter (0 : Byte) (Tab.canon 0 d) (fun a => decide (a < n))] at this
        simp [h3, h5] at this
        simp [h3, h2, h6, this]
      · simp [h3, h2, h5]
    · have h5 : lo + n ≤ k := by omega
      have e2 : (((Tab.canon 0 d).filter (fun e => decide (e.1 < n))).map (fun e => (e.1 + lo, e.2))).any (fun e => e.1 == k) = false := by
        simp only [List.any_eq_false, List.mem_map, List.mem_filter, beq_iff_eq, Prod.exists, forall_exists_index, and_imp, Prod.forall,
          decide_eq_true_eq]
        intro a b x y _ hx h e; simp only [Prod.mk.injEq] at h; omega
      rw [e2]; simp [h2, h5]
/-- A byte of a piece cut out of a memory. -/
theorem get_cutTab {α : Type} (z : α) (m : Tab α) (lo n k : Nat) :
    Tab.get z (cutTab m lo n) k = if k < n then Tab.get z m (lo + k) else z := by
  unfold cutTab
  induction m with
  | nil => simp [Tab.get]
  | cons e t ih =>
    obtain ⟨a, v⟩ := e
    rw [List.filter_cons]
    by_cases h : lo ≤ a ∧ a < lo + n
    · simp only [h.1, h.2, decide_true, Bool.and_true, if_true, List.map_cons, Tab.get, ih]
      by_cases h2 : k = a - lo
      · have : lo + k = a := by omega
        have hk : k < n := by omega
        rw [if_pos h2, if_pos hk, if_pos this]
      · have : lo + k ≠ a := by omega
        simp [h2, this]
    · have h0 : (decide (lo ≤ a) && decide (a < lo + n)) = false := by
        simp only [Bool.and_eq_false_iff, decide_eq_false_iff_not]; omega
      rw [if_neg (by simp [h0])]
      rw [ih]
      split
      · have : lo + k ≠ a := by omega
        simp [Tab.get, this]
      · rfl

/-! ## The canonical form -/

theorem Tab.sorted_iff {α : Type} (t : Tab α) : t.sorted = true ↔ List.Pairwise (fun a b => a.1 < b.1) t := by
  induction t with
  | nil => simp [Tab.sorted]
  | cons e t ih =>
    obtain ⟨a, v⟩ := e
    cases t with
    | nil => simp [Tab.sorted]
    | cons f t =>
      obtain ⟨b, w⟩ := f
      simp only [Tab.sorted, Bool.and_eq_true, decide_eq_true_eq, ih]
      constructor
      · rintro ⟨h, hp⟩
        refine List.pairwise_cons.2 ⟨fun x hx => ?_, hp⟩
        rcases List.mem_cons.1 hx with rfl | hx
        · exact h
        · exact lt_trans h ((List.pairwise_cons.1 hp).1 x hx)
      · intro hp
        exact ⟨(List.pairwise_cons.1 hp).1 (b, w) (by simp), (List.pairwise_cons.1 hp).2⟩
theorem Tab.wf_iff {α : Type} [DecidableEq α] (d : Nat → α) (t : Tab α) :
    t.wf d = true ↔ List.Pairwise (fun a b => a.1 < b.1) t ∧ ∀ e ∈ t, e.2 ≠ d e.1 := by
  simp [Tab.wf, Tab.sorted_iff]
theorem Tab.wf_filter {α : Type} [DecidableEq α] (d : Nat → α) (t : Tab α) (p : Nat × α → Bool) (h : t.wf d = true) :
    Tab.wf d (t.filter p) = true := by
  rw [Tab.wf_iff] at h ⊢
  exact ⟨h.1.sublist List.filter_sublist, fun e he => h.2 e (List.mem_filter.1 he).1⟩
theorem Tab.mem_insert {α : Type} (x : α) (t : Tab α) (q : Nat) : ∀ e ∈ Tab.insert x t q, e = (q, x) ∨ e ∈ t := by
  induction t with
  | nil => intro e he; simpa [Tab.insert] using he
  | cons f t ih =>
    intro e he
    simp only [Tab.insert] at he
    split at he
    · rcases List.mem_cons.1 he with h | h
      · exact .inl h
      · exact .inr h
    · split at he
      · rcases List.mem_cons.1 he with h | h
        · exact .inl h
        · exact .inr (List.mem_cons_of_mem _ h)
      · rcases List.mem_cons.1 he with rfl | h
        · exact .inr (List.mem_cons_self)
        · exact (ih e h).imp id (List.mem_cons_of_mem _)
/-- Writing a key keeps the canonical form of a table with one default. -/
theorem Tab.wf_set {α : Type} [DecidableEq α] (z : α) (t : Tab α) (q : Nat) (x : α) (h : t.wf (fun _ => z) = true) :
    Tab.wf (fun _ => z) (Tab.set z t q x) = true := by
  unfold Tab.set
  split
  · exact Tab.wf_filter _ _ _ h
  · rename_i hx
    rw [Tab.wf_iff] at h ⊢
    refine ⟨?_, fun e he => ?_⟩
    · induction t with
      | nil => simp [Tab.insert]
      | cons f t ih =>
        have hp := List.pairwise_cons.1 h.1
        simp only [Tab.insert]
        split
        · rename_i hq
          refine List.pairwise_cons.2 ⟨fun e he => ?_, h.1⟩
          rcases List.mem_cons.1 he with rfl | he
          · exact hq
          · exact lt_trans hq (hp.1 e he)
        · split
          · rename_i hq
            exact List.pairwise_cons.2 ⟨fun e he => by simp only [hq]; exact hp.1 e he, hp.2⟩
          · rename_i h1 h2
            refine List.pairwise_cons.2 ⟨fun e he => ?_, ih ⟨hp.2, fun e he => h.2 e (List.mem_cons_of_mem _ he)⟩⟩
            rcases Tab.mem_insert x t q e he with rfl | he
            · simp only; omega
            · exact hp.1 e he
    · rcases Tab.mem_insert x t q e he with rfl | he
      · exact hx
      · exact h.2 e he
theorem Tab.wf_canon {α : Type} [DecidableEq α] (z : α) (t : Tab α) : Tab.wf (fun _ => z) (Tab.canon z t) = true := by
  induction t with
  | nil => rfl
  | cons e t ih => exact Tab.wf_set z _ _ _ ih
/-- Pasting any piece keeps the canonical form of a memory. -/
theorem wf_pasteTab (m : Tab Byte) (lo n : Nat) (d : Tab Byte) (hm : m.wf (fun _ => (0 : Byte)) = true) :
    Tab.wf (fun _ => (0 : Byte)) (pasteTab m lo n d) = true := by
  have hd := Tab.wf_canon (0 : Byte) d
  rw [Tab.wf_iff] at hm hd ⊢
  unfold pasteTab
  constructor
  · rw [List.pairwise_append, List.pairwise_append]
    refine ⟨⟨hm.1.sublist List.filter_sublist, ?_, ?_⟩, hm.1.sublist List.filter_sublist, ?_⟩
    · rw [List.pairwise_map]
      exact (hd.1.sublist List.filter_sublist).imp (fun h => by simpa using h)
    · intro a ha b hb
      simp only [List.mem_filter, decide_eq_true_eq] at ha
      simp only [List.mem_map, List.mem_filter, decide_eq_true_eq] at hb
      obtain ⟨e, _, rfl⟩ := hb
      simp only; omega
    · intro a ha b hb
      simp only [List.mem_filter, decide_eq_true_eq] at hb
      rcases List.mem_append.1 ha with ha | ha
      · simp only [List.mem_filter, decide_eq_true_eq] at ha; omega
      · simp only [List.mem_map, List.mem_filter, decide_eq_true_eq] at ha
        obtain ⟨e, he, rfl⟩ := ha
        simp only; omega
  · intro e he
    rcases List.mem_append.1 he with he | he
    · rcases List.mem_append.1 he with he | he
      · exact hm.2 e (List.mem_filter.1 he).1
      · simp only [List.mem_map, List.mem_filter] at he
        obtain ⟨x, hx, rfl⟩ := he
        exact hd.2 x hx.1
    · exact hm.2 e (List.mem_filter.1 he).1
theorem bytesTab_le (bs : List Byte) (i : Nat) : ∀ e ∈ bytesTab bs i, i ≤ e.1 ∧ e.2 ≠ 0 := by
  induction bs generalizing i with
  | nil => simp [bytesTab]
  | cons b t ih =>
    intro e he
    simp only [bytesTab] at he
    split at he
    · have := ih (i + 1) e he; exact ⟨by omega, this.2⟩
    · rcases List.mem_cons.1 he with rfl | he
      · exact ⟨le_refl _, ‹_›⟩
      · have := ih (i + 1) e he; exact ⟨by omega, this.2⟩
theorem wf_bytesTab (bs : List Byte) (i : Nat) : Tab.wf (fun _ => (0 : Byte)) (bytesTab bs i) = true := by
  rw [Tab.wf_iff]
  refine ⟨?_, fun e he => (bytesTab_le bs i e he).2⟩
  induction bs generalizing i with
  | nil => simp [bytesTab]
  | cons b t ih =>
    simp only [bytesTab]
    split
    · exact ih _
    · refine List.pairwise_cons.2 ⟨fun e he => ?_, ih _⟩
      have := (bytesTab_le t (i + 1) e he).1
      simp only; omega
theorem wf_cutTab (m : Tab Byte) (lo n : Nat) (h : m.wf (fun _ => (0 : Byte)) = true) :
    Tab.wf (fun _ => (0 : Byte)) (cutTab m lo n) = true := by
  rw [Tab.wf_iff] at h ⊢
  unfold cutTab
  constructor
  · rw [List.pairwise_map]
    refine ((h.1.filter _).imp_of_mem ?_)
    intro a b ha hb hab
    simp only [List.mem_filter, Bool.and_eq_true, decide_eq_true_eq] at ha hb
    simp only; omega
  · intro e he
    simp only [List.mem_map, List.mem_filter] at he
    obtain ⟨x, hx, rfl⟩ := he
    exact h.2 x hx.1

end Sys2Proof.Machine
end

