-- ==== Sys2Proof/Laws/State.lean ====
section
/-! SUPPORT. Reading back: fields of State after the shared operations, registers after writes, and each indexed part of the state after its
update. -/
namespace Sys2Proof.Machine

/-! ## Fields outside a mask -/

theorem pending_of_off {M : Nat} {s t : State} (h : t.off M = s.off M) (hb : M / 1 % 2 = 0) : t.pending = s.pending := by
  have e := congrArg (fun x : State => x.pending) h
  simp only [State.off, hb, Nat.zero_ne_one, if_false] at e
  exact e
theorem freeCtr_of_off {M : Nat} {s t : State} (h : t.off M = s.off M) (hb : M / 2 % 2 = 0) : t.freeCtr = s.freeCtr := by
  have e := congrArg (fun x : State => x.freeCtr) h
  simp only [State.off, hb, Nat.zero_ne_one, if_false] at e
  exact e
theorem regs_of_off {M : Nat} {s t : State} (h : t.off M = s.off M) (hb : M / 4 % 2 = 0) : t.regs = s.regs := by
  have e := congrArg (fun x : State => x.regs) h
  simp only [State.off, hb, Nat.zero_ne_one, if_false] at e
  exact e
theorem mem_of_off {M : Nat} {s t : State} (h : t.off M = s.off M) (hb : M / 8 % 2 = 0) : t.mem = s.mem := by
  have e := congrArg (fun x : State => x.mem) h
  simp only [State.off, hb, Nat.zero_ne_one, if_false] at e
  exact e
theorem poison_of_off {M : Nat} {s t : State} (h : t.off M = s.off M) (hb : M / 8 % 2 = 0) : t.poison = s.poison := by
  have e := congrArg (fun x : State => x.poison) h
  simp only [State.off, hb, Nat.zero_ne_one, if_false] at e
  exact e
theorem chip_cores_of_off {M : Nat} {s t : State} (h : t.off M = s.off M) (hb : M / 16 % 2 = 0) : t.chip.cores = s.chip.cores := by
  have e := congrArg (fun x : State => x.chip.cores) h
  simp only [State.off, hb, Nat.zero_ne_one, if_false] at e
  exact e
theorem chip_gov_of_off {M : Nat} {s t : State} (h : t.off M = s.off M) (hb : M / 16 % 2 = 0) : t.chip.gov = s.chip.gov := by
  have e := congrArg (fun x : State => x.chip.gov) h
  simp only [State.off, hb, Nat.zero_ne_one, if_false] at e
  exact e
theorem chip_imem_of_off {M : Nat} {s t : State} (h : t.off M = s.off M) (hb : M / 32 % 2 = 0) : t.chip.imem = s.chip.imem := by
  have e := congrArg (fun x : State => x.chip.imem) h
  simp only [State.off, hb, Nat.zero_ne_one, if_false] at e
  exact e
theorem chip_imemPoison_of_off {M : Nat} {s t : State} (h : t.off M = s.off M) (hb : M / 32 % 2 = 0) : t.chip.imemPoison = s.chip.imemPoison := by
  have e := congrArg (fun x : State => x.chip.imemPoison) h
  simp only [State.off, hb, Nat.zero_ne_one, if_false] at e
  exact e
theorem chip_imemErr_of_off {M : Nat} {s t : State} (h : t.off M = s.off M) (hb : M / 32 % 2 = 0) : t.chip.imemErr = s.chip.imemErr := by
  have e := congrArg (fun x : State => x.chip.imemErr) h
  simp only [State.off, hb, Nat.zero_ne_one, if_false] at e
  exact e
theorem chip_stage_of_off {M : Nat} {s t : State} (h : t.off M = s.off M) (hb : M / 64 % 2 = 0) : t.chip.stage = s.chip.stage := by
  have e := congrArg (fun x : State => x.chip.stage) h
  simp only [State.off, hb, Nat.zero_ne_one, if_false] at e
  exact e
theorem chip_stagePoison_of_off {M : Nat} {s t : State} (h : t.off M = s.off M) (hb : M / 64 % 2 = 0) : t.chip.stagePoison = s.chip.stagePoison := by
  have e := congrArg (fun x : State => x.chip.stagePoison) h
  simp only [State.off, hb, Nat.zero_ne_one, if_false] at e
  exact e
theorem chip_segs_of_off {M : Nat} {s t : State} (h : t.off M = s.off M) (hb : M / 128 % 2 = 0) : t.chip.segs = s.chip.segs := by
  have e := congrArg (fun x : State => x.chip.segs) h
  simp only [State.off, hb, Nat.zero_ne_one, if_false] at e
  exact e
theorem chip_march_of_off {M : Nat} {s t : State} (h : t.off M = s.off M) (hb : M / 128 % 2 = 0) : t.chip.march = s.chip.march := by
  have e := congrArg (fun x : State => x.chip.march) h
  simp only [State.off, hb, Nat.zero_ne_one, if_false] at e
  exact e
theorem chip_remotes_of_off {M : Nat} {s t : State} (h : t.off M = s.off M) (hb : M / 256 % 2 = 0) : t.chip.remotes = s.chip.remotes := by
  have e := congrArg (fun x : State => x.chip.remotes) h
  simp only [State.off, hb, Nat.zero_ne_one, if_false] at e
  exact e
theorem host_mem0_of_off {M : Nat} {s t : State} (h : t.off M = s.off M) (hb : M / 512 % 2 = 0) : t.host.mem0 = s.host.mem0 := by
  have e := congrArg (fun x : State => x.host.mem0) h
  simp only [State.off, hb, Nat.zero_ne_one, if_false] at e
  exact e
theorem host_mem1_of_off {M : Nat} {s t : State} (h : t.off M = s.off M) (hb : M / 512 % 2 = 0) : t.host.mem1 = s.host.mem1 := by
  have e := congrArg (fun x : State => x.host.mem1) h
  simp only [State.off, hb, Nat.zero_ne_one, if_false] at e
  exact e
theorem host_link0_of_off {M : Nat} {s t : State} (h : t.off M = s.off M) (hb : M / 1024 % 2 = 0) : t.host.link0 = s.host.link0 := by
  have e := congrArg (fun x : State => x.host.link0) h
  simp only [State.off, hb, Nat.zero_ne_one, if_false] at e
  exact e
theorem host_link1_of_off {M : Nat} {s t : State} (h : t.off M = s.off M) (hb : M / 1024 % 2 = 0) : t.host.link1 = s.host.link1 := by
  have e := congrArg (fun x : State => x.host.link1) h
  simp only [State.off, hb, Nat.zero_ne_one, if_false] at e
  exact e
theorem host_cfgReady0_of_off {M : Nat} {s t : State} (h : t.off M = s.off M) (hb : M / 1024 % 2 = 0) : t.host.cfgReady0 = s.host.cfgReady0 := by
  have e := congrArg (fun x : State => x.host.cfgReady0) h
  simp only [State.off, hb, Nat.zero_ne_one, if_false] at e
  exact e
theorem host_cfgReady1_of_off {M : Nat} {s t : State} (h : t.off M = s.off M) (hb : M / 1024 % 2 = 0) : t.host.cfgReady1 = s.host.cfgReady1 := by
  have e := congrArg (fun x : State => x.host.cfgReady1) h
  simp only [State.off, hb, Nat.zero_ne_one, if_false] at e
  exact e
theorem host_perst0_of_off {M : Nat} {s t : State} (h : t.off M = s.off M) (hb : M / 1024 % 2 = 0) : t.host.perst0 = s.host.perst0 := by
  have e := congrArg (fun x : State => x.host.perst0) h
  simp only [State.off, hb, Nat.zero_ne_one, if_false] at e
  exact e
theorem host_perst1_of_off {M : Nat} {s t : State} (h : t.off M = s.off M) (hb : M / 1024 % 2 = 0) : t.host.perst1 = s.host.perst1 := by
  have e := congrArg (fun x : State => x.host.perst1) h
  simp only [State.off, hb, Nat.zero_ne_one, if_false] at e
  exact e
theorem host_ans0_of_off {M : Nat} {s t : State} (h : t.off M = s.off M) (hb : M / 1024 % 2 = 0) : t.host.ans0 = s.host.ans0 := by
  have e := congrArg (fun x : State => x.host.ans0) h
  simp only [State.off, hb, Nat.zero_ne_one, if_false] at e
  exact e
theorem host_ans1_of_off {M : Nat} {s t : State} (h : t.off M = s.off M) (hb : M / 1024 % 2 = 0) : t.host.ans1 = s.host.ans1 := by
  have e := congrArg (fun x : State => x.host.ans1) h
  simp only [State.off, hb, Nat.zero_ne_one, if_false] at e
  exact e
theorem host_ignored_of_off {M : Nat} {s t : State} (h : t.off M = s.off M) (hb : M / 1024 % 2 = 0) : t.host.ignored = s.host.ignored := by
  have e := congrArg (fun x : State => x.host.ignored) h
  simp only [State.off, hb, Nat.zero_ne_one, if_false] at e
  exact e
theorem host_mail_of_off {M : Nat} {s t : State} (h : t.off M = s.off M) (hb : M / 1024 % 2 = 0) : t.host.mail = s.host.mail := by
  have e := congrArg (fun x : State => x.host.mail) h
  simp only [State.off, hb, Nat.zero_ne_one, if_false] at e
  exact e
theorem host_rings_of_off {M : Nat} {s t : State} (h : t.off M = s.off M) (hb : M / 2048 % 2 = 0) : t.host.rings = s.host.rings := by
  have e := congrArg (fun x : State => x.host.rings) h
  simp only [State.off, hb, Nat.zero_ne_one, if_false] at e
  exact e
theorem host_msix_of_off {M : Nat} {s t : State} (h : t.off M = s.off M) (hb : M / 2048 % 2 = 0) : t.host.msix = s.host.msix := by
  have e := congrArg (fun x : State => x.host.msix) h
  simp only [State.off, hb, Nat.zero_ne_one, if_false] at e
  exact e
theorem host_jobs_of_off {M : Nat} {s t : State} (h : t.off M = s.off M) (hb : M / 4096 % 2 = 0) : t.host.jobs = s.host.jobs := by
  have e := congrArg (fun x : State => x.host.jobs) h
  simp only [State.off, hb, Nat.zero_ne_one, if_false] at e
  exact e
theorem host_waiting_of_off {M : Nat} {s t : State} (h : t.off M = s.off M) (hb : M / 8192 % 2 = 0) : t.host.waiting = s.host.waiting := by
  have e := congrArg (fun x : State => x.host.waiting) h
  simp only [State.off, hb, Nat.zero_ne_one, if_false] at e
  exact e
theorem sec_parts_of_off {M : Nat} {s t : State} (h : t.off M = s.off M) (hb : M / 16384 % 2 = 0) : t.sec.parts = s.sec.parts := by
  have e := congrArg (fun x : State => x.sec.parts) h
  simp only [State.off, hb, Nat.zero_ne_one, if_false] at e
  exact e
theorem sec_keys_of_off {M : Nat} {s t : State} (h : t.off M = s.off M) (hb : M / 32768 % 2 = 0) : t.sec.keys = s.sec.keys := by
  have e := congrArg (fun x : State => x.sec.keys) h
  simp only [State.off, hb, Nat.zero_ne_one, if_false] at e
  exact e
theorem sec_ownerKey_of_off {M : Nat} {s t : State} (h : t.off M = s.off M) (hb : M / 32768 % 2 = 0) : t.sec.ownerKey = s.sec.ownerKey := by
  have e := congrArg (fun x : State => x.sec.ownerKey) h
  simp only [State.off, hb, Nat.zero_ne_one, if_false] at e
  exact e
theorem sec_fabricKey_of_off {M : Nat} {s t : State} (h : t.off M = s.off M) (hb : M / 32768 % 2 = 0) : t.sec.fabricKey = s.sec.fabricKey := by
  have e := congrArg (fun x : State => x.sec.fabricKey) h
  simp only [State.off, hb, Nat.zero_ne_one, if_false] at e
  exact e
theorem sec_sessions_of_off {M : Nat} {s t : State} (h : t.off M = s.off M) (hb : M / 65536 % 2 = 0) : t.sec.sessions = s.sec.sessions := by
  have e := congrArg (fun x : State => x.sec.sessions) h
  simp only [State.off, hb, Nat.zero_ne_one, if_false] at e
  exact e
theorem sec_nextSession_of_off {M : Nat} {s t : State} (h : t.off M = s.off M) (hb : M / 65536 % 2 = 0) : t.sec.nextSession = s.sec.nextSession := by
  have e := congrArg (fun x : State => x.sec.nextSession) h
  simp only [State.off, hb, Nat.zero_ne_one, if_false] at e
  exact e
theorem sec_replies_of_off {M : Nat} {s t : State} (h : t.off M = s.off M) (hb : M / 65536 % 2 = 0) : t.sec.replies = s.sec.replies := by
  have e := congrArg (fun x : State => x.sec.replies) h
  simp only [State.off, hb, Nat.zero_ne_one, if_false] at e
  exact e
theorem sec_chunks_of_off {M : Nat} {s t : State} (h : t.off M = s.off M) (hb : M / 65536 % 2 = 0) : t.sec.chunks = s.sec.chunks := by
  have e := congrArg (fun x : State => x.sec.chunks) h
  simp only [State.off, hb, Nat.zero_ne_one, if_false] at e
  exact e
theorem sec_houseLines_of_off {M : Nat} {s t : State} (h : t.off M = s.off M) (hb : M / 131072 % 2 = 0) : t.sec.houseLines = s.sec.houseLines := by
  have e := congrArg (fun x : State => x.sec.houseLines) h
  simp only [State.off, hb, Nat.zero_ne_one, if_false] at e
  exact e
theorem sec_houseManifest_of_off {M : Nat} {s t : State} (h : t.off M = s.off M) (hb : M / 131072 % 2 = 0) : t.sec.houseManifest = s.sec.houseManifest := by
  have e := congrArg (fun x : State => x.sec.houseManifest) h
  simp only [State.off, hb, Nat.zero_ne_one, if_false] at e
  exact e
theorem sec_houseObj_of_off {M : Nat} {s t : State} (h : t.off M = s.off M) (hb : M / 131072 % 2 = 0) : t.sec.houseObj = s.sec.houseObj := by
  have e := congrArg (fun x : State => x.sec.houseObj) h
  simp only [State.off, hb, Nat.zero_ne_one, if_false] at e
  exact e
theorem ras_limit_of_off {M : Nat} {s t : State} (h : t.off M = s.off M) (hb : M / 262144 % 2 = 0) : t.ras.limit = s.ras.limit := by
  have e := congrArg (fun x : State => x.ras.limit) h
  simp only [State.off, hb, Nat.zero_ne_one, if_false] at e
  exact e
theorem ras_ages_of_off {M : Nat} {s t : State} (h : t.off M = s.off M) (hb : M / 262144 % 2 = 0) : t.ras.ages = s.ras.ages := by
  have e := congrArg (fun x : State => x.ras.ages) h
  simp only [State.off, hb, Nat.zero_ne_one, if_false] at e
  exact e
theorem ras_levels_of_off {M : Nat} {s t : State} (h : t.off M = s.off M) (hb : M / 262144 % 2 = 0) : t.ras.levels = s.ras.levels := by
  have e := congrArg (fun x : State => x.ras.levels) h
  simp only [State.off, hb, Nat.zero_ne_one, if_false] at e
  exact e
theorem ras_cpFault_of_off {M : Nat} {s t : State} (h : t.off M = s.off M) (hb : M / 262144 % 2 = 0) : t.ras.cpFault = s.ras.cpFault := by
  have e := congrArg (fun x : State => x.ras.cpFault) h
  simp only [State.off, hb, Nat.zero_ne_one, if_false] at e
  exact e
theorem ras_cpHalted_of_off {M : Nat} {s t : State} (h : t.off M = s.off M) (hb : M / 262144 % 2 = 0) : t.ras.cpHalted = s.ras.cpHalted := by
  have e := congrArg (fun x : State => x.ras.cpHalted) h
  simp only [State.off, hb, Nat.zero_ne_one, if_false] at e
  exact e
theorem ras_fatal_of_off {M : Nat} {s t : State} (h : t.off M = s.off M) (hb : M / 524288 % 2 = 0) : t.ras.fatal = s.ras.fatal := by
  have e := congrArg (fun x : State => x.ras.fatal) h
  simp only [State.off, hb, Nat.zero_ne_one, if_false] at e
  exact e
theorem ras_dump_of_off {M : Nat} {s t : State} (h : t.off M = s.off M) (hb : M / 524288 % 2 = 0) : t.ras.dump = s.ras.dump := by
  have e := congrArg (fun x : State => x.ras.dump) h
  simp only [State.off, hb, Nat.zero_ne_one, if_false] at e
  exact e
theorem ras_dumpFree_of_off {M : Nat} {s t : State} (h : t.off M = s.off M) (hb : M / 524288 % 2 = 0) : t.ras.dumpFree = s.ras.dumpFree := by
  have e := congrArg (fun x : State => x.ras.dumpFree) h
  simp only [State.off, hb, Nat.zero_ne_one, if_false] at e
  exact e
theorem hbm_of_off {M : Nat} {s t : State} (h : t.off M = s.off M) (hb : M / 1048576 % 2 = 0) : t.hbm = s.hbm := by
  have e := congrArg (fun x : State => x.hbm) h
  simp only [State.off, hb, Nat.zero_ne_one, if_false] at e
  exact e
theorem dir_of_off {M : Nat} {s t : State} (h : t.off M = s.off M) (hb : M / 2097152 % 2 = 0) : t.dir = s.dir := by
  have e := congrArg (fun x : State => x.dir) h
  simp only [State.off, hb, Nat.zero_ne_one, if_false] at e
  exact e
theorem blks_of_off {M : Nat} {s t : State} (h : t.off M = s.off M) (hb : M / 2097152 % 2 = 0) : t.blks = s.blks := by
  have e := congrArg (fun x : State => x.blks) h
  simp only [State.off, hb, Nat.zero_ne_one, if_false] at e
  exact e
theorem fab_of_off {M : Nat} {s t : State} (h : t.off M = s.off M) (hb : M / 4194304 % 2 = 0) : t.fab = s.fab := by
  have e := congrArg (fun x : State => x.fab) h
  simp only [State.off, hb, Nat.zero_ne_one, if_false] at e
  exact e
theorem trn_of_off {M : Nat} {s t : State} (h : t.off M = s.off M) (hb : M / 8388608 % 2 = 0) : t.trn = s.trn := by
  have e := congrArg (fun x : State => x.trn) h
  simp only [State.off, hb, Nat.zero_ne_one, if_false] at e
  exact e
theorem nol_of_off {M : Nat} {s t : State} (h : t.off M = s.off M) (hb : M / 2097152 % 2 = 0) : t.nol = s.nol := by
  have e := congrArg (fun x : State => x.nol) h
  simp only [State.off, hb, Nat.zero_ne_one, if_false] at e
  exact e
theorem roll_of_off {M : Nat} {s t : State} (h : t.off M = s.off M) (hb : M / 16777216 % 2 = 0) : t.roll = s.roll := by
  have e := congrArg (fun x : State => x.roll) h
  simp only [State.off, hb, Nat.zero_ne_one, if_false] at e
  exact e
theorem coll_of_off {M : Nat} {s t : State} (h : t.off M = s.off M) (hb : M / 33554432 % 2 = 0) : t.coll = s.coll := by
  have e := congrArg (fun x : State => x.coll) h
  simp only [State.off, hb, Nat.zero_ne_one, if_false] at e
  exact e
theorem sched_of_off {M : Nat} {s t : State} (h : t.off M = s.off M) (hb : M / 67108864 % 2 = 0) : t.sched = s.sched := by
  have e := congrArg (fun x : State => x.sched) h
  simp only [State.off, hb, Nat.zero_ne_one, if_false] at e
  exact e
theorem upd_of_off {M : Nat} {s t : State} (h : t.off M = s.off M) (hb : M / 134217728 % 2 = 0) : t.upd = s.upd := by
  have e := congrArg (fun x : State => x.upd) h
  simp only [State.off, hb, Nat.zero_ne_one, if_false] at e
  exact e
theorem boot_svnMin_of_off {M : Nat} {s t : State} (h : t.off M = s.off M) (hb : M / 268435456 % 2 = 0) : t.boot.svnMin = s.boot.svnMin := by
  have e := congrArg (fun x : State => x.boot.svnMin) h
  simp only [State.off, hb, Nat.zero_ne_one, if_false] at e
  exact e
theorem boot_revoked_of_off {M : Nat} {s t : State} (h : t.off M = s.off M) (hb : M / 268435456 % 2 = 0) : t.boot.revoked = s.boot.revoked := by
  have e := congrArg (fun x : State => x.boot.revoked) h
  simp only [State.off, hb, Nat.zero_ne_one, if_false] at e
  exact e
theorem boot_fields_of_off {M : Nat} {s t : State} (h : t.off M = s.off M) (hb : M / 536870912 % 2 = 0) : t.boot.fields = s.boot.fields := by
  have e := congrArg (fun x : State => x.boot.fields) h
  simp only [State.off, hb, Nat.zero_ne_one, if_false] at e
  exact e
theorem boot_imgA_of_off {M : Nat} {s t : State} (h : t.off M = s.off M) (hb : M / 1073741824 % 2 = 0) : t.boot.imgA = s.boot.imgA := by
  have e := congrArg (fun x : State => x.boot.imgA) h
  simp only [State.off, hb, Nat.zero_ne_one, if_false] at e
  exact e
theorem boot_imgB_of_off {M : Nat} {s t : State} (h : t.off M = s.off M) (hb : M / 1073741824 % 2 = 0) : t.boot.imgB = s.boot.imgB := by
  have e := congrArg (fun x : State => x.boot.imgB) h
  simp only [State.off, hb, Nat.zero_ne_one, if_false] at e
  exact e
theorem boot_cal0_of_off {M : Nat} {s t : State} (h : t.off M = s.off M) (hb : M / 1073741824 % 2 = 0) : t.boot.cal0 = s.boot.cal0 := by
  have e := congrArg (fun x : State => x.boot.cal0) h
  simp only [State.off, hb, Nat.zero_ne_one, if_false] at e
  exact e
theorem boot_cal1_of_off {M : Nat} {s t : State} (h : t.off M = s.off M) (hb : M / 1073741824 % 2 = 0) : t.boot.cal1 = s.boot.cal1 := by
  have e := congrArg (fun x : State => x.boot.cal1) h
  simp only [State.off, hb, Nat.zero_ne_one, if_false] at e
  exact e
theorem boot_ownA_of_off {M : Nat} {s t : State} (h : t.off M = s.off M) (hb : M / 1073741824 % 2 = 0) : t.boot.ownA = s.boot.ownA := by
  have e := congrArg (fun x : State => x.boot.ownA) h
  simp only [State.off, hb, Nat.zero_ne_one, if_false] at e
  exact e
theorem boot_ownB_of_off {M : Nat} {s t : State} (h : t.off M = s.off M) (hb : M / 1073741824 % 2 = 0) : t.boot.ownB = s.boot.ownB := by
  have e := congrArg (fun x : State => x.boot.ownB) h
  simp only [State.off, hb, Nat.zero_ne_one, if_false] at e
  exact e
theorem boot_running_of_off {M : Nat} {s t : State} (h : t.off M = s.off M) (hb : M / 1073741824 % 2 = 0) : t.boot.running = s.boot.running := by
  have e := congrArg (fun x : State => x.boot.running) h
  simp only [State.off, hb, Nat.zero_ne_one, if_false] at e
  exact e
theorem boot_locked_of_off {M : Nat} {s t : State} (h : t.off M = s.off M) (hb : M / 1073741824 % 2 = 0) : t.boot.locked = s.boot.locked := by
  have e := congrArg (fun x : State => x.boot.locked) h
  simp only [State.off, hb, Nat.zero_ne_one, if_false] at e
  exact e
theorem boot_trained_of_off {M : Nat} {s t : State} (h : t.off M = s.off M) (hb : M / 1073741824 % 2 = 0) : t.boot.trained = s.boot.trained := by
  have e := congrArg (fun x : State => x.boot.trained) h
  simp only [State.off, hb, Nat.zero_ne_one, if_false] at e
  exact e
theorem boot_strap_of_off {M : Nat} {s t : State} (h : t.off M = s.off M) (hb : M / 1073741824 % 2 = 0) : t.boot.strap = s.boot.strap := by
  have e := congrArg (fun x : State => x.boot.strap) h
  simp only [State.off, hb, Nat.zero_ne_one, if_false] at e
  exact e
theorem boot_portsOff_of_off {M : Nat} {s t : State} (h : t.off M = s.off M) (hb : M / 1073741824 % 2 = 0) : t.boot.portsOff = s.boot.portsOff := by
  have e := congrArg (fun x : State => x.boot.portsOff) h
  simp only [State.off, hb, Nat.zero_ne_one, if_false] at e
  exact e
theorem clk_of_off {M : Nat} {s t : State} (h : t.off M = s.off M) (hb : M / 2147483648 % 2 = 0) : t.clk = s.clk := by
  have e := congrArg (fun x : State => x.clk) h
  simp only [State.off, hb, Nat.zero_ne_one, if_false] at e
  exact e
theorem pwr_of_off {M : Nat} {s t : State} (h : t.off M = s.off M) (hb : M / 4294967296 % 2 = 0) : t.pwr = s.pwr := by
  have e := congrArg (fun x : State => x.pwr) h
  simp only [State.off, hb, Nat.zero_ne_one, if_false] at e
  exact e
theorem chip_of_off {M : Nat} {s t : State} (h : t.off M = s.off M)
    (h4 : M / 16 % 2 = 0) (h5 : M / 32 % 2 = 0) (h6 : M / 64 % 2 = 0) (h7 : M / 128 % 2 = 0) (h8 : M / 256 % 2 = 0) : t.chip = s.chip := by
  have e := congrArg (fun x : State => x.chip) h
  simp only [State.off, h4, h5, h6, h7, h8, Nat.zero_ne_one, if_false] at e
  exact e
theorem host_of_off {M : Nat} {s t : State} (h : t.off M = s.off M)
    (h9 : M / 512 % 2 = 0) (h10 : M / 1024 % 2 = 0) (h11 : M / 2048 % 2 = 0) (h12 : M / 4096 % 2 = 0) (h13 : M / 8192 % 2 = 0) : t.host = s.host := by
  have e := congrArg (fun x : State => x.host) h
  simp only [State.off, h9, h10, h11, h12, h13, Nat.zero_ne_one, if_false] at e
  exact e
theorem sec_of_off {M : Nat} {s t : State} (h : t.off M = s.off M)
    (h14 : M / 16384 % 2 = 0) (h15 : M / 32768 % 2 = 0) (h16 : M / 65536 % 2 = 0) (h17 : M / 131072 % 2 = 0) : t.sec = s.sec := by
  have e := congrArg (fun x : State => x.sec) h
  simp only [State.off, h14, h15, h16, h17, Nat.zero_ne_one, if_false] at e
  exact e
theorem ras_of_off {M : Nat} {s t : State} (h : t.off M = s.off M)
    (h18 : M / 262144 % 2 = 0) (h19 : M / 524288 % 2 = 0) : t.ras = s.ras := by
  have e := congrArg (fun x : State => x.ras) h
  simp only [State.off, h18, h19, Nat.zero_ne_one, if_false] at e
  exact e
theorem boot_of_off {M : Nat} {s t : State} (h : t.off M = s.off M)
    (h28 : M / 268435456 % 2 = 0) (h29 : M / 536870912 % 2 = 0) (h30 : M / 1073741824 % 2 = 0) : t.boot = s.boot := by
  have e := congrArg (fun x : State => x.boot) h
  simp only [State.off, h28, h29, h30, Nat.zero_ne_one, if_false] at e
  exact e

/-! ## Fields after each shared operation -/

@[simp] theorem State.wr_pending (s : State) (f : Fld) (v : Nat) :
    (State.wr s f v).pending = s.pending := pending_of_off (State.wr_off (M := 0x4) s f v rfl) rfl
@[simp] theorem State.wr_freeCtr (s : State) (f : Fld) (v : Nat) :
    (State.wr s f v).freeCtr = s.freeCtr := freeCtr_of_off (State.wr_off (M := 0x4) s f v rfl) rfl
@[simp] theorem State.wr_mem (s : State) (f : Fld) (v : Nat) :
    (State.wr s f v).mem = s.mem := mem_of_off (State.wr_off (M := 0x4) s f v rfl) rfl
@[simp] theorem State.wr_poison (s : State) (f : Fld) (v : Nat) :
    (State.wr s f v).poison = s.poison := poison_of_off (State.wr_off (M := 0x4) s f v rfl) rfl
@[simp] theorem State.wr_chip (s : State) (f : Fld) (v : Nat) :
    (State.wr s f v).chip = s.chip := chip_of_off (State.wr_off (M := 0x4) s f v rfl) rfl rfl rfl rfl rfl
@[simp] theorem State.wr_host (s : State) (f : Fld) (v : Nat) :
    (State.wr s f v).host = s.host := host_of_off (State.wr_off (M := 0x4) s f v rfl) rfl rfl rfl rfl rfl
@[simp] theorem State.wr_sec (s : State) (f : Fld) (v : Nat) :
    (State.wr s f v).sec = s.sec := sec_of_off (State.wr_off (M := 0x4) s f v rfl) rfl rfl rfl rfl
@[simp] theorem State.wr_ras (s : State) (f : Fld) (v : Nat) :
    (State.wr s f v).ras = s.ras := ras_of_off (State.wr_off (M := 0x4) s f v rfl) rfl rfl
@[simp] theorem State.wr_hbm (s : State) (f : Fld) (v : Nat) :
    (State.wr s f v).hbm = s.hbm := hbm_of_off (State.wr_off (M := 0x4) s f v rfl) rfl
@[simp] theorem State.wr_dir (s : State) (f : Fld) (v : Nat) :
    (State.wr s f v).dir = s.dir := dir_of_off (State.wr_off (M := 0x4) s f v rfl) rfl
@[simp] theorem State.wr_blks (s : State) (f : Fld) (v : Nat) :
    (State.wr s f v).blks = s.blks := blks_of_off (State.wr_off (M := 0x4) s f v rfl) rfl
@[simp] theorem State.wr_fab (s : State) (f : Fld) (v : Nat) :
    (State.wr s f v).fab = s.fab := fab_of_off (State.wr_off (M := 0x4) s f v rfl) rfl
@[simp] theorem State.wr_trn (s : State) (f : Fld) (v : Nat) :
    (State.wr s f v).trn = s.trn := trn_of_off (State.wr_off (M := 0x4) s f v rfl) rfl
@[simp] theorem State.wr_nol (s : State) (f : Fld) (v : Nat) :
    (State.wr s f v).nol = s.nol := nol_of_off (State.wr_off (M := 0x4) s f v rfl) rfl
@[simp] theorem State.wr_roll (s : State) (f : Fld) (v : Nat) :
    (State.wr s f v).roll = s.roll := roll_of_off (State.wr_off (M := 0x4) s f v rfl) rfl
@[simp] theorem State.wr_coll (s : State) (f : Fld) (v : Nat) :
    (State.wr s f v).coll = s.coll := coll_of_off (State.wr_off (M := 0x4) s f v rfl) rfl
@[simp] theorem State.wr_sched (s : State) (f : Fld) (v : Nat) :
    (State.wr s f v).sched = s.sched := sched_of_off (State.wr_off (M := 0x4) s f v rfl) rfl
@[simp] theorem State.wr_upd (s : State) (f : Fld) (v : Nat) :
    (State.wr s f v).upd = s.upd := upd_of_off (State.wr_off (M := 0x4) s f v rfl) rfl
@[simp] theorem State.wr_boot (s : State) (f : Fld) (v : Nat) :
    (State.wr s f v).boot = s.boot := boot_of_off (State.wr_off (M := 0x4) s f v rfl) rfl rfl rfl
@[simp] theorem State.wr_clk (s : State) (f : Fld) (v : Nat) :
    (State.wr s f v).clk = s.clk := clk_of_off (State.wr_off (M := 0x4) s f v rfl) rfl
@[simp] theorem State.wr_pwr (s : State) (f : Fld) (v : Nat) :
    (State.wr s f v).pwr = s.pwr := pwr_of_off (State.wr_off (M := 0x4) s f v rfl) rfl
@[simp] theorem State.wrs_pending (s : State) (x0 : List (Fld × Nat)) :
    (State.wrs s x0).pending = s.pending := pending_of_off (State.wrs_off (M := 0x4) s x0 rfl) rfl
@[simp] theorem State.wrs_freeCtr (s : State) (x0 : List (Fld × Nat)) :
    (State.wrs s x0).freeCtr = s.freeCtr := freeCtr_of_off (State.wrs_off (M := 0x4) s x0 rfl) rfl
@[simp] theorem State.wrs_mem (s : State) (x0 : List (Fld × Nat)) :
    (State.wrs s x0).mem = s.mem := mem_of_off (State.wrs_off (M := 0x4) s x0 rfl) rfl
@[simp] theorem State.wrs_poison (s : State) (x0 : List (Fld × Nat)) :
    (State.wrs s x0).poison = s.poison := poison_of_off (State.wrs_off (M := 0x4) s x0 rfl) rfl
@[simp] theorem State.wrs_chip (s : State) (x0 : List (Fld × Nat)) :
    (State.wrs s x0).chip = s.chip := chip_of_off (State.wrs_off (M := 0x4) s x0 rfl) rfl rfl rfl rfl rfl
@[simp] theorem State.wrs_host (s : State) (x0 : List (Fld × Nat)) :
    (State.wrs s x0).host = s.host := host_of_off (State.wrs_off (M := 0x4) s x0 rfl) rfl rfl rfl rfl rfl
@[simp] theorem State.wrs_sec (s : State) (x0 : List (Fld × Nat)) :
    (State.wrs s x0).sec = s.sec := sec_of_off (State.wrs_off (M := 0x4) s x0 rfl) rfl rfl rfl rfl
@[simp] theorem State.wrs_ras (s : State) (x0 : List (Fld × Nat)) :
    (State.wrs s x0).ras = s.ras := ras_of_off (State.wrs_off (M := 0x4) s x0 rfl) rfl rfl
@[simp] theorem State.wrs_hbm (s : State) (x0 : List (Fld × Nat)) :
    (State.wrs s x0).hbm = s.hbm := hbm_of_off (State.wrs_off (M := 0x4) s x0 rfl) rfl
@[simp] theorem State.wrs_dir (s : State) (x0 : List (Fld × Nat)) :
    (State.wrs s x0).dir = s.dir := dir_of_off (State.wrs_off (M := 0x4) s x0 rfl) rfl
@[simp] theorem State.wrs_blks (s : State) (x0 : List (Fld × Nat)) :
    (State.wrs s x0).blks = s.blks := blks_of_off (State.wrs_off (M := 0x4) s x0 rfl) rfl
@[simp] theorem State.wrs_fab (s : State) (x0 : List (Fld × Nat)) :
    (State.wrs s x0).fab = s.fab := fab_of_off (State.wrs_off (M := 0x4) s x0 rfl) rfl
@[simp] theorem State.wrs_trn (s : State) (x0 : List (Fld × Nat)) :
    (State.wrs s x0).trn = s.trn := trn_of_off (State.wrs_off (M := 0x4) s x0 rfl) rfl
@[simp] theorem State.wrs_nol (s : State) (x0 : List (Fld × Nat)) :
    (State.wrs s x0).nol = s.nol := nol_of_off (State.wrs_off (M := 0x4) s x0 rfl) rfl
@[simp] theorem State.wrs_roll (s : State) (x0 : List (Fld × Nat)) :
    (State.wrs s x0).roll = s.roll := roll_of_off (State.wrs_off (M := 0x4) s x0 rfl) rfl
@[simp] theorem State.wrs_coll (s : State) (x0 : List (Fld × Nat)) :
    (State.wrs s x0).coll = s.coll := coll_of_off (State.wrs_off (M := 0x4) s x0 rfl) rfl
@[simp] theorem State.wrs_sched (s : State) (x0 : List (Fld × Nat)) :
    (State.wrs s x0).sched = s.sched := sched_of_off (State.wrs_off (M := 0x4) s x0 rfl) rfl
@[simp] theorem State.wrs_upd (s : State) (x0 : List (Fld × Nat)) :
    (State.wrs s x0).upd = s.upd := upd_of_off (State.wrs_off (M := 0x4) s x0 rfl) rfl
@[simp] theorem State.wrs_boot (s : State) (x0 : List (Fld × Nat)) :
    (State.wrs s x0).boot = s.boot := boot_of_off (State.wrs_off (M := 0x4) s x0 rfl) rfl rfl rfl
@[simp] theorem State.wrs_clk (s : State) (x0 : List (Fld × Nat)) :
    (State.wrs s x0).clk = s.clk := clk_of_off (State.wrs_off (M := 0x4) s x0 rfl) rfl
@[simp] theorem State.wrs_pwr (s : State) (x0 : List (Fld × Nat)) :
    (State.wrs s x0).pwr = s.pwr := pwr_of_off (State.wrs_off (M := 0x4) s x0 rfl) rfl
@[simp] theorem State.count_pending (s : State) (f : Fld) (n : Nat) :
    (State.count s f n).pending = s.pending := pending_of_off (State.count_off (M := 0x4) s f n rfl) rfl
@[simp] theorem State.count_freeCtr (s : State) (f : Fld) (n : Nat) :
    (State.count s f n).freeCtr = s.freeCtr := freeCtr_of_off (State.count_off (M := 0x4) s f n rfl) rfl
@[simp] theorem State.count_mem (s : State) (f : Fld) (n : Nat) :
    (State.count s f n).mem = s.mem := mem_of_off (State.count_off (M := 0x4) s f n rfl) rfl
@[simp] theorem State.count_poison (s : State) (f : Fld) (n : Nat) :
    (State.count s f n).poison = s.poison := poison_of_off (State.count_off (M := 0x4) s f n rfl) rfl
@[simp] theorem State.count_chip (s : State) (f : Fld) (n : Nat) :
    (State.count s f n).chip = s.chip := chip_of_off (State.count_off (M := 0x4) s f n rfl) rfl rfl rfl rfl rfl
@[simp] theorem State.count_host (s : State) (f : Fld) (n : Nat) :
    (State.count s f n).host = s.host := host_of_off (State.count_off (M := 0x4) s f n rfl) rfl rfl rfl rfl rfl
@[simp] theorem State.count_sec (s : State) (f : Fld) (n : Nat) :
    (State.count s f n).sec = s.sec := sec_of_off (State.count_off (M := 0x4) s f n rfl) rfl rfl rfl rfl
@[simp] theorem State.count_ras (s : State) (f : Fld) (n : Nat) :
    (State.count s f n).ras = s.ras := ras_of_off (State.count_off (M := 0x4) s f n rfl) rfl rfl
@[simp] theorem State.count_hbm (s : State) (f : Fld) (n : Nat) :
    (State.count s f n).hbm = s.hbm := hbm_of_off (State.count_off (M := 0x4) s f n rfl) rfl
@[simp] theorem State.count_dir (s : State) (f : Fld) (n : Nat) :
    (State.count s f n).dir = s.dir := dir_of_off (State.count_off (M := 0x4) s f n rfl) rfl
@[simp] theorem State.count_blks (s : State) (f : Fld) (n : Nat) :
    (State.count s f n).blks = s.blks := blks_of_off (State.count_off (M := 0x4) s f n rfl) rfl
@[simp] theorem State.count_fab (s : State) (f : Fld) (n : Nat) :
    (State.count s f n).fab = s.fab := fab_of_off (State.count_off (M := 0x4) s f n rfl) rfl
@[simp] theorem State.count_trn (s : State) (f : Fld) (n : Nat) :
    (State.count s f n).trn = s.trn := trn_of_off (State.count_off (M := 0x4) s f n rfl) rfl
@[simp] theorem State.count_nol (s : State) (f : Fld) (n : Nat) :
    (State.count s f n).nol = s.nol := nol_of_off (State.count_off (M := 0x4) s f n rfl) rfl
@[simp] theorem State.count_roll (s : State) (f : Fld) (n : Nat) :
    (State.count s f n).roll = s.roll := roll_of_off (State.count_off (M := 0x4) s f n rfl) rfl
@[simp] theorem State.count_coll (s : State) (f : Fld) (n : Nat) :
    (State.count s f n).coll = s.coll := coll_of_off (State.count_off (M := 0x4) s f n rfl) rfl
@[simp] theorem State.count_sched (s : State) (f : Fld) (n : Nat) :
    (State.count s f n).sched = s.sched := sched_of_off (State.count_off (M := 0x4) s f n rfl) rfl
@[simp] theorem State.count_upd (s : State) (f : Fld) (n : Nat) :
    (State.count s f n).upd = s.upd := upd_of_off (State.count_off (M := 0x4) s f n rfl) rfl
@[simp] theorem State.count_boot (s : State) (f : Fld) (n : Nat) :
    (State.count s f n).boot = s.boot := boot_of_off (State.count_off (M := 0x4) s f n rfl) rfl rfl rfl
@[simp] theorem State.count_clk (s : State) (f : Fld) (n : Nat) :
    (State.count s f n).clk = s.clk := clk_of_off (State.count_off (M := 0x4) s f n rfl) rfl
@[simp] theorem State.count_pwr (s : State) (f : Fld) (n : Nat) :
    (State.count s f n).pwr = s.pwr := pwr_of_off (State.count_off (M := 0x4) s f n rfl) rfl
@[simp] theorem State.recErr_pending (s : State) (valid overrun : Fld) (fields : List (Fld × Nat)) :
    (State.recErr s valid overrun fields).pending = s.pending := pending_of_off (State.recErr_off (M := 0x4) s valid overrun fields rfl) rfl
@[simp] theorem State.recErr_freeCtr (s : State) (valid overrun : Fld) (fields : List (Fld × Nat)) :
    (State.recErr s valid overrun fields).freeCtr = s.freeCtr := freeCtr_of_off (State.recErr_off (M := 0x4) s valid overrun fields rfl) rfl
@[simp] theorem State.recErr_mem (s : State) (valid overrun : Fld) (fields : List (Fld × Nat)) :
    (State.recErr s valid overrun fields).mem = s.mem := mem_of_off (State.recErr_off (M := 0x4) s valid overrun fields rfl) rfl
@[simp] theorem State.recErr_poison (s : State) (valid overrun : Fld) (fields : List (Fld × Nat)) :
    (State.recErr s valid overrun fields).poison = s.poison := poison_of_off (State.recErr_off (M := 0x4) s valid overrun fields rfl) rfl
@[simp] theorem State.recErr_chip (s : State) (valid overrun : Fld) (fields : List (Fld × Nat)) :
    (State.recErr s valid overrun fields).chip = s.chip := chip_of_off (State.recErr_off (M := 0x4) s valid overrun fields rfl) rfl rfl rfl rfl rfl
@[simp] theorem State.recErr_host (s : State) (valid overrun : Fld) (fields : List (Fld × Nat)) :
    (State.recErr s valid overrun fields).host = s.host := host_of_off (State.recErr_off (M := 0x4) s valid overrun fields rfl) rfl rfl rfl rfl rfl
@[simp] theorem State.recErr_sec (s : State) (valid overrun : Fld) (fields : List (Fld × Nat)) :
    (State.recErr s valid overrun fields).sec = s.sec := sec_of_off (State.recErr_off (M := 0x4) s valid overrun fields rfl) rfl rfl rfl rfl
@[simp] theorem State.recErr_ras (s : State) (valid overrun : Fld) (fields : List (Fld × Nat)) :
    (State.recErr s valid overrun fields).ras = s.ras := ras_of_off (State.recErr_off (M := 0x4) s valid overrun fields rfl) rfl rfl
@[simp] theorem State.recErr_hbm (s : State) (valid overrun : Fld) (fields : List (Fld × Nat)) :
    (State.recErr s valid overrun fields).hbm = s.hbm := hbm_of_off (State.recErr_off (M := 0x4) s valid overrun fields rfl) rfl
@[simp] theorem State.recErr_dir (s : State) (valid overrun : Fld) (fields : List (Fld × Nat)) :
    (State.recErr s valid overrun fields).dir = s.dir := dir_of_off (State.recErr_off (M := 0x4) s valid overrun fields rfl) rfl
@[simp] theorem State.recErr_blks (s : State) (valid overrun : Fld) (fields : List (Fld × Nat)) :
    (State.recErr s valid overrun fields).blks = s.blks := blks_of_off (State.recErr_off (M := 0x4) s valid overrun fields rfl) rfl
@[simp] theorem State.recErr_fab (s : State) (valid overrun : Fld) (fields : List (Fld × Nat)) :
    (State.recErr s valid overrun fields).fab = s.fab := fab_of_off (State.recErr_off (M := 0x4) s valid overrun fields rfl) rfl
@[simp] theorem State.recErr_trn (s : State) (valid overrun : Fld) (fields : List (Fld × Nat)) :
    (State.recErr s valid overrun fields).trn = s.trn := trn_of_off (State.recErr_off (M := 0x4) s valid overrun fields rfl) rfl
@[simp] theorem State.recErr_nol (s : State) (valid overrun : Fld) (fields : List (Fld × Nat)) :
    (State.recErr s valid overrun fields).nol = s.nol := nol_of_off (State.recErr_off (M := 0x4) s valid overrun fields rfl) rfl
@[simp] theorem State.recErr_roll (s : State) (valid overrun : Fld) (fields : List (Fld × Nat)) :
    (State.recErr s valid overrun fields).roll = s.roll := roll_of_off (State.recErr_off (M := 0x4) s valid overrun fields rfl) rfl
@[simp] theorem State.recErr_coll (s : State) (valid overrun : Fld) (fields : List (Fld × Nat)) :
    (State.recErr s valid overrun fields).coll = s.coll := coll_of_off (State.recErr_off (M := 0x4) s valid overrun fields rfl) rfl
@[simp] theorem State.recErr_sched (s : State) (valid overrun : Fld) (fields : List (Fld × Nat)) :
    (State.recErr s valid overrun fields).sched = s.sched := sched_of_off (State.recErr_off (M := 0x4) s valid overrun fields rfl) rfl
@[simp] theorem State.recErr_upd (s : State) (valid overrun : Fld) (fields : List (Fld × Nat)) :
    (State.recErr s valid overrun fields).upd = s.upd := upd_of_off (State.recErr_off (M := 0x4) s valid overrun fields rfl) rfl
@[simp] theorem State.recErr_boot (s : State) (valid overrun : Fld) (fields : List (Fld × Nat)) :
    (State.recErr s valid overrun fields).boot = s.boot := boot_of_off (State.recErr_off (M := 0x4) s valid overrun fields rfl) rfl rfl rfl
@[simp] theorem State.recErr_clk (s : State) (valid overrun : Fld) (fields : List (Fld × Nat)) :
    (State.recErr s valid overrun fields).clk = s.clk := clk_of_off (State.recErr_off (M := 0x4) s valid overrun fields rfl) rfl
@[simp] theorem State.recErr_pwr (s : State) (valid overrun : Fld) (fields : List (Fld × Nat)) :
    (State.recErr s valid overrun fields).pwr = s.pwr := pwr_of_off (State.recErr_off (M := 0x4) s valid overrun fields rfl) rfl
@[simp] theorem State.setCore_pending (s : State) (c : Nat) (x : CoreSt) :
    (State.setCore s c x).pending = s.pending := pending_of_off (State.setCore_off (M := 0x10) s c x rfl) rfl
@[simp] theorem State.setCore_freeCtr (s : State) (c : Nat) (x : CoreSt) :
    (State.setCore s c x).freeCtr = s.freeCtr := freeCtr_of_off (State.setCore_off (M := 0x10) s c x rfl) rfl
@[simp] theorem State.setCore_regs (s : State) (c : Nat) (x : CoreSt) :
    (State.setCore s c x).regs = s.regs := regs_of_off (State.setCore_off (M := 0x10) s c x rfl) rfl
@[simp] theorem State.setCore_mem (s : State) (c : Nat) (x : CoreSt) :
    (State.setCore s c x).mem = s.mem := mem_of_off (State.setCore_off (M := 0x10) s c x rfl) rfl
@[simp] theorem State.setCore_poison (s : State) (c : Nat) (x : CoreSt) :
    (State.setCore s c x).poison = s.poison := poison_of_off (State.setCore_off (M := 0x10) s c x rfl) rfl
@[simp] theorem State.setCore_host (s : State) (c : Nat) (x : CoreSt) :
    (State.setCore s c x).host = s.host := host_of_off (State.setCore_off (M := 0x10) s c x rfl) rfl rfl rfl rfl rfl
@[simp] theorem State.setCore_sec (s : State) (c : Nat) (x : CoreSt) :
    (State.setCore s c x).sec = s.sec := sec_of_off (State.setCore_off (M := 0x10) s c x rfl) rfl rfl rfl rfl
@[simp] theorem State.setCore_ras (s : State) (c : Nat) (x : CoreSt) :
    (State.setCore s c x).ras = s.ras := ras_of_off (State.setCore_off (M := 0x10) s c x rfl) rfl rfl
@[simp] theorem State.setCore_hbm (s : State) (c : Nat) (x : CoreSt) :
    (State.setCore s c x).hbm = s.hbm := hbm_of_off (State.setCore_off (M := 0x10) s c x rfl) rfl
@[simp] theorem State.setCore_dir (s : State) (c : Nat) (x : CoreSt) :
    (State.setCore s c x).dir = s.dir := dir_of_off (State.setCore_off (M := 0x10) s c x rfl) rfl
@[simp] theorem State.setCore_blks (s : State) (c : Nat) (x : CoreSt) :
    (State.setCore s c x).blks = s.blks := blks_of_off (State.setCore_off (M := 0x10) s c x rfl) rfl
@[simp] theorem State.setCore_fab (s : State) (c : Nat) (x : CoreSt) :
    (State.setCore s c x).fab = s.fab := fab_of_off (State.setCore_off (M := 0x10) s c x rfl) rfl
@[simp] theorem State.setCore_trn (s : State) (c : Nat) (x : CoreSt) :
    (State.setCore s c x).trn = s.trn := trn_of_off (State.setCore_off (M := 0x10) s c x rfl) rfl
@[simp] theorem State.setCore_nol (s : State) (c : Nat) (x : CoreSt) :
    (State.setCore s c x).nol = s.nol := nol_of_off (State.setCore_off (M := 0x10) s c x rfl) rfl
@[simp] theorem State.setCore_roll (s : State) (c : Nat) (x : CoreSt) :
    (State.setCore s c x).roll = s.roll := roll_of_off (State.setCore_off (M := 0x10) s c x rfl) rfl
@[simp] theorem State.setCore_coll (s : State) (c : Nat) (x : CoreSt) :
    (State.setCore s c x).coll = s.coll := coll_of_off (State.setCore_off (M := 0x10) s c x rfl) rfl
@[simp] theorem State.setCore_sched (s : State) (c : Nat) (x : CoreSt) :
    (State.setCore s c x).sched = s.sched := sched_of_off (State.setCore_off (M := 0x10) s c x rfl) rfl
@[simp] theorem State.setCore_upd (s : State) (c : Nat) (x : CoreSt) :
    (State.setCore s c x).upd = s.upd := upd_of_off (State.setCore_off (M := 0x10) s c x rfl) rfl
@[simp] theorem State.setCore_boot (s : State) (c : Nat) (x : CoreSt) :
    (State.setCore s c x).boot = s.boot := boot_of_off (State.setCore_off (M := 0x10) s c x rfl) rfl rfl rfl
@[simp] theorem State.setCore_clk (s : State) (c : Nat) (x : CoreSt) :
    (State.setCore s c x).clk = s.clk := clk_of_off (State.setCore_off (M := 0x10) s c x rfl) rfl
@[simp] theorem State.setCore_pwr (s : State) (c : Nat) (x : CoreSt) :
    (State.setCore s c x).pwr = s.pwr := pwr_of_off (State.setCore_off (M := 0x10) s c x rfl) rfl
@[simp] theorem State.modCore_pending (s : State) (c : Nat) (f : CoreSt → CoreSt) :
    (State.modCore s c f).pending = s.pending := pending_of_off (State.modCore_off (M := 0x10) s c f rfl) rfl
@[simp] theorem State.modCore_freeCtr (s : State) (c : Nat) (f : CoreSt → CoreSt) :
    (State.modCore s c f).freeCtr = s.freeCtr := freeCtr_of_off (State.modCore_off (M := 0x10) s c f rfl) rfl
@[simp] theorem State.modCore_regs (s : State) (c : Nat) (f : CoreSt → CoreSt) :
    (State.modCore s c f).regs = s.regs := regs_of_off (State.modCore_off (M := 0x10) s c f rfl) rfl
@[simp] theorem State.modCore_mem (s : State) (c : Nat) (f : CoreSt → CoreSt) :
    (State.modCore s c f).mem = s.mem := mem_of_off (State.modCore_off (M := 0x10) s c f rfl) rfl
@[simp] theorem State.modCore_poison (s : State) (c : Nat) (f : CoreSt → CoreSt) :
    (State.modCore s c f).poison = s.poison := poison_of_off (State.modCore_off (M := 0x10) s c f rfl) rfl
@[simp] theorem State.modCore_host (s : State) (c : Nat) (f : CoreSt → CoreSt) :
    (State.modCore s c f).host = s.host := host_of_off (State.modCore_off (M := 0x10) s c f rfl) rfl rfl rfl rfl rfl
@[simp] theorem State.modCore_sec (s : State) (c : Nat) (f : CoreSt → CoreSt) :
    (State.modCore s c f).sec = s.sec := sec_of_off (State.modCore_off (M := 0x10) s c f rfl) rfl rfl rfl rfl
@[simp] theorem State.modCore_ras (s : State) (c : Nat) (f : CoreSt → CoreSt) :
    (State.modCore s c f).ras = s.ras := ras_of_off (State.modCore_off (M := 0x10) s c f rfl) rfl rfl
@[simp] theorem State.modCore_hbm (s : State) (c : Nat) (f : CoreSt → CoreSt) :
    (State.modCore s c f).hbm = s.hbm := hbm_of_off (State.modCore_off (M := 0x10) s c f rfl) rfl
@[simp] theorem State.modCore_dir (s : State) (c : Nat) (f : CoreSt → CoreSt) :
    (State.modCore s c f).dir = s.dir := dir_of_off (State.modCore_off (M := 0x10) s c f rfl) rfl
@[simp] theorem State.modCore_blks (s : State) (c : Nat) (f : CoreSt → CoreSt) :
    (State.modCore s c f).blks = s.blks := blks_of_off (State.modCore_off (M := 0x10) s c f rfl) rfl
@[simp] theorem State.modCore_fab (s : State) (c : Nat) (f : CoreSt → CoreSt) :
    (State.modCore s c f).fab = s.fab := fab_of_off (State.modCore_off (M := 0x10) s c f rfl) rfl
@[simp] theorem State.modCore_trn (s : State) (c : Nat) (f : CoreSt → CoreSt) :
    (State.modCore s c f).trn = s.trn := trn_of_off (State.modCore_off (M := 0x10) s c f rfl) rfl
@[simp] theorem State.modCore_nol (s : State) (c : Nat) (f : CoreSt → CoreSt) :
    (State.modCore s c f).nol = s.nol := nol_of_off (State.modCore_off (M := 0x10) s c f rfl) rfl
@[simp] theorem State.modCore_roll (s : State) (c : Nat) (f : CoreSt → CoreSt) :
    (State.modCore s c f).roll = s.roll := roll_of_off (State.modCore_off (M := 0x10) s c f rfl) rfl
@[simp] theorem State.modCore_coll (s : State) (c : Nat) (f : CoreSt → CoreSt) :
    (State.modCore s c f).coll = s.coll := coll_of_off (State.modCore_off (M := 0x10) s c f rfl) rfl
@[simp] theorem State.modCore_sched (s : State) (c : Nat) (f : CoreSt → CoreSt) :
    (State.modCore s c f).sched = s.sched := sched_of_off (State.modCore_off (M := 0x10) s c f rfl) rfl
@[simp] theorem State.modCore_upd (s : State) (c : Nat) (f : CoreSt → CoreSt) :
    (State.modCore s c f).upd = s.upd := upd_of_off (State.modCore_off (M := 0x10) s c f rfl) rfl
@[simp] theorem State.modCore_boot (s : State) (c : Nat) (f : CoreSt → CoreSt) :
    (State.modCore s c f).boot = s.boot := boot_of_off (State.modCore_off (M := 0x10) s c f rfl) rfl rfl rfl
@[simp] theorem State.modCore_clk (s : State) (c : Nat) (f : CoreSt → CoreSt) :
    (State.modCore s c f).clk = s.clk := clk_of_off (State.modCore_off (M := 0x10) s c f rfl) rfl
@[simp] theorem State.modCore_pwr (s : State) (c : Nat) (f : CoreSt → CoreSt) :
    (State.modCore s c f).pwr = s.pwr := pwr_of_off (State.modCore_off (M := 0x10) s c f rfl) rfl
@[simp] theorem State.used_pending (s : State) (n : Nat) :
    (State.used s n).pending = s.pending := pending_of_off (State.used_off (M := 0x2) s n rfl) rfl
@[simp] theorem State.used_regs (s : State) (n : Nat) :
    (State.used s n).regs = s.regs := regs_of_off (State.used_off (M := 0x2) s n rfl) rfl
@[simp] theorem State.used_mem (s : State) (n : Nat) :
    (State.used s n).mem = s.mem := mem_of_off (State.used_off (M := 0x2) s n rfl) rfl
@[simp] theorem State.used_poison (s : State) (n : Nat) :
    (State.used s n).poison = s.poison := poison_of_off (State.used_off (M := 0x2) s n rfl) rfl
@[simp] theorem State.used_chip (s : State) (n : Nat) :
    (State.used s n).chip = s.chip := chip_of_off (State.used_off (M := 0x2) s n rfl) rfl rfl rfl rfl rfl
@[simp] theorem State.used_host (s : State) (n : Nat) :
    (State.used s n).host = s.host := host_of_off (State.used_off (M := 0x2) s n rfl) rfl rfl rfl rfl rfl
@[simp] theorem State.used_sec (s : State) (n : Nat) :
    (State.used s n).sec = s.sec := sec_of_off (State.used_off (M := 0x2) s n rfl) rfl rfl rfl rfl
@[simp] theorem State.used_ras (s : State) (n : Nat) :
    (State.used s n).ras = s.ras := ras_of_off (State.used_off (M := 0x2) s n rfl) rfl rfl
@[simp] theorem State.used_hbm (s : State) (n : Nat) :
    (State.used s n).hbm = s.hbm := hbm_of_off (State.used_off (M := 0x2) s n rfl) rfl
@[simp] theorem State.used_dir (s : State) (n : Nat) :
    (State.used s n).dir = s.dir := dir_of_off (State.used_off (M := 0x2) s n rfl) rfl
@[simp] theorem State.used_blks (s : State) (n : Nat) :
    (State.used s n).blks = s.blks := blks_of_off (State.used_off (M := 0x2) s n rfl) rfl
@[simp] theorem State.used_fab (s : State) (n : Nat) :
    (State.used s n).fab = s.fab := fab_of_off (State.used_off (M := 0x2) s n rfl) rfl
@[simp] theorem State.used_trn (s : State) (n : Nat) :
    (State.used s n).trn = s.trn := trn_of_off (State.used_off (M := 0x2) s n rfl) rfl
@[simp] theorem State.used_nol (s : State) (n : Nat) :
    (State.used s n).nol = s.nol := nol_of_off (State.used_off (M := 0x2) s n rfl) rfl
@[simp] theorem State.used_roll (s : State) (n : Nat) :
    (State.used s n).roll = s.roll := roll_of_off (State.used_off (M := 0x2) s n rfl) rfl
@[simp] theorem State.used_coll (s : State) (n : Nat) :
    (State.used s n).coll = s.coll := coll_of_off (State.used_off (M := 0x2) s n rfl) rfl
@[simp] theorem State.used_sched (s : State) (n : Nat) :
    (State.used s n).sched = s.sched := sched_of_off (State.used_off (M := 0x2) s n rfl) rfl
@[simp] theorem State.used_upd (s : State) (n : Nat) :
    (State.used s n).upd = s.upd := upd_of_off (State.used_off (M := 0x2) s n rfl) rfl
@[simp] theorem State.used_boot (s : State) (n : Nat) :
    (State.used s n).boot = s.boot := boot_of_off (State.used_off (M := 0x2) s n rfl) rfl rfl rfl
@[simp] theorem State.used_clk (s : State) (n : Nat) :
    (State.used s n).clk = s.clk := clk_of_off (State.used_off (M := 0x2) s n rfl) rfl
@[simp] theorem State.used_pwr (s : State) (n : Nat) :
    (State.used s n).pwr = s.pwr := pwr_of_off (State.used_off (M := 0x2) s n rfl) rfl
@[simp] theorem State.paste_pending (s : State) (a n : Nat) (d : Piece) :
    (State.paste s a n d).pending = s.pending := pending_of_off (State.paste_off (M := 0x8000098) s a n d rfl) rfl
@[simp] theorem State.paste_freeCtr (s : State) (a n : Nat) (d : Piece) :
    (State.paste s a n d).freeCtr = s.freeCtr := freeCtr_of_off (State.paste_off (M := 0x8000098) s a n d rfl) rfl
@[simp] theorem State.paste_regs (s : State) (a n : Nat) (d : Piece) :
    (State.paste s a n d).regs = s.regs := regs_of_off (State.paste_off (M := 0x8000098) s a n d rfl) rfl
@[simp] theorem State.paste_host (s : State) (a n : Nat) (d : Piece) :
    (State.paste s a n d).host = s.host := host_of_off (State.paste_off (M := 0x8000098) s a n d rfl) rfl rfl rfl rfl rfl
@[simp] theorem State.paste_sec (s : State) (a n : Nat) (d : Piece) :
    (State.paste s a n d).sec = s.sec := sec_of_off (State.paste_off (M := 0x8000098) s a n d rfl) rfl rfl rfl rfl
@[simp] theorem State.paste_ras (s : State) (a n : Nat) (d : Piece) :
    (State.paste s a n d).ras = s.ras := ras_of_off (State.paste_off (M := 0x8000098) s a n d rfl) rfl rfl
@[simp] theorem State.paste_hbm (s : State) (a n : Nat) (d : Piece) :
    (State.paste s a n d).hbm = s.hbm := hbm_of_off (State.paste_off (M := 0x8000098) s a n d rfl) rfl
@[simp] theorem State.paste_dir (s : State) (a n : Nat) (d : Piece) :
    (State.paste s a n d).dir = s.dir := dir_of_off (State.paste_off (M := 0x8000098) s a n d rfl) rfl
@[simp] theorem State.paste_blks (s : State) (a n : Nat) (d : Piece) :
    (State.paste s a n d).blks = s.blks := blks_of_off (State.paste_off (M := 0x8000098) s a n d rfl) rfl
@[simp] theorem State.paste_fab (s : State) (a n : Nat) (d : Piece) :
    (State.paste s a n d).fab = s.fab := fab_of_off (State.paste_off (M := 0x8000098) s a n d rfl) rfl
@[simp] theorem State.paste_trn (s : State) (a n : Nat) (d : Piece) :
    (State.paste s a n d).trn = s.trn := trn_of_off (State.paste_off (M := 0x8000098) s a n d rfl) rfl
@[simp] theorem State.paste_nol (s : State) (a n : Nat) (d : Piece) :
    (State.paste s a n d).nol = s.nol := nol_of_off (State.paste_off (M := 0x8000098) s a n d rfl) rfl
@[simp] theorem State.paste_roll (s : State) (a n : Nat) (d : Piece) :
    (State.paste s a n d).roll = s.roll := roll_of_off (State.paste_off (M := 0x8000098) s a n d rfl) rfl
@[simp] theorem State.paste_coll (s : State) (a n : Nat) (d : Piece) :
    (State.paste s a n d).coll = s.coll := coll_of_off (State.paste_off (M := 0x8000098) s a n d rfl) rfl
@[simp] theorem State.paste_sched (s : State) (a n : Nat) (d : Piece) :
    (State.paste s a n d).sched = s.sched := sched_of_off (State.paste_off (M := 0x8000098) s a n d rfl) rfl
@[simp] theorem State.paste_boot (s : State) (a n : Nat) (d : Piece) :
    (State.paste s a n d).boot = s.boot := boot_of_off (State.paste_off (M := 0x8000098) s a n d rfl) rfl rfl rfl
@[simp] theorem State.paste_clk (s : State) (a n : Nat) (d : Piece) :
    (State.paste s a n d).clk = s.clk := clk_of_off (State.paste_off (M := 0x8000098) s a n d rfl) rfl
@[simp] theorem State.paste_pwr (s : State) (a n : Nat) (d : Piece) :
    (State.paste s a n d).pwr = s.pwr := pwr_of_off (State.paste_off (M := 0x8000098) s a n d rfl) rfl
@[simp] theorem State.store_pending (s : State) (a : Nat) (bs : List Byte) :
    (State.store s a bs).pending = s.pending := pending_of_off (State.store_off (M := 0x8000098) s a bs rfl) rfl
@[simp] theorem State.store_freeCtr (s : State) (a : Nat) (bs : List Byte) :
    (State.store s a bs).freeCtr = s.freeCtr := freeCtr_of_off (State.store_off (M := 0x8000098) s a bs rfl) rfl
@[simp] theorem State.store_regs (s : State) (a : Nat) (bs : List Byte) :
    (State.store s a bs).regs = s.regs := regs_of_off (State.store_off (M := 0x8000098) s a bs rfl) rfl
@[simp] theorem State.store_host (s : State) (a : Nat) (bs : List Byte) :
    (State.store s a bs).host = s.host := host_of_off (State.store_off (M := 0x8000098) s a bs rfl) rfl rfl rfl rfl rfl
@[simp] theorem State.store_sec (s : State) (a : Nat) (bs : List Byte) :
    (State.store s a bs).sec = s.sec := sec_of_off (State.store_off (M := 0x8000098) s a bs rfl) rfl rfl rfl rfl
@[simp] theorem State.store_ras (s : State) (a : Nat) (bs : List Byte) :
    (State.store s a bs).ras = s.ras := ras_of_off (State.store_off (M := 0x8000098) s a bs rfl) rfl rfl
@[simp] theorem State.store_hbm (s : State) (a : Nat) (bs : List Byte) :
    (State.store s a bs).hbm = s.hbm := hbm_of_off (State.store_off (M := 0x8000098) s a bs rfl) rfl
@[simp] theorem State.store_dir (s : State) (a : Nat) (bs : List Byte) :
    (State.store s a bs).dir = s.dir := dir_of_off (State.store_off (M := 0x8000098) s a bs rfl) rfl
@[simp] theorem State.store_blks (s : State) (a : Nat) (bs : List Byte) :
    (State.store s a bs).blks = s.blks := blks_of_off (State.store_off (M := 0x8000098) s a bs rfl) rfl
@[simp] theorem State.store_fab (s : State) (a : Nat) (bs : List Byte) :
    (State.store s a bs).fab = s.fab := fab_of_off (State.store_off (M := 0x8000098) s a bs rfl) rfl
@[simp] theorem State.store_trn (s : State) (a : Nat) (bs : List Byte) :
    (State.store s a bs).trn = s.trn := trn_of_off (State.store_off (M := 0x8000098) s a bs rfl) rfl
@[simp] theorem State.store_nol (s : State) (a : Nat) (bs : List Byte) :
    (State.store s a bs).nol = s.nol := nol_of_off (State.store_off (M := 0x8000098) s a bs rfl) rfl
@[simp] theorem State.store_roll (s : State) (a : Nat) (bs : List Byte) :
    (State.store s a bs).roll = s.roll := roll_of_off (State.store_off (M := 0x8000098) s a bs rfl) rfl
@[simp] theorem State.store_coll (s : State) (a : Nat) (bs : List Byte) :
    (State.store s a bs).coll = s.coll := coll_of_off (State.store_off (M := 0x8000098) s a bs rfl) rfl
@[simp] theorem State.store_sched (s : State) (a : Nat) (bs : List Byte) :
    (State.store s a bs).sched = s.sched := sched_of_off (State.store_off (M := 0x8000098) s a bs rfl) rfl
@[simp] theorem State.store_boot (s : State) (a : Nat) (bs : List Byte) :
    (State.store s a bs).boot = s.boot := boot_of_off (State.store_off (M := 0x8000098) s a bs rfl) rfl rfl rfl
@[simp] theorem State.store_clk (s : State) (a : Nat) (bs : List Byte) :
    (State.store s a bs).clk = s.clk := clk_of_off (State.store_off (M := 0x8000098) s a bs rfl) rfl
@[simp] theorem State.store_pwr (s : State) (a : Nat) (bs : List Byte) :
    (State.store s a bs).pwr = s.pwr := pwr_of_off (State.store_off (M := 0x8000098) s a bs rfl) rfl
@[simp] theorem State.signal_pending (s : State) (port fn v : Nat) :
    (State.signal s port fn v).pending = s.pending := pending_of_off (State.signal_off (M := 0x800) s port fn v rfl) rfl
@[simp] theorem State.signal_freeCtr (s : State) (port fn v : Nat) :
    (State.signal s port fn v).freeCtr = s.freeCtr := freeCtr_of_off (State.signal_off (M := 0x800) s port fn v rfl) rfl
@[simp] theorem State.signal_regs (s : State) (port fn v : Nat) :
    (State.signal s port fn v).regs = s.regs := regs_of_off (State.signal_off (M := 0x800) s port fn v rfl) rfl
@[simp] theorem State.signal_mem (s : State) (port fn v : Nat) :
    (State.signal s port fn v).mem = s.mem := mem_of_off (State.signal_off (M := 0x800) s port fn v rfl) rfl
@[simp] theorem State.signal_poison (s : State) (port fn v : Nat) :
    (State.signal s port fn v).poison = s.poison := poison_of_off (State.signal_off (M := 0x800) s port fn v rfl) rfl
@[simp] theorem State.signal_chip (s : State) (port fn v : Nat) :
    (State.signal s port fn v).chip = s.chip := chip_of_off (State.signal_off (M := 0x800) s port fn v rfl) rfl rfl rfl rfl rfl
@[simp] theorem State.signal_sec (s : State) (port fn v : Nat) :
    (State.signal s port fn v).sec = s.sec := sec_of_off (State.signal_off (M := 0x800) s port fn v rfl) rfl rfl rfl rfl
@[simp] theorem State.signal_ras (s : State) (port fn v : Nat) :
    (State.signal s port fn v).ras = s.ras := ras_of_off (State.signal_off (M := 0x800) s port fn v rfl) rfl rfl
@[simp] theorem State.signal_hbm (s : State) (port fn v : Nat) :
    (State.signal s port fn v).hbm = s.hbm := hbm_of_off (State.signal_off (M := 0x800) s port fn v rfl) rfl
@[simp] theorem State.signal_dir (s : State) (port fn v : Nat) :
    (State.signal s port fn v).dir = s.dir := dir_of_off (State.signal_off (M := 0x800) s port fn v rfl) rfl
@[simp] theorem State.signal_blks (s : State) (port fn v : Nat) :
    (State.signal s port fn v).blks = s.blks := blks_of_off (State.signal_off (M := 0x800) s port fn v rfl) rfl
@[simp] theorem State.signal_fab (s : State) (port fn v : Nat) :
    (State.signal s port fn v).fab = s.fab := fab_of_off (State.signal_off (M := 0x800) s port fn v rfl) rfl
@[simp] theorem State.signal_trn (s : State) (port fn v : Nat) :
    (State.signal s port fn v).trn = s.trn := trn_of_off (State.signal_off (M := 0x800) s port fn v rfl) rfl
@[simp] theorem State.signal_nol (s : State) (port fn v : Nat) :
    (State.signal s port fn v).nol = s.nol := nol_of_off (State.signal_off (M := 0x800) s port fn v rfl) rfl
@[simp] theorem State.signal_roll (s : State) (port fn v : Nat) :
    (State.signal s port fn v).roll = s.roll := roll_of_off (State.signal_off (M := 0x800) s port fn v rfl) rfl
@[simp] theorem State.signal_coll (s : State) (port fn v : Nat) :
    (State.signal s port fn v).coll = s.coll := coll_of_off (State.signal_off (M := 0x800) s port fn v rfl) rfl
@[simp] theorem State.signal_sched (s : State) (port fn v : Nat) :
    (State.signal s port fn v).sched = s.sched := sched_of_off (State.signal_off (M := 0x800) s port fn v rfl) rfl
@[simp] theorem State.signal_upd (s : State) (port fn v : Nat) :
    (State.signal s port fn v).upd = s.upd := upd_of_off (State.signal_off (M := 0x800) s port fn v rfl) rfl
@[simp] theorem State.signal_boot (s : State) (port fn v : Nat) :
    (State.signal s port fn v).boot = s.boot := boot_of_off (State.signal_off (M := 0x800) s port fn v rfl) rfl rfl rfl
@[simp] theorem State.signal_clk (s : State) (port fn v : Nat) :
    (State.signal s port fn v).clk = s.clk := clk_of_off (State.signal_off (M := 0x800) s port fn v rfl) rfl
@[simp] theorem State.signal_pwr (s : State) (port fn v : Nat) :
    (State.signal s port fn v).pwr = s.pwr := pwr_of_off (State.signal_off (M := 0x800) s port fn v rfl) rfl
@[simp] theorem State.putEvent_pending (s : State) (code cls part job unit detail rep : Nat) :
    (State.putEvent s code cls part job unit detail rep).pending = s.pending := pending_of_off (State.putEvent_off (M := 0x100000804) s code cls part job unit detail rep rfl) rfl
@[simp] theorem State.putEvent_freeCtr (s : State) (code cls part job unit detail rep : Nat) :
    (State.putEvent s code cls part job unit detail rep).freeCtr = s.freeCtr := freeCtr_of_off (State.putEvent_off (M := 0x100000804) s code cls part job unit detail rep rfl) rfl
@[simp] theorem State.putEvent_mem (s : State) (code cls part job unit detail rep : Nat) :
    (State.putEvent s code cls part job unit detail rep).mem = s.mem := mem_of_off (State.putEvent_off (M := 0x100000804) s code cls part job unit detail rep rfl) rfl
@[simp] theorem State.putEvent_poison (s : State) (code cls part job unit detail rep : Nat) :
    (State.putEvent s code cls part job unit detail rep).poison = s.poison := poison_of_off (State.putEvent_off (M := 0x100000804) s code cls part job unit detail rep rfl) rfl
@[simp] theorem State.putEvent_chip (s : State) (code cls part job unit detail rep : Nat) :
    (State.putEvent s code cls part job unit detail rep).chip = s.chip := chip_of_off (State.putEvent_off (M := 0x100000804) s code cls part job unit detail rep rfl) rfl rfl rfl rfl rfl
@[simp] theorem State.putEvent_sec (s : State) (code cls part job unit detail rep : Nat) :
    (State.putEvent s code cls part job unit detail rep).sec = s.sec := sec_of_off (State.putEvent_off (M := 0x100000804) s code cls part job unit detail rep rfl) rfl rfl rfl rfl
@[simp] theorem State.putEvent_ras (s : State) (code cls part job unit detail rep : Nat) :
    (State.putEvent s code cls part job unit detail rep).ras = s.ras := ras_of_off (State.putEvent_off (M := 0x100000804) s code cls part job unit detail rep rfl) rfl rfl
@[simp] theorem State.putEvent_hbm (s : State) (code cls part job unit detail rep : Nat) :
    (State.putEvent s code cls part job unit detail rep).hbm = s.hbm := hbm_of_off (State.putEvent_off (M := 0x100000804) s code cls part job unit detail rep rfl) rfl
@[simp] theorem State.putEvent_dir (s : State) (code cls part job unit detail rep : Nat) :
    (State.putEvent s code cls part job unit detail rep).dir = s.dir := dir_of_off (State.putEvent_off (M := 0x100000804) s code cls part job unit detail rep rfl) rfl
@[simp] theorem State.putEvent_blks (s : State) (code cls part job unit detail rep : Nat) :
    (State.putEvent s code cls part job unit detail rep).blks = s.blks := blks_of_off (State.putEvent_off (M := 0x100000804) s code cls part job unit detail rep rfl) rfl
@[simp] theorem State.putEvent_fab (s : State) (code cls part job unit detail rep : Nat) :
    (State.putEvent s code cls part job unit detail rep).fab = s.fab := fab_of_off (State.putEvent_off (M := 0x100000804) s code cls part job unit detail rep rfl) rfl
@[simp] theorem State.putEvent_trn (s : State) (code cls part job unit detail rep : Nat) :
    (State.putEvent s code cls part job unit detail rep).trn = s.trn := trn_of_off (State.putEvent_off (M := 0x100000804) s code cls part job unit detail rep rfl) rfl
@[simp] theorem State.putEvent_nol (s : State) (code cls part job unit detail rep : Nat) :
    (State.putEvent s code cls part job unit detail rep).nol = s.nol := nol_of_off (State.putEvent_off (M := 0x100000804) s code cls part job unit detail rep rfl) rfl
@[simp] theorem State.putEvent_roll (s : State) (code cls part job unit detail rep : Nat) :
    (State.putEvent s code cls part job unit detail rep).roll = s.roll := roll_of_off (State.putEvent_off (M := 0x100000804) s code cls part job unit detail rep rfl) rfl
@[simp] theorem State.putEvent_coll (s : State) (code cls part job unit detail rep : Nat) :
    (State.putEvent s code cls part job unit detail rep).coll = s.coll := coll_of_off (State.putEvent_off (M := 0x100000804) s code cls part job unit detail rep rfl) rfl
@[simp] theorem State.putEvent_sched (s : State) (code cls part job unit detail rep : Nat) :
    (State.putEvent s code cls part job unit detail rep).sched = s.sched := sched_of_off (State.putEvent_off (M := 0x100000804) s code cls part job unit detail rep rfl) rfl
@[simp] theorem State.putEvent_upd (s : State) (code cls part job unit detail rep : Nat) :
    (State.putEvent s code cls part job unit detail rep).upd = s.upd := upd_of_off (State.putEvent_off (M := 0x100000804) s code cls part job unit detail rep rfl) rfl
@[simp] theorem State.putEvent_boot (s : State) (code cls part job unit detail rep : Nat) :
    (State.putEvent s code cls part job unit detail rep).boot = s.boot := boot_of_off (State.putEvent_off (M := 0x100000804) s code cls part job unit detail rep rfl) rfl rfl rfl
@[simp] theorem State.putEvent_clk (s : State) (code cls part job unit detail rep : Nat) :
    (State.putEvent s code cls part job unit detail rep).clk = s.clk := clk_of_off (State.putEvent_off (M := 0x100000804) s code cls part job unit detail rep rfl) rfl
@[simp] theorem State.event_pending (s : State) (code cls part job unit : Nat) (detail : Option Nat) :
    (State.event s code cls part job unit detail).pending = s.pending := pending_of_off (State.event_off (M := 0x100040806) s code cls part job unit detail rfl) rfl
@[simp] theorem State.event_mem (s : State) (code cls part job unit : Nat) (detail : Option Nat) :
    (State.event s code cls part job unit detail).mem = s.mem := mem_of_off (State.event_off (M := 0x100040806) s code cls part job unit detail rfl) rfl
@[simp] theorem State.event_poison (s : State) (code cls part job unit : Nat) (detail : Option Nat) :
    (State.event s code cls part job unit detail).poison = s.poison := poison_of_off (State.event_off (M := 0x100040806) s code cls part job unit detail rfl) rfl
@[simp] theorem State.event_chip (s : State) (code cls part job unit : Nat) (detail : Option Nat) :
    (State.event s code cls part job unit detail).chip = s.chip := chip_of_off (State.event_off (M := 0x100040806) s code cls part job unit detail rfl) rfl rfl rfl rfl rfl
@[simp] theorem State.event_sec (s : State) (code cls part job unit : Nat) (detail : Option Nat) :
    (State.event s code cls part job unit detail).sec = s.sec := sec_of_off (State.event_off (M := 0x100040806) s code cls part job unit detail rfl) rfl rfl rfl rfl
@[simp] theorem State.event_hbm (s : State) (code cls part job unit : Nat) (detail : Option Nat) :
    (State.event s code cls part job unit detail).hbm = s.hbm := hbm_of_off (State.event_off (M := 0x100040806) s code cls part job unit detail rfl) rfl
@[simp] theorem State.event_dir (s : State) (code cls part job unit : Nat) (detail : Option Nat) :
    (State.event s code cls part job unit detail).dir = s.dir := dir_of_off (State.event_off (M := 0x100040806) s code cls part job unit detail rfl) rfl
@[simp] theorem State.event_blks (s : State) (code cls part job unit : Nat) (detail : Option Nat) :
    (State.event s code cls part job unit detail).blks = s.blks := blks_of_off (State.event_off (M := 0x100040806) s code cls part job unit detail rfl) rfl
@[simp] theorem State.event_fab (s : State) (code cls part job unit : Nat) (detail : Option Nat) :
    (State.event s code cls part job unit detail).fab = s.fab := fab_of_off (State.event_off (M := 0x100040806) s code cls part job unit detail rfl) rfl
@[simp] theorem State.event_trn (s : State) (code cls part job unit : Nat) (detail : Option Nat) :
    (State.event s code cls part job unit detail).trn = s.trn := trn_of_off (State.event_off (M := 0x100040806) s code cls part job unit detail rfl) rfl
@[simp] theorem State.event_nol (s : State) (code cls part job unit : Nat) (detail : Option Nat) :
    (State.event s code cls part job unit detail).nol = s.nol := nol_of_off (State.event_off (M := 0x100040806) s code cls part job unit detail rfl) rfl
@[simp] theorem State.event_roll (s : State) (code cls part job unit : Nat) (detail : Option Nat) :
    (State.event s code cls part job unit detail).roll = s.roll := roll_of_off (State.event_off (M := 0x100040806) s code cls part job unit detail rfl) rfl
@[simp] theorem State.event_coll (s : State) (code cls part job unit : Nat) (detail : Option Nat) :
    (State.event s code cls part job unit detail).coll = s.coll := coll_of_off (State.event_off (M := 0x100040806) s code cls part job unit detail rfl) rfl
@[simp] theorem State.event_sched (s : State) (code cls part job unit : Nat) (detail : Option Nat) :
    (State.event s code cls part job unit detail).sched = s.sched := sched_of_off (State.event_off (M := 0x100040806) s code cls part job unit detail rfl) rfl
@[simp] theorem State.event_upd (s : State) (code cls part job unit : Nat) (detail : Option Nat) :
    (State.event s code cls part job unit detail).upd = s.upd := upd_of_off (State.event_off (M := 0x100040806) s code cls part job unit detail rfl) rfl
@[simp] theorem State.event_boot (s : State) (code cls part job unit : Nat) (detail : Option Nat) :
    (State.event s code cls part job unit detail).boot = s.boot := boot_of_off (State.event_off (M := 0x100040806) s code cls part job unit detail rfl) rfl rfl rfl
@[simp] theorem State.event_clk (s : State) (code cls part job unit : Nat) (detail : Option Nat) :
    (State.event s code cls part job unit detail).clk = s.clk := clk_of_off (State.event_off (M := 0x100040806) s code cls part job unit detail rfl) rfl
@[simp] theorem State.contained_pending (s : State) (code part job unit : Nat) (detail : Option Nat) :
    (State.contained s code part job unit detail).pending = s.pending := pending_of_off (State.contained_off (M := 0x100041916) s code part job unit detail rfl) rfl
@[simp] theorem State.contained_mem (s : State) (code part job unit : Nat) (detail : Option Nat) :
    (State.contained s code part job unit detail).mem = s.mem := mem_of_off (State.contained_off (M := 0x100041916) s code part job unit detail rfl) rfl
@[simp] theorem State.contained_poison (s : State) (code part job unit : Nat) (detail : Option Nat) :
    (State.contained s code part job unit detail).poison = s.poison := poison_of_off (State.contained_off (M := 0x100041916) s code part job unit detail rfl) rfl
@[simp] theorem State.contained_sec (s : State) (code part job unit : Nat) (detail : Option Nat) :
    (State.contained s code part job unit detail).sec = s.sec := sec_of_off (State.contained_off (M := 0x100041916) s code part job unit detail rfl) rfl rfl rfl rfl
@[simp] theorem State.contained_hbm (s : State) (code part job unit : Nat) (detail : Option Nat) :
    (State.contained s code part job unit detail).hbm = s.hbm := hbm_of_off (State.contained_off (M := 0x100041916) s code part job unit detail rfl) rfl
@[simp] theorem State.contained_dir (s : State) (code part job unit : Nat) (detail : Option Nat) :
    (State.contained s code part job unit detail).dir = s.dir := dir_of_off (State.contained_off (M := 0x100041916) s code part job unit detail rfl) rfl
@[simp] theorem State.contained_blks (s : State) (code part job unit : Nat) (detail : Option Nat) :
    (State.contained s code part job unit detail).blks = s.blks := blks_of_off (State.contained_off (M := 0x100041916) s code part job unit detail rfl) rfl
@[simp] theorem State.contained_fab (s : State) (code part job unit : Nat) (detail : Option Nat) :
    (State.contained s code part job unit detail).fab = s.fab := fab_of_off (State.contained_off (M := 0x100041916) s code part job unit detail rfl) rfl
@[simp] theorem State.contained_trn (s : State) (code part job unit : Nat) (detail : Option Nat) :
    (State.contained s code part job unit detail).trn = s.trn := trn_of_off (State.contained_off (M := 0x100041916) s code part job unit detail rfl) rfl
@[simp] theorem State.contained_nol (s : State) (code part job unit : Nat) (detail : Option Nat) :
    (State.contained s code part job unit detail).nol = s.nol := nol_of_off (State.contained_off (M := 0x100041916) s code part job unit detail rfl) rfl
@[simp] theorem State.contained_roll (s : State) (code part job unit : Nat) (detail : Option Nat) :
    (State.contained s code part job unit detail).roll = s.roll := roll_of_off (State.contained_off (M := 0x100041916) s code part job unit detail rfl) rfl
@[simp] theorem State.contained_coll (s : State) (code part job unit : Nat) (detail : Option Nat) :
    (State.contained s code part job unit detail).coll = s.coll := coll_of_off (State.contained_off (M := 0x100041916) s code part job unit detail rfl) rfl
@[simp] theorem State.contained_sched (s : State) (code part job unit : Nat) (detail : Option Nat) :
    (State.contained s code part job unit detail).sched = s.sched := sched_of_off (State.contained_off (M := 0x100041916) s code part job unit detail rfl) rfl
@[simp] theorem State.contained_upd (s : State) (code part job unit : Nat) (detail : Option Nat) :
    (State.contained s code part job unit detail).upd = s.upd := upd_of_off (State.contained_off (M := 0x100041916) s code part job unit detail rfl) rfl
@[simp] theorem State.contained_boot (s : State) (code part job unit : Nat) (detail : Option Nat) :
    (State.contained s code part job unit detail).boot = s.boot := boot_of_off (State.contained_off (M := 0x100041916) s code part job unit detail rfl) rfl rfl rfl
@[simp] theorem State.contained_clk (s : State) (code part job unit : Nat) (detail : Option Nat) :
    (State.contained s code part job unit detail).clk = s.clk := clk_of_off (State.contained_off (M := 0x100041916) s code part job unit detail rfl) rfl
@[simp] theorem State.hostPaste_pending (s : State) (port a n : Nat) (d : Tab Byte) :
    (State.hostPaste s port a n d).pending = s.pending := pending_of_off (State.hostPaste_off (M := 0x200) s port a n d rfl) rfl
@[simp] theorem State.hostPaste_freeCtr (s : State) (port a n : Nat) (d : Tab Byte) :
    (State.hostPaste s port a n d).freeCtr = s.freeCtr := freeCtr_of_off (State.hostPaste_off (M := 0x200) s port a n d rfl) rfl
@[simp] theorem State.hostPaste_regs (s : State) (port a n : Nat) (d : Tab Byte) :
    (State.hostPaste s port a n d).regs = s.regs := regs_of_off (State.hostPaste_off (M := 0x200) s port a n d rfl) rfl
@[simp] theorem State.hostPaste_mem (s : State) (port a n : Nat) (d : Tab Byte) :
    (State.hostPaste s port a n d).mem = s.mem := mem_of_off (State.hostPaste_off (M := 0x200) s port a n d rfl) rfl
@[simp] theorem State.hostPaste_poison (s : State) (port a n : Nat) (d : Tab Byte) :
    (State.hostPaste s port a n d).poison = s.poison := poison_of_off (State.hostPaste_off (M := 0x200) s port a n d rfl) rfl
@[simp] theorem State.hostPaste_chip (s : State) (port a n : Nat) (d : Tab Byte) :
    (State.hostPaste s port a n d).chip = s.chip := chip_of_off (State.hostPaste_off (M := 0x200) s port a n d rfl) rfl rfl rfl rfl rfl
@[simp] theorem State.hostPaste_sec (s : State) (port a n : Nat) (d : Tab Byte) :
    (State.hostPaste s port a n d).sec = s.sec := sec_of_off (State.hostPaste_off (M := 0x200) s port a n d rfl) rfl rfl rfl rfl
@[simp] theorem State.hostPaste_ras (s : State) (port a n : Nat) (d : Tab Byte) :
    (State.hostPaste s port a n d).ras = s.ras := ras_of_off (State.hostPaste_off (M := 0x200) s port a n d rfl) rfl rfl
@[simp] theorem State.hostPaste_hbm (s : State) (port a n : Nat) (d : Tab Byte) :
    (State.hostPaste s port a n d).hbm = s.hbm := hbm_of_off (State.hostPaste_off (M := 0x200) s port a n d rfl) rfl
@[simp] theorem State.hostPaste_dir (s : State) (port a n : Nat) (d : Tab Byte) :
    (State.hostPaste s port a n d).dir = s.dir := dir_of_off (State.hostPaste_off (M := 0x200) s port a n d rfl) rfl
@[simp] theorem State.hostPaste_blks (s : State) (port a n : Nat) (d : Tab Byte) :
    (State.hostPaste s port a n d).blks = s.blks := blks_of_off (State.hostPaste_off (M := 0x200) s port a n d rfl) rfl
@[simp] theorem State.hostPaste_fab (s : State) (port a n : Nat) (d : Tab Byte) :
    (State.hostPaste s port a n d).fab = s.fab := fab_of_off (State.hostPaste_off (M := 0x200) s port a n d rfl) rfl
@[simp] theorem State.hostPaste_trn (s : State) (port a n : Nat) (d : Tab Byte) :
    (State.hostPaste s port a n d).trn = s.trn := trn_of_off (State.hostPaste_off (M := 0x200) s port a n d rfl) rfl
@[simp] theorem State.hostPaste_nol (s : State) (port a n : Nat) (d : Tab Byte) :
    (State.hostPaste s port a n d).nol = s.nol := nol_of_off (State.hostPaste_off (M := 0x200) s port a n d rfl) rfl
@[simp] theorem State.hostPaste_roll (s : State) (port a n : Nat) (d : Tab Byte) :
    (State.hostPaste s port a n d).roll = s.roll := roll_of_off (State.hostPaste_off (M := 0x200) s port a n d rfl) rfl
@[simp] theorem State.hostPaste_coll (s : State) (port a n : Nat) (d : Tab Byte) :
    (State.hostPaste s port a n d).coll = s.coll := coll_of_off (State.hostPaste_off (M := 0x200) s port a n d rfl) rfl
@[simp] theorem State.hostPaste_sched (s : State) (port a n : Nat) (d : Tab Byte) :
    (State.hostPaste s port a n d).sched = s.sched := sched_of_off (State.hostPaste_off (M := 0x200) s port a n d rfl) rfl
@[simp] theorem State.hostPaste_upd (s : State) (port a n : Nat) (d : Tab Byte) :
    (State.hostPaste s port a n d).upd = s.upd := upd_of_off (State.hostPaste_off (M := 0x200) s port a n d rfl) rfl
@[simp] theorem State.hostPaste_boot (s : State) (port a n : Nat) (d : Tab Byte) :
    (State.hostPaste s port a n d).boot = s.boot := boot_of_off (State.hostPaste_off (M := 0x200) s port a n d rfl) rfl rfl rfl
@[simp] theorem State.hostPaste_clk (s : State) (port a n : Nat) (d : Tab Byte) :
    (State.hostPaste s port a n d).clk = s.clk := clk_of_off (State.hostPaste_off (M := 0x200) s port a n d rfl) rfl
@[simp] theorem State.hostPaste_pwr (s : State) (port a n : Nat) (d : Tab Byte) :
    (State.hostPaste s port a n d).pwr = s.pwr := pwr_of_off (State.hostPaste_off (M := 0x200) s port a n d rfl) rfl
@[simp] theorem State.setRing_pending (s : State) (w j : Nat) (r : RingSt) :
    (State.setRing s w j r).pending = s.pending := pending_of_off (State.setRing_off (M := 0x800) s w j r rfl) rfl
@[simp] theorem State.setRing_freeCtr (s : State) (w j : Nat) (r : RingSt) :
    (State.setRing s w j r).freeCtr = s.freeCtr := freeCtr_of_off (State.setRing_off (M := 0x800) s w j r rfl) rfl
@[simp] theorem State.setRing_regs (s : State) (w j : Nat) (r : RingSt) :
    (State.setRing s w j r).regs = s.regs := regs_of_off (State.setRing_off (M := 0x800) s w j r rfl) rfl
@[simp] theorem State.setRing_mem (s : State) (w j : Nat) (r : RingSt) :
    (State.setRing s w j r).mem = s.mem := mem_of_off (State.setRing_off (M := 0x800) s w j r rfl) rfl
@[simp] theorem State.setRing_poison (s : State) (w j : Nat) (r : RingSt) :
    (State.setRing s w j r).poison = s.poison := poison_of_off (State.setRing_off (M := 0x800) s w j r rfl) rfl
@[simp] theorem State.setRing_chip (s : State) (w j : Nat) (r : RingSt) :
    (State.setRing s w j r).chip = s.chip := chip_of_off (State.setRing_off (M := 0x800) s w j r rfl) rfl rfl rfl rfl rfl
@[simp] theorem State.setRing_sec (s : State) (w j : Nat) (r : RingSt) :
    (State.setRing s w j r).sec = s.sec := sec_of_off (State.setRing_off (M := 0x800) s w j r rfl) rfl rfl rfl rfl
@[simp] theorem State.setRing_ras (s : State) (w j : Nat) (r : RingSt) :
    (State.setRing s w j r).ras = s.ras := ras_of_off (State.setRing_off (M := 0x800) s w j r rfl) rfl rfl
@[simp] theorem State.setRing_hbm (s : State) (w j : Nat) (r : RingSt) :
    (State.setRing s w j r).hbm = s.hbm := hbm_of_off (State.setRing_off (M := 0x800) s w j r rfl) rfl
@[simp] theorem State.setRing_dir (s : State) (w j : Nat) (r : RingSt) :
    (State.setRing s w j r).dir = s.dir := dir_of_off (State.setRing_off (M := 0x800) s w j r rfl) rfl
@[simp] theorem State.setRing_blks (s : State) (w j : Nat) (r : RingSt) :
    (State.setRing s w j r).blks = s.blks := blks_of_off (State.setRing_off (M := 0x800) s w j r rfl) rfl
@[simp] theorem State.setRing_fab (s : State) (w j : Nat) (r : RingSt) :
    (State.setRing s w j r).fab = s.fab := fab_of_off (State.setRing_off (M := 0x800) s w j r rfl) rfl
@[simp] theorem State.setRing_trn (s : State) (w j : Nat) (r : RingSt) :
    (State.setRing s w j r).trn = s.trn := trn_of_off (State.setRing_off (M := 0x800) s w j r rfl) rfl
@[simp] theorem State.setRing_nol (s : State) (w j : Nat) (r : RingSt) :
    (State.setRing s w j r).nol = s.nol := nol_of_off (State.setRing_off (M := 0x800) s w j r rfl) rfl
@[simp] theorem State.setRing_roll (s : State) (w j : Nat) (r : RingSt) :
    (State.setRing s w j r).roll = s.roll := roll_of_off (State.setRing_off (M := 0x800) s w j r rfl) rfl
@[simp] theorem State.setRing_coll (s : State) (w j : Nat) (r : RingSt) :
    (State.setRing s w j r).coll = s.coll := coll_of_off (State.setRing_off (M := 0x800) s w j r rfl) rfl
@[simp] theorem State.setRing_sched (s : State) (w j : Nat) (r : RingSt) :
    (State.setRing s w j r).sched = s.sched := sched_of_off (State.setRing_off (M := 0x800) s w j r rfl) rfl
@[simp] theorem State.setRing_upd (s : State) (w j : Nat) (r : RingSt) :
    (State.setRing s w j r).upd = s.upd := upd_of_off (State.setRing_off (M := 0x800) s w j r rfl) rfl
@[simp] theorem State.setRing_boot (s : State) (w j : Nat) (r : RingSt) :
    (State.setRing s w j r).boot = s.boot := boot_of_off (State.setRing_off (M := 0x800) s w j r rfl) rfl rfl rfl
@[simp] theorem State.setRing_clk (s : State) (w j : Nat) (r : RingSt) :
    (State.setRing s w j r).clk = s.clk := clk_of_off (State.setRing_off (M := 0x800) s w j r rfl) rfl
@[simp] theorem State.setRing_pwr (s : State) (w j : Nat) (r : RingSt) :
    (State.setRing s w j r).pwr = s.pwr := pwr_of_off (State.setRing_off (M := 0x800) s w j r rfl) rfl
@[simp] theorem State.unreserve_pending (s : State) (port fn j : Nat) :
    (State.unreserve s port fn j).pending = s.pending := pending_of_off (State.unreserve_off (M := 0x800) s port fn j rfl) rfl
@[simp] theorem State.unreserve_freeCtr (s : State) (port fn j : Nat) :
    (State.unreserve s port fn j).freeCtr = s.freeCtr := freeCtr_of_off (State.unreserve_off (M := 0x800) s port fn j rfl) rfl
@[simp] theorem State.unreserve_regs (s : State) (port fn j : Nat) :
    (State.unreserve s port fn j).regs = s.regs := regs_of_off (State.unreserve_off (M := 0x800) s port fn j rfl) rfl
@[simp] theorem State.unreserve_mem (s : State) (port fn j : Nat) :
    (State.unreserve s port fn j).mem = s.mem := mem_of_off (State.unreserve_off (M := 0x800) s port fn j rfl) rfl
@[simp] theorem State.unreserve_poison (s : State) (port fn j : Nat) :
    (State.unreserve s port fn j).poison = s.poison := poison_of_off (State.unreserve_off (M := 0x800) s port fn j rfl) rfl
@[simp] theorem State.unreserve_chip (s : State) (port fn j : Nat) :
    (State.unreserve s port fn j).chip = s.chip := chip_of_off (State.unreserve_off (M := 0x800) s port fn j rfl) rfl rfl rfl rfl rfl
@[simp] theorem State.unreserve_sec (s : State) (port fn j : Nat) :
    (State.unreserve s port fn j).sec = s.sec := sec_of_off (State.unreserve_off (M := 0x800) s port fn j rfl) rfl rfl rfl rfl
@[simp] theorem State.unreserve_ras (s : State) (port fn j : Nat) :
    (State.unreserve s port fn j).ras = s.ras := ras_of_off (State.unreserve_off (M := 0x800) s port fn j rfl) rfl rfl
@[simp] theorem State.unreserve_hbm (s : State) (port fn j : Nat) :
    (State.unreserve s port fn j).hbm = s.hbm := hbm_of_off (State.unreserve_off (M := 0x800) s port fn j rfl) rfl
@[simp] theorem State.unreserve_dir (s : State) (port fn j : Nat) :
    (State.unreserve s port fn j).dir = s.dir := dir_of_off (State.unreserve_off (M := 0x800) s port fn j rfl) rfl
@[simp] theorem State.unreserve_blks (s : State) (port fn j : Nat) :
    (State.unreserve s port fn j).blks = s.blks := blks_of_off (State.unreserve_off (M := 0x800) s port fn j rfl) rfl
@[simp] theorem State.unreserve_fab (s : State) (port fn j : Nat) :
    (State.unreserve s port fn j).fab = s.fab := fab_of_off (State.unreserve_off (M := 0x800) s port fn j rfl) rfl
@[simp] theorem State.unreserve_trn (s : State) (port fn j : Nat) :
    (State.unreserve s port fn j).trn = s.trn := trn_of_off (State.unreserve_off (M := 0x800) s port fn j rfl) rfl
@[simp] theorem State.unreserve_nol (s : State) (port fn j : Nat) :
    (State.unreserve s port fn j).nol = s.nol := nol_of_off (State.unreserve_off (M := 0x800) s port fn j rfl) rfl
@[simp] theorem State.unreserve_roll (s : State) (port fn j : Nat) :
    (State.unreserve s port fn j).roll = s.roll := roll_of_off (State.unreserve_off (M := 0x800) s port fn j rfl) rfl
@[simp] theorem State.unreserve_coll (s : State) (port fn j : Nat) :
    (State.unreserve s port fn j).coll = s.coll := coll_of_off (State.unreserve_off (M := 0x800) s port fn j rfl) rfl
@[simp] theorem State.unreserve_sched (s : State) (port fn j : Nat) :
    (State.unreserve s port fn j).sched = s.sched := sched_of_off (State.unreserve_off (M := 0x800) s port fn j rfl) rfl
@[simp] theorem State.unreserve_upd (s : State) (port fn j : Nat) :
    (State.unreserve s port fn j).upd = s.upd := upd_of_off (State.unreserve_off (M := 0x800) s port fn j rfl) rfl
@[simp] theorem State.unreserve_boot (s : State) (port fn j : Nat) :
    (State.unreserve s port fn j).boot = s.boot := boot_of_off (State.unreserve_off (M := 0x800) s port fn j rfl) rfl rfl rfl
@[simp] theorem State.unreserve_clk (s : State) (port fn j : Nat) :
    (State.unreserve s port fn j).clk = s.clk := clk_of_off (State.unreserve_off (M := 0x800) s port fn j rfl) rfl
@[simp] theorem State.unreserve_pwr (s : State) (port fn j : Nat) :
    (State.unreserve s port fn j).pwr = s.pwr := pwr_of_off (State.unreserve_off (M := 0x800) s port fn j rfl) rfl
@[simp] theorem State.putCpl_pending (s : State) (port fn j : Nat) (c : Cpl) :
    (State.putCpl s port fn j c).pending = s.pending := pending_of_off (State.putCpl_off (M := 0xa00) s port fn j c rfl) rfl
@[simp] theorem State.putCpl_freeCtr (s : State) (port fn j : Nat) (c : Cpl) :
    (State.putCpl s port fn j c).freeCtr = s.freeCtr := freeCtr_of_off (State.putCpl_off (M := 0xa00) s port fn j c rfl) rfl
@[simp] theorem State.putCpl_regs (s : State) (port fn j : Nat) (c : Cpl) :
    (State.putCpl s port fn j c).regs = s.regs := regs_of_off (State.putCpl_off (M := 0xa00) s port fn j c rfl) rfl
@[simp] theorem State.putCpl_mem (s : State) (port fn j : Nat) (c : Cpl) :
    (State.putCpl s port fn j c).mem = s.mem := mem_of_off (State.putCpl_off (M := 0xa00) s port fn j c rfl) rfl
@[simp] theorem State.putCpl_poison (s : State) (port fn j : Nat) (c : Cpl) :
    (State.putCpl s port fn j c).poison = s.poison := poison_of_off (State.putCpl_off (M := 0xa00) s port fn j c rfl) rfl
@[simp] theorem State.putCpl_chip (s : State) (port fn j : Nat) (c : Cpl) :
    (State.putCpl s port fn j c).chip = s.chip := chip_of_off (State.putCpl_off (M := 0xa00) s port fn j c rfl) rfl rfl rfl rfl rfl
@[simp] theorem State.putCpl_sec (s : State) (port fn j : Nat) (c : Cpl) :
    (State.putCpl s port fn j c).sec = s.sec := sec_of_off (State.putCpl_off (M := 0xa00) s port fn j c rfl) rfl rfl rfl rfl
@[simp] theorem State.putCpl_ras (s : State) (port fn j : Nat) (c : Cpl) :
    (State.putCpl s port fn j c).ras = s.ras := ras_of_off (State.putCpl_off (M := 0xa00) s port fn j c rfl) rfl rfl
@[simp] theorem State.putCpl_hbm (s : State) (port fn j : Nat) (c : Cpl) :
    (State.putCpl s port fn j c).hbm = s.hbm := hbm_of_off (State.putCpl_off (M := 0xa00) s port fn j c rfl) rfl
@[simp] theorem State.putCpl_dir (s : State) (port fn j : Nat) (c : Cpl) :
    (State.putCpl s port fn j c).dir = s.dir := dir_of_off (State.putCpl_off (M := 0xa00) s port fn j c rfl) rfl
@[simp] theorem State.putCpl_blks (s : State) (port fn j : Nat) (c : Cpl) :
    (State.putCpl s port fn j c).blks = s.blks := blks_of_off (State.putCpl_off (M := 0xa00) s port fn j c rfl) rfl
@[simp] theorem State.putCpl_fab (s : State) (port fn j : Nat) (c : Cpl) :
    (State.putCpl s port fn j c).fab = s.fab := fab_of_off (State.putCpl_off (M := 0xa00) s port fn j c rfl) rfl
@[simp] theorem State.putCpl_trn (s : State) (port fn j : Nat) (c : Cpl) :
    (State.putCpl s port fn j c).trn = s.trn := trn_of_off (State.putCpl_off (M := 0xa00) s port fn j c rfl) rfl
@[simp] theorem State.putCpl_nol (s : State) (port fn j : Nat) (c : Cpl) :
    (State.putCpl s port fn j c).nol = s.nol := nol_of_off (State.putCpl_off (M := 0xa00) s port fn j c rfl) rfl
@[simp] theorem State.putCpl_roll (s : State) (port fn j : Nat) (c : Cpl) :
    (State.putCpl s port fn j c).roll = s.roll := roll_of_off (State.putCpl_off (M := 0xa00) s port fn j c rfl) rfl
@[simp] theorem State.putCpl_coll (s : State) (port fn j : Nat) (c : Cpl) :
    (State.putCpl s port fn j c).coll = s.coll := coll_of_off (State.putCpl_off (M := 0xa00) s port fn j c rfl) rfl
@[simp] theorem State.putCpl_sched (s : State) (port fn j : Nat) (c : Cpl) :
    (State.putCpl s port fn j c).sched = s.sched := sched_of_off (State.putCpl_off (M := 0xa00) s port fn j c rfl) rfl
@[simp] theorem State.putCpl_upd (s : State) (port fn j : Nat) (c : Cpl) :
    (State.putCpl s port fn j c).upd = s.upd := upd_of_off (State.putCpl_off (M := 0xa00) s port fn j c rfl) rfl
@[simp] theorem State.putCpl_boot (s : State) (port fn j : Nat) (c : Cpl) :
    (State.putCpl s port fn j c).boot = s.boot := boot_of_off (State.putCpl_off (M := 0xa00) s port fn j c rfl) rfl rfl rfl
@[simp] theorem State.putCpl_clk (s : State) (port fn j : Nat) (c : Cpl) :
    (State.putCpl s port fn j c).clk = s.clk := clk_of_off (State.putCpl_off (M := 0xa00) s port fn j c rfl) rfl
@[simp] theorem State.putCpl_pwr (s : State) (port fn j : Nat) (c : Cpl) :
    (State.putCpl s port fn j c).pwr = s.pwr := pwr_of_off (State.putCpl_off (M := 0xa00) s port fn j c rfl) rfl
@[simp] theorem State.complete_pending (s : State) (port fn j : Nat) (c : Cpl) :
    (State.complete s port fn j c).pending = s.pending := pending_of_off (State.complete_off (M := 0x1a00) s port fn j c rfl) rfl
@[simp] theorem State.complete_freeCtr (s : State) (port fn j : Nat) (c : Cpl) :
    (State.complete s port fn j c).freeCtr = s.freeCtr := freeCtr_of_off (State.complete_off (M := 0x1a00) s port fn j c rfl) rfl
@[simp] theorem State.complete_regs (s : State) (port fn j : Nat) (c : Cpl) :
    (State.complete s port fn j c).regs = s.regs := regs_of_off (State.complete_off (M := 0x1a00) s port fn j c rfl) rfl
@[simp] theorem State.complete_mem (s : State) (port fn j : Nat) (c : Cpl) :
    (State.complete s port fn j c).mem = s.mem := mem_of_off (State.complete_off (M := 0x1a00) s port fn j c rfl) rfl
@[simp] theorem State.complete_poison (s : State) (port fn j : Nat) (c : Cpl) :
    (State.complete s port fn j c).poison = s.poison := poison_of_off (State.complete_off (M := 0x1a00) s port fn j c rfl) rfl
@[simp] theorem State.complete_chip (s : State) (port fn j : Nat) (c : Cpl) :
    (State.complete s port fn j c).chip = s.chip := chip_of_off (State.complete_off (M := 0x1a00) s port fn j c rfl) rfl rfl rfl rfl rfl
@[simp] theorem State.complete_sec (s : State) (port fn j : Nat) (c : Cpl) :
    (State.complete s port fn j c).sec = s.sec := sec_of_off (State.complete_off (M := 0x1a00) s port fn j c rfl) rfl rfl rfl rfl
@[simp] theorem State.complete_ras (s : State) (port fn j : Nat) (c : Cpl) :
    (State.complete s port fn j c).ras = s.ras := ras_of_off (State.complete_off (M := 0x1a00) s port fn j c rfl) rfl rfl
@[simp] theorem State.complete_hbm (s : State) (port fn j : Nat) (c : Cpl) :
    (State.complete s port fn j c).hbm = s.hbm := hbm_of_off (State.complete_off (M := 0x1a00) s port fn j c rfl) rfl
@[simp] theorem State.complete_dir (s : State) (port fn j : Nat) (c : Cpl) :
    (State.complete s port fn j c).dir = s.dir := dir_of_off (State.complete_off (M := 0x1a00) s port fn j c rfl) rfl
@[simp] theorem State.complete_blks (s : State) (port fn j : Nat) (c : Cpl) :
    (State.complete s port fn j c).blks = s.blks := blks_of_off (State.complete_off (M := 0x1a00) s port fn j c rfl) rfl
@[simp] theorem State.complete_fab (s : State) (port fn j : Nat) (c : Cpl) :
    (State.complete s port fn j c).fab = s.fab := fab_of_off (State.complete_off (M := 0x1a00) s port fn j c rfl) rfl
@[simp] theorem State.complete_trn (s : State) (port fn j : Nat) (c : Cpl) :
    (State.complete s port fn j c).trn = s.trn := trn_of_off (State.complete_off (M := 0x1a00) s port fn j c rfl) rfl
@[simp] theorem State.complete_nol (s : State) (port fn j : Nat) (c : Cpl) :
    (State.complete s port fn j c).nol = s.nol := nol_of_off (State.complete_off (M := 0x1a00) s port fn j c rfl) rfl
@[simp] theorem State.complete_roll (s : State) (port fn j : Nat) (c : Cpl) :
    (State.complete s port fn j c).roll = s.roll := roll_of_off (State.complete_off (M := 0x1a00) s port fn j c rfl) rfl
@[simp] theorem State.complete_coll (s : State) (port fn j : Nat) (c : Cpl) :
    (State.complete s port fn j c).coll = s.coll := coll_of_off (State.complete_off (M := 0x1a00) s port fn j c rfl) rfl
@[simp] theorem State.complete_sched (s : State) (port fn j : Nat) (c : Cpl) :
    (State.complete s port fn j c).sched = s.sched := sched_of_off (State.complete_off (M := 0x1a00) s port fn j c rfl) rfl
@[simp] theorem State.complete_upd (s : State) (port fn j : Nat) (c : Cpl) :
    (State.complete s port fn j c).upd = s.upd := upd_of_off (State.complete_off (M := 0x1a00) s port fn j c rfl) rfl
@[simp] theorem State.complete_boot (s : State) (port fn j : Nat) (c : Cpl) :
    (State.complete s port fn j c).boot = s.boot := boot_of_off (State.complete_off (M := 0x1a00) s port fn j c rfl) rfl rfl rfl
@[simp] theorem State.complete_clk (s : State) (port fn j : Nat) (c : Cpl) :
    (State.complete s port fn j c).clk = s.clk := clk_of_off (State.complete_off (M := 0x1a00) s port fn j c rfl) rfl
@[simp] theorem State.complete_pwr (s : State) (port fn j : Nat) (c : Cpl) :
    (State.complete s port fn j c).pwr = s.pwr := pwr_of_off (State.complete_off (M := 0x1a00) s port fn j c rfl) rfl
@[simp] theorem State.done_pending (s : State) (p : Post) (opcode status result : Nat) :
    (State.done s p opcode status result).pending = s.pending := pending_of_off (State.done_off (M := 0x1a00) s p opcode status result rfl) rfl
@[simp] theorem State.done_freeCtr (s : State) (p : Post) (opcode status result : Nat) :
    (State.done s p opcode status result).freeCtr = s.freeCtr := freeCtr_of_off (State.done_off (M := 0x1a00) s p opcode status result rfl) rfl
@[simp] theorem State.done_regs (s : State) (p : Post) (opcode status result : Nat) :
    (State.done s p opcode status result).regs = s.regs := regs_of_off (State.done_off (M := 0x1a00) s p opcode status result rfl) rfl
@[simp] theorem State.done_mem (s : State) (p : Post) (opcode status result : Nat) :
    (State.done s p opcode status result).mem = s.mem := mem_of_off (State.done_off (M := 0x1a00) s p opcode status result rfl) rfl
@[simp] theorem State.done_poison (s : State) (p : Post) (opcode status result : Nat) :
    (State.done s p opcode status result).poison = s.poison := poison_of_off (State.done_off (M := 0x1a00) s p opcode status result rfl) rfl
@[simp] theorem State.done_chip (s : State) (p : Post) (opcode status result : Nat) :
    (State.done s p opcode status result).chip = s.chip := chip_of_off (State.done_off (M := 0x1a00) s p opcode status result rfl) rfl rfl rfl rfl rfl
@[simp] theorem State.done_sec (s : State) (p : Post) (opcode status result : Nat) :
    (State.done s p opcode status result).sec = s.sec := sec_of_off (State.done_off (M := 0x1a00) s p opcode status result rfl) rfl rfl rfl rfl
@[simp] theorem State.done_ras (s : State) (p : Post) (opcode status result : Nat) :
    (State.done s p opcode status result).ras = s.ras := ras_of_off (State.done_off (M := 0x1a00) s p opcode status result rfl) rfl rfl
@[simp] theorem State.done_hbm (s : State) (p : Post) (opcode status result : Nat) :
    (State.done s p opcode status result).hbm = s.hbm := hbm_of_off (State.done_off (M := 0x1a00) s p opcode status result rfl) rfl
@[simp] theorem State.done_dir (s : State) (p : Post) (opcode status result : Nat) :
    (State.done s p opcode status result).dir = s.dir := dir_of_off (State.done_off (M := 0x1a00) s p opcode status result rfl) rfl
@[simp] theorem State.done_blks (s : State) (p : Post) (opcode status result : Nat) :
    (State.done s p opcode status result).blks = s.blks := blks_of_off (State.done_off (M := 0x1a00) s p opcode status result rfl) rfl
@[simp] theorem State.done_fab (s : State) (p : Post) (opcode status result : Nat) :
    (State.done s p opcode status result).fab = s.fab := fab_of_off (State.done_off (M := 0x1a00) s p opcode status result rfl) rfl
@[simp] theorem State.done_trn (s : State) (p : Post) (opcode status result : Nat) :
    (State.done s p opcode status result).trn = s.trn := trn_of_off (State.done_off (M := 0x1a00) s p opcode status result rfl) rfl
@[simp] theorem State.done_nol (s : State) (p : Post) (opcode status result : Nat) :
    (State.done s p opcode status result).nol = s.nol := nol_of_off (State.done_off (M := 0x1a00) s p opcode status result rfl) rfl
@[simp] theorem State.done_roll (s : State) (p : Post) (opcode status result : Nat) :
    (State.done s p opcode status result).roll = s.roll := roll_of_off (State.done_off (M := 0x1a00) s p opcode status result rfl) rfl
@[simp] theorem State.done_coll (s : State) (p : Post) (opcode status result : Nat) :
    (State.done s p opcode status result).coll = s.coll := coll_of_off (State.done_off (M := 0x1a00) s p opcode status result rfl) rfl
@[simp] theorem State.done_sched (s : State) (p : Post) (opcode status result : Nat) :
    (State.done s p opcode status result).sched = s.sched := sched_of_off (State.done_off (M := 0x1a00) s p opcode status result rfl) rfl
@[simp] theorem State.done_upd (s : State) (p : Post) (opcode status result : Nat) :
    (State.done s p opcode status result).upd = s.upd := upd_of_off (State.done_off (M := 0x1a00) s p opcode status result rfl) rfl
@[simp] theorem State.done_boot (s : State) (p : Post) (opcode status result : Nat) :
    (State.done s p opcode status result).boot = s.boot := boot_of_off (State.done_off (M := 0x1a00) s p opcode status result rfl) rfl rfl rfl
@[simp] theorem State.done_clk (s : State) (p : Post) (opcode status result : Nat) :
    (State.done s p opcode status result).clk = s.clk := clk_of_off (State.done_off (M := 0x1a00) s p opcode status result rfl) rfl
@[simp] theorem State.done_pwr (s : State) (p : Post) (opcode status result : Nat) :
    (State.done s p opcode status result).pwr = s.pwr := pwr_of_off (State.done_off (M := 0x1a00) s p opcode status result rfl) rfl
@[simp] theorem State.reply_pending (s : State) (p : Post) (opcode status : Nat) :
    (State.reply s p opcode status).pending = s.pending := pending_of_off (State.reply_off (M := 0xa00) s p opcode status rfl) rfl
@[simp] theorem State.reply_freeCtr (s : State) (p : Post) (opcode status : Nat) :
    (State.reply s p opcode status).freeCtr = s.freeCtr := freeCtr_of_off (State.reply_off (M := 0xa00) s p opcode status rfl) rfl
@[simp] theorem State.reply_regs (s : State) (p : Post) (opcode status : Nat) :
    (State.reply s p opcode status).regs = s.regs := regs_of_off (State.reply_off (M := 0xa00) s p opcode status rfl) rfl
@[simp] theorem State.reply_mem (s : State) (p : Post) (opcode status : Nat) :
    (State.reply s p opcode status).mem = s.mem := mem_of_off (State.reply_off (M := 0xa00) s p opcode status rfl) rfl
@[simp] theorem State.reply_poison (s : State) (p : Post) (opcode status : Nat) :
    (State.reply s p opcode status).poison = s.poison := poison_of_off (State.reply_off (M := 0xa00) s p opcode status rfl) rfl
@[simp] theorem State.reply_chip (s : State) (p : Post) (opcode status : Nat) :
    (State.reply s p opcode status).chip = s.chip := chip_of_off (State.reply_off (M := 0xa00) s p opcode status rfl) rfl rfl rfl rfl rfl
@[simp] theorem State.reply_sec (s : State) (p : Post) (opcode status : Nat) :
    (State.reply s p opcode status).sec = s.sec := sec_of_off (State.reply_off (M := 0xa00) s p opcode status rfl) rfl rfl rfl rfl
@[simp] theorem State.reply_ras (s : State) (p : Post) (opcode status : Nat) :
    (State.reply s p opcode status).ras = s.ras := ras_of_off (State.reply_off (M := 0xa00) s p opcode status rfl) rfl rfl
@[simp] theorem State.reply_hbm (s : State) (p : Post) (opcode status : Nat) :
    (State.reply s p opcode status).hbm = s.hbm := hbm_of_off (State.reply_off (M := 0xa00) s p opcode status rfl) rfl
@[simp] theorem State.reply_dir (s : State) (p : Post) (opcode status : Nat) :
    (State.reply s p opcode status).dir = s.dir := dir_of_off (State.reply_off (M := 0xa00) s p opcode status rfl) rfl
@[simp] theorem State.reply_blks (s : State) (p : Post) (opcode status : Nat) :
    (State.reply s p opcode status).blks = s.blks := blks_of_off (State.reply_off (M := 0xa00) s p opcode status rfl) rfl
@[simp] theorem State.reply_fab (s : State) (p : Post) (opcode status : Nat) :
    (State.reply s p opcode status).fab = s.fab := fab_of_off (State.reply_off (M := 0xa00) s p opcode status rfl) rfl
@[simp] theorem State.reply_trn (s : State) (p : Post) (opcode status : Nat) :
    (State.reply s p opcode status).trn = s.trn := trn_of_off (State.reply_off (M := 0xa00) s p opcode status rfl) rfl
@[simp] theorem State.reply_nol (s : State) (p : Post) (opcode status : Nat) :
    (State.reply s p opcode status).nol = s.nol := nol_of_off (State.reply_off (M := 0xa00) s p opcode status rfl) rfl
@[simp] theorem State.reply_roll (s : State) (p : Post) (opcode status : Nat) :
    (State.reply s p opcode status).roll = s.roll := roll_of_off (State.reply_off (M := 0xa00) s p opcode status rfl) rfl
@[simp] theorem State.reply_coll (s : State) (p : Post) (opcode status : Nat) :
    (State.reply s p opcode status).coll = s.coll := coll_of_off (State.reply_off (M := 0xa00) s p opcode status rfl) rfl
@[simp] theorem State.reply_sched (s : State) (p : Post) (opcode status : Nat) :
    (State.reply s p opcode status).sched = s.sched := sched_of_off (State.reply_off (M := 0xa00) s p opcode status rfl) rfl
@[simp] theorem State.reply_upd (s : State) (p : Post) (opcode status : Nat) :
    (State.reply s p opcode status).upd = s.upd := upd_of_off (State.reply_off (M := 0xa00) s p opcode status rfl) rfl
@[simp] theorem State.reply_boot (s : State) (p : Post) (opcode status : Nat) :
    (State.reply s p opcode status).boot = s.boot := boot_of_off (State.reply_off (M := 0xa00) s p opcode status rfl) rfl rfl rfl
@[simp] theorem State.reply_clk (s : State) (p : Post) (opcode status : Nat) :
    (State.reply s p opcode status).clk = s.clk := clk_of_off (State.reply_off (M := 0xa00) s p opcode status rfl) rfl
@[simp] theorem State.reply_pwr (s : State) (p : Post) (opcode status : Nat) :
    (State.reply s p opcode status).pwr = s.pwr := pwr_of_off (State.reply_off (M := 0xa00) s p opcode status rfl) rfl
@[simp] theorem State.await_pending (s : State) (p : Post) (opcode : Nat) (k : PendKind) :
    (State.await s p opcode k).pending = s.pending := pending_of_off (State.await_off (M := 0x2000) s p opcode k rfl) rfl
@[simp] theorem State.await_freeCtr (s : State) (p : Post) (opcode : Nat) (k : PendKind) :
    (State.await s p opcode k).freeCtr = s.freeCtr := freeCtr_of_off (State.await_off (M := 0x2000) s p opcode k rfl) rfl
@[simp] theorem State.await_regs (s : State) (p : Post) (opcode : Nat) (k : PendKind) :
    (State.await s p opcode k).regs = s.regs := regs_of_off (State.await_off (M := 0x2000) s p opcode k rfl) rfl
@[simp] theorem State.await_mem (s : State) (p : Post) (opcode : Nat) (k : PendKind) :
    (State.await s p opcode k).mem = s.mem := mem_of_off (State.await_off (M := 0x2000) s p opcode k rfl) rfl
@[simp] theorem State.await_poison (s : State) (p : Post) (opcode : Nat) (k : PendKind) :
    (State.await s p opcode k).poison = s.poison := poison_of_off (State.await_off (M := 0x2000) s p opcode k rfl) rfl
@[simp] theorem State.await_chip (s : State) (p : Post) (opcode : Nat) (k : PendKind) :
    (State.await s p opcode k).chip = s.chip := chip_of_off (State.await_off (M := 0x2000) s p opcode k rfl) rfl rfl rfl rfl rfl
@[simp] theorem State.await_sec (s : State) (p : Post) (opcode : Nat) (k : PendKind) :
    (State.await s p opcode k).sec = s.sec := sec_of_off (State.await_off (M := 0x2000) s p opcode k rfl) rfl rfl rfl rfl
@[simp] theorem State.await_ras (s : State) (p : Post) (opcode : Nat) (k : PendKind) :
    (State.await s p opcode k).ras = s.ras := ras_of_off (State.await_off (M := 0x2000) s p opcode k rfl) rfl rfl
@[simp] theorem State.await_hbm (s : State) (p : Post) (opcode : Nat) (k : PendKind) :
    (State.await s p opcode k).hbm = s.hbm := hbm_of_off (State.await_off (M := 0x2000) s p opcode k rfl) rfl
@[simp] theorem State.await_dir (s : State) (p : Post) (opcode : Nat) (k : PendKind) :
    (State.await s p opcode k).dir = s.dir := dir_of_off (State.await_off (M := 0x2000) s p opcode k rfl) rfl
@[simp] theorem State.await_blks (s : State) (p : Post) (opcode : Nat) (k : PendKind) :
    (State.await s p opcode k).blks = s.blks := blks_of_off (State.await_off (M := 0x2000) s p opcode k rfl) rfl
@[simp] theorem State.await_fab (s : State) (p : Post) (opcode : Nat) (k : PendKind) :
    (State.await s p opcode k).fab = s.fab := fab_of_off (State.await_off (M := 0x2000) s p opcode k rfl) rfl
@[simp] theorem State.await_trn (s : State) (p : Post) (opcode : Nat) (k : PendKind) :
    (State.await s p opcode k).trn = s.trn := trn_of_off (State.await_off (M := 0x2000) s p opcode k rfl) rfl
@[simp] theorem State.await_nol (s : State) (p : Post) (opcode : Nat) (k : PendKind) :
    (State.await s p opcode k).nol = s.nol := nol_of_off (State.await_off (M := 0x2000) s p opcode k rfl) rfl
@[simp] theorem State.await_roll (s : State) (p : Post) (opcode : Nat) (k : PendKind) :
    (State.await s p opcode k).roll = s.roll := roll_of_off (State.await_off (M := 0x2000) s p opcode k rfl) rfl
@[simp] theorem State.await_coll (s : State) (p : Post) (opcode : Nat) (k : PendKind) :
    (State.await s p opcode k).coll = s.coll := coll_of_off (State.await_off (M := 0x2000) s p opcode k rfl) rfl
@[simp] theorem State.await_sched (s : State) (p : Post) (opcode : Nat) (k : PendKind) :
    (State.await s p opcode k).sched = s.sched := sched_of_off (State.await_off (M := 0x2000) s p opcode k rfl) rfl
@[simp] theorem State.await_upd (s : State) (p : Post) (opcode : Nat) (k : PendKind) :
    (State.await s p opcode k).upd = s.upd := upd_of_off (State.await_off (M := 0x2000) s p opcode k rfl) rfl
@[simp] theorem State.await_boot (s : State) (p : Post) (opcode : Nat) (k : PendKind) :
    (State.await s p opcode k).boot = s.boot := boot_of_off (State.await_off (M := 0x2000) s p opcode k rfl) rfl rfl rfl
@[simp] theorem State.await_clk (s : State) (p : Post) (opcode : Nat) (k : PendKind) :
    (State.await s p opcode k).clk = s.clk := clk_of_off (State.await_off (M := 0x2000) s p opcode k rfl) rfl
@[simp] theorem State.await_pwr (s : State) (p : Post) (opcode : Nat) (k : PendKind) :
    (State.await s p opcode k).pwr = s.pwr := pwr_of_off (State.await_off (M := 0x2000) s p opcode k rfl) rfl
@[simp] theorem State.setSreg_pending (s : State) (c r : Nat) (v : Word) :
    (State.setSreg s c r v).pending = s.pending := pending_of_off (State.setSreg_off (M := 0x10) s c r v rfl) rfl
@[simp] theorem State.setSreg_freeCtr (s : State) (c r : Nat) (v : Word) :
    (State.setSreg s c r v).freeCtr = s.freeCtr := freeCtr_of_off (State.setSreg_off (M := 0x10) s c r v rfl) rfl
@[simp] theorem State.setSreg_regs (s : State) (c r : Nat) (v : Word) :
    (State.setSreg s c r v).regs = s.regs := regs_of_off (State.setSreg_off (M := 0x10) s c r v rfl) rfl
@[simp] theorem State.setSreg_mem (s : State) (c r : Nat) (v : Word) :
    (State.setSreg s c r v).mem = s.mem := mem_of_off (State.setSreg_off (M := 0x10) s c r v rfl) rfl
@[simp] theorem State.setSreg_poison (s : State) (c r : Nat) (v : Word) :
    (State.setSreg s c r v).poison = s.poison := poison_of_off (State.setSreg_off (M := 0x10) s c r v rfl) rfl
@[simp] theorem State.setSreg_host (s : State) (c r : Nat) (v : Word) :
    (State.setSreg s c r v).host = s.host := host_of_off (State.setSreg_off (M := 0x10) s c r v rfl) rfl rfl rfl rfl rfl
@[simp] theorem State.setSreg_sec (s : State) (c r : Nat) (v : Word) :
    (State.setSreg s c r v).sec = s.sec := sec_of_off (State.setSreg_off (M := 0x10) s c r v rfl) rfl rfl rfl rfl
@[simp] theorem State.setSreg_ras (s : State) (c r : Nat) (v : Word) :
    (State.setSreg s c r v).ras = s.ras := ras_of_off (State.setSreg_off (M := 0x10) s c r v rfl) rfl rfl
@[simp] theorem State.setSreg_hbm (s : State) (c r : Nat) (v : Word) :
    (State.setSreg s c r v).hbm = s.hbm := hbm_of_off (State.setSreg_off (M := 0x10) s c r v rfl) rfl
@[simp] theorem State.setSreg_dir (s : State) (c r : Nat) (v : Word) :
    (State.setSreg s c r v).dir = s.dir := dir_of_off (State.setSreg_off (M := 0x10) s c r v rfl) rfl
@[simp] theorem State.setSreg_blks (s : State) (c r : Nat) (v : Word) :
    (State.setSreg s c r v).blks = s.blks := blks_of_off (State.setSreg_off (M := 0x10) s c r v rfl) rfl
@[simp] theorem State.setSreg_fab (s : State) (c r : Nat) (v : Word) :
    (State.setSreg s c r v).fab = s.fab := fab_of_off (State.setSreg_off (M := 0x10) s c r v rfl) rfl
@[simp] theorem State.setSreg_trn (s : State) (c r : Nat) (v : Word) :
    (State.setSreg s c r v).trn = s.trn := trn_of_off (State.setSreg_off (M := 0x10) s c r v rfl) rfl
@[simp] theorem State.setSreg_nol (s : State) (c r : Nat) (v : Word) :
    (State.setSreg s c r v).nol = s.nol := nol_of_off (State.setSreg_off (M := 0x10) s c r v rfl) rfl
@[simp] theorem State.setSreg_roll (s : State) (c r : Nat) (v : Word) :
    (State.setSreg s c r v).roll = s.roll := roll_of_off (State.setSreg_off (M := 0x10) s c r v rfl) rfl
@[simp] theorem State.setSreg_coll (s : State) (c r : Nat) (v : Word) :
    (State.setSreg s c r v).coll = s.coll := coll_of_off (State.setSreg_off (M := 0x10) s c r v rfl) rfl
@[simp] theorem State.setSreg_sched (s : State) (c r : Nat) (v : Word) :
    (State.setSreg s c r v).sched = s.sched := sched_of_off (State.setSreg_off (M := 0x10) s c r v rfl) rfl
@[simp] theorem State.setSreg_upd (s : State) (c r : Nat) (v : Word) :
    (State.setSreg s c r v).upd = s.upd := upd_of_off (State.setSreg_off (M := 0x10) s c r v rfl) rfl
@[simp] theorem State.setSreg_boot (s : State) (c r : Nat) (v : Word) :
    (State.setSreg s c r v).boot = s.boot := boot_of_off (State.setSreg_off (M := 0x10) s c r v rfl) rfl rfl rfl
@[simp] theorem State.setSreg_clk (s : State) (c r : Nat) (v : Word) :
    (State.setSreg s c r v).clk = s.clk := clk_of_off (State.setSreg_off (M := 0x10) s c r v rfl) rfl
@[simp] theorem State.setSreg_pwr (s : State) (c r : Nat) (v : Word) :
    (State.setSreg s c r v).pwr = s.pwr := pwr_of_off (State.setSreg_off (M := 0x10) s c r v rfl) rfl
@[simp] theorem State.coreFault_pending (s : State) (c code arr half pc : Nat) (force : Bool) :
    (State.coreFault s c code arr half pc force).pending = s.pending := pending_of_off (State.coreFault_off (M := 0x100041916) s c code arr half pc force rfl) rfl
@[simp] theorem State.coreFault_mem (s : State) (c code arr half pc : Nat) (force : Bool) :
    (State.coreFault s c code arr half pc force).mem = s.mem := mem_of_off (State.coreFault_off (M := 0x100041916) s c code arr half pc force rfl) rfl
@[simp] theorem State.coreFault_poison (s : State) (c code arr half pc : Nat) (force : Bool) :
    (State.coreFault s c code arr half pc force).poison = s.poison := poison_of_off (State.coreFault_off (M := 0x100041916) s c code arr half pc force rfl) rfl
@[simp] theorem State.coreFault_sec (s : State) (c code arr half pc : Nat) (force : Bool) :
    (State.coreFault s c code arr half pc force).sec = s.sec := sec_of_off (State.coreFault_off (M := 0x100041916) s c code arr half pc force rfl) rfl rfl rfl rfl
@[simp] theorem State.coreFault_hbm (s : State) (c code arr half pc : Nat) (force : Bool) :
    (State.coreFault s c code arr half pc force).hbm = s.hbm := hbm_of_off (State.coreFault_off (M := 0x100041916) s c code arr half pc force rfl) rfl
@[simp] theorem State.coreFault_dir (s : State) (c code arr half pc : Nat) (force : Bool) :
    (State.coreFault s c code arr half pc force).dir = s.dir := dir_of_off (State.coreFault_off (M := 0x100041916) s c code arr half pc force rfl) rfl
@[simp] theorem State.coreFault_blks (s : State) (c code arr half pc : Nat) (force : Bool) :
    (State.coreFault s c code arr half pc force).blks = s.blks := blks_of_off (State.coreFault_off (M := 0x100041916) s c code arr half pc force rfl) rfl
@[simp] theorem State.coreFault_fab (s : State) (c code arr half pc : Nat) (force : Bool) :
    (State.coreFault s c code arr half pc force).fab = s.fab := fab_of_off (State.coreFault_off (M := 0x100041916) s c code arr half pc force rfl) rfl
@[simp] theorem State.coreFault_trn (s : State) (c code arr half pc : Nat) (force : Bool) :
    (State.coreFault s c code arr half pc force).trn = s.trn := trn_of_off (State.coreFault_off (M := 0x100041916) s c code arr half pc force rfl) rfl
@[simp] theorem State.coreFault_nol (s : State) (c code arr half pc : Nat) (force : Bool) :
    (State.coreFault s c code arr half pc force).nol = s.nol := nol_of_off (State.coreFault_off (M := 0x100041916) s c code arr half pc force rfl) rfl
@[simp] theorem State.coreFault_roll (s : State) (c code arr half pc : Nat) (force : Bool) :
    (State.coreFault s c code arr half pc force).roll = s.roll := roll_of_off (State.coreFault_off (M := 0x100041916) s c code arr half pc force rfl) rfl
@[simp] theorem State.coreFault_coll (s : State) (c code arr half pc : Nat) (force : Bool) :
    (State.coreFault s c code arr half pc force).coll = s.coll := coll_of_off (State.coreFault_off (M := 0x100041916) s c code arr half pc force rfl) rfl
@[simp] theorem State.coreFault_sched (s : State) (c code arr half pc : Nat) (force : Bool) :
    (State.coreFault s c code arr half pc force).sched = s.sched := sched_of_off (State.coreFault_off (M := 0x100041916) s c code arr half pc force rfl) rfl
@[simp] theorem State.coreFault_upd (s : State) (c code arr half pc : Nat) (force : Bool) :
    (State.coreFault s c code arr half pc force).upd = s.upd := upd_of_off (State.coreFault_off (M := 0x100041916) s c code arr half pc force rfl) rfl
@[simp] theorem State.coreFault_boot (s : State) (c code arr half pc : Nat) (force : Bool) :
    (State.coreFault s c code arr half pc force).boot = s.boot := boot_of_off (State.coreFault_off (M := 0x100041916) s c code arr half pc force rfl) rfl rfl rfl
@[simp] theorem State.coreFault_clk (s : State) (c code arr half pc : Nat) (force : Bool) :
    (State.coreFault s c code arr half pc force).clk = s.clk := clk_of_off (State.coreFault_off (M := 0x100041916) s c code arr half pc force rfl) rfl
@[simp] theorem State.setCtx_pending (s : State) (n : Nat) (c : Ctx) :
    (State.setCtx s n c).pending = s.pending := pending_of_off (State.setCtx_off (M := 0x1000000) s n c rfl) rfl
@[simp] theorem State.setCtx_freeCtr (s : State) (n : Nat) (c : Ctx) :
    (State.setCtx s n c).freeCtr = s.freeCtr := freeCtr_of_off (State.setCtx_off (M := 0x1000000) s n c rfl) rfl
@[simp] theorem State.setCtx_regs (s : State) (n : Nat) (c : Ctx) :
    (State.setCtx s n c).regs = s.regs := regs_of_off (State.setCtx_off (M := 0x1000000) s n c rfl) rfl
@[simp] theorem State.setCtx_mem (s : State) (n : Nat) (c : Ctx) :
    (State.setCtx s n c).mem = s.mem := mem_of_off (State.setCtx_off (M := 0x1000000) s n c rfl) rfl
@[simp] theorem State.setCtx_poison (s : State) (n : Nat) (c : Ctx) :
    (State.setCtx s n c).poison = s.poison := poison_of_off (State.setCtx_off (M := 0x1000000) s n c rfl) rfl
@[simp] theorem State.setCtx_chip (s : State) (n : Nat) (c : Ctx) :
    (State.setCtx s n c).chip = s.chip := chip_of_off (State.setCtx_off (M := 0x1000000) s n c rfl) rfl rfl rfl rfl rfl
@[simp] theorem State.setCtx_host (s : State) (n : Nat) (c : Ctx) :
    (State.setCtx s n c).host = s.host := host_of_off (State.setCtx_off (M := 0x1000000) s n c rfl) rfl rfl rfl rfl rfl
@[simp] theorem State.setCtx_sec (s : State) (n : Nat) (c : Ctx) :
    (State.setCtx s n c).sec = s.sec := sec_of_off (State.setCtx_off (M := 0x1000000) s n c rfl) rfl rfl rfl rfl
@[simp] theorem State.setCtx_ras (s : State) (n : Nat) (c : Ctx) :
    (State.setCtx s n c).ras = s.ras := ras_of_off (State.setCtx_off (M := 0x1000000) s n c rfl) rfl rfl
@[simp] theorem State.setCtx_hbm (s : State) (n : Nat) (c : Ctx) :
    (State.setCtx s n c).hbm = s.hbm := hbm_of_off (State.setCtx_off (M := 0x1000000) s n c rfl) rfl
@[simp] theorem State.setCtx_dir (s : State) (n : Nat) (c : Ctx) :
    (State.setCtx s n c).dir = s.dir := dir_of_off (State.setCtx_off (M := 0x1000000) s n c rfl) rfl
@[simp] theorem State.setCtx_blks (s : State) (n : Nat) (c : Ctx) :
    (State.setCtx s n c).blks = s.blks := blks_of_off (State.setCtx_off (M := 0x1000000) s n c rfl) rfl
@[simp] theorem State.setCtx_fab (s : State) (n : Nat) (c : Ctx) :
    (State.setCtx s n c).fab = s.fab := fab_of_off (State.setCtx_off (M := 0x1000000) s n c rfl) rfl
@[simp] theorem State.setCtx_trn (s : State) (n : Nat) (c : Ctx) :
    (State.setCtx s n c).trn = s.trn := trn_of_off (State.setCtx_off (M := 0x1000000) s n c rfl) rfl
@[simp] theorem State.setCtx_nol (s : State) (n : Nat) (c : Ctx) :
    (State.setCtx s n c).nol = s.nol := nol_of_off (State.setCtx_off (M := 0x1000000) s n c rfl) rfl
@[simp] theorem State.setCtx_coll (s : State) (n : Nat) (c : Ctx) :
    (State.setCtx s n c).coll = s.coll := coll_of_off (State.setCtx_off (M := 0x1000000) s n c rfl) rfl
@[simp] theorem State.setCtx_sched (s : State) (n : Nat) (c : Ctx) :
    (State.setCtx s n c).sched = s.sched := sched_of_off (State.setCtx_off (M := 0x1000000) s n c rfl) rfl
@[simp] theorem State.setCtx_upd (s : State) (n : Nat) (c : Ctx) :
    (State.setCtx s n c).upd = s.upd := upd_of_off (State.setCtx_off (M := 0x1000000) s n c rfl) rfl
@[simp] theorem State.setCtx_boot (s : State) (n : Nat) (c : Ctx) :
    (State.setCtx s n c).boot = s.boot := boot_of_off (State.setCtx_off (M := 0x1000000) s n c rfl) rfl rfl rfl
@[simp] theorem State.setCtx_clk (s : State) (n : Nat) (c : Ctx) :
    (State.setCtx s n c).clk = s.clk := clk_of_off (State.setCtx_off (M := 0x1000000) s n c rfl) rfl
@[simp] theorem State.setCtx_pwr (s : State) (n : Nat) (c : Ctx) :
    (State.setCtx s n c).pwr = s.pwr := pwr_of_off (State.setCtx_off (M := 0x1000000) s n c rfl) rfl
@[simp] theorem State.setTrn_pending (s : State) (p : Nat) (t : TrnSt) :
    (State.setTrn s p t).pending = s.pending := pending_of_off (State.setTrn_off (M := 0x800000) s p t rfl) rfl
@[simp] theorem State.setTrn_freeCtr (s : State) (p : Nat) (t : TrnSt) :
    (State.setTrn s p t).freeCtr = s.freeCtr := freeCtr_of_off (State.setTrn_off (M := 0x800000) s p t rfl) rfl
@[simp] theorem State.setTrn_regs (s : State) (p : Nat) (t : TrnSt) :
    (State.setTrn s p t).regs = s.regs := regs_of_off (State.setTrn_off (M := 0x800000) s p t rfl) rfl
@[simp] theorem State.setTrn_mem (s : State) (p : Nat) (t : TrnSt) :
    (State.setTrn s p t).mem = s.mem := mem_of_off (State.setTrn_off (M := 0x800000) s p t rfl) rfl
@[simp] theorem State.setTrn_poison (s : State) (p : Nat) (t : TrnSt) :
    (State.setTrn s p t).poison = s.poison := poison_of_off (State.setTrn_off (M := 0x800000) s p t rfl) rfl
@[simp] theorem State.setTrn_chip (s : State) (p : Nat) (t : TrnSt) :
    (State.setTrn s p t).chip = s.chip := chip_of_off (State.setTrn_off (M := 0x800000) s p t rfl) rfl rfl rfl rfl rfl
@[simp] theorem State.setTrn_host (s : State) (p : Nat) (t : TrnSt) :
    (State.setTrn s p t).host = s.host := host_of_off (State.setTrn_off (M := 0x800000) s p t rfl) rfl rfl rfl rfl rfl
@[simp] theorem State.setTrn_sec (s : State) (p : Nat) (t : TrnSt) :
    (State.setTrn s p t).sec = s.sec := sec_of_off (State.setTrn_off (M := 0x800000) s p t rfl) rfl rfl rfl rfl
@[simp] theorem State.setTrn_ras (s : State) (p : Nat) (t : TrnSt) :
    (State.setTrn s p t).ras = s.ras := ras_of_off (State.setTrn_off (M := 0x800000) s p t rfl) rfl rfl
@[simp] theorem State.setTrn_hbm (s : State) (p : Nat) (t : TrnSt) :
    (State.setTrn s p t).hbm = s.hbm := hbm_of_off (State.setTrn_off (M := 0x800000) s p t rfl) rfl
@[simp] theorem State.setTrn_dir (s : State) (p : Nat) (t : TrnSt) :
    (State.setTrn s p t).dir = s.dir := dir_of_off (State.setTrn_off (M := 0x800000) s p t rfl) rfl
@[simp] theorem State.setTrn_blks (s : State) (p : Nat) (t : TrnSt) :
    (State.setTrn s p t).blks = s.blks := blks_of_off (State.setTrn_off (M := 0x800000) s p t rfl) rfl
@[simp] theorem State.setTrn_fab (s : State) (p : Nat) (t : TrnSt) :
    (State.setTrn s p t).fab = s.fab := fab_of_off (State.setTrn_off (M := 0x800000) s p t rfl) rfl
@[simp] theorem State.setTrn_nol (s : State) (p : Nat) (t : TrnSt) :
    (State.setTrn s p t).nol = s.nol := nol_of_off (State.setTrn_off (M := 0x800000) s p t rfl) rfl
@[simp] theorem State.setTrn_roll (s : State) (p : Nat) (t : TrnSt) :
    (State.setTrn s p t).roll = s.roll := roll_of_off (State.setTrn_off (M := 0x800000) s p t rfl) rfl
@[simp] theorem State.setTrn_coll (s : State) (p : Nat) (t : TrnSt) :
    (State.setTrn s p t).coll = s.coll := coll_of_off (State.setTrn_off (M := 0x800000) s p t rfl) rfl
@[simp] theorem State.setTrn_sched (s : State) (p : Nat) (t : TrnSt) :
    (State.setTrn s p t).sched = s.sched := sched_of_off (State.setTrn_off (M := 0x800000) s p t rfl) rfl
@[simp] theorem State.setTrn_upd (s : State) (p : Nat) (t : TrnSt) :
    (State.setTrn s p t).upd = s.upd := upd_of_off (State.setTrn_off (M := 0x800000) s p t rfl) rfl
@[simp] theorem State.setTrn_boot (s : State) (p : Nat) (t : TrnSt) :
    (State.setTrn s p t).boot = s.boot := boot_of_off (State.setTrn_off (M := 0x800000) s p t rfl) rfl rfl rfl
@[simp] theorem State.setTrn_clk (s : State) (p : Nat) (t : TrnSt) :
    (State.setTrn s p t).clk = s.clk := clk_of_off (State.setTrn_off (M := 0x800000) s p t rfl) rfl
@[simp] theorem State.setTrn_pwr (s : State) (p : Nat) (t : TrnSt) :
    (State.setTrn s p t).pwr = s.pwr := pwr_of_off (State.setTrn_off (M := 0x800000) s p t rfl) rfl
@[simp] theorem State.setStk_pending (s : State) (k : Nat) (h : HbmSt) :
    (State.setStk s k h).pending = s.pending := pending_of_off (State.setStk_off (M := 0x100000) s k h rfl) rfl
@[simp] theorem State.setStk_freeCtr (s : State) (k : Nat) (h : HbmSt) :
    (State.setStk s k h).freeCtr = s.freeCtr := freeCtr_of_off (State.setStk_off (M := 0x100000) s k h rfl) rfl
@[simp] theorem State.setStk_regs (s : State) (k : Nat) (h : HbmSt) :
    (State.setStk s k h).regs = s.regs := regs_of_off (State.setStk_off (M := 0x100000) s k h rfl) rfl
@[simp] theorem State.setStk_mem (s : State) (k : Nat) (h : HbmSt) :
    (State.setStk s k h).mem = s.mem := mem_of_off (State.setStk_off (M := 0x100000) s k h rfl) rfl
@[simp] theorem State.setStk_poison (s : State) (k : Nat) (h : HbmSt) :
    (State.setStk s k h).poison = s.poison := poison_of_off (State.setStk_off (M := 0x100000) s k h rfl) rfl
@[simp] theorem State.setStk_chip (s : State) (k : Nat) (h : HbmSt) :
    (State.setStk s k h).chip = s.chip := chip_of_off (State.setStk_off (M := 0x100000) s k h rfl) rfl rfl rfl rfl rfl
@[simp] theorem State.setStk_host (s : State) (k : Nat) (h : HbmSt) :
    (State.setStk s k h).host = s.host := host_of_off (State.setStk_off (M := 0x100000) s k h rfl) rfl rfl rfl rfl rfl
@[simp] theorem State.setStk_sec (s : State) (k : Nat) (h : HbmSt) :
    (State.setStk s k h).sec = s.sec := sec_of_off (State.setStk_off (M := 0x100000) s k h rfl) rfl rfl rfl rfl
@[simp] theorem State.setStk_ras (s : State) (k : Nat) (h : HbmSt) :
    (State.setStk s k h).ras = s.ras := ras_of_off (State.setStk_off (M := 0x100000) s k h rfl) rfl rfl
@[simp] theorem State.setStk_dir (s : State) (k : Nat) (h : HbmSt) :
    (State.setStk s k h).dir = s.dir := dir_of_off (State.setStk_off (M := 0x100000) s k h rfl) rfl
@[simp] theorem State.setStk_blks (s : State) (k : Nat) (h : HbmSt) :
    (State.setStk s k h).blks = s.blks := blks_of_off (State.setStk_off (M := 0x100000) s k h rfl) rfl
@[simp] theorem State.setStk_fab (s : State) (k : Nat) (h : HbmSt) :
    (State.setStk s k h).fab = s.fab := fab_of_off (State.setStk_off (M := 0x100000) s k h rfl) rfl
@[simp] theorem State.setStk_trn (s : State) (k : Nat) (h : HbmSt) :
    (State.setStk s k h).trn = s.trn := trn_of_off (State.setStk_off (M := 0x100000) s k h rfl) rfl
@[simp] theorem State.setStk_nol (s : State) (k : Nat) (h : HbmSt) :
    (State.setStk s k h).nol = s.nol := nol_of_off (State.setStk_off (M := 0x100000) s k h rfl) rfl
@[simp] theorem State.setStk_roll (s : State) (k : Nat) (h : HbmSt) :
    (State.setStk s k h).roll = s.roll := roll_of_off (State.setStk_off (M := 0x100000) s k h rfl) rfl
@[simp] theorem State.setStk_coll (s : State) (k : Nat) (h : HbmSt) :
    (State.setStk s k h).coll = s.coll := coll_of_off (State.setStk_off (M := 0x100000) s k h rfl) rfl
@[simp] theorem State.setStk_sched (s : State) (k : Nat) (h : HbmSt) :
    (State.setStk s k h).sched = s.sched := sched_of_off (State.setStk_off (M := 0x100000) s k h rfl) rfl
@[simp] theorem State.setStk_upd (s : State) (k : Nat) (h : HbmSt) :
    (State.setStk s k h).upd = s.upd := upd_of_off (State.setStk_off (M := 0x100000) s k h rfl) rfl
@[simp] theorem State.setStk_boot (s : State) (k : Nat) (h : HbmSt) :
    (State.setStk s k h).boot = s.boot := boot_of_off (State.setStk_off (M := 0x100000) s k h rfl) rfl rfl rfl
@[simp] theorem State.setStk_clk (s : State) (k : Nat) (h : HbmSt) :
    (State.setStk s k h).clk = s.clk := clk_of_off (State.setStk_off (M := 0x100000) s k h rfl) rfl
@[simp] theorem State.setStk_pwr (s : State) (k : Nat) (h : HbmSt) :
    (State.setStk s k h).pwr = s.pwr := pwr_of_off (State.setStk_off (M := 0x100000) s k h rfl) rfl
@[simp] theorem State.setSeg_pending (s : State) (i : Nat) (x : SegSt) :
    (State.setSeg s i x).pending = s.pending := pending_of_off (State.setSeg_off (M := 0x80) s i x rfl) rfl
@[simp] theorem State.setSeg_freeCtr (s : State) (i : Nat) (x : SegSt) :
    (State.setSeg s i x).freeCtr = s.freeCtr := freeCtr_of_off (State.setSeg_off (M := 0x80) s i x rfl) rfl
@[simp] theorem State.setSeg_regs (s : State) (i : Nat) (x : SegSt) :
    (State.setSeg s i x).regs = s.regs := regs_of_off (State.setSeg_off (M := 0x80) s i x rfl) rfl
@[simp] theorem State.setSeg_mem (s : State) (i : Nat) (x : SegSt) :
    (State.setSeg s i x).mem = s.mem := mem_of_off (State.setSeg_off (M := 0x80) s i x rfl) rfl
@[simp] theorem State.setSeg_poison (s : State) (i : Nat) (x : SegSt) :
    (State.setSeg s i x).poison = s.poison := poison_of_off (State.setSeg_off (M := 0x80) s i x rfl) rfl
@[simp] theorem State.setSeg_host (s : State) (i : Nat) (x : SegSt) :
    (State.setSeg s i x).host = s.host := host_of_off (State.setSeg_off (M := 0x80) s i x rfl) rfl rfl rfl rfl rfl
@[simp] theorem State.setSeg_sec (s : State) (i : Nat) (x : SegSt) :
    (State.setSeg s i x).sec = s.sec := sec_of_off (State.setSeg_off (M := 0x80) s i x rfl) rfl rfl rfl rfl
@[simp] theorem State.setSeg_ras (s : State) (i : Nat) (x : SegSt) :
    (State.setSeg s i x).ras = s.ras := ras_of_off (State.setSeg_off (M := 0x80) s i x rfl) rfl rfl
@[simp] theorem State.setSeg_hbm (s : State) (i : Nat) (x : SegSt) :
    (State.setSeg s i x).hbm = s.hbm := hbm_of_off (State.setSeg_off (M := 0x80) s i x rfl) rfl
@[simp] theorem State.setSeg_dir (s : State) (i : Nat) (x : SegSt) :
    (State.setSeg s i x).dir = s.dir := dir_of_off (State.setSeg_off (M := 0x80) s i x rfl) rfl
@[simp] theorem State.setSeg_blks (s : State) (i : Nat) (x : SegSt) :
    (State.setSeg s i x).blks = s.blks := blks_of_off (State.setSeg_off (M := 0x80) s i x rfl) rfl
@[simp] theorem State.setSeg_fab (s : State) (i : Nat) (x : SegSt) :
    (State.setSeg s i x).fab = s.fab := fab_of_off (State.setSeg_off (M := 0x80) s i x rfl) rfl
@[simp] theorem State.setSeg_trn (s : State) (i : Nat) (x : SegSt) :
    (State.setSeg s i x).trn = s.trn := trn_of_off (State.setSeg_off (M := 0x80) s i x rfl) rfl
@[simp] theorem State.setSeg_nol (s : State) (i : Nat) (x : SegSt) :
    (State.setSeg s i x).nol = s.nol := nol_of_off (State.setSeg_off (M := 0x80) s i x rfl) rfl
@[simp] theorem State.setSeg_roll (s : State) (i : Nat) (x : SegSt) :
    (State.setSeg s i x).roll = s.roll := roll_of_off (State.setSeg_off (M := 0x80) s i x rfl) rfl
@[simp] theorem State.setSeg_coll (s : State) (i : Nat) (x : SegSt) :
    (State.setSeg s i x).coll = s.coll := coll_of_off (State.setSeg_off (M := 0x80) s i x rfl) rfl
@[simp] theorem State.setSeg_sched (s : State) (i : Nat) (x : SegSt) :
    (State.setSeg s i x).sched = s.sched := sched_of_off (State.setSeg_off (M := 0x80) s i x rfl) rfl
@[simp] theorem State.setSeg_upd (s : State) (i : Nat) (x : SegSt) :
    (State.setSeg s i x).upd = s.upd := upd_of_off (State.setSeg_off (M := 0x80) s i x rfl) rfl
@[simp] theorem State.setSeg_boot (s : State) (i : Nat) (x : SegSt) :
    (State.setSeg s i x).boot = s.boot := boot_of_off (State.setSeg_off (M := 0x80) s i x rfl) rfl rfl rfl
@[simp] theorem State.setSeg_clk (s : State) (i : Nat) (x : SegSt) :
    (State.setSeg s i x).clk = s.clk := clk_of_off (State.setSeg_off (M := 0x80) s i x rfl) rfl
@[simp] theorem State.setSeg_pwr (s : State) (i : Nat) (x : SegSt) :
    (State.setSeg s i x).pwr = s.pwr := pwr_of_off (State.setSeg_off (M := 0x80) s i x rfl) rfl
@[simp] theorem State.setUpd_pending (s : State) (p : Nat) (u : UpdSt) :
    (State.setUpd s p u).pending = s.pending := pending_of_off (State.setUpd_off (M := 0x8000000) s p u rfl) rfl
@[simp] theorem State.setUpd_freeCtr (s : State) (p : Nat) (u : UpdSt) :
    (State.setUpd s p u).freeCtr = s.freeCtr := freeCtr_of_off (State.setUpd_off (M := 0x8000000) s p u rfl) rfl
@[simp] theorem State.setUpd_regs (s : State) (p : Nat) (u : UpdSt) :
    (State.setUpd s p u).regs = s.regs := regs_of_off (State.setUpd_off (M := 0x8000000) s p u rfl) rfl
@[simp] theorem State.setUpd_mem (s : State) (p : Nat) (u : UpdSt) :
    (State.setUpd s p u).mem = s.mem := mem_of_off (State.setUpd_off (M := 0x8000000) s p u rfl) rfl
@[simp] theorem State.setUpd_poison (s : State) (p : Nat) (u : UpdSt) :
    (State.setUpd s p u).poison = s.poison := poison_of_off (State.setUpd_off (M := 0x8000000) s p u rfl) rfl
@[simp] theorem State.setUpd_chip (s : State) (p : Nat) (u : UpdSt) :
    (State.setUpd s p u).chip = s.chip := chip_of_off (State.setUpd_off (M := 0x8000000) s p u rfl) rfl rfl rfl rfl rfl
@[simp] theorem State.setUpd_host (s : State) (p : Nat) (u : UpdSt) :
    (State.setUpd s p u).host = s.host := host_of_off (State.setUpd_off (M := 0x8000000) s p u rfl) rfl rfl rfl rfl rfl
@[simp] theorem State.setUpd_sec (s : State) (p : Nat) (u : UpdSt) :
    (State.setUpd s p u).sec = s.sec := sec_of_off (State.setUpd_off (M := 0x8000000) s p u rfl) rfl rfl rfl rfl
@[simp] theorem State.setUpd_ras (s : State) (p : Nat) (u : UpdSt) :
    (State.setUpd s p u).ras = s.ras := ras_of_off (State.setUpd_off (M := 0x8000000) s p u rfl) rfl rfl
@[simp] theorem State.setUpd_hbm (s : State) (p : Nat) (u : UpdSt) :
    (State.setUpd s p u).hbm = s.hbm := hbm_of_off (State.setUpd_off (M := 0x8000000) s p u rfl) rfl
@[simp] theorem State.setUpd_dir (s : State) (p : Nat) (u : UpdSt) :
    (State.setUpd s p u).dir = s.dir := dir_of_off (State.setUpd_off (M := 0x8000000) s p u rfl) rfl
@[simp] theorem State.setUpd_blks (s : State) (p : Nat) (u : UpdSt) :
    (State.setUpd s p u).blks = s.blks := blks_of_off (State.setUpd_off (M := 0x8000000) s p u rfl) rfl
@[simp] theorem State.setUpd_fab (s : State) (p : Nat) (u : UpdSt) :
    (State.setUpd s p u).fab = s.fab := fab_of_off (State.setUpd_off (M := 0x8000000) s p u rfl) rfl
@[simp] theorem State.setUpd_trn (s : State) (p : Nat) (u : UpdSt) :
    (State.setUpd s p u).trn = s.trn := trn_of_off (State.setUpd_off (M := 0x8000000) s p u rfl) rfl
@[simp] theorem State.setUpd_nol (s : State) (p : Nat) (u : UpdSt) :
    (State.setUpd s p u).nol = s.nol := nol_of_off (State.setUpd_off (M := 0x8000000) s p u rfl) rfl
@[simp] theorem State.setUpd_roll (s : State) (p : Nat) (u : UpdSt) :
    (State.setUpd s p u).roll = s.roll := roll_of_off (State.setUpd_off (M := 0x8000000) s p u rfl) rfl
@[simp] theorem State.setUpd_coll (s : State) (p : Nat) (u : UpdSt) :
    (State.setUpd s p u).coll = s.coll := coll_of_off (State.setUpd_off (M := 0x8000000) s p u rfl) rfl
@[simp] theorem State.setUpd_sched (s : State) (p : Nat) (u : UpdSt) :
    (State.setUpd s p u).sched = s.sched := sched_of_off (State.setUpd_off (M := 0x8000000) s p u rfl) rfl
@[simp] theorem State.setUpd_boot (s : State) (p : Nat) (u : UpdSt) :
    (State.setUpd s p u).boot = s.boot := boot_of_off (State.setUpd_off (M := 0x8000000) s p u rfl) rfl rfl rfl
@[simp] theorem State.setUpd_clk (s : State) (p : Nat) (u : UpdSt) :
    (State.setUpd s p u).clk = s.clk := clk_of_off (State.setUpd_off (M := 0x8000000) s p u rfl) rfl
@[simp] theorem State.setUpd_pwr (s : State) (p : Nat) (u : UpdSt) :
    (State.setUpd s p u).pwr = s.pwr := pwr_of_off (State.setUpd_off (M := 0x8000000) s p u rfl) rfl
@[simp] theorem State.setPort_pending (s : State) (p : Nat) (x : PortSt) :
    (State.setPort s p x).pending = s.pending := pending_of_off (State.setPort_off (M := 0x400000) s p x rfl) rfl
@[simp] theorem State.setPort_freeCtr (s : State) (p : Nat) (x : PortSt) :
    (State.setPort s p x).freeCtr = s.freeCtr := freeCtr_of_off (State.setPort_off (M := 0x400000) s p x rfl) rfl
@[simp] theorem State.setPort_regs (s : State) (p : Nat) (x : PortSt) :
    (State.setPort s p x).regs = s.regs := regs_of_off (State.setPort_off (M := 0x400000) s p x rfl) rfl
@[simp] theorem State.setPort_mem (s : State) (p : Nat) (x : PortSt) :
    (State.setPort s p x).mem = s.mem := mem_of_off (State.setPort_off (M := 0x400000) s p x rfl) rfl
@[simp] theorem State.setPort_poison (s : State) (p : Nat) (x : PortSt) :
    (State.setPort s p x).poison = s.poison := poison_of_off (State.setPort_off (M := 0x400000) s p x rfl) rfl
@[simp] theorem State.setPort_chip (s : State) (p : Nat) (x : PortSt) :
    (State.setPort s p x).chip = s.chip := chip_of_off (State.setPort_off (M := 0x400000) s p x rfl) rfl rfl rfl rfl rfl
@[simp] theorem State.setPort_host (s : State) (p : Nat) (x : PortSt) :
    (State.setPort s p x).host = s.host := host_of_off (State.setPort_off (M := 0x400000) s p x rfl) rfl rfl rfl rfl rfl
@[simp] theorem State.setPort_sec (s : State) (p : Nat) (x : PortSt) :
    (State.setPort s p x).sec = s.sec := sec_of_off (State.setPort_off (M := 0x400000) s p x rfl) rfl rfl rfl rfl
@[simp] theorem State.setPort_ras (s : State) (p : Nat) (x : PortSt) :
    (State.setPort s p x).ras = s.ras := ras_of_off (State.setPort_off (M := 0x400000) s p x rfl) rfl rfl
@[simp] theorem State.setPort_hbm (s : State) (p : Nat) (x : PortSt) :
    (State.setPort s p x).hbm = s.hbm := hbm_of_off (State.setPort_off (M := 0x400000) s p x rfl) rfl
@[simp] theorem State.setPort_dir (s : State) (p : Nat) (x : PortSt) :
    (State.setPort s p x).dir = s.dir := dir_of_off (State.setPort_off (M := 0x400000) s p x rfl) rfl
@[simp] theorem State.setPort_blks (s : State) (p : Nat) (x : PortSt) :
    (State.setPort s p x).blks = s.blks := blks_of_off (State.setPort_off (M := 0x400000) s p x rfl) rfl
@[simp] theorem State.setPort_trn (s : State) (p : Nat) (x : PortSt) :
    (State.setPort s p x).trn = s.trn := trn_of_off (State.setPort_off (M := 0x400000) s p x rfl) rfl
@[simp] theorem State.setPort_nol (s : State) (p : Nat) (x : PortSt) :
    (State.setPort s p x).nol = s.nol := nol_of_off (State.setPort_off (M := 0x400000) s p x rfl) rfl
@[simp] theorem State.setPort_roll (s : State) (p : Nat) (x : PortSt) :
    (State.setPort s p x).roll = s.roll := roll_of_off (State.setPort_off (M := 0x400000) s p x rfl) rfl
@[simp] theorem State.setPort_coll (s : State) (p : Nat) (x : PortSt) :
    (State.setPort s p x).coll = s.coll := coll_of_off (State.setPort_off (M := 0x400000) s p x rfl) rfl
@[simp] theorem State.setPort_sched (s : State) (p : Nat) (x : PortSt) :
    (State.setPort s p x).sched = s.sched := sched_of_off (State.setPort_off (M := 0x400000) s p x rfl) rfl
@[simp] theorem State.setPort_upd (s : State) (p : Nat) (x : PortSt) :
    (State.setPort s p x).upd = s.upd := upd_of_off (State.setPort_off (M := 0x400000) s p x rfl) rfl
@[simp] theorem State.setPort_boot (s : State) (p : Nat) (x : PortSt) :
    (State.setPort s p x).boot = s.boot := boot_of_off (State.setPort_off (M := 0x400000) s p x rfl) rfl rfl rfl
@[simp] theorem State.setPort_clk (s : State) (p : Nat) (x : PortSt) :
    (State.setPort s p x).clk = s.clk := clk_of_off (State.setPort_off (M := 0x400000) s p x rfl) rfl
@[simp] theorem State.setPort_pwr (s : State) (p : Nat) (x : PortSt) :
    (State.setPort s p x).pwr = s.pwr := pwr_of_off (State.setPort_off (M := 0x400000) s p x rfl) rfl
@[simp] theorem State.putObj_pending (s : State) (i : Nat) (o : Option Obj) :
    (State.putObj s i o).pending = s.pending := pending_of_off (State.putObj_off (M := 0x200000) s i o rfl) rfl
@[simp] theorem State.putObj_freeCtr (s : State) (i : Nat) (o : Option Obj) :
    (State.putObj s i o).freeCtr = s.freeCtr := freeCtr_of_off (State.putObj_off (M := 0x200000) s i o rfl) rfl
@[simp] theorem State.putObj_regs (s : State) (i : Nat) (o : Option Obj) :
    (State.putObj s i o).regs = s.regs := regs_of_off (State.putObj_off (M := 0x200000) s i o rfl) rfl
@[simp] theorem State.putObj_mem (s : State) (i : Nat) (o : Option Obj) :
    (State.putObj s i o).mem = s.mem := mem_of_off (State.putObj_off (M := 0x200000) s i o rfl) rfl
@[simp] theorem State.putObj_poison (s : State) (i : Nat) (o : Option Obj) :
    (State.putObj s i o).poison = s.poison := poison_of_off (State.putObj_off (M := 0x200000) s i o rfl) rfl
@[simp] theorem State.putObj_chip (s : State) (i : Nat) (o : Option Obj) :
    (State.putObj s i o).chip = s.chip := chip_of_off (State.putObj_off (M := 0x200000) s i o rfl) rfl rfl rfl rfl rfl
@[simp] theorem State.putObj_host (s : State) (i : Nat) (o : Option Obj) :
    (State.putObj s i o).host = s.host := host_of_off (State.putObj_off (M := 0x200000) s i o rfl) rfl rfl rfl rfl rfl
@[simp] theorem State.putObj_sec (s : State) (i : Nat) (o : Option Obj) :
    (State.putObj s i o).sec = s.sec := sec_of_off (State.putObj_off (M := 0x200000) s i o rfl) rfl rfl rfl rfl
@[simp] theorem State.putObj_ras (s : State) (i : Nat) (o : Option Obj) :
    (State.putObj s i o).ras = s.ras := ras_of_off (State.putObj_off (M := 0x200000) s i o rfl) rfl rfl
@[simp] theorem State.putObj_hbm (s : State) (i : Nat) (o : Option Obj) :
    (State.putObj s i o).hbm = s.hbm := hbm_of_off (State.putObj_off (M := 0x200000) s i o rfl) rfl
@[simp] theorem State.putObj_fab (s : State) (i : Nat) (o : Option Obj) :
    (State.putObj s i o).fab = s.fab := fab_of_off (State.putObj_off (M := 0x200000) s i o rfl) rfl
@[simp] theorem State.putObj_trn (s : State) (i : Nat) (o : Option Obj) :
    (State.putObj s i o).trn = s.trn := trn_of_off (State.putObj_off (M := 0x200000) s i o rfl) rfl
@[simp] theorem State.putObj_roll (s : State) (i : Nat) (o : Option Obj) :
    (State.putObj s i o).roll = s.roll := roll_of_off (State.putObj_off (M := 0x200000) s i o rfl) rfl
@[simp] theorem State.putObj_coll (s : State) (i : Nat) (o : Option Obj) :
    (State.putObj s i o).coll = s.coll := coll_of_off (State.putObj_off (M := 0x200000) s i o rfl) rfl
@[simp] theorem State.putObj_sched (s : State) (i : Nat) (o : Option Obj) :
    (State.putObj s i o).sched = s.sched := sched_of_off (State.putObj_off (M := 0x200000) s i o rfl) rfl
@[simp] theorem State.putObj_upd (s : State) (i : Nat) (o : Option Obj) :
    (State.putObj s i o).upd = s.upd := upd_of_off (State.putObj_off (M := 0x200000) s i o rfl) rfl
@[simp] theorem State.putObj_boot (s : State) (i : Nat) (o : Option Obj) :
    (State.putObj s i o).boot = s.boot := boot_of_off (State.putObj_off (M := 0x200000) s i o rfl) rfl rfl rfl
@[simp] theorem State.putObj_clk (s : State) (i : Nat) (o : Option Obj) :
    (State.putObj s i o).clk = s.clk := clk_of_off (State.putObj_off (M := 0x200000) s i o rfl) rfl
@[simp] theorem State.putObj_pwr (s : State) (i : Nat) (o : Option Obj) :
    (State.putObj s i o).pwr = s.pwr := pwr_of_off (State.putObj_off (M := 0x200000) s i o rfl) rfl
@[simp] theorem State.modRoll_pending (s : State) (f : RollSt → RollSt) :
    (State.modRoll s f).pending = s.pending := pending_of_off (State.modRoll_off (M := 0x1000000) s f rfl) rfl
@[simp] theorem State.modRoll_freeCtr (s : State) (f : RollSt → RollSt) :
    (State.modRoll s f).freeCtr = s.freeCtr := freeCtr_of_off (State.modRoll_off (M := 0x1000000) s f rfl) rfl
@[simp] theorem State.modRoll_regs (s : State) (f : RollSt → RollSt) :
    (State.modRoll s f).regs = s.regs := regs_of_off (State.modRoll_off (M := 0x1000000) s f rfl) rfl
@[simp] theorem State.modRoll_mem (s : State) (f : RollSt → RollSt) :
    (State.modRoll s f).mem = s.mem := mem_of_off (State.modRoll_off (M := 0x1000000) s f rfl) rfl
@[simp] theorem State.modRoll_poison (s : State) (f : RollSt → RollSt) :
    (State.modRoll s f).poison = s.poison := poison_of_off (State.modRoll_off (M := 0x1000000) s f rfl) rfl
@[simp] theorem State.modRoll_chip (s : State) (f : RollSt → RollSt) :
    (State.modRoll s f).chip = s.chip := chip_of_off (State.modRoll_off (M := 0x1000000) s f rfl) rfl rfl rfl rfl rfl
@[simp] theorem State.modRoll_host (s : State) (f : RollSt → RollSt) :
    (State.modRoll s f).host = s.host := host_of_off (State.modRoll_off (M := 0x1000000) s f rfl) rfl rfl rfl rfl rfl
@[simp] theorem State.modRoll_sec (s : State) (f : RollSt → RollSt) :
    (State.modRoll s f).sec = s.sec := sec_of_off (State.modRoll_off (M := 0x1000000) s f rfl) rfl rfl rfl rfl
@[simp] theorem State.modRoll_ras (s : State) (f : RollSt → RollSt) :
    (State.modRoll s f).ras = s.ras := ras_of_off (State.modRoll_off (M := 0x1000000) s f rfl) rfl rfl
@[simp] theorem State.modRoll_hbm (s : State) (f : RollSt → RollSt) :
    (State.modRoll s f).hbm = s.hbm := hbm_of_off (State.modRoll_off (M := 0x1000000) s f rfl) rfl
@[simp] theorem State.modRoll_dir (s : State) (f : RollSt → RollSt) :
    (State.modRoll s f).dir = s.dir := dir_of_off (State.modRoll_off (M := 0x1000000) s f rfl) rfl
@[simp] theorem State.modRoll_blks (s : State) (f : RollSt → RollSt) :
    (State.modRoll s f).blks = s.blks := blks_of_off (State.modRoll_off (M := 0x1000000) s f rfl) rfl
@[simp] theorem State.modRoll_fab (s : State) (f : RollSt → RollSt) :
    (State.modRoll s f).fab = s.fab := fab_of_off (State.modRoll_off (M := 0x1000000) s f rfl) rfl
@[simp] theorem State.modRoll_trn (s : State) (f : RollSt → RollSt) :
    (State.modRoll s f).trn = s.trn := trn_of_off (State.modRoll_off (M := 0x1000000) s f rfl) rfl
@[simp] theorem State.modRoll_nol (s : State) (f : RollSt → RollSt) :
    (State.modRoll s f).nol = s.nol := nol_of_off (State.modRoll_off (M := 0x1000000) s f rfl) rfl
@[simp] theorem State.modRoll_coll (s : State) (f : RollSt → RollSt) :
    (State.modRoll s f).coll = s.coll := coll_of_off (State.modRoll_off (M := 0x1000000) s f rfl) rfl
@[simp] theorem State.modRoll_sched (s : State) (f : RollSt → RollSt) :
    (State.modRoll s f).sched = s.sched := sched_of_off (State.modRoll_off (M := 0x1000000) s f rfl) rfl
@[simp] theorem State.modRoll_upd (s : State) (f : RollSt → RollSt) :
    (State.modRoll s f).upd = s.upd := upd_of_off (State.modRoll_off (M := 0x1000000) s f rfl) rfl
@[simp] theorem State.modRoll_boot (s : State) (f : RollSt → RollSt) :
    (State.modRoll s f).boot = s.boot := boot_of_off (State.modRoll_off (M := 0x1000000) s f rfl) rfl rfl rfl
@[simp] theorem State.modRoll_clk (s : State) (f : RollSt → RollSt) :
    (State.modRoll s f).clk = s.clk := clk_of_off (State.modRoll_off (M := 0x1000000) s f rfl) rfl
@[simp] theorem State.modRoll_pwr (s : State) (f : RollSt → RollSt) :
    (State.modRoll s f).pwr = s.pwr := pwr_of_off (State.modRoll_off (M := 0x1000000) s f rfl) rfl
@[simp] theorem State.modEng_pending (s : State) (f : CollEng → CollEng) :
    (State.modEng s f).pending = s.pending := pending_of_off (State.modEng_off (M := 0x2000000) s f rfl) rfl
@[simp] theorem State.modEng_freeCtr (s : State) (f : CollEng → CollEng) :
    (State.modEng s f).freeCtr = s.freeCtr := freeCtr_of_off (State.modEng_off (M := 0x2000000) s f rfl) rfl
@[simp] theorem State.modEng_regs (s : State) (f : CollEng → CollEng) :
    (State.modEng s f).regs = s.regs := regs_of_off (State.modEng_off (M := 0x2000000) s f rfl) rfl
@[simp] theorem State.modEng_mem (s : State) (f : CollEng → CollEng) :
    (State.modEng s f).mem = s.mem := mem_of_off (State.modEng_off (M := 0x2000000) s f rfl) rfl
@[simp] theorem State.modEng_poison (s : State) (f : CollEng → CollEng) :
    (State.modEng s f).poison = s.poison := poison_of_off (State.modEng_off (M := 0x2000000) s f rfl) rfl
@[simp] theorem State.modEng_chip (s : State) (f : CollEng → CollEng) :
    (State.modEng s f).chip = s.chip := chip_of_off (State.modEng_off (M := 0x2000000) s f rfl) rfl rfl rfl rfl rfl
@[simp] theorem State.modEng_host (s : State) (f : CollEng → CollEng) :
    (State.modEng s f).host = s.host := host_of_off (State.modEng_off (M := 0x2000000) s f rfl) rfl rfl rfl rfl rfl
@[simp] theorem State.modEng_sec (s : State) (f : CollEng → CollEng) :
    (State.modEng s f).sec = s.sec := sec_of_off (State.modEng_off (M := 0x2000000) s f rfl) rfl rfl rfl rfl
@[simp] theorem State.modEng_ras (s : State) (f : CollEng → CollEng) :
    (State.modEng s f).ras = s.ras := ras_of_off (State.modEng_off (M := 0x2000000) s f rfl) rfl rfl
@[simp] theorem State.modEng_hbm (s : State) (f : CollEng → CollEng) :
    (State.modEng s f).hbm = s.hbm := hbm_of_off (State.modEng_off (M := 0x2000000) s f rfl) rfl
@[simp] theorem State.modEng_dir (s : State) (f : CollEng → CollEng) :
    (State.modEng s f).dir = s.dir := dir_of_off (State.modEng_off (M := 0x2000000) s f rfl) rfl
@[simp] theorem State.modEng_blks (s : State) (f : CollEng → CollEng) :
    (State.modEng s f).blks = s.blks := blks_of_off (State.modEng_off (M := 0x2000000) s f rfl) rfl
@[simp] theorem State.modEng_fab (s : State) (f : CollEng → CollEng) :
    (State.modEng s f).fab = s.fab := fab_of_off (State.modEng_off (M := 0x2000000) s f rfl) rfl
@[simp] theorem State.modEng_trn (s : State) (f : CollEng → CollEng) :
    (State.modEng s f).trn = s.trn := trn_of_off (State.modEng_off (M := 0x2000000) s f rfl) rfl
@[simp] theorem State.modEng_nol (s : State) (f : CollEng → CollEng) :
    (State.modEng s f).nol = s.nol := nol_of_off (State.modEng_off (M := 0x2000000) s f rfl) rfl
@[simp] theorem State.modEng_roll (s : State) (f : CollEng → CollEng) :
    (State.modEng s f).roll = s.roll := roll_of_off (State.modEng_off (M := 0x2000000) s f rfl) rfl
@[simp] theorem State.modEng_sched (s : State) (f : CollEng → CollEng) :
    (State.modEng s f).sched = s.sched := sched_of_off (State.modEng_off (M := 0x2000000) s f rfl) rfl
@[simp] theorem State.modEng_upd (s : State) (f : CollEng → CollEng) :
    (State.modEng s f).upd = s.upd := upd_of_off (State.modEng_off (M := 0x2000000) s f rfl) rfl
@[simp] theorem State.modEng_boot (s : State) (f : CollEng → CollEng) :
    (State.modEng s f).boot = s.boot := boot_of_off (State.modEng_off (M := 0x2000000) s f rfl) rfl rfl rfl
@[simp] theorem State.modEng_clk (s : State) (f : CollEng → CollEng) :
    (State.modEng s f).clk = s.clk := clk_of_off (State.modEng_off (M := 0x2000000) s f rfl) rfl
@[simp] theorem State.modEng_pwr (s : State) (f : CollEng → CollEng) :
    (State.modEng s f).pwr = s.pwr := pwr_of_off (State.modEng_off (M := 0x2000000) s f rfl) rfl
@[simp] theorem State.modSched_pending (s : State) (f : SchedSt → SchedSt) :
    (State.modSched s f).pending = s.pending := pending_of_off (State.modSched_off (M := 0x4000000) s f rfl) rfl
@[simp] theorem State.modSched_freeCtr (s : State) (f : SchedSt → SchedSt) :
    (State.modSched s f).freeCtr = s.freeCtr := freeCtr_of_off (State.modSched_off (M := 0x4000000) s f rfl) rfl
@[simp] theorem State.modSched_regs (s : State) (f : SchedSt → SchedSt) :
    (State.modSched s f).regs = s.regs := regs_of_off (State.modSched_off (M := 0x4000000) s f rfl) rfl
@[simp] theorem State.modSched_mem (s : State) (f : SchedSt → SchedSt) :
    (State.modSched s f).mem = s.mem := mem_of_off (State.modSched_off (M := 0x4000000) s f rfl) rfl
@[simp] theorem State.modSched_poison (s : State) (f : SchedSt → SchedSt) :
    (State.modSched s f).poison = s.poison := poison_of_off (State.modSched_off (M := 0x4000000) s f rfl) rfl
@[simp] theorem State.modSched_chip (s : State) (f : SchedSt → SchedSt) :
    (State.modSched s f).chip = s.chip := chip_of_off (State.modSched_off (M := 0x4000000) s f rfl) rfl rfl rfl rfl rfl
@[simp] theorem State.modSched_host (s : State) (f : SchedSt → SchedSt) :
    (State.modSched s f).host = s.host := host_of_off (State.modSched_off (M := 0x4000000) s f rfl) rfl rfl rfl rfl rfl
@[simp] theorem State.modSched_sec (s : State) (f : SchedSt → SchedSt) :
    (State.modSched s f).sec = s.sec := sec_of_off (State.modSched_off (M := 0x4000000) s f rfl) rfl rfl rfl rfl
@[simp] theorem State.modSched_ras (s : State) (f : SchedSt → SchedSt) :
    (State.modSched s f).ras = s.ras := ras_of_off (State.modSched_off (M := 0x4000000) s f rfl) rfl rfl
@[simp] theorem State.modSched_hbm (s : State) (f : SchedSt → SchedSt) :
    (State.modSched s f).hbm = s.hbm := hbm_of_off (State.modSched_off (M := 0x4000000) s f rfl) rfl
@[simp] theorem State.modSched_dir (s : State) (f : SchedSt → SchedSt) :
    (State.modSched s f).dir = s.dir := dir_of_off (State.modSched_off (M := 0x4000000) s f rfl) rfl
@[simp] theorem State.modSched_blks (s : State) (f : SchedSt → SchedSt) :
    (State.modSched s f).blks = s.blks := blks_of_off (State.modSched_off (M := 0x4000000) s f rfl) rfl
@[simp] theorem State.modSched_fab (s : State) (f : SchedSt → SchedSt) :
    (State.modSched s f).fab = s.fab := fab_of_off (State.modSched_off (M := 0x4000000) s f rfl) rfl
@[simp] theorem State.modSched_trn (s : State) (f : SchedSt → SchedSt) :
    (State.modSched s f).trn = s.trn := trn_of_off (State.modSched_off (M := 0x4000000) s f rfl) rfl
@[simp] theorem State.modSched_nol (s : State) (f : SchedSt → SchedSt) :
    (State.modSched s f).nol = s.nol := nol_of_off (State.modSched_off (M := 0x4000000) s f rfl) rfl
@[simp] theorem State.modSched_roll (s : State) (f : SchedSt → SchedSt) :
    (State.modSched s f).roll = s.roll := roll_of_off (State.modSched_off (M := 0x4000000) s f rfl) rfl
@[simp] theorem State.modSched_coll (s : State) (f : SchedSt → SchedSt) :
    (State.modSched s f).coll = s.coll := coll_of_off (State.modSched_off (M := 0x4000000) s f rfl) rfl
@[simp] theorem State.modSched_upd (s : State) (f : SchedSt → SchedSt) :
    (State.modSched s f).upd = s.upd := upd_of_off (State.modSched_off (M := 0x4000000) s f rfl) rfl
@[simp] theorem State.modSched_boot (s : State) (f : SchedSt → SchedSt) :
    (State.modSched s f).boot = s.boot := boot_of_off (State.modSched_off (M := 0x4000000) s f rfl) rfl rfl rfl
@[simp] theorem State.modSched_clk (s : State) (f : SchedSt → SchedSt) :
    (State.modSched s f).clk = s.clk := clk_of_off (State.modSched_off (M := 0x4000000) s f rfl) rfl
@[simp] theorem State.modSched_pwr (s : State) (f : SchedSt → SchedSt) :
    (State.modSched s f).pwr = s.pwr := pwr_of_off (State.modSched_off (M := 0x4000000) s f rfl) rfl
@[simp] theorem State.setCauses_pending (s : State) (d v : Nat) :
    (State.setCauses s d v).pending = s.pending := pending_of_off (State.setCauses_off (M := 0x100000000) s d v rfl) rfl
@[simp] theorem State.setCauses_freeCtr (s : State) (d v : Nat) :
    (State.setCauses s d v).freeCtr = s.freeCtr := freeCtr_of_off (State.setCauses_off (M := 0x100000000) s d v rfl) rfl
@[simp] theorem State.setCauses_regs (s : State) (d v : Nat) :
    (State.setCauses s d v).regs = s.regs := regs_of_off (State.setCauses_off (M := 0x100000000) s d v rfl) rfl
@[simp] theorem State.setCauses_mem (s : State) (d v : Nat) :
    (State.setCauses s d v).mem = s.mem := mem_of_off (State.setCauses_off (M := 0x100000000) s d v rfl) rfl
@[simp] theorem State.setCauses_poison (s : State) (d v : Nat) :
    (State.setCauses s d v).poison = s.poison := poison_of_off (State.setCauses_off (M := 0x100000000) s d v rfl) rfl
@[simp] theorem State.setCauses_chip (s : State) (d v : Nat) :
    (State.setCauses s d v).chip = s.chip := chip_of_off (State.setCauses_off (M := 0x100000000) s d v rfl) rfl rfl rfl rfl rfl
@[simp] theorem State.setCauses_host (s : State) (d v : Nat) :
    (State.setCauses s d v).host = s.host := host_of_off (State.setCauses_off (M := 0x100000000) s d v rfl) rfl rfl rfl rfl rfl
@[simp] theorem State.setCauses_sec (s : State) (d v : Nat) :
    (State.setCauses s d v).sec = s.sec := sec_of_off (State.setCauses_off (M := 0x100000000) s d v rfl) rfl rfl rfl rfl
@[simp] theorem State.setCauses_ras (s : State) (d v : Nat) :
    (State.setCauses s d v).ras = s.ras := ras_of_off (State.setCauses_off (M := 0x100000000) s d v rfl) rfl rfl
@[simp] theorem State.setCauses_hbm (s : State) (d v : Nat) :
    (State.setCauses s d v).hbm = s.hbm := hbm_of_off (State.setCauses_off (M := 0x100000000) s d v rfl) rfl
@[simp] theorem State.setCauses_dir (s : State) (d v : Nat) :
    (State.setCauses s d v).dir = s.dir := dir_of_off (State.setCauses_off (M := 0x100000000) s d v rfl) rfl
@[simp] theorem State.setCauses_blks (s : State) (d v : Nat) :
    (State.setCauses s d v).blks = s.blks := blks_of_off (State.setCauses_off (M := 0x100000000) s d v rfl) rfl
@[simp] theorem State.setCauses_fab (s : State) (d v : Nat) :
    (State.setCauses s d v).fab = s.fab := fab_of_off (State.setCauses_off (M := 0x100000000) s d v rfl) rfl
@[simp] theorem State.setCauses_trn (s : State) (d v : Nat) :
    (State.setCauses s d v).trn = s.trn := trn_of_off (State.setCauses_off (M := 0x100000000) s d v rfl) rfl
@[simp] theorem State.setCauses_nol (s : State) (d v : Nat) :
    (State.setCauses s d v).nol = s.nol := nol_of_off (State.setCauses_off (M := 0x100000000) s d v rfl) rfl
@[simp] theorem State.setCauses_roll (s : State) (d v : Nat) :
    (State.setCauses s d v).roll = s.roll := roll_of_off (State.setCauses_off (M := 0x100000000) s d v rfl) rfl
@[simp] theorem State.setCauses_coll (s : State) (d v : Nat) :
    (State.setCauses s d v).coll = s.coll := coll_of_off (State.setCauses_off (M := 0x100000000) s d v rfl) rfl
@[simp] theorem State.setCauses_sched (s : State) (d v : Nat) :
    (State.setCauses s d v).sched = s.sched := sched_of_off (State.setCauses_off (M := 0x100000000) s d v rfl) rfl
@[simp] theorem State.setCauses_upd (s : State) (d v : Nat) :
    (State.setCauses s d v).upd = s.upd := upd_of_off (State.setCauses_off (M := 0x100000000) s d v rfl) rfl
@[simp] theorem State.setCauses_boot (s : State) (d v : Nat) :
    (State.setCauses s d v).boot = s.boot := boot_of_off (State.setCauses_off (M := 0x100000000) s d v rfl) rfl rfl rfl
@[simp] theorem State.setCauses_clk (s : State) (d v : Nat) :
    (State.setCauses s d v).clk = s.clk := clk_of_off (State.setCauses_off (M := 0x100000000) s d v rfl) rfl
@[simp] theorem State.answerTo_pending (s : State) (path : Path) (a : Answer) :
    (State.answerTo s path a).pending = s.pending := pending_of_off (State.answerTo_off (M := 0x10000) s path a rfl) rfl
@[simp] theorem State.answerTo_freeCtr (s : State) (path : Path) (a : Answer) :
    (State.answerTo s path a).freeCtr = s.freeCtr := freeCtr_of_off (State.answerTo_off (M := 0x10000) s path a rfl) rfl
@[simp] theorem State.answerTo_regs (s : State) (path : Path) (a : Answer) :
    (State.answerTo s path a).regs = s.regs := regs_of_off (State.answerTo_off (M := 0x10000) s path a rfl) rfl
@[simp] theorem State.answerTo_mem (s : State) (path : Path) (a : Answer) :
    (State.answerTo s path a).mem = s.mem := mem_of_off (State.answerTo_off (M := 0x10000) s path a rfl) rfl
@[simp] theorem State.answerTo_poison (s : State) (path : Path) (a : Answer) :
    (State.answerTo s path a).poison = s.poison := poison_of_off (State.answerTo_off (M := 0x10000) s path a rfl) rfl
@[simp] theorem State.answerTo_chip (s : State) (path : Path) (a : Answer) :
    (State.answerTo s path a).chip = s.chip := chip_of_off (State.answerTo_off (M := 0x10000) s path a rfl) rfl rfl rfl rfl rfl
@[simp] theorem State.answerTo_host (s : State) (path : Path) (a : Answer) :
    (State.answerTo s path a).host = s.host := host_of_off (State.answerTo_off (M := 0x10000) s path a rfl) rfl rfl rfl rfl rfl
@[simp] theorem State.answerTo_ras (s : State) (path : Path) (a : Answer) :
    (State.answerTo s path a).ras = s.ras := ras_of_off (State.answerTo_off (M := 0x10000) s path a rfl) rfl rfl
@[simp] theorem State.answerTo_hbm (s : State) (path : Path) (a : Answer) :
    (State.answerTo s path a).hbm = s.hbm := hbm_of_off (State.answerTo_off (M := 0x10000) s path a rfl) rfl
@[simp] theorem State.answerTo_dir (s : State) (path : Path) (a : Answer) :
    (State.answerTo s path a).dir = s.dir := dir_of_off (State.answerTo_off (M := 0x10000) s path a rfl) rfl
@[simp] theorem State.answerTo_blks (s : State) (path : Path) (a : Answer) :
    (State.answerTo s path a).blks = s.blks := blks_of_off (State.answerTo_off (M := 0x10000) s path a rfl) rfl
@[simp] theorem State.answerTo_fab (s : State) (path : Path) (a : Answer) :
    (State.answerTo s path a).fab = s.fab := fab_of_off (State.answerTo_off (M := 0x10000) s path a rfl) rfl
@[simp] theorem State.answerTo_trn (s : State) (path : Path) (a : Answer) :
    (State.answerTo s path a).trn = s.trn := trn_of_off (State.answerTo_off (M := 0x10000) s path a rfl) rfl
@[simp] theorem State.answerTo_nol (s : State) (path : Path) (a : Answer) :
    (State.answerTo s path a).nol = s.nol := nol_of_off (State.answerTo_off (M := 0x10000) s path a rfl) rfl
@[simp] theorem State.answerTo_roll (s : State) (path : Path) (a : Answer) :
    (State.answerTo s path a).roll = s.roll := roll_of_off (State.answerTo_off (M := 0x10000) s path a rfl) rfl
@[simp] theorem State.answerTo_coll (s : State) (path : Path) (a : Answer) :
    (State.answerTo s path a).coll = s.coll := coll_of_off (State.answerTo_off (M := 0x10000) s path a rfl) rfl
@[simp] theorem State.answerTo_sched (s : State) (path : Path) (a : Answer) :
    (State.answerTo s path a).sched = s.sched := sched_of_off (State.answerTo_off (M := 0x10000) s path a rfl) rfl
@[simp] theorem State.answerTo_upd (s : State) (path : Path) (a : Answer) :
    (State.answerTo s path a).upd = s.upd := upd_of_off (State.answerTo_off (M := 0x10000) s path a rfl) rfl
@[simp] theorem State.answerTo_boot (s : State) (path : Path) (a : Answer) :
    (State.answerTo s path a).boot = s.boot := boot_of_off (State.answerTo_off (M := 0x10000) s path a rfl) rfl rfl rfl
@[simp] theorem State.answerTo_clk (s : State) (path : Path) (a : Answer) :
    (State.answerTo s path a).clk = s.clk := clk_of_off (State.answerTo_off (M := 0x10000) s path a rfl) rfl
@[simp] theorem State.answerTo_pwr (s : State) (path : Path) (a : Answer) :
    (State.answerTo s path a).pwr = s.pwr := pwr_of_off (State.answerTo_off (M := 0x10000) s path a rfl) rfl
@[simp] theorem State.standbyExit_pending (s : State) :
    (State.standbyExit s).pending = s.pending := pending_of_off (State.standbyExit_off (M := 0x100004) s rfl) rfl
@[simp] theorem State.standbyExit_freeCtr (s : State) :
    (State.standbyExit s).freeCtr = s.freeCtr := freeCtr_of_off (State.standbyExit_off (M := 0x100004) s rfl) rfl
@[simp] theorem State.standbyExit_mem (s : State) :
    (State.standbyExit s).mem = s.mem := mem_of_off (State.standbyExit_off (M := 0x100004) s rfl) rfl
@[simp] theorem State.standbyExit_poison (s : State) :
    (State.standbyExit s).poison = s.poison := poison_of_off (State.standbyExit_off (M := 0x100004) s rfl) rfl
@[simp] theorem State.standbyExit_chip (s : State) :
    (State.standbyExit s).chip = s.chip := chip_of_off (State.standbyExit_off (M := 0x100004) s rfl) rfl rfl rfl rfl rfl
@[simp] theorem State.standbyExit_host (s : State) :
    (State.standbyExit s).host = s.host := host_of_off (State.standbyExit_off (M := 0x100004) s rfl) rfl rfl rfl rfl rfl
@[simp] theorem State.standbyExit_sec (s : State) :
    (State.standbyExit s).sec = s.sec := sec_of_off (State.standbyExit_off (M := 0x100004) s rfl) rfl rfl rfl rfl
@[simp] theorem State.standbyExit_ras (s : State) :
    (State.standbyExit s).ras = s.ras := ras_of_off (State.standbyExit_off (M := 0x100004) s rfl) rfl rfl
@[simp] theorem State.standbyExit_dir (s : State) :
    (State.standbyExit s).dir = s.dir := dir_of_off (State.standbyExit_off (M := 0x100004) s rfl) rfl
@[simp] theorem State.standbyExit_blks (s : State) :
    (State.standbyExit s).blks = s.blks := blks_of_off (State.standbyExit_off (M := 0x100004) s rfl) rfl
@[simp] theorem State.standbyExit_fab (s : State) :
    (State.standbyExit s).fab = s.fab := fab_of_off (State.standbyExit_off (M := 0x100004) s rfl) rfl
@[simp] theorem State.standbyExit_trn (s : State) :
    (State.standbyExit s).trn = s.trn := trn_of_off (State.standbyExit_off (M := 0x100004) s rfl) rfl
@[simp] theorem State.standbyExit_nol (s : State) :
    (State.standbyExit s).nol = s.nol := nol_of_off (State.standbyExit_off (M := 0x100004) s rfl) rfl
@[simp] theorem State.standbyExit_roll (s : State) :
    (State.standbyExit s).roll = s.roll := roll_of_off (State.standbyExit_off (M := 0x100004) s rfl) rfl
@[simp] theorem State.standbyExit_coll (s : State) :
    (State.standbyExit s).coll = s.coll := coll_of_off (State.standbyExit_off (M := 0x100004) s rfl) rfl
@[simp] theorem State.standbyExit_sched (s : State) :
    (State.standbyExit s).sched = s.sched := sched_of_off (State.standbyExit_off (M := 0x100004) s rfl) rfl
@[simp] theorem State.standbyExit_upd (s : State) :
    (State.standbyExit s).upd = s.upd := upd_of_off (State.standbyExit_off (M := 0x100004) s rfl) rfl
@[simp] theorem State.standbyExit_boot (s : State) :
    (State.standbyExit s).boot = s.boot := boot_of_off (State.standbyExit_off (M := 0x100004) s rfl) rfl rfl rfl
@[simp] theorem State.standbyExit_clk (s : State) :
    (State.standbyExit s).clk = s.clk := clk_of_off (State.standbyExit_off (M := 0x100004) s rfl) rfl
@[simp] theorem State.standbyExit_pwr (s : State) :
    (State.standbyExit s).pwr = s.pwr := pwr_of_off (State.standbyExit_off (M := 0x100004) s rfl) rfl
@[simp] theorem State.abortJob_pending (s : State) (id code module : Nat) :
    (State.abortJob s id code module).pending = s.pending := pending_of_off (State.abortJob_off (M := 0x1110) s id code module rfl) rfl
@[simp] theorem State.abortJob_freeCtr (s : State) (id code module : Nat) :
    (State.abortJob s id code module).freeCtr = s.freeCtr := freeCtr_of_off (State.abortJob_off (M := 0x1110) s id code module rfl) rfl
@[simp] theorem State.abortJob_regs (s : State) (id code module : Nat) :
    (State.abortJob s id code module).regs = s.regs := regs_of_off (State.abortJob_off (M := 0x1110) s id code module rfl) rfl
@[simp] theorem State.abortJob_mem (s : State) (id code module : Nat) :
    (State.abortJob s id code module).mem = s.mem := mem_of_off (State.abortJob_off (M := 0x1110) s id code module rfl) rfl
@[simp] theorem State.abortJob_poison (s : State) (id code module : Nat) :
    (State.abortJob s id code module).poison = s.poison := poison_of_off (State.abortJob_off (M := 0x1110) s id code module rfl) rfl
@[simp] theorem State.abortJob_sec (s : State) (id code module : Nat) :
    (State.abortJob s id code module).sec = s.sec := sec_of_off (State.abortJob_off (M := 0x1110) s id code module rfl) rfl rfl rfl rfl
@[simp] theorem State.abortJob_ras (s : State) (id code module : Nat) :
    (State.abortJob s id code module).ras = s.ras := ras_of_off (State.abortJob_off (M := 0x1110) s id code module rfl) rfl rfl
@[simp] theorem State.abortJob_hbm (s : State) (id code module : Nat) :
    (State.abortJob s id code module).hbm = s.hbm := hbm_of_off (State.abortJob_off (M := 0x1110) s id code module rfl) rfl
@[simp] theorem State.abortJob_dir (s : State) (id code module : Nat) :
    (State.abortJob s id code module).dir = s.dir := dir_of_off (State.abortJob_off (M := 0x1110) s id code module rfl) rfl
@[simp] theorem State.abortJob_blks (s : State) (id code module : Nat) :
    (State.abortJob s id code module).blks = s.blks := blks_of_off (State.abortJob_off (M := 0x1110) s id code module rfl) rfl
@[simp] theorem State.abortJob_fab (s : State) (id code module : Nat) :
    (State.abortJob s id code module).fab = s.fab := fab_of_off (State.abortJob_off (M := 0x1110) s id code module rfl) rfl
@[simp] theorem State.abortJob_trn (s : State) (id code module : Nat) :
    (State.abortJob s id code module).trn = s.trn := trn_of_off (State.abortJob_off (M := 0x1110) s id code module rfl) rfl
@[simp] theorem State.abortJob_nol (s : State) (id code module : Nat) :
    (State.abortJob s id code module).nol = s.nol := nol_of_off (State.abortJob_off (M := 0x1110) s id code module rfl) rfl
@[simp] theorem State.abortJob_roll (s : State) (id code module : Nat) :
    (State.abortJob s id code module).roll = s.roll := roll_of_off (State.abortJob_off (M := 0x1110) s id code module rfl) rfl
@[simp] theorem State.abortJob_coll (s : State) (id code module : Nat) :
    (State.abortJob s id code module).coll = s.coll := coll_of_off (State.abortJob_off (M := 0x1110) s id code module rfl) rfl
@[simp] theorem State.abortJob_sched (s : State) (id code module : Nat) :
    (State.abortJob s id code module).sched = s.sched := sched_of_off (State.abortJob_off (M := 0x1110) s id code module rfl) rfl
@[simp] theorem State.abortJob_upd (s : State) (id code module : Nat) :
    (State.abortJob s id code module).upd = s.upd := upd_of_off (State.abortJob_off (M := 0x1110) s id code module rfl) rfl
@[simp] theorem State.abortJob_boot (s : State) (id code module : Nat) :
    (State.abortJob s id code module).boot = s.boot := boot_of_off (State.abortJob_off (M := 0x1110) s id code module rfl) rfl rfl rfl
@[simp] theorem State.abortJob_clk (s : State) (id code module : Nat) :
    (State.abortJob s id code module).clk = s.clk := clk_of_off (State.abortJob_off (M := 0x1110) s id code module rfl) rfl
@[simp] theorem State.abortJob_pwr (s : State) (id code module : Nat) :
    (State.abortJob s id code module).pwr = s.pwr := pwr_of_off (State.abortJob_off (M := 0x1110) s id code module rfl) rfl
@[simp] theorem State.resetScope_pending (s : State) (code part job : Nat) :
    (State.resetScope s code part job).pending = s.pending := pending_of_off (State.resetScope_off (M := 0x1110) s code part job rfl) rfl
@[simp] theorem State.resetScope_freeCtr (s : State) (code part job : Nat) :
    (State.resetScope s code part job).freeCtr = s.freeCtr := freeCtr_of_off (State.resetScope_off (M := 0x1110) s code part job rfl) rfl
@[simp] theorem State.resetScope_regs (s : State) (code part job : Nat) :
    (State.resetScope s code part job).regs = s.regs := regs_of_off (State.resetScope_off (M := 0x1110) s code part job rfl) rfl
@[simp] theorem State.resetScope_mem (s : State) (code part job : Nat) :
    (State.resetScope s code part job).mem = s.mem := mem_of_off (State.resetScope_off (M := 0x1110) s code part job rfl) rfl
@[simp] theorem State.resetScope_poison (s : State) (code part job : Nat) :
    (State.resetScope s code part job).poison = s.poison := poison_of_off (State.resetScope_off (M := 0x1110) s code part job rfl) rfl
@[simp] theorem State.resetScope_sec (s : State) (code part job : Nat) :
    (State.resetScope s code part job).sec = s.sec := sec_of_off (State.resetScope_off (M := 0x1110) s code part job rfl) rfl rfl rfl rfl
@[simp] theorem State.resetScope_ras (s : State) (code part job : Nat) :
    (State.resetScope s code part job).ras = s.ras := ras_of_off (State.resetScope_off (M := 0x1110) s code part job rfl) rfl rfl
@[simp] theorem State.resetScope_hbm (s : State) (code part job : Nat) :
    (State.resetScope s code part job).hbm = s.hbm := hbm_of_off (State.resetScope_off (M := 0x1110) s code part job rfl) rfl
@[simp] theorem State.resetScope_dir (s : State) (code part job : Nat) :
    (State.resetScope s code part job).dir = s.dir := dir_of_off (State.resetScope_off (M := 0x1110) s code part job rfl) rfl
@[simp] theorem State.resetScope_blks (s : State) (code part job : Nat) :
    (State.resetScope s code part job).blks = s.blks := blks_of_off (State.resetScope_off (M := 0x1110) s code part job rfl) rfl
@[simp] theorem State.resetScope_fab (s : State) (code part job : Nat) :
    (State.resetScope s code part job).fab = s.fab := fab_of_off (State.resetScope_off (M := 0x1110) s code part job rfl) rfl
@[simp] theorem State.resetScope_trn (s : State) (code part job : Nat) :
    (State.resetScope s code part job).trn = s.trn := trn_of_off (State.resetScope_off (M := 0x1110) s code part job rfl) rfl
@[simp] theorem State.resetScope_nol (s : State) (code part job : Nat) :
    (State.resetScope s code part job).nol = s.nol := nol_of_off (State.resetScope_off (M := 0x1110) s code part job rfl) rfl
@[simp] theorem State.resetScope_roll (s : State) (code part job : Nat) :
    (State.resetScope s code part job).roll = s.roll := roll_of_off (State.resetScope_off (M := 0x1110) s code part job rfl) rfl
@[simp] theorem State.resetScope_coll (s : State) (code part job : Nat) :
    (State.resetScope s code part job).coll = s.coll := coll_of_off (State.resetScope_off (M := 0x1110) s code part job rfl) rfl
@[simp] theorem State.resetScope_sched (s : State) (code part job : Nat) :
    (State.resetScope s code part job).sched = s.sched := sched_of_off (State.resetScope_off (M := 0x1110) s code part job rfl) rfl
@[simp] theorem State.resetScope_upd (s : State) (code part job : Nat) :
    (State.resetScope s code part job).upd = s.upd := upd_of_off (State.resetScope_off (M := 0x1110) s code part job rfl) rfl
@[simp] theorem State.resetScope_boot (s : State) (code part job : Nat) :
    (State.resetScope s code part job).boot = s.boot := boot_of_off (State.resetScope_off (M := 0x1110) s code part job rfl) rfl rfl rfl
@[simp] theorem State.resetScope_clk (s : State) (code part job : Nat) :
    (State.resetScope s code part job).clk = s.clk := clk_of_off (State.resetScope_off (M := 0x1110) s code part job rfl) rfl
@[simp] theorem State.resetScope_pwr (s : State) (code part job : Nat) :
    (State.resetScope s code part job).pwr = s.pwr := pwr_of_off (State.resetScope_off (M := 0x1110) s code part job rfl) rfl
@[simp] theorem State.modJob_pending (s : State) (id : Nat) (f : Job → Job) :
    (State.modJob s id f).pending = s.pending := pending_of_off (State.modJob_off (M := 0x1000) s id f rfl) rfl
@[simp] theorem State.modJob_freeCtr (s : State) (id : Nat) (f : Job → Job) :
    (State.modJob s id f).freeCtr = s.freeCtr := freeCtr_of_off (State.modJob_off (M := 0x1000) s id f rfl) rfl
@[simp] theorem State.modJob_regs (s : State) (id : Nat) (f : Job → Job) :
    (State.modJob s id f).regs = s.regs := regs_of_off (State.modJob_off (M := 0x1000) s id f rfl) rfl
@[simp] theorem State.modJob_mem (s : State) (id : Nat) (f : Job → Job) :
    (State.modJob s id f).mem = s.mem := mem_of_off (State.modJob_off (M := 0x1000) s id f rfl) rfl
@[simp] theorem State.modJob_poison (s : State) (id : Nat) (f : Job → Job) :
    (State.modJob s id f).poison = s.poison := poison_of_off (State.modJob_off (M := 0x1000) s id f rfl) rfl
@[simp] theorem State.modJob_chip (s : State) (id : Nat) (f : Job → Job) :
    (State.modJob s id f).chip = s.chip := chip_of_off (State.modJob_off (M := 0x1000) s id f rfl) rfl rfl rfl rfl rfl
@[simp] theorem State.modJob_sec (s : State) (id : Nat) (f : Job → Job) :
    (State.modJob s id f).sec = s.sec := sec_of_off (State.modJob_off (M := 0x1000) s id f rfl) rfl rfl rfl rfl
@[simp] theorem State.modJob_ras (s : State) (id : Nat) (f : Job → Job) :
    (State.modJob s id f).ras = s.ras := ras_of_off (State.modJob_off (M := 0x1000) s id f rfl) rfl rfl
@[simp] theorem State.modJob_hbm (s : State) (id : Nat) (f : Job → Job) :
    (State.modJob s id f).hbm = s.hbm := hbm_of_off (State.modJob_off (M := 0x1000) s id f rfl) rfl
@[simp] theorem State.modJob_dir (s : State) (id : Nat) (f : Job → Job) :
    (State.modJob s id f).dir = s.dir := dir_of_off (State.modJob_off (M := 0x1000) s id f rfl) rfl
@[simp] theorem State.modJob_blks (s : State) (id : Nat) (f : Job → Job) :
    (State.modJob s id f).blks = s.blks := blks_of_off (State.modJob_off (M := 0x1000) s id f rfl) rfl
@[simp] theorem State.modJob_fab (s : State) (id : Nat) (f : Job → Job) :
    (State.modJob s id f).fab = s.fab := fab_of_off (State.modJob_off (M := 0x1000) s id f rfl) rfl
@[simp] theorem State.modJob_trn (s : State) (id : Nat) (f : Job → Job) :
    (State.modJob s id f).trn = s.trn := trn_of_off (State.modJob_off (M := 0x1000) s id f rfl) rfl
@[simp] theorem State.modJob_nol (s : State) (id : Nat) (f : Job → Job) :
    (State.modJob s id f).nol = s.nol := nol_of_off (State.modJob_off (M := 0x1000) s id f rfl) rfl
@[simp] theorem State.modJob_roll (s : State) (id : Nat) (f : Job → Job) :
    (State.modJob s id f).roll = s.roll := roll_of_off (State.modJob_off (M := 0x1000) s id f rfl) rfl
@[simp] theorem State.modJob_coll (s : State) (id : Nat) (f : Job → Job) :
    (State.modJob s id f).coll = s.coll := coll_of_off (State.modJob_off (M := 0x1000) s id f rfl) rfl
@[simp] theorem State.modJob_sched (s : State) (id : Nat) (f : Job → Job) :
    (State.modJob s id f).sched = s.sched := sched_of_off (State.modJob_off (M := 0x1000) s id f rfl) rfl
@[simp] theorem State.modJob_upd (s : State) (id : Nat) (f : Job → Job) :
    (State.modJob s id f).upd = s.upd := upd_of_off (State.modJob_off (M := 0x1000) s id f rfl) rfl
@[simp] theorem State.modJob_boot (s : State) (id : Nat) (f : Job → Job) :
    (State.modJob s id f).boot = s.boot := boot_of_off (State.modJob_off (M := 0x1000) s id f rfl) rfl rfl rfl
@[simp] theorem State.modJob_clk (s : State) (id : Nat) (f : Job → Job) :
    (State.modJob s id f).clk = s.clk := clk_of_off (State.modJob_off (M := 0x1000) s id f rfl) rfl
@[simp] theorem State.modJob_pwr (s : State) (id : Nat) (f : Job → Job) :
    (State.modJob s id f).pwr = s.pwr := pwr_of_off (State.modJob_off (M := 0x1000) s id f rfl) rfl
@[simp] theorem State.mapJobs_pending (s : State) (f : Job → Job) :
    (State.mapJobs s f).pending = s.pending := pending_of_off (State.mapJobs_off (M := 0x1000) s f rfl) rfl
@[simp] theorem State.mapJobs_freeCtr (s : State) (f : Job → Job) :
    (State.mapJobs s f).freeCtr = s.freeCtr := freeCtr_of_off (State.mapJobs_off (M := 0x1000) s f rfl) rfl
@[simp] theorem State.mapJobs_regs (s : State) (f : Job → Job) :
    (State.mapJobs s f).regs = s.regs := regs_of_off (State.mapJobs_off (M := 0x1000) s f rfl) rfl
@[simp] theorem State.mapJobs_mem (s : State) (f : Job → Job) :
    (State.mapJobs s f).mem = s.mem := mem_of_off (State.mapJobs_off (M := 0x1000) s f rfl) rfl
@[simp] theorem State.mapJobs_poison (s : State) (f : Job → Job) :
    (State.mapJobs s f).poison = s.poison := poison_of_off (State.mapJobs_off (M := 0x1000) s f rfl) rfl
@[simp] theorem State.mapJobs_chip (s : State) (f : Job → Job) :
    (State.mapJobs s f).chip = s.chip := chip_of_off (State.mapJobs_off (M := 0x1000) s f rfl) rfl rfl rfl rfl rfl
@[simp] theorem State.mapJobs_sec (s : State) (f : Job → Job) :
    (State.mapJobs s f).sec = s.sec := sec_of_off (State.mapJobs_off (M := 0x1000) s f rfl) rfl rfl rfl rfl
@[simp] theorem State.mapJobs_ras (s : State) (f : Job → Job) :
    (State.mapJobs s f).ras = s.ras := ras_of_off (State.mapJobs_off (M := 0x1000) s f rfl) rfl rfl
@[simp] theorem State.mapJobs_hbm (s : State) (f : Job → Job) :
    (State.mapJobs s f).hbm = s.hbm := hbm_of_off (State.mapJobs_off (M := 0x1000) s f rfl) rfl
@[simp] theorem State.mapJobs_dir (s : State) (f : Job → Job) :
    (State.mapJobs s f).dir = s.dir := dir_of_off (State.mapJobs_off (M := 0x1000) s f rfl) rfl
@[simp] theorem State.mapJobs_blks (s : State) (f : Job → Job) :
    (State.mapJobs s f).blks = s.blks := blks_of_off (State.mapJobs_off (M := 0x1000) s f rfl) rfl
@[simp] theorem State.mapJobs_fab (s : State) (f : Job → Job) :
    (State.mapJobs s f).fab = s.fab := fab_of_off (State.mapJobs_off (M := 0x1000) s f rfl) rfl
@[simp] theorem State.mapJobs_trn (s : State) (f : Job → Job) :
    (State.mapJobs s f).trn = s.trn := trn_of_off (State.mapJobs_off (M := 0x1000) s f rfl) rfl
@[simp] theorem State.mapJobs_nol (s : State) (f : Job → Job) :
    (State.mapJobs s f).nol = s.nol := nol_of_off (State.mapJobs_off (M := 0x1000) s f rfl) rfl
@[simp] theorem State.mapJobs_roll (s : State) (f : Job → Job) :
    (State.mapJobs s f).roll = s.roll := roll_of_off (State.mapJobs_off (M := 0x1000) s f rfl) rfl
@[simp] theorem State.mapJobs_coll (s : State) (f : Job → Job) :
    (State.mapJobs s f).coll = s.coll := coll_of_off (State.mapJobs_off (M := 0x1000) s f rfl) rfl
@[simp] theorem State.mapJobs_sched (s : State) (f : Job → Job) :
    (State.mapJobs s f).sched = s.sched := sched_of_off (State.mapJobs_off (M := 0x1000) s f rfl) rfl
@[simp] theorem State.mapJobs_upd (s : State) (f : Job → Job) :
    (State.mapJobs s f).upd = s.upd := upd_of_off (State.mapJobs_off (M := 0x1000) s f rfl) rfl
@[simp] theorem State.mapJobs_boot (s : State) (f : Job → Job) :
    (State.mapJobs s f).boot = s.boot := boot_of_off (State.mapJobs_off (M := 0x1000) s f rfl) rfl rfl rfl
@[simp] theorem State.mapJobs_clk (s : State) (f : Job → Job) :
    (State.mapJobs s f).clk = s.clk := clk_of_off (State.mapJobs_off (M := 0x1000) s f rfl) rfl
@[simp] theorem State.mapJobs_pwr (s : State) (f : Job → Job) :
    (State.mapJobs s f).pwr = s.pwr := pwr_of_off (State.mapJobs_off (M := 0x1000) s f rfl) rfl
@[simp] theorem State.hostErr_pending (s : State) (w code job : Nat) :
    (State.hostErr s w code job).pending = s.pending := pending_of_off (State.hostErr_off (M := 0x4) s w code job rfl) rfl
@[simp] theorem State.hostErr_freeCtr (s : State) (w code job : Nat) :
    (State.hostErr s w code job).freeCtr = s.freeCtr := freeCtr_of_off (State.hostErr_off (M := 0x4) s w code job rfl) rfl
@[simp] theorem State.hostErr_mem (s : State) (w code job : Nat) :
    (State.hostErr s w code job).mem = s.mem := mem_of_off (State.hostErr_off (M := 0x4) s w code job rfl) rfl
@[simp] theorem State.hostErr_poison (s : State) (w code job : Nat) :
    (State.hostErr s w code job).poison = s.poison := poison_of_off (State.hostErr_off (M := 0x4) s w code job rfl) rfl
@[simp] theorem State.hostErr_chip (s : State) (w code job : Nat) :
    (State.hostErr s w code job).chip = s.chip := chip_of_off (State.hostErr_off (M := 0x4) s w code job rfl) rfl rfl rfl rfl rfl
@[simp] theorem State.hostErr_host (s : State) (w code job : Nat) :
    (State.hostErr s w code job).host = s.host := host_of_off (State.hostErr_off (M := 0x4) s w code job rfl) rfl rfl rfl rfl rfl
@[simp] theorem State.hostErr_sec (s : State) (w code job : Nat) :
    (State.hostErr s w code job).sec = s.sec := sec_of_off (State.hostErr_off (M := 0x4) s w code job rfl) rfl rfl rfl rfl
@[simp] theorem State.hostErr_ras (s : State) (w code job : Nat) :
    (State.hostErr s w code job).ras = s.ras := ras_of_off (State.hostErr_off (M := 0x4) s w code job rfl) rfl rfl
@[simp] theorem State.hostErr_hbm (s : State) (w code job : Nat) :
    (State.hostErr s w code job).hbm = s.hbm := hbm_of_off (State.hostErr_off (M := 0x4) s w code job rfl) rfl
@[simp] theorem State.hostErr_dir (s : State) (w code job : Nat) :
    (State.hostErr s w code job).dir = s.dir := dir_of_off (State.hostErr_off (M := 0x4) s w code job rfl) rfl
@[simp] theorem State.hostErr_blks (s : State) (w code job : Nat) :
    (State.hostErr s w code job).blks = s.blks := blks_of_off (State.hostErr_off (M := 0x4) s w code job rfl) rfl
@[simp] theorem State.hostErr_fab (s : State) (w code job : Nat) :
    (State.hostErr s w code job).fab = s.fab := fab_of_off (State.hostErr_off (M := 0x4) s w code job rfl) rfl
@[simp] theorem State.hostErr_trn (s : State) (w code job : Nat) :
    (State.hostErr s w code job).trn = s.trn := trn_of_off (State.hostErr_off (M := 0x4) s w code job rfl) rfl
@[simp] theorem State.hostErr_nol (s : State) (w code job : Nat) :
    (State.hostErr s w code job).nol = s.nol := nol_of_off (State.hostErr_off (M := 0x4) s w code job rfl) rfl
@[simp] theorem State.hostErr_roll (s : State) (w code job : Nat) :
    (State.hostErr s w code job).roll = s.roll := roll_of_off (State.hostErr_off (M := 0x4) s w code job rfl) rfl
@[simp] theorem State.hostErr_coll (s : State) (w code job : Nat) :
    (State.hostErr s w code job).coll = s.coll := coll_of_off (State.hostErr_off (M := 0x4) s w code job rfl) rfl
@[simp] theorem State.hostErr_sched (s : State) (w code job : Nat) :
    (State.hostErr s w code job).sched = s.sched := sched_of_off (State.hostErr_off (M := 0x4) s w code job rfl) rfl
@[simp] theorem State.hostErr_upd (s : State) (w code job : Nat) :
    (State.hostErr s w code job).upd = s.upd := upd_of_off (State.hostErr_off (M := 0x4) s w code job rfl) rfl
@[simp] theorem State.hostErr_boot (s : State) (w code job : Nat) :
    (State.hostErr s w code job).boot = s.boot := boot_of_off (State.hostErr_off (M := 0x4) s w code job rfl) rfl rfl rfl
@[simp] theorem State.hostErr_clk (s : State) (w code job : Nat) :
    (State.hostErr s w code job).clk = s.clk := clk_of_off (State.hostErr_off (M := 0x4) s w code job rfl) rfl
@[simp] theorem State.hostErr_pwr (s : State) (w code job : Nat) :
    (State.hostErr s w code job).pwr = s.pwr := pwr_of_off (State.hostErr_off (M := 0x4) s w code job rfl) rfl
@[simp] theorem State.hostContained_pending (s : State) (code : Nat) (j : Job) :
    (State.hostContained s code j).pending = s.pending := pending_of_off (State.hostContained_off (M := 0x100041916) s code j rfl) rfl
@[simp] theorem State.hostContained_mem (s : State) (code : Nat) (j : Job) :
    (State.hostContained s code j).mem = s.mem := mem_of_off (State.hostContained_off (M := 0x100041916) s code j rfl) rfl
@[simp] theorem State.hostContained_poison (s : State) (code : Nat) (j : Job) :
    (State.hostContained s code j).poison = s.poison := poison_of_off (State.hostContained_off (M := 0x100041916) s code j rfl) rfl
@[simp] theorem State.hostContained_sec (s : State) (code : Nat) (j : Job) :
    (State.hostContained s code j).sec = s.sec := sec_of_off (State.hostContained_off (M := 0x100041916) s code j rfl) rfl rfl rfl rfl
@[simp] theorem State.hostContained_hbm (s : State) (code : Nat) (j : Job) :
    (State.hostContained s code j).hbm = s.hbm := hbm_of_off (State.hostContained_off (M := 0x100041916) s code j rfl) rfl
@[simp] theorem State.hostContained_dir (s : State) (code : Nat) (j : Job) :
    (State.hostContained s code j).dir = s.dir := dir_of_off (State.hostContained_off (M := 0x100041916) s code j rfl) rfl
@[simp] theorem State.hostContained_blks (s : State) (code : Nat) (j : Job) :
    (State.hostContained s code j).blks = s.blks := blks_of_off (State.hostContained_off (M := 0x100041916) s code j rfl) rfl
@[simp] theorem State.hostContained_fab (s : State) (code : Nat) (j : Job) :
    (State.hostContained s code j).fab = s.fab := fab_of_off (State.hostContained_off (M := 0x100041916) s code j rfl) rfl
@[simp] theorem State.hostContained_trn (s : State) (code : Nat) (j : Job) :
    (State.hostContained s code j).trn = s.trn := trn_of_off (State.hostContained_off (M := 0x100041916) s code j rfl) rfl
@[simp] theorem State.hostContained_nol (s : State) (code : Nat) (j : Job) :
    (State.hostContained s code j).nol = s.nol := nol_of_off (State.hostContained_off (M := 0x100041916) s code j rfl) rfl
@[simp] theorem State.hostContained_roll (s : State) (code : Nat) (j : Job) :
    (State.hostContained s code j).roll = s.roll := roll_of_off (State.hostContained_off (M := 0x100041916) s code j rfl) rfl
@[simp] theorem State.hostContained_coll (s : State) (code : Nat) (j : Job) :
    (State.hostContained s code j).coll = s.coll := coll_of_off (State.hostContained_off (M := 0x100041916) s code j rfl) rfl
@[simp] theorem State.hostContained_sched (s : State) (code : Nat) (j : Job) :
    (State.hostContained s code j).sched = s.sched := sched_of_off (State.hostContained_off (M := 0x100041916) s code j rfl) rfl
@[simp] theorem State.hostContained_upd (s : State) (code : Nat) (j : Job) :
    (State.hostContained s code j).upd = s.upd := upd_of_off (State.hostContained_off (M := 0x100041916) s code j rfl) rfl
@[simp] theorem State.hostContained_boot (s : State) (code : Nat) (j : Job) :
    (State.hostContained s code j).boot = s.boot := boot_of_off (State.hostContained_off (M := 0x100041916) s code j rfl) rfl rfl rfl
@[simp] theorem State.hostContained_clk (s : State) (code : Nat) (j : Job) :
    (State.hostContained s code j).clk = s.clk := clk_of_off (State.hostContained_off (M := 0x100041916) s code j rfl) rfl
@[simp] theorem State.containedPart_pending (s : State) (code p : Nat) :
    (State.containedPart s code p).pending = s.pending := pending_of_off (State.containedPart_off (M := 0x100041916) s code p rfl) rfl
@[simp] theorem State.containedPart_mem (s : State) (code p : Nat) :
    (State.containedPart s code p).mem = s.mem := mem_of_off (State.containedPart_off (M := 0x100041916) s code p rfl) rfl
@[simp] theorem State.containedPart_poison (s : State) (code p : Nat) :
    (State.containedPart s code p).poison = s.poison := poison_of_off (State.containedPart_off (M := 0x100041916) s code p rfl) rfl
@[simp] theorem State.containedPart_sec (s : State) (code p : Nat) :
    (State.containedPart s code p).sec = s.sec := sec_of_off (State.containedPart_off (M := 0x100041916) s code p rfl) rfl rfl rfl rfl
@[simp] theorem State.containedPart_hbm (s : State) (code p : Nat) :
    (State.containedPart s code p).hbm = s.hbm := hbm_of_off (State.containedPart_off (M := 0x100041916) s code p rfl) rfl
@[simp] theorem State.containedPart_dir (s : State) (code p : Nat) :
    (State.containedPart s code p).dir = s.dir := dir_of_off (State.containedPart_off (M := 0x100041916) s code p rfl) rfl
@[simp] theorem State.containedPart_blks (s : State) (code p : Nat) :
    (State.containedPart s code p).blks = s.blks := blks_of_off (State.containedPart_off (M := 0x100041916) s code p rfl) rfl
@[simp] theorem State.containedPart_fab (s : State) (code p : Nat) :
    (State.containedPart s code p).fab = s.fab := fab_of_off (State.containedPart_off (M := 0x100041916) s code p rfl) rfl
@[simp] theorem State.containedPart_trn (s : State) (code p : Nat) :
    (State.containedPart s code p).trn = s.trn := trn_of_off (State.containedPart_off (M := 0x100041916) s code p rfl) rfl
@[simp] theorem State.containedPart_nol (s : State) (code p : Nat) :
    (State.containedPart s code p).nol = s.nol := nol_of_off (State.containedPart_off (M := 0x100041916) s code p rfl) rfl
@[simp] theorem State.containedPart_roll (s : State) (code p : Nat) :
    (State.containedPart s code p).roll = s.roll := roll_of_off (State.containedPart_off (M := 0x100041916) s code p rfl) rfl
@[simp] theorem State.containedPart_coll (s : State) (code p : Nat) :
    (State.containedPart s code p).coll = s.coll := coll_of_off (State.containedPart_off (M := 0x100041916) s code p rfl) rfl
@[simp] theorem State.containedPart_sched (s : State) (code p : Nat) :
    (State.containedPart s code p).sched = s.sched := sched_of_off (State.containedPart_off (M := 0x100041916) s code p rfl) rfl
@[simp] theorem State.containedPart_upd (s : State) (code p : Nat) :
    (State.containedPart s code p).upd = s.upd := upd_of_off (State.containedPart_off (M := 0x100041916) s code p rfl) rfl
@[simp] theorem State.containedPart_boot (s : State) (code p : Nat) :
    (State.containedPart s code p).boot = s.boot := boot_of_off (State.containedPart_off (M := 0x100041916) s code p rfl) rfl rfl rfl
@[simp] theorem State.containedPart_clk (s : State) (code p : Nat) :
    (State.containedPart s code p).clk = s.clk := clk_of_off (State.containedPart_off (M := 0x100041916) s code p rfl) rfl
@[simp] theorem State.refuseHub_pending (s : State) (p a : Nat) (r : Reach) :
    (State.refuseHub s p a r).pending = s.pending := pending_of_off (State.refuseHub_off (M := 0x100041916) s p a r rfl) rfl
@[simp] theorem State.refuseHub_mem (s : State) (p a : Nat) (r : Reach) :
    (State.refuseHub s p a r).mem = s.mem := mem_of_off (State.refuseHub_off (M := 0x100041916) s p a r rfl) rfl
@[simp] theorem State.refuseHub_poison (s : State) (p a : Nat) (r : Reach) :
    (State.refuseHub s p a r).poison = s.poison := poison_of_off (State.refuseHub_off (M := 0x100041916) s p a r rfl) rfl
@[simp] theorem State.refuseHub_sec (s : State) (p a : Nat) (r : Reach) :
    (State.refuseHub s p a r).sec = s.sec := sec_of_off (State.refuseHub_off (M := 0x100041916) s p a r rfl) rfl rfl rfl rfl
@[simp] theorem State.refuseHub_hbm (s : State) (p a : Nat) (r : Reach) :
    (State.refuseHub s p a r).hbm = s.hbm := hbm_of_off (State.refuseHub_off (M := 0x100041916) s p a r rfl) rfl
@[simp] theorem State.refuseHub_dir (s : State) (p a : Nat) (r : Reach) :
    (State.refuseHub s p a r).dir = s.dir := dir_of_off (State.refuseHub_off (M := 0x100041916) s p a r rfl) rfl
@[simp] theorem State.refuseHub_blks (s : State) (p a : Nat) (r : Reach) :
    (State.refuseHub s p a r).blks = s.blks := blks_of_off (State.refuseHub_off (M := 0x100041916) s p a r rfl) rfl
@[simp] theorem State.refuseHub_fab (s : State) (p a : Nat) (r : Reach) :
    (State.refuseHub s p a r).fab = s.fab := fab_of_off (State.refuseHub_off (M := 0x100041916) s p a r rfl) rfl
@[simp] theorem State.refuseHub_trn (s : State) (p a : Nat) (r : Reach) :
    (State.refuseHub s p a r).trn = s.trn := trn_of_off (State.refuseHub_off (M := 0x100041916) s p a r rfl) rfl
@[simp] theorem State.refuseHub_nol (s : State) (p a : Nat) (r : Reach) :
    (State.refuseHub s p a r).nol = s.nol := nol_of_off (State.refuseHub_off (M := 0x100041916) s p a r rfl) rfl
@[simp] theorem State.refuseHub_roll (s : State) (p a : Nat) (r : Reach) :
    (State.refuseHub s p a r).roll = s.roll := roll_of_off (State.refuseHub_off (M := 0x100041916) s p a r rfl) rfl
@[simp] theorem State.refuseHub_coll (s : State) (p a : Nat) (r : Reach) :
    (State.refuseHub s p a r).coll = s.coll := coll_of_off (State.refuseHub_off (M := 0x100041916) s p a r rfl) rfl
@[simp] theorem State.refuseHub_sched (s : State) (p a : Nat) (r : Reach) :
    (State.refuseHub s p a r).sched = s.sched := sched_of_off (State.refuseHub_off (M := 0x100041916) s p a r rfl) rfl
@[simp] theorem State.refuseHub_upd (s : State) (p a : Nat) (r : Reach) :
    (State.refuseHub s p a r).upd = s.upd := upd_of_off (State.refuseHub_off (M := 0x100041916) s p a r rfl) rfl
@[simp] theorem State.refuseHub_boot (s : State) (p a : Nat) (r : Reach) :
    (State.refuseHub s p a r).boot = s.boot := boot_of_off (State.refuseHub_off (M := 0x100041916) s p a r rfl) rfl rfl rfl
@[simp] theorem State.refuseHub_clk (s : State) (p a : Nat) (r : Reach) :
    (State.refuseHub s p a r).clk = s.clk := clk_of_off (State.refuseHub_off (M := 0x100041916) s p a r rfl) rfl
@[simp] theorem State.poisonControl_pending (s : State) (p : Nat) :
    (State.poisonControl s p).pending = s.pending := pending_of_off (State.poisonControl_off (M := 0x100041916) s p rfl) rfl
@[simp] theorem State.poisonControl_mem (s : State) (p : Nat) :
    (State.poisonControl s p).mem = s.mem := mem_of_off (State.poisonControl_off (M := 0x100041916) s p rfl) rfl
@[simp] theorem State.poisonControl_poison (s : State) (p : Nat) :
    (State.poisonControl s p).poison = s.poison := poison_of_off (State.poisonControl_off (M := 0x100041916) s p rfl) rfl
@[simp] theorem State.poisonControl_sec (s : State) (p : Nat) :
    (State.poisonControl s p).sec = s.sec := sec_of_off (State.poisonControl_off (M := 0x100041916) s p rfl) rfl rfl rfl rfl
@[simp] theorem State.poisonControl_hbm (s : State) (p : Nat) :
    (State.poisonControl s p).hbm = s.hbm := hbm_of_off (State.poisonControl_off (M := 0x100041916) s p rfl) rfl
@[simp] theorem State.poisonControl_dir (s : State) (p : Nat) :
    (State.poisonControl s p).dir = s.dir := dir_of_off (State.poisonControl_off (M := 0x100041916) s p rfl) rfl
@[simp] theorem State.poisonControl_blks (s : State) (p : Nat) :
    (State.poisonControl s p).blks = s.blks := blks_of_off (State.poisonControl_off (M := 0x100041916) s p rfl) rfl
@[simp] theorem State.poisonControl_fab (s : State) (p : Nat) :
    (State.poisonControl s p).fab = s.fab := fab_of_off (State.poisonControl_off (M := 0x100041916) s p rfl) rfl
@[simp] theorem State.poisonControl_trn (s : State) (p : Nat) :
    (State.poisonControl s p).trn = s.trn := trn_of_off (State.poisonControl_off (M := 0x100041916) s p rfl) rfl
@[simp] theorem State.poisonControl_nol (s : State) (p : Nat) :
    (State.poisonControl s p).nol = s.nol := nol_of_off (State.poisonControl_off (M := 0x100041916) s p rfl) rfl
@[simp] theorem State.poisonControl_roll (s : State) (p : Nat) :
    (State.poisonControl s p).roll = s.roll := roll_of_off (State.poisonControl_off (M := 0x100041916) s p rfl) rfl
@[simp] theorem State.poisonControl_coll (s : State) (p : Nat) :
    (State.poisonControl s p).coll = s.coll := coll_of_off (State.poisonControl_off (M := 0x100041916) s p rfl) rfl
@[simp] theorem State.poisonControl_sched (s : State) (p : Nat) :
    (State.poisonControl s p).sched = s.sched := sched_of_off (State.poisonControl_off (M := 0x100041916) s p rfl) rfl
@[simp] theorem State.poisonControl_upd (s : State) (p : Nat) :
    (State.poisonControl s p).upd = s.upd := upd_of_off (State.poisonControl_off (M := 0x100041916) s p rfl) rfl
@[simp] theorem State.poisonControl_boot (s : State) (p : Nat) :
    (State.poisonControl s p).boot = s.boot := boot_of_off (State.poisonControl_off (M := 0x100041916) s p rfl) rfl rfl rfl
@[simp] theorem State.poisonControl_clk (s : State) (p : Nat) :
    (State.poisonControl s p).clk = s.clk := clk_of_off (State.poisonControl_off (M := 0x100041916) s p rfl) rfl
@[simp] theorem State.finish_pending (s : State) (f : PendCmd → Bool) (status result : Nat) :
    (State.finish s f status result).pending = s.pending := pending_of_off (State.finish_off (M := 0x3a00) s f status result rfl) rfl
@[simp] theorem State.finish_freeCtr (s : State) (f : PendCmd → Bool) (status result : Nat) :
    (State.finish s f status result).freeCtr = s.freeCtr := freeCtr_of_off (State.finish_off (M := 0x3a00) s f status result rfl) rfl
@[simp] theorem State.finish_regs (s : State) (f : PendCmd → Bool) (status result : Nat) :
    (State.finish s f status result).regs = s.regs := regs_of_off (State.finish_off (M := 0x3a00) s f status result rfl) rfl
@[simp] theorem State.finish_mem (s : State) (f : PendCmd → Bool) (status result : Nat) :
    (State.finish s f status result).mem = s.mem := mem_of_off (State.finish_off (M := 0x3a00) s f status result rfl) rfl
@[simp] theorem State.finish_poison (s : State) (f : PendCmd → Bool) (status result : Nat) :
    (State.finish s f status result).poison = s.poison := poison_of_off (State.finish_off (M := 0x3a00) s f status result rfl) rfl
@[simp] theorem State.finish_chip (s : State) (f : PendCmd → Bool) (status result : Nat) :
    (State.finish s f status result).chip = s.chip := chip_of_off (State.finish_off (M := 0x3a00) s f status result rfl) rfl rfl rfl rfl rfl
@[simp] theorem State.finish_sec (s : State) (f : PendCmd → Bool) (status result : Nat) :
    (State.finish s f status result).sec = s.sec := sec_of_off (State.finish_off (M := 0x3a00) s f status result rfl) rfl rfl rfl rfl
@[simp] theorem State.finish_ras (s : State) (f : PendCmd → Bool) (status result : Nat) :
    (State.finish s f status result).ras = s.ras := ras_of_off (State.finish_off (M := 0x3a00) s f status result rfl) rfl rfl
@[simp] theorem State.finish_hbm (s : State) (f : PendCmd → Bool) (status result : Nat) :
    (State.finish s f status result).hbm = s.hbm := hbm_of_off (State.finish_off (M := 0x3a00) s f status result rfl) rfl
@[simp] theorem State.finish_dir (s : State) (f : PendCmd → Bool) (status result : Nat) :
    (State.finish s f status result).dir = s.dir := dir_of_off (State.finish_off (M := 0x3a00) s f status result rfl) rfl
@[simp] theorem State.finish_blks (s : State) (f : PendCmd → Bool) (status result : Nat) :
    (State.finish s f status result).blks = s.blks := blks_of_off (State.finish_off (M := 0x3a00) s f status result rfl) rfl
@[simp] theorem State.finish_fab (s : State) (f : PendCmd → Bool) (status result : Nat) :
    (State.finish s f status result).fab = s.fab := fab_of_off (State.finish_off (M := 0x3a00) s f status result rfl) rfl
@[simp] theorem State.finish_trn (s : State) (f : PendCmd → Bool) (status result : Nat) :
    (State.finish s f status result).trn = s.trn := trn_of_off (State.finish_off (M := 0x3a00) s f status result rfl) rfl
@[simp] theorem State.finish_nol (s : State) (f : PendCmd → Bool) (status result : Nat) :
    (State.finish s f status result).nol = s.nol := nol_of_off (State.finish_off (M := 0x3a00) s f status result rfl) rfl
@[simp] theorem State.finish_roll (s : State) (f : PendCmd → Bool) (status result : Nat) :
    (State.finish s f status result).roll = s.roll := roll_of_off (State.finish_off (M := 0x3a00) s f status result rfl) rfl
@[simp] theorem State.finish_coll (s : State) (f : PendCmd → Bool) (status result : Nat) :
    (State.finish s f status result).coll = s.coll := coll_of_off (State.finish_off (M := 0x3a00) s f status result rfl) rfl
@[simp] theorem State.finish_sched (s : State) (f : PendCmd → Bool) (status result : Nat) :
    (State.finish s f status result).sched = s.sched := sched_of_off (State.finish_off (M := 0x3a00) s f status result rfl) rfl
@[simp] theorem State.finish_upd (s : State) (f : PendCmd → Bool) (status result : Nat) :
    (State.finish s f status result).upd = s.upd := upd_of_off (State.finish_off (M := 0x3a00) s f status result rfl) rfl
@[simp] theorem State.finish_boot (s : State) (f : PendCmd → Bool) (status result : Nat) :
    (State.finish s f status result).boot = s.boot := boot_of_off (State.finish_off (M := 0x3a00) s f status result rfl) rfl rfl rfl
@[simp] theorem State.finish_clk (s : State) (f : PendCmd → Bool) (status result : Nat) :
    (State.finish s f status result).clk = s.clk := clk_of_off (State.finish_off (M := 0x3a00) s f status result rfl) rfl
@[simp] theorem State.finish_pwr (s : State) (f : PendCmd → Bool) (status result : Nat) :
    (State.finish s f status result).pwr = s.pwr := pwr_of_off (State.finish_off (M := 0x3a00) s f status result rfl) rfl
@[simp] theorem State.hostWords_pending (s : State) (port a : Nat) (ws : List Nat) :
    (State.hostWords s port a ws).pending = s.pending := pending_of_off (State.hostWords_off (M := 0x200) s port a ws rfl) rfl
@[simp] theorem State.hostWords_freeCtr (s : State) (port a : Nat) (ws : List Nat) :
    (State.hostWords s port a ws).freeCtr = s.freeCtr := freeCtr_of_off (State.hostWords_off (M := 0x200) s port a ws rfl) rfl
@[simp] theorem State.hostWords_regs (s : State) (port a : Nat) (ws : List Nat) :
    (State.hostWords s port a ws).regs = s.regs := regs_of_off (State.hostWords_off (M := 0x200) s port a ws rfl) rfl
@[simp] theorem State.hostWords_mem (s : State) (port a : Nat) (ws : List Nat) :
    (State.hostWords s port a ws).mem = s.mem := mem_of_off (State.hostWords_off (M := 0x200) s port a ws rfl) rfl
@[simp] theorem State.hostWords_poison (s : State) (port a : Nat) (ws : List Nat) :
    (State.hostWords s port a ws).poison = s.poison := poison_of_off (State.hostWords_off (M := 0x200) s port a ws rfl) rfl
@[simp] theorem State.hostWords_chip (s : State) (port a : Nat) (ws : List Nat) :
    (State.hostWords s port a ws).chip = s.chip := chip_of_off (State.hostWords_off (M := 0x200) s port a ws rfl) rfl rfl rfl rfl rfl
@[simp] theorem State.hostWords_sec (s : State) (port a : Nat) (ws : List Nat) :
    (State.hostWords s port a ws).sec = s.sec := sec_of_off (State.hostWords_off (M := 0x200) s port a ws rfl) rfl rfl rfl rfl
@[simp] theorem State.hostWords_ras (s : State) (port a : Nat) (ws : List Nat) :
    (State.hostWords s port a ws).ras = s.ras := ras_of_off (State.hostWords_off (M := 0x200) s port a ws rfl) rfl rfl
@[simp] theorem State.hostWords_hbm (s : State) (port a : Nat) (ws : List Nat) :
    (State.hostWords s port a ws).hbm = s.hbm := hbm_of_off (State.hostWords_off (M := 0x200) s port a ws rfl) rfl
@[simp] theorem State.hostWords_dir (s : State) (port a : Nat) (ws : List Nat) :
    (State.hostWords s port a ws).dir = s.dir := dir_of_off (State.hostWords_off (M := 0x200) s port a ws rfl) rfl
@[simp] theorem State.hostWords_blks (s : State) (port a : Nat) (ws : List Nat) :
    (State.hostWords s port a ws).blks = s.blks := blks_of_off (State.hostWords_off (M := 0x200) s port a ws rfl) rfl
@[simp] theorem State.hostWords_fab (s : State) (port a : Nat) (ws : List Nat) :
    (State.hostWords s port a ws).fab = s.fab := fab_of_off (State.hostWords_off (M := 0x200) s port a ws rfl) rfl
@[simp] theorem State.hostWords_trn (s : State) (port a : Nat) (ws : List Nat) :
    (State.hostWords s port a ws).trn = s.trn := trn_of_off (State.hostWords_off (M := 0x200) s port a ws rfl) rfl
@[simp] theorem State.hostWords_nol (s : State) (port a : Nat) (ws : List Nat) :
    (State.hostWords s port a ws).nol = s.nol := nol_of_off (State.hostWords_off (M := 0x200) s port a ws rfl) rfl
@[simp] theorem State.hostWords_roll (s : State) (port a : Nat) (ws : List Nat) :
    (State.hostWords s port a ws).roll = s.roll := roll_of_off (State.hostWords_off (M := 0x200) s port a ws rfl) rfl
@[simp] theorem State.hostWords_coll (s : State) (port a : Nat) (ws : List Nat) :
    (State.hostWords s port a ws).coll = s.coll := coll_of_off (State.hostWords_off (M := 0x200) s port a ws rfl) rfl
@[simp] theorem State.hostWords_sched (s : State) (port a : Nat) (ws : List Nat) :
    (State.hostWords s port a ws).sched = s.sched := sched_of_off (State.hostWords_off (M := 0x200) s port a ws rfl) rfl
@[simp] theorem State.hostWords_upd (s : State) (port a : Nat) (ws : List Nat) :
    (State.hostWords s port a ws).upd = s.upd := upd_of_off (State.hostWords_off (M := 0x200) s port a ws rfl) rfl
@[simp] theorem State.hostWords_boot (s : State) (port a : Nat) (ws : List Nat) :
    (State.hostWords s port a ws).boot = s.boot := boot_of_off (State.hostWords_off (M := 0x200) s port a ws rfl) rfl rfl rfl
@[simp] theorem State.hostWords_clk (s : State) (port a : Nat) (ws : List Nat) :
    (State.hostWords s port a ws).clk = s.clk := clk_of_off (State.hostWords_off (M := 0x200) s port a ws rfl) rfl
@[simp] theorem State.hostWords_pwr (s : State) (port a : Nat) (ws : List Nat) :
    (State.hostWords s port a ws).pwr = s.pwr := pwr_of_off (State.hostWords_off (M := 0x200) s port a ws rfl) rfl
@[simp] theorem State.setLimit_pending (s : State) (code unit last reps : Nat) :
    (State.setLimit s code unit last reps).pending = s.pending := pending_of_off (State.setLimit_off (M := 0x40000) s code unit last reps rfl) rfl
@[simp] theorem State.setLimit_freeCtr (s : State) (code unit last reps : Nat) :
    (State.setLimit s code unit last reps).freeCtr = s.freeCtr := freeCtr_of_off (State.setLimit_off (M := 0x40000) s code unit last reps rfl) rfl
@[simp] theorem State.setLimit_regs (s : State) (code unit last reps : Nat) :
    (State.setLimit s code unit last reps).regs = s.regs := regs_of_off (State.setLimit_off (M := 0x40000) s code unit last reps rfl) rfl
@[simp] theorem State.setLimit_mem (s : State) (code unit last reps : Nat) :
    (State.setLimit s code unit last reps).mem = s.mem := mem_of_off (State.setLimit_off (M := 0x40000) s code unit last reps rfl) rfl
@[simp] theorem State.setLimit_poison (s : State) (code unit last reps : Nat) :
    (State.setLimit s code unit last reps).poison = s.poison := poison_of_off (State.setLimit_off (M := 0x40000) s code unit last reps rfl) rfl
@[simp] theorem State.setLimit_chip (s : State) (code unit last reps : Nat) :
    (State.setLimit s code unit last reps).chip = s.chip := chip_of_off (State.setLimit_off (M := 0x40000) s code unit last reps rfl) rfl rfl rfl rfl rfl
@[simp] theorem State.setLimit_host (s : State) (code unit last reps : Nat) :
    (State.setLimit s code unit last reps).host = s.host := host_of_off (State.setLimit_off (M := 0x40000) s code unit last reps rfl) rfl rfl rfl rfl rfl
@[simp] theorem State.setLimit_sec (s : State) (code unit last reps : Nat) :
    (State.setLimit s code unit last reps).sec = s.sec := sec_of_off (State.setLimit_off (M := 0x40000) s code unit last reps rfl) rfl rfl rfl rfl
@[simp] theorem State.setLimit_hbm (s : State) (code unit last reps : Nat) :
    (State.setLimit s code unit last reps).hbm = s.hbm := hbm_of_off (State.setLimit_off (M := 0x40000) s code unit last reps rfl) rfl
@[simp] theorem State.setLimit_dir (s : State) (code unit last reps : Nat) :
    (State.setLimit s code unit last reps).dir = s.dir := dir_of_off (State.setLimit_off (M := 0x40000) s code unit last reps rfl) rfl
@[simp] theorem State.setLimit_blks (s : State) (code unit last reps : Nat) :
    (State.setLimit s code unit last reps).blks = s.blks := blks_of_off (State.setLimit_off (M := 0x40000) s code unit last reps rfl) rfl
@[simp] theorem State.setLimit_fab (s : State) (code unit last reps : Nat) :
    (State.setLimit s code unit last reps).fab = s.fab := fab_of_off (State.setLimit_off (M := 0x40000) s code unit last reps rfl) rfl
@[simp] theorem State.setLimit_trn (s : State) (code unit last reps : Nat) :
    (State.setLimit s code unit last reps).trn = s.trn := trn_of_off (State.setLimit_off (M := 0x40000) s code unit last reps rfl) rfl
@[simp] theorem State.setLimit_nol (s : State) (code unit last reps : Nat) :
    (State.setLimit s code unit last reps).nol = s.nol := nol_of_off (State.setLimit_off (M := 0x40000) s code unit last reps rfl) rfl
@[simp] theorem State.setLimit_roll (s : State) (code unit last reps : Nat) :
    (State.setLimit s code unit last reps).roll = s.roll := roll_of_off (State.setLimit_off (M := 0x40000) s code unit last reps rfl) rfl
@[simp] theorem State.setLimit_coll (s : State) (code unit last reps : Nat) :
    (State.setLimit s code unit last reps).coll = s.coll := coll_of_off (State.setLimit_off (M := 0x40000) s code unit last reps rfl) rfl
@[simp] theorem State.setLimit_sched (s : State) (code unit last reps : Nat) :
    (State.setLimit s code unit last reps).sched = s.sched := sched_of_off (State.setLimit_off (M := 0x40000) s code unit last reps rfl) rfl
@[simp] theorem State.setLimit_upd (s : State) (code unit last reps : Nat) :
    (State.setLimit s code unit last reps).upd = s.upd := upd_of_off (State.setLimit_off (M := 0x40000) s code unit last reps rfl) rfl
@[simp] theorem State.setLimit_boot (s : State) (code unit last reps : Nat) :
    (State.setLimit s code unit last reps).boot = s.boot := boot_of_off (State.setLimit_off (M := 0x40000) s code unit last reps rfl) rfl rfl rfl
@[simp] theorem State.setLimit_clk (s : State) (code unit last reps : Nat) :
    (State.setLimit s code unit last reps).clk = s.clk := clk_of_off (State.setLimit_off (M := 0x40000) s code unit last reps rfl) rfl
@[simp] theorem State.setLimit_pwr (s : State) (code unit last reps : Nat) :
    (State.setLimit s code unit last reps).pwr = s.pwr := pwr_of_off (State.setLimit_off (M := 0x40000) s code unit last reps rfl) rfl

/-! ## Registers -/

theorem rdW_congr {s t : State} (h : t.regs = s.regs) (off : Nat) : t.rdW off = s.rdW off := by
  simp only [State.rdW, h]
theorem rd_congr {s t : State} (h : t.regs = s.regs) (f : Fld) : t.rd f = s.rd f := by
  simp only [State.rd, State.rdW, h]
@[simp] theorem State.rdW_wrW (s : State) (a b : Nat) (v : Word) :
    (s.wrW a v).rdW b = if b = a then v else s.rdW b := by
  unfold State.rdW State.wrW
  simp only
  by_cases h : b = a
  · subst h; simp
  · simp [Tab.get_set_ne _ _ _ _ _ _ h, h]
/-- A field of a word after a field was put into it. -/
theorem Fld.put_toNat (f : Fld) (w : Word) (v : Nat) (h : f.lo + f.w ≤ 64) :
    (f.put w v).toNat = w.toNat - f.get w * 2 ^ f.lo + v % 2 ^ f.w * 2 ^ f.lo := by
  unfold Fld.put
  rw [BitVec.toNat_ofNat, Nat.mod_eq_of_lt]
  have hw := w.isLt
  have hp : 0 < 2 ^ f.lo := Nat.two_pow_pos _
  have e : (2 : Nat) ^ 64 = 2 ^ (64 - f.lo - f.w) * 2 ^ f.w * 2 ^ f.lo := by
    rw [← Nat.pow_add, ← Nat.pow_add]; congr 1; omega
  set A := 2 ^ f.lo
  set B := 2 ^ f.w
  set C := 2 ^ (64 - f.lo - f.w)
  have hB : 0 < B := Nat.two_pow_pos _
  have hg : f.get w = w.toNat / A % B := rfl
  rw [hg]
  have hv : v % B < B := Nat.mod_lt _ hB
  have h1 : w.toNat = A * (w.toNat / A) + w.toNat % A := (Nat.div_add_mod _ _).symm
  have h2 : w.toNat / A = B * (w.toNat / A / B) + w.toNat / A % B := (Nat.div_add_mod _ _).symm
  have h3 : w.toNat % A < A := Nat.mod_lt _ hp
  have h4 : w.toNat / A / B < C := by
    rw [Nat.div_div_eq_div_mul]
    apply Nat.div_lt_of_lt_mul
    calc w.toNat < C * B * A := e ▸ hw
      _ = A * B * C := by ring
  generalize w.toNat / A / B = q at *
  generalize w.toNat / A % B = r at *
  generalize w.toNat % A = m at *
  generalize v % B = x at *
  rw [h2] at h1
  rw [e, h1]
  have : A * (B * q + r) + m - r * A = A * (B * q) + m := by
    rw [Nat.mul_add, Nat.mul_comm r A]; omega
  rw [this]
  have h5 : B * q + x + 1 ≤ B * C := by nlinarith
  nlinarith
theorem Fld.get_put_self (f : Fld) (w : Word) (v : Nat) (h : f.lo + f.w ≤ 64) : f.get (f.put w v) = v % 2 ^ f.w := by
  unfold Fld.get
  rw [Fld.put_toNat f w v h]
  have hp : 0 < 2 ^ f.lo := Nat.two_pow_pos _
  have hB : 0 < 2 ^ f.w := Nat.two_pow_pos _
  have hg : f.get w = w.toNat / 2 ^ f.lo % 2 ^ f.w := rfl
  rw [hg]
  set A := 2 ^ f.lo
  set B := 2 ^ f.w
  have hv : v % B < B := Nat.mod_lt _ hB
  have h1 : w.toNat = A * (B * (w.toNat / A / B) + w.toNat / A % B) + w.toNat % A := by
    rw [Nat.div_add_mod, Nat.div_add_mod]
  have h3 : w.toNat % A < A := Nat.mod_lt _ hp
  generalize w.toNat / A / B = q at *
  generalize w.toNat / A % B = r at *
  generalize w.toNat % A = m at *
  generalize v % B = x at *
  have e : w.toNat - r * A + x * A = A * (B * q + x) + m := by
    rw [h1]
    have : A * (B * q + r) + m - r * A = A * (B * q) + m := by rw [Nat.mul_add, Nat.mul_comm r A]; omega
    rw [this]; ring
  rw [e, Nat.mul_add_div hp, Nat.div_eq_of_lt h3, Nat.add_zero, Nat.mul_add_mod, Nat.mod_eq_of_lt hv]
theorem Fld.get_put_above (f g : Fld) (w : Word) (v : Nat) (h : f.lo + f.w ≤ 64) (hd : f.lo + f.w ≤ g.lo) :
    g.get (f.put w v) = g.get w := by
  unfold Fld.get
  rw [Fld.put_toNat f w v h]
  have hp : 0 < 2 ^ f.lo := Nat.two_pow_pos _
  have hB : 0 < 2 ^ f.w := Nat.two_pow_pos _
  have hg : f.get w = w.toNat / 2 ^ f.lo % 2 ^ f.w := rfl
  rw [hg]
  have e0 : 2 ^ g.lo = 2 ^ f.lo * 2 ^ f.w * 2 ^ (g.lo - f.lo - f.w) := by
    rw [← Nat.pow_add, ← Nat.pow_add]; congr 1; omega
  congr 1
  rw [e0, ← Nat.div_div_eq_div_mul, ← Nat.div_div_eq_div_mul, ← Nat.div_div_eq_div_mul (w.toNat), ← Nat.div_div_eq_div_mul (w.toNat)]
  congr 1
  set A := 2 ^ f.lo
  set B := 2 ^ f.w
  have hv : v % B < B := Nat.mod_lt _ hB
  have h1 : w.toNat = A * (B * (w.toNat / A / B) + w.toNat / A % B) + w.toNat % A := by
    rw [Nat.div_add_mod, Nat.div_add_mod]
  have h3 : w.toNat % A < A := Nat.mod_lt _ hp
  generalize w.toNat / A / B = q at *
  generalize w.toNat / A % B = r at *
  generalize w.toNat % A = m at *
  generalize v % B = x at *
  have e : w.toNat - r * A + x * A = A * (B * q + x) + m := by
    rw [h1]
    have : A * (B * q + r) + m - r * A = A * (B * q) + m := by rw [Nat.mul_add, Nat.mul_comm r A]; omega
    rw [this]; ring
  rw [e, Nat.mul_add_div hp, Nat.div_eq_of_lt h3, Nat.add_zero, Nat.mul_add_div hB, Nat.div_eq_of_lt hv, Nat.add_zero]
theorem Fld.get_put_below (f g : Fld) (w : Word) (v : Nat) (h : f.lo + f.w ≤ 64) (hd : g.lo + g.w ≤ f.lo) :
    g.get (f.put w v) = g.get w := by
  have hk : ∀ n : Nat, g.get (BitVec.ofNat 64 n) = n % 2 ^ 64 / 2 ^ g.lo % 2 ^ g.w := fun n => by
    simp [Fld.get]
  unfold Fld.get
  rw [Fld.put_toNat f w v h]
  have hg : f.get w = w.toNat / 2 ^ f.lo % 2 ^ f.w := rfl
  have hle : f.get w * 2 ^ f.lo ≤ w.toNat := by
    rw [hg]
    calc w.toNat / 2 ^ f.lo % 2 ^ f.w * 2 ^ f.lo ≤ w.toNat / 2 ^ f.lo * 2 ^ f.lo :=
          Nat.mul_le_mul_right _ (Nat.mod_le _ _)
      _ ≤ w.toNat := Nat.div_mul_le_self _ _
  have e0 : 2 ^ f.lo = 2 ^ g.lo * (2 ^ g.w * 2 ^ (f.lo - g.lo - g.w)) := by
    rw [← Nat.pow_add, ← Nat.pow_add]; congr 1; omega
  have hA : 0 < 2 ^ g.lo := Nat.two_pow_pos _
  generalize f.get w = r at *
  generalize v % 2 ^ f.w = x at *
  have e1 : w.toNat - r * 2 ^ f.lo + x * 2 ^ f.lo + r * 2 ^ f.lo = w.toNat + x * 2 ^ f.lo := by omega
  have e2 : ∀ n k : Nat, (n + k * 2 ^ f.lo) / 2 ^ g.lo % 2 ^ g.w = n / 2 ^ g.lo % 2 ^ g.w := by
    intro n k
    rw [e0]
    have : n + k * (2 ^ g.lo * (2 ^ g.w * 2 ^ (f.lo - g.lo - g.w))) =
        n + 2 ^ g.lo * (2 ^ g.w * (k * 2 ^ (f.lo - g.lo - g.w))) := by ring
    rw [this, Nat.add_mul_div_left _ _ hA, Nat.add_mul_mod_self_left]
  rw [← e2 (w.toNat - r * 2 ^ f.lo + x * 2 ^ f.lo) r, e1, e2]
/-- A field reads as what was written to it. -/
theorem State.rd_wr_self (s : State) (f : Fld) (v : Nat) (h : f.lo + f.w ≤ 64 := by decide) :
    (s.wr f v).rd f = v % 2 ^ f.w := by
  simp [State.rd, State.wr, Fld.get_put_self _ _ _ h]
/-- A field of another register keeps its value. -/
theorem State.rd_wr_ne (s : State) (f g : Fld) (v : Nat) (h : g.reg ≠ f.reg) : (s.wr f v).rd g = s.rd g := by
  simp [State.rd, State.wr, h]
/-- Another field of the same register keeps its value. -/
theorem State.rd_wr_apart (s : State) (f g : Fld) (v : Nat) (h : f.lo + f.w ≤ 64)
    (hd : f.lo + f.w ≤ g.lo ∨ g.lo + g.w ≤ f.lo) : (s.wr f v).rd g = s.rd g := by
  by_cases hr : g.reg = f.reg
  · simp only [State.rd, State.wr, State.rdW_wrW, hr, if_true]
    rcases hd with hd | hd
    · exact Fld.get_put_above f g _ v h hd
    · exact Fld.get_put_below f g _ v h hd
  · exact State.rd_wr_ne s f g v hr
theorem State.wrs_nil (s : State) : s.wrs [] = s := rfl
theorem State.wrs_cons (s : State) (f : Fld) (v : Nat) (l : List (Fld × Nat)) : s.wrs ((f, v) :: l) = (s.wr f v).wrs l := rfl
/-- A saturating counter after it advanced. -/
theorem State.rd_count (s : State) (f : Fld) (n : Nat) (h : f.lo + f.w ≤ 64 := by decide) :
    (s.count f n).rd f = min (s.rd f + n) (2 ^ f.w - 1) := by
  unfold State.count
  rw [State.rd_wr_self s f _ h, Nat.mod_eq_of_lt]
  have := Nat.two_pow_pos f.w
  omega
theorem State.rd_lt (s : State) (f : Fld) : s.rd f < 2 ^ f.w := Nat.mod_lt _ (Nat.two_pow_pos _)

/-! ## Indexed parts -/

@[simp] theorem State.core_setCore (s : State) (c : Nat) (x : CoreSt) (j : Nat) :
    (s.setCore c x).core j = if j = c then x else s.core j := by
  simp [State.core, State.setCore, Tab.get_set]
@[simp] theorem State.stk_setStk (s : State) (k : Nat) (x : HbmSt) (j : Nat) :
    (s.setStk k x).stk j = if j = k then x else s.stk j := by
  simp [State.stk, State.setStk, Tab.get_set]
@[simp] theorem State.seg_setSeg (s : State) (i : Nat) (x : SegSt) (j : Nat) :
    (s.setSeg i x).seg j = if j = i then x else s.seg j := by
  simp [State.seg, State.setSeg, Tab.get_set]
@[simp] theorem State.marchOf_setMarch (s : State) (w : Nat) (x : Option March) (j : Nat) :
    (s.setMarch w x).marchOf j = if j = w then x else s.marchOf j := by
  simp [State.marchOf, State.setMarch, Tab.get_set]
@[simp] theorem State.trn_setTrn (s : State) (p : Nat) (x : TrnSt) (j : Nat) :
    (s.setTrn p x).trn' j = if j = p then x else s.trn' j := by
  simp [State.trn', State.setTrn, Tab.get_set]
@[simp] theorem State.ctx_setCtx (s : State) (n : Nat) (x : Ctx) (j : Nat) :
    (s.setCtx n x).ctx j = if j = n then x else s.ctx j := by
  simp [State.ctx, State.setCtx, State.modRoll, Tab.get_set]
@[simp] theorem State.aslot_setAslot (s : State) (i : Nat) (x : AdSlot) (j : Nat) :
    (s.setAslot i x).aslot j = if j = i then x else s.aslot j := by
  simp [State.aslot, State.setAslot, State.modRoll, Tab.get_set]
@[simp] theorem State.pfx_setPfx (s : State) (h : Nat) (x : Option Pfx) (j : Nat) :
    (s.setPfx h x).pfx j = if j = h then x else s.pfx j := by
  simp [State.pfx, State.setPfx, State.modRoll, Tab.get_set]
@[simp] theorem State.balance_setBalance (s : State) (a : Nat) (x : Nat) (j : Nat) :
    (s.setBalance a x).balance j = if j = a then x else s.balance j := by
  simp [State.balance, State.setBalance, State.modRoll, Tab.get_set]
@[simp] theorem State.wload_setWload (s : State) (p : Nat) (x : Option WLoad) (j : Nat) :
    (s.setWload p x).wload j = if j = p then x else s.wload j := by
  simp [State.wload, State.setWload, State.modSched, Tab.get_set]
@[simp] theorem State.turn_setTurn (s : State) (p : Nat) (x : Option TurnSt) (j : Nat) :
    (s.setTurn p x).turn j = if j = p then x else s.turn j := by
  simp [State.turn, State.setTurn, State.modSched, Tab.get_set]
@[simp] theorem State.port_setPort (s : State) (p : Nat) (x : PortSt) (j : Nat) :
    (s.setPort p x).port j = if j = p then x else s.port j := by
  simp [State.port, State.setPort, Tab.get_set]
@[simp] theorem State.causesOf_setCauses (s : State) (d : Nat) (x : Nat) (j : Nat) :
    (s.setCauses d x).causesOf j = if j = d then x else s.causesOf j := by
  simp [State.causesOf, State.setCauses, Tab.get_set]
theorem core_congr {s t : State} (h : t.chip.cores = s.chip.cores) (c : Nat) : t.core c = s.core c := by
  simp only [State.core, h]
theorem byte_congr {s t : State} (h : t.mem = s.mem) (a : Nat) : t.byte a = s.byte a := by
  simp only [State.byte, h]
theorem job_congr {s t : State} (h : t.host.jobs = s.host.jobs) (i : Nat) : t.job i = s.job i := by
  simp only [State.job, h]
@[simp] theorem State.core_wr (s : State) (f : Fld) (v : Nat) (c0 : Nat) :
    (State.wr s f v).core c0 = s.core c0 :=
  core_congr (chip_cores_of_off (State.wr_off (M := 0x4) s f v rfl) rfl) c0
@[simp] theorem State.byte_wr (s : State) (f : Fld) (v : Nat) (a0 : Nat) :
    (State.wr s f v).byte a0 = s.byte a0 :=
  byte_congr (mem_of_off (State.wr_off (M := 0x4) s f v rfl) rfl) a0
@[simp] theorem State.job_wr (s : State) (f : Fld) (v : Nat) (i0 : Nat) :
    (State.wr s f v).job i0 = s.job i0 :=
  job_congr (host_jobs_of_off (State.wr_off (M := 0x4) s f v rfl) rfl) i0
@[simp] theorem State.core_wrs (s : State) (x0 : List (Fld × Nat)) (c0 : Nat) :
    (State.wrs s x0).core c0 = s.core c0 :=
  core_congr (chip_cores_of_off (State.wrs_off (M := 0x4) s x0 rfl) rfl) c0
@[simp] theorem State.byte_wrs (s : State) (x0 : List (Fld × Nat)) (a0 : Nat) :
    (State.wrs s x0).byte a0 = s.byte a0 :=
  byte_congr (mem_of_off (State.wrs_off (M := 0x4) s x0 rfl) rfl) a0
@[simp] theorem State.job_wrs (s : State) (x0 : List (Fld × Nat)) (i0 : Nat) :
    (State.wrs s x0).job i0 = s.job i0 :=
  job_congr (host_jobs_of_off (State.wrs_off (M := 0x4) s x0 rfl) rfl) i0
@[simp] theorem State.core_count (s : State) (f : Fld) (n : Nat) (c0 : Nat) :
    (State.count s f n).core c0 = s.core c0 :=
  core_congr (chip_cores_of_off (State.count_off (M := 0x4) s f n rfl) rfl) c0
@[simp] theorem State.byte_count (s : State) (f : Fld) (n : Nat) (a0 : Nat) :
    (State.count s f n).byte a0 = s.byte a0 :=
  byte_congr (mem_of_off (State.count_off (M := 0x4) s f n rfl) rfl) a0
@[simp] theorem State.job_count (s : State) (f : Fld) (n : Nat) (i0 : Nat) :
    (State.count s f n).job i0 = s.job i0 :=
  job_congr (host_jobs_of_off (State.count_off (M := 0x4) s f n rfl) rfl) i0
@[simp] theorem State.core_recErr (s : State) (valid overrun : Fld) (fields : List (Fld × Nat)) (c0 : Nat) :
    (State.recErr s valid overrun fields).core c0 = s.core c0 :=
  core_congr (chip_cores_of_off (State.recErr_off (M := 0x4) s valid overrun fields rfl) rfl) c0
@[simp] theorem State.byte_recErr (s : State) (valid overrun : Fld) (fields : List (Fld × Nat)) (a0 : Nat) :
    (State.recErr s valid overrun fields).byte a0 = s.byte a0 :=
  byte_congr (mem_of_off (State.recErr_off (M := 0x4) s valid overrun fields rfl) rfl) a0
@[simp] theorem State.job_recErr (s : State) (valid overrun : Fld) (fields : List (Fld × Nat)) (i0 : Nat) :
    (State.recErr s valid overrun fields).job i0 = s.job i0 :=
  job_congr (host_jobs_of_off (State.recErr_off (M := 0x4) s valid overrun fields rfl) rfl) i0
@[simp] theorem State.rd_setCore (s : State) (c : Nat) (x : CoreSt) (f0 : Fld) :
    (State.setCore s c x).rd f0 = s.rd f0 :=
  rd_congr (regs_of_off (State.setCore_off (M := 0x10) s c x rfl) rfl) f0
@[simp] theorem State.byte_setCore (s : State) (c : Nat) (x : CoreSt) (a0 : Nat) :
    (State.setCore s c x).byte a0 = s.byte a0 :=
  byte_congr (mem_of_off (State.setCore_off (M := 0x10) s c x rfl) rfl) a0
@[simp] theorem State.job_setCore (s : State) (c : Nat) (x : CoreSt) (i0 : Nat) :
    (State.setCore s c x).job i0 = s.job i0 :=
  job_congr (host_jobs_of_off (State.setCore_off (M := 0x10) s c x rfl) rfl) i0
@[simp] theorem State.rd_modCore (s : State) (c : Nat) (f : CoreSt → CoreSt) (f0 : Fld) :
    (State.modCore s c f).rd f0 = s.rd f0 :=
  rd_congr (regs_of_off (State.modCore_off (M := 0x10) s c f rfl) rfl) f0
@[simp] theorem State.byte_modCore (s : State) (c : Nat) (f : CoreSt → CoreSt) (a0 : Nat) :
    (State.modCore s c f).byte a0 = s.byte a0 :=
  byte_congr (mem_of_off (State.modCore_off (M := 0x10) s c f rfl) rfl) a0
@[simp] theorem State.job_modCore (s : State) (c : Nat) (f : CoreSt → CoreSt) (i0 : Nat) :
    (State.modCore s c f).job i0 = s.job i0 :=
  job_congr (host_jobs_of_off (State.modCore_off (M := 0x10) s c f rfl) rfl) i0
@[simp] theorem State.rd_used (s : State) (n : Nat) (f0 : Fld) :
    (State.used s n).rd f0 = s.rd f0 :=
  rd_congr (regs_of_off (State.used_off (M := 0x2) s n rfl) rfl) f0
@[simp] theorem State.core_used (s : State) (n : Nat) (c0 : Nat) :
    (State.used s n).core c0 = s.core c0 :=
  core_congr (chip_cores_of_off (State.used_off (M := 0x2) s n rfl) rfl) c0
@[simp] theorem State.byte_used (s : State) (n : Nat) (a0 : Nat) :
    (State.used s n).byte a0 = s.byte a0 :=
  byte_congr (mem_of_off (State.used_off (M := 0x2) s n rfl) rfl) a0
@[simp] theorem State.job_used (s : State) (n : Nat) (i0 : Nat) :
    (State.used s n).job i0 = s.job i0 :=
  job_congr (host_jobs_of_off (State.used_off (M := 0x2) s n rfl) rfl) i0
@[simp] theorem State.rd_paste (s : State) (a n : Nat) (d : Piece) (f0 : Fld) :
    (State.paste s a n d).rd f0 = s.rd f0 :=
  rd_congr (regs_of_off (State.paste_off (M := 0x8000098) s a n d rfl) rfl) f0
@[simp] theorem State.job_paste (s : State) (a n : Nat) (d : Piece) (i0 : Nat) :
    (State.paste s a n d).job i0 = s.job i0 :=
  job_congr (host_jobs_of_off (State.paste_off (M := 0x8000098) s a n d rfl) rfl) i0
@[simp] theorem State.rd_store (s : State) (a : Nat) (bs : List Byte) (f0 : Fld) :
    (State.store s a bs).rd f0 = s.rd f0 :=
  rd_congr (regs_of_off (State.store_off (M := 0x8000098) s a bs rfl) rfl) f0
@[simp] theorem State.job_store (s : State) (a : Nat) (bs : List Byte) (i0 : Nat) :
    (State.store s a bs).job i0 = s.job i0 :=
  job_congr (host_jobs_of_off (State.store_off (M := 0x8000098) s a bs rfl) rfl) i0
@[simp] theorem State.rd_signal (s : State) (port fn v : Nat) (f0 : Fld) :
    (State.signal s port fn v).rd f0 = s.rd f0 :=
  rd_congr (regs_of_off (State.signal_off (M := 0x800) s port fn v rfl) rfl) f0
@[simp] theorem State.core_signal (s : State) (port fn v : Nat) (c0 : Nat) :
    (State.signal s port fn v).core c0 = s.core c0 :=
  core_congr (chip_cores_of_off (State.signal_off (M := 0x800) s port fn v rfl) rfl) c0
@[simp] theorem State.byte_signal (s : State) (port fn v : Nat) (a0 : Nat) :
    (State.signal s port fn v).byte a0 = s.byte a0 :=
  byte_congr (mem_of_off (State.signal_off (M := 0x800) s port fn v rfl) rfl) a0
@[simp] theorem State.job_signal (s : State) (port fn v : Nat) (i0 : Nat) :
    (State.signal s port fn v).job i0 = s.job i0 :=
  job_congr (host_jobs_of_off (State.signal_off (M := 0x800) s port fn v rfl) rfl) i0
@[simp] theorem State.core_putEvent (s : State) (code cls part job unit detail rep : Nat) (c0 : Nat) :
    (State.putEvent s code cls part job unit detail rep).core c0 = s.core c0 :=
  core_congr (chip_cores_of_off (State.putEvent_off (M := 0x100000804) s code cls part job unit detail rep rfl) rfl) c0
@[simp] theorem State.byte_putEvent (s : State) (code cls part job unit detail rep : Nat) (a0 : Nat) :
    (State.putEvent s code cls part job unit detail rep).byte a0 = s.byte a0 :=
  byte_congr (mem_of_off (State.putEvent_off (M := 0x100000804) s code cls part job unit detail rep rfl) rfl) a0
@[simp] theorem State.job_putEvent (s : State) (code cls part job unit detail rep : Nat) (i0 : Nat) :
    (State.putEvent s code cls part job unit detail rep).job i0 = s.job i0 :=
  job_congr (host_jobs_of_off (State.putEvent_off (M := 0x100000804) s code cls part job unit detail rep rfl) rfl) i0
@[simp] theorem State.core_event (s : State) (code cls part job unit : Nat) (detail : Option Nat) (c0 : Nat) :
    (State.event s code cls part job unit detail).core c0 = s.core c0 :=
  core_congr (chip_cores_of_off (State.event_off (M := 0x100040806) s code cls part job unit detail rfl) rfl) c0
@[simp] theorem State.byte_event (s : State) (code cls part job unit : Nat) (detail : Option Nat) (a0 : Nat) :
    (State.event s code cls part job unit detail).byte a0 = s.byte a0 :=
  byte_congr (mem_of_off (State.event_off (M := 0x100040806) s code cls part job unit detail rfl) rfl) a0
@[simp] theorem State.job_event (s : State) (code cls part job unit : Nat) (detail : Option Nat) (i0 : Nat) :
    (State.event s code cls part job unit detail).job i0 = s.job i0 :=
  job_congr (host_jobs_of_off (State.event_off (M := 0x100040806) s code cls part job unit detail rfl) rfl) i0
@[simp] theorem State.byte_contained (s : State) (code part job unit : Nat) (detail : Option Nat) (a0 : Nat) :
    (State.contained s code part job unit detail).byte a0 = s.byte a0 :=
  byte_congr (mem_of_off (State.contained_off (M := 0x100041916) s code part job unit detail rfl) rfl) a0
@[simp] theorem State.rd_hostPaste (s : State) (port a n : Nat) (d : Tab Byte) (f0 : Fld) :
    (State.hostPaste s port a n d).rd f0 = s.rd f0 :=
  rd_congr (regs_of_off (State.hostPaste_off (M := 0x200) s port a n d rfl) rfl) f0
@[simp] theorem State.core_hostPaste (s : State) (port a n : Nat) (d : Tab Byte) (c0 : Nat) :
    (State.hostPaste s port a n d).core c0 = s.core c0 :=
  core_congr (chip_cores_of_off (State.hostPaste_off (M := 0x200) s port a n d rfl) rfl) c0
@[simp] theorem State.byte_hostPaste (s : State) (port a n : Nat) (d : Tab Byte) (a0 : Nat) :
    (State.hostPaste s port a n d).byte a0 = s.byte a0 :=
  byte_congr (mem_of_off (State.hostPaste_off (M := 0x200) s port a n d rfl) rfl) a0
@[simp] theorem State.job_hostPaste (s : State) (port a n : Nat) (d : Tab Byte) (i0 : Nat) :
    (State.hostPaste s port a n d).job i0 = s.job i0 :=
  job_congr (host_jobs_of_off (State.hostPaste_off (M := 0x200) s port a n d rfl) rfl) i0
@[simp] theorem State.rd_setRing (s : State) (w j : Nat) (r : RingSt) (f0 : Fld) :
    (State.setRing s w j r).rd f0 = s.rd f0 :=
  rd_congr (regs_of_off (State.setRing_off (M := 0x800) s w j r rfl) rfl) f0
@[simp] theorem State.core_setRing (s : State) (w j : Nat) (r : RingSt) (c0 : Nat) :
    (State.setRing s w j r).core c0 = s.core c0 :=
  core_congr (chip_cores_of_off (State.setRing_off (M := 0x800) s w j r rfl) rfl) c0
@[simp] theorem State.byte_setRing (s : State) (w j : Nat) (r : RingSt) (a0 : Nat) :
    (State.setRing s w j r).byte a0 = s.byte a0 :=
  byte_congr (mem_of_off (State.setRing_off (M := 0x800) s w j r rfl) rfl) a0
@[simp] theorem State.job_setRing (s : State) (w j : Nat) (r : RingSt) (i0 : Nat) :
    (State.setRing s w j r).job i0 = s.job i0 :=
  job_congr (host_jobs_of_off (State.setRing_off (M := 0x800) s w j r rfl) rfl) i0
@[simp] theorem State.rd_unreserve (s : State) (port fn j : Nat) (f0 : Fld) :
    (State.unreserve s port fn j).rd f0 = s.rd f0 :=
  rd_congr (regs_of_off (State.unreserve_off (M := 0x800) s port fn j rfl) rfl) f0
@[simp] theorem State.core_unreserve (s : State) (port fn j : Nat) (c0 : Nat) :
    (State.unreserve s port fn j).core c0 = s.core c0 :=
  core_congr (chip_cores_of_off (State.unreserve_off (M := 0x800) s port fn j rfl) rfl) c0
@[simp] theorem State.byte_unreserve (s : State) (port fn j : Nat) (a0 : Nat) :
    (State.unreserve s port fn j).byte a0 = s.byte a0 :=
  byte_congr (mem_of_off (State.unreserve_off (M := 0x800) s port fn j rfl) rfl) a0
@[simp] theorem State.job_unreserve (s : State) (port fn j : Nat) (i0 : Nat) :
    (State.unreserve s port fn j).job i0 = s.job i0 :=
  job_congr (host_jobs_of_off (State.unreserve_off (M := 0x800) s port fn j rfl) rfl) i0
@[simp] theorem State.rd_putCpl (s : State) (port fn j : Nat) (c : Cpl) (f0 : Fld) :
    (State.putCpl s port fn j c).rd f0 = s.rd f0 :=
  rd_congr (regs_of_off (State.putCpl_off (M := 0xa00) s port fn j c rfl) rfl) f0
@[simp] theorem State.core_putCpl (s : State) (port fn j : Nat) (c : Cpl) (c0 : Nat) :
    (State.putCpl s port fn j c).core c0 = s.core c0 :=
  core_congr (chip_cores_of_off (State.putCpl_off (M := 0xa00) s port fn j c rfl) rfl) c0
@[simp] theorem State.byte_putCpl (s : State) (port fn j : Nat) (c : Cpl) (a0 : Nat) :
    (State.putCpl s port fn j c).byte a0 = s.byte a0 :=
  byte_congr (mem_of_off (State.putCpl_off (M := 0xa00) s port fn j c rfl) rfl) a0
@[simp] theorem State.job_putCpl (s : State) (port fn j : Nat) (c : Cpl) (i0 : Nat) :
    (State.putCpl s port fn j c).job i0 = s.job i0 :=
  job_congr (host_jobs_of_off (State.putCpl_off (M := 0xa00) s port fn j c rfl) rfl) i0
@[simp] theorem State.rd_complete (s : State) (port fn j : Nat) (c : Cpl) (f0 : Fld) :
    (State.complete s port fn j c).rd f0 = s.rd f0 :=
  rd_congr (regs_of_off (State.complete_off (M := 0x1a00) s port fn j c rfl) rfl) f0
@[simp] theorem State.core_complete (s : State) (port fn j : Nat) (c : Cpl) (c0 : Nat) :
    (State.complete s port fn j c).core c0 = s.core c0 :=
  core_congr (chip_cores_of_off (State.complete_off (M := 0x1a00) s port fn j c rfl) rfl) c0
@[simp] theorem State.byte_complete (s : State) (port fn j : Nat) (c : Cpl) (a0 : Nat) :
    (State.complete s port fn j c).byte a0 = s.byte a0 :=
  byte_congr (mem_of_off (State.complete_off (M := 0x1a00) s port fn j c rfl) rfl) a0
@[simp] theorem State.rd_done (s : State) (p : Post) (opcode status result : Nat) (f0 : Fld) :
    (State.done s p opcode status result).rd f0 = s.rd f0 :=
  rd_congr (regs_of_off (State.done_off (M := 0x1a00) s p opcode status result rfl) rfl) f0
@[simp] theorem State.core_done (s : State) (p : Post) (opcode status result : Nat) (c0 : Nat) :
    (State.done s p opcode status result).core c0 = s.core c0 :=
  core_congr (chip_cores_of_off (State.done_off (M := 0x1a00) s p opcode status result rfl) rfl) c0
@[simp] theorem State.byte_done (s : State) (p : Post) (opcode status result : Nat) (a0 : Nat) :
    (State.done s p opcode status result).byte a0 = s.byte a0 :=
  byte_congr (mem_of_off (State.done_off (M := 0x1a00) s p opcode status result rfl) rfl) a0
@[simp] theorem State.rd_reply (s : State) (p : Post) (opcode status : Nat) (f0 : Fld) :
    (State.reply s p opcode status).rd f0 = s.rd f0 :=
  rd_congr (regs_of_off (State.reply_off (M := 0xa00) s p opcode status rfl) rfl) f0
@[simp] theorem State.core_reply (s : State) (p : Post) (opcode status : Nat) (c0 : Nat) :
    (State.reply s p opcode status).core c0 = s.core c0 :=
  core_congr (chip_cores_of_off (State.reply_off (M := 0xa00) s p opcode status rfl) rfl) c0
@[simp] theorem State.byte_reply (s : State) (p : Post) (opcode status : Nat) (a0 : Nat) :
    (State.reply s p opcode status).byte a0 = s.byte a0 :=
  byte_congr (mem_of_off (State.reply_off (M := 0xa00) s p opcode status rfl) rfl) a0
@[simp] theorem State.job_reply (s : State) (p : Post) (opcode status : Nat) (i0 : Nat) :
    (State.reply s p opcode status).job i0 = s.job i0 :=
  job_congr (host_jobs_of_off (State.reply_off (M := 0xa00) s p opcode status rfl) rfl) i0
@[simp] theorem State.rd_await (s : State) (p : Post) (opcode : Nat) (k : PendKind) (f0 : Fld) :
    (State.await s p opcode k).rd f0 = s.rd f0 :=
  rd_congr (regs_of_off (State.await_off (M := 0x2000) s p opcode k rfl) rfl) f0
@[simp] theorem State.core_await (s : State) (p : Post) (opcode : Nat) (k : PendKind) (c0 : Nat) :
    (State.await s p opcode k).core c0 = s.core c0 :=
  core_congr (chip_cores_of_off (State.await_off (M := 0x2000) s p opcode k rfl) rfl) c0
@[simp] theorem State.byte_await (s : State) (p : Post) (opcode : Nat) (k : PendKind) (a0 : Nat) :
    (State.await s p opcode k).byte a0 = s.byte a0 :=
  byte_congr (mem_of_off (State.await_off (M := 0x2000) s p opcode k rfl) rfl) a0
@[simp] theorem State.job_await (s : State) (p : Post) (opcode : Nat) (k : PendKind) (i0 : Nat) :
    (State.await s p opcode k).job i0 = s.job i0 :=
  job_congr (host_jobs_of_off (State.await_off (M := 0x2000) s p opcode k rfl) rfl) i0
@[simp] theorem State.rd_setSreg (s : State) (c r : Nat) (v : Word) (f0 : Fld) :
    (State.setSreg s c r v).rd f0 = s.rd f0 :=
  rd_congr (regs_of_off (State.setSreg_off (M := 0x10) s c r v rfl) rfl) f0
@[simp] theorem State.byte_setSreg (s : State) (c r : Nat) (v : Word) (a0 : Nat) :
    (State.setSreg s c r v).byte a0 = s.byte a0 :=
  byte_congr (mem_of_off (State.setSreg_off (M := 0x10) s c r v rfl) rfl) a0
@[simp] theorem State.job_setSreg (s : State) (c r : Nat) (v : Word) (i0 : Nat) :
    (State.setSreg s c r v).job i0 = s.job i0 :=
  job_congr (host_jobs_of_off (State.setSreg_off (M := 0x10) s c r v rfl) rfl) i0
@[simp] theorem State.byte_coreFault (s : State) (c code arr half pc : Nat) (force : Bool) (a0 : Nat) :
    (State.coreFault s c code arr half pc force).byte a0 = s.byte a0 :=
  byte_congr (mem_of_off (State.coreFault_off (M := 0x100041916) s c code arr half pc force rfl) rfl) a0
@[simp] theorem State.rd_setCtx (s : State) (n : Nat) (c : Ctx) (f0 : Fld) :
    (State.setCtx s n c).rd f0 = s.rd f0 :=
  rd_congr (regs_of_off (State.setCtx_off (M := 0x1000000) s n c rfl) rfl) f0
@[simp] theorem State.core_setCtx (s : State) (n : Nat) (c : Ctx) (c0 : Nat) :
    (State.setCtx s n c).core c0 = s.core c0 :=
  core_congr (chip_cores_of_off (State.setCtx_off (M := 0x1000000) s n c rfl) rfl) c0
@[simp] theorem State.byte_setCtx (s : State) (n : Nat) (c : Ctx) (a0 : Nat) :
    (State.setCtx s n c).byte a0 = s.byte a0 :=
  byte_congr (mem_of_off (State.setCtx_off (M := 0x1000000) s n c rfl) rfl) a0
@[simp] theorem State.job_setCtx (s : State) (n : Nat) (c : Ctx) (i0 : Nat) :
    (State.setCtx s n c).job i0 = s.job i0 :=
  job_congr (host_jobs_of_off (State.setCtx_off (M := 0x1000000) s n c rfl) rfl) i0
@[simp] theorem State.rd_setTrn (s : State) (p : Nat) (t : TrnSt) (f0 : Fld) :
    (State.setTrn s p t).rd f0 = s.rd f0 :=
  rd_congr (regs_of_off (State.setTrn_off (M := 0x800000) s p t rfl) rfl) f0
@[simp] theorem State.core_setTrn (s : State) (p : Nat) (t : TrnSt) (c0 : Nat) :
    (State.setTrn s p t).core c0 = s.core c0 :=
  core_congr (chip_cores_of_off (State.setTrn_off (M := 0x800000) s p t rfl) rfl) c0
@[simp] theorem State.byte_setTrn (s : State) (p : Nat) (t : TrnSt) (a0 : Nat) :
    (State.setTrn s p t).byte a0 = s.byte a0 :=
  byte_congr (mem_of_off (State.setTrn_off (M := 0x800000) s p t rfl) rfl) a0
@[simp] theorem State.job_setTrn (s : State) (p : Nat) (t : TrnSt) (i0 : Nat) :
    (State.setTrn s p t).job i0 = s.job i0 :=
  job_congr (host_jobs_of_off (State.setTrn_off (M := 0x800000) s p t rfl) rfl) i0
@[simp] theorem State.rd_setStk (s : State) (k : Nat) (h : HbmSt) (f0 : Fld) :
    (State.setStk s k h).rd f0 = s.rd f0 :=
  rd_congr (regs_of_off (State.setStk_off (M := 0x100000) s k h rfl) rfl) f0
@[simp] theorem State.core_setStk (s : State) (k : Nat) (h : HbmSt) (c0 : Nat) :
    (State.setStk s k h).core c0 = s.core c0 :=
  core_congr (chip_cores_of_off (State.setStk_off (M := 0x100000) s k h rfl) rfl) c0
@[simp] theorem State.byte_setStk (s : State) (k : Nat) (h : HbmSt) (a0 : Nat) :
    (State.setStk s k h).byte a0 = s.byte a0 :=
  byte_congr (mem_of_off (State.setStk_off (M := 0x100000) s k h rfl) rfl) a0
@[simp] theorem State.job_setStk (s : State) (k : Nat) (h : HbmSt) (i0 : Nat) :
    (State.setStk s k h).job i0 = s.job i0 :=
  job_congr (host_jobs_of_off (State.setStk_off (M := 0x100000) s k h rfl) rfl) i0
@[simp] theorem State.rd_setSeg (s : State) (i : Nat) (x : SegSt) (f0 : Fld) :
    (State.setSeg s i x).rd f0 = s.rd f0 :=
  rd_congr (regs_of_off (State.setSeg_off (M := 0x80) s i x rfl) rfl) f0
@[simp] theorem State.core_setSeg (s : State) (i : Nat) (x : SegSt) (c0 : Nat) :
    (State.setSeg s i x).core c0 = s.core c0 :=
  core_congr (chip_cores_of_off (State.setSeg_off (M := 0x80) s i x rfl) rfl) c0
@[simp] theorem State.byte_setSeg (s : State) (i : Nat) (x : SegSt) (a0 : Nat) :
    (State.setSeg s i x).byte a0 = s.byte a0 :=
  byte_congr (mem_of_off (State.setSeg_off (M := 0x80) s i x rfl) rfl) a0
@[simp] theorem State.job_setSeg (s : State) (i : Nat) (x : SegSt) (i0 : Nat) :
    (State.setSeg s i x).job i0 = s.job i0 :=
  job_congr (host_jobs_of_off (State.setSeg_off (M := 0x80) s i x rfl) rfl) i0
@[simp] theorem State.rd_setUpd (s : State) (p : Nat) (u : UpdSt) (f0 : Fld) :
    (State.setUpd s p u).rd f0 = s.rd f0 :=
  rd_congr (regs_of_off (State.setUpd_off (M := 0x8000000) s p u rfl) rfl) f0
@[simp] theorem State.core_setUpd (s : State) (p : Nat) (u : UpdSt) (c0 : Nat) :
    (State.setUpd s p u).core c0 = s.core c0 :=
  core_congr (chip_cores_of_off (State.setUpd_off (M := 0x8000000) s p u rfl) rfl) c0
@[simp] theorem State.byte_setUpd (s : State) (p : Nat) (u : UpdSt) (a0 : Nat) :
    (State.setUpd s p u).byte a0 = s.byte a0 :=
  byte_congr (mem_of_off (State.setUpd_off (M := 0x8000000) s p u rfl) rfl) a0
@[simp] theorem State.job_setUpd (s : State) (p : Nat) (u : UpdSt) (i0 : Nat) :
    (State.setUpd s p u).job i0 = s.job i0 :=
  job_congr (host_jobs_of_off (State.setUpd_off (M := 0x8000000) s p u rfl) rfl) i0
@[simp] theorem State.rd_setPort (s : State) (p : Nat) (x : PortSt) (f0 : Fld) :
    (State.setPort s p x).rd f0 = s.rd f0 :=
  rd_congr (regs_of_off (State.setPort_off (M := 0x400000) s p x rfl) rfl) f0
@[simp] theorem State.core_setPort (s : State) (p : Nat) (x : PortSt) (c0 : Nat) :
    (State.setPort s p x).core c0 = s.core c0 :=
  core_congr (chip_cores_of_off (State.setPort_off (M := 0x400000) s p x rfl) rfl) c0
@[simp] theorem State.byte_setPort (s : State) (p : Nat) (x : PortSt) (a0 : Nat) :
    (State.setPort s p x).byte a0 = s.byte a0 :=
  byte_congr (mem_of_off (State.setPort_off (M := 0x400000) s p x rfl) rfl) a0
@[simp] theorem State.job_setPort (s : State) (p : Nat) (x : PortSt) (i0 : Nat) :
    (State.setPort s p x).job i0 = s.job i0 :=
  job_congr (host_jobs_of_off (State.setPort_off (M := 0x400000) s p x rfl) rfl) i0
@[simp] theorem State.rd_putObj (s : State) (i : Nat) (o : Option Obj) (f0 : Fld) :
    (State.putObj s i o).rd f0 = s.rd f0 :=
  rd_congr (regs_of_off (State.putObj_off (M := 0x200000) s i o rfl) rfl) f0
@[simp] theorem State.core_putObj (s : State) (i : Nat) (o : Option Obj) (c0 : Nat) :
    (State.putObj s i o).core c0 = s.core c0 :=
  core_congr (chip_cores_of_off (State.putObj_off (M := 0x200000) s i o rfl) rfl) c0
@[simp] theorem State.byte_putObj (s : State) (i : Nat) (o : Option Obj) (a0 : Nat) :
    (State.putObj s i o).byte a0 = s.byte a0 :=
  byte_congr (mem_of_off (State.putObj_off (M := 0x200000) s i o rfl) rfl) a0
@[simp] theorem State.job_putObj (s : State) (i : Nat) (o : Option Obj) (i0 : Nat) :
    (State.putObj s i o).job i0 = s.job i0 :=
  job_congr (host_jobs_of_off (State.putObj_off (M := 0x200000) s i o rfl) rfl) i0
@[simp] theorem State.rd_modRoll (s : State) (f : RollSt → RollSt) (f0 : Fld) :
    (State.modRoll s f).rd f0 = s.rd f0 :=
  rd_congr (regs_of_off (State.modRoll_off (M := 0x1000000) s f rfl) rfl) f0
@[simp] theorem State.core_modRoll (s : State) (f : RollSt → RollSt) (c0 : Nat) :
    (State.modRoll s f).core c0 = s.core c0 :=
  core_congr (chip_cores_of_off (State.modRoll_off (M := 0x1000000) s f rfl) rfl) c0
@[simp] theorem State.byte_modRoll (s : State) (f : RollSt → RollSt) (a0 : Nat) :
    (State.modRoll s f).byte a0 = s.byte a0 :=
  byte_congr (mem_of_off (State.modRoll_off (M := 0x1000000) s f rfl) rfl) a0
@[simp] theorem State.job_modRoll (s : State) (f : RollSt → RollSt) (i0 : Nat) :
    (State.modRoll s f).job i0 = s.job i0 :=
  job_congr (host_jobs_of_off (State.modRoll_off (M := 0x1000000) s f rfl) rfl) i0
@[simp] theorem State.rd_modEng (s : State) (f : CollEng → CollEng) (f0 : Fld) :
    (State.modEng s f).rd f0 = s.rd f0 :=
  rd_congr (regs_of_off (State.modEng_off (M := 0x2000000) s f rfl) rfl) f0
@[simp] theorem State.core_modEng (s : State) (f : CollEng → CollEng) (c0 : Nat) :
    (State.modEng s f).core c0 = s.core c0 :=
  core_congr (chip_cores_of_off (State.modEng_off (M := 0x2000000) s f rfl) rfl) c0
@[simp] theorem State.byte_modEng (s : State) (f : CollEng → CollEng) (a0 : Nat) :
    (State.modEng s f).byte a0 = s.byte a0 :=
  byte_congr (mem_of_off (State.modEng_off (M := 0x2000000) s f rfl) rfl) a0
@[simp] theorem State.job_modEng (s : State) (f : CollEng → CollEng) (i0 : Nat) :
    (State.modEng s f).job i0 = s.job i0 :=
  job_congr (host_jobs_of_off (State.modEng_off (M := 0x2000000) s f rfl) rfl) i0
@[simp] theorem State.rd_modSched (s : State) (f : SchedSt → SchedSt) (f0 : Fld) :
    (State.modSched s f).rd f0 = s.rd f0 :=
  rd_congr (regs_of_off (State.modSched_off (M := 0x4000000) s f rfl) rfl) f0
@[simp] theorem State.core_modSched (s : State) (f : SchedSt → SchedSt) (c0 : Nat) :
    (State.modSched s f).core c0 = s.core c0 :=
  core_congr (chip_cores_of_off (State.modSched_off (M := 0x4000000) s f rfl) rfl) c0
@[simp] theorem State.byte_modSched (s : State) (f : SchedSt → SchedSt) (a0 : Nat) :
    (State.modSched s f).byte a0 = s.byte a0 :=
  byte_congr (mem_of_off (State.modSched_off (M := 0x4000000) s f rfl) rfl) a0
@[simp] theorem State.job_modSched (s : State) (f : SchedSt → SchedSt) (i0 : Nat) :
    (State.modSched s f).job i0 = s.job i0 :=
  job_congr (host_jobs_of_off (State.modSched_off (M := 0x4000000) s f rfl) rfl) i0
@[simp] theorem State.rd_setCauses (s : State) (d v : Nat) (f0 : Fld) :
    (State.setCauses s d v).rd f0 = s.rd f0 :=
  rd_congr (regs_of_off (State.setCauses_off (M := 0x100000000) s d v rfl) rfl) f0
@[simp] theorem State.core_setCauses (s : State) (d v : Nat) (c0 : Nat) :
    (State.setCauses s d v).core c0 = s.core c0 :=
  core_congr (chip_cores_of_off (State.setCauses_off (M := 0x100000000) s d v rfl) rfl) c0
@[simp] theorem State.byte_setCauses (s : State) (d v : Nat) (a0 : Nat) :
    (State.setCauses s d v).byte a0 = s.byte a0 :=
  byte_congr (mem_of_off (State.setCauses_off (M := 0x100000000) s d v rfl) rfl) a0
@[simp] theorem State.job_setCauses (s : State) (d v : Nat) (i0 : Nat) :
    (State.setCauses s d v).job i0 = s.job i0 :=
  job_congr (host_jobs_of_off (State.setCauses_off (M := 0x100000000) s d v rfl) rfl) i0
@[simp] theorem State.rd_answerTo (s : State) (path : Path) (a : Answer) (f0 : Fld) :
    (State.answerTo s path a).rd f0 = s.rd f0 :=
  rd_congr (regs_of_off (State.answerTo_off (M := 0x10000) s path a rfl) rfl) f0
@[simp] theorem State.core_answerTo (s : State) (path : Path) (a : Answer) (c0 : Nat) :
    (State.answerTo s path a).core c0 = s.core c0 :=
  core_congr (chip_cores_of_off (State.answerTo_off (M := 0x10000) s path a rfl) rfl) c0
@[simp] theorem State.byte_answerTo (s : State) (path : Path) (a : Answer) (a0 : Nat) :
    (State.answerTo s path a).byte a0 = s.byte a0 :=
  byte_congr (mem_of_off (State.answerTo_off (M := 0x10000) s path a rfl) rfl) a0
@[simp] theorem State.job_answerTo (s : State) (path : Path) (a : Answer) (i0 : Nat) :
    (State.answerTo s path a).job i0 = s.job i0 :=
  job_congr (host_jobs_of_off (State.answerTo_off (M := 0x10000) s path a rfl) rfl) i0
@[simp] theorem State.core_standbyExit (s : State) (c0 : Nat) :
    (State.standbyExit s).core c0 = s.core c0 :=
  core_congr (chip_cores_of_off (State.standbyExit_off (M := 0x100004) s rfl) rfl) c0
@[simp] theorem State.byte_standbyExit (s : State) (a0 : Nat) :
    (State.standbyExit s).byte a0 = s.byte a0 :=
  byte_congr (mem_of_off (State.standbyExit_off (M := 0x100004) s rfl) rfl) a0
@[simp] theorem State.job_standbyExit (s : State) (i0 : Nat) :
    (State.standbyExit s).job i0 = s.job i0 :=
  job_congr (host_jobs_of_off (State.standbyExit_off (M := 0x100004) s rfl) rfl) i0
@[simp] theorem State.rd_abortJob (s : State) (id code module : Nat) (f0 : Fld) :
    (State.abortJob s id code module).rd f0 = s.rd f0 :=
  rd_congr (regs_of_off (State.abortJob_off (M := 0x1110) s id code module rfl) rfl) f0
@[simp] theorem State.byte_abortJob (s : State) (id code module : Nat) (a0 : Nat) :
    (State.abortJob s id code module).byte a0 = s.byte a0 :=
  byte_congr (mem_of_off (State.abortJob_off (M := 0x1110) s id code module rfl) rfl) a0
@[simp] theorem State.rd_resetScope (s : State) (code part job : Nat) (f0 : Fld) :
    (State.resetScope s code part job).rd f0 = s.rd f0 :=
  rd_congr (regs_of_off (State.resetScope_off (M := 0x1110) s code part job rfl) rfl) f0
@[simp] theorem State.byte_resetScope (s : State) (code part job : Nat) (a0 : Nat) :
    (State.resetScope s code part job).byte a0 = s.byte a0 :=
  byte_congr (mem_of_off (State.resetScope_off (M := 0x1110) s code part job rfl) rfl) a0
@[simp] theorem State.rd_modJob (s : State) (id : Nat) (f : Job → Job) (f0 : Fld) :
    (State.modJob s id f).rd f0 = s.rd f0 :=
  rd_congr (regs_of_off (State.modJob_off (M := 0x1000) s id f rfl) rfl) f0
@[simp] theorem State.core_modJob (s : State) (id : Nat) (f : Job → Job) (c0 : Nat) :
    (State.modJob s id f).core c0 = s.core c0 :=
  core_congr (chip_cores_of_off (State.modJob_off (M := 0x1000) s id f rfl) rfl) c0
@[simp] theorem State.byte_modJob (s : State) (id : Nat) (f : Job → Job) (a0 : Nat) :
    (State.modJob s id f).byte a0 = s.byte a0 :=
  byte_congr (mem_of_off (State.modJob_off (M := 0x1000) s id f rfl) rfl) a0
@[simp] theorem State.rd_mapJobs (s : State) (f : Job → Job) (f0 : Fld) :
    (State.mapJobs s f).rd f0 = s.rd f0 :=
  rd_congr (regs_of_off (State.mapJobs_off (M := 0x1000) s f rfl) rfl) f0
@[simp] theorem State.core_mapJobs (s : State) (f : Job → Job) (c0 : Nat) :
    (State.mapJobs s f).core c0 = s.core c0 :=
  core_congr (chip_cores_of_off (State.mapJobs_off (M := 0x1000) s f rfl) rfl) c0
@[simp] theorem State.byte_mapJobs (s : State) (f : Job → Job) (a0 : Nat) :
    (State.mapJobs s f).byte a0 = s.byte a0 :=
  byte_congr (mem_of_off (State.mapJobs_off (M := 0x1000) s f rfl) rfl) a0
@[simp] theorem State.core_hostErr (s : State) (w code job : Nat) (c0 : Nat) :
    (State.hostErr s w code job).core c0 = s.core c0 :=
  core_congr (chip_cores_of_off (State.hostErr_off (M := 0x4) s w code job rfl) rfl) c0
@[simp] theorem State.byte_hostErr (s : State) (w code job : Nat) (a0 : Nat) :
    (State.hostErr s w code job).byte a0 = s.byte a0 :=
  byte_congr (mem_of_off (State.hostErr_off (M := 0x4) s w code job rfl) rfl) a0
@[simp] theorem State.job_hostErr (s : State) (w code job : Nat) (i0 : Nat) :
    (State.hostErr s w code job).job i0 = s.job i0 :=
  job_congr (host_jobs_of_off (State.hostErr_off (M := 0x4) s w code job rfl) rfl) i0
@[simp] theorem State.byte_hostContained (s : State) (code : Nat) (j : Job) (a0 : Nat) :
    (State.hostContained s code j).byte a0 = s.byte a0 :=
  byte_congr (mem_of_off (State.hostContained_off (M := 0x100041916) s code j rfl) rfl) a0
@[simp] theorem State.byte_containedPart (s : State) (code p : Nat) (a0 : Nat) :
    (State.containedPart s code p).byte a0 = s.byte a0 :=
  byte_congr (mem_of_off (State.containedPart_off (M := 0x100041916) s code p rfl) rfl) a0
@[simp] theorem State.byte_refuseHub (s : State) (p a : Nat) (r : Reach) (a0 : Nat) :
    (State.refuseHub s p a r).byte a0 = s.byte a0 :=
  byte_congr (mem_of_off (State.refuseHub_off (M := 0x100041916) s p a r rfl) rfl) a0
@[simp] theorem State.byte_poisonControl (s : State) (p : Nat) (a0 : Nat) :
    (State.poisonControl s p).byte a0 = s.byte a0 :=
  byte_congr (mem_of_off (State.poisonControl_off (M := 0x100041916) s p rfl) rfl) a0
@[simp] theorem State.rd_finish (s : State) (f : PendCmd → Bool) (status result : Nat) (f0 : Fld) :
    (State.finish s f status result).rd f0 = s.rd f0 :=
  rd_congr (regs_of_off (State.finish_off (M := 0x3a00) s f status result rfl) rfl) f0
@[simp] theorem State.core_finish (s : State) (f : PendCmd → Bool) (status result : Nat) (c0 : Nat) :
    (State.finish s f status result).core c0 = s.core c0 :=
  core_congr (chip_cores_of_off (State.finish_off (M := 0x3a00) s f status result rfl) rfl) c0
@[simp] theorem State.byte_finish (s : State) (f : PendCmd → Bool) (status result : Nat) (a0 : Nat) :
    (State.finish s f status result).byte a0 = s.byte a0 :=
  byte_congr (mem_of_off (State.finish_off (M := 0x3a00) s f status result rfl) rfl) a0
@[simp] theorem State.rd_hostWords (s : State) (port a : Nat) (ws : List Nat) (f0 : Fld) :
    (State.hostWords s port a ws).rd f0 = s.rd f0 :=
  rd_congr (regs_of_off (State.hostWords_off (M := 0x200) s port a ws rfl) rfl) f0
@[simp] theorem State.core_hostWords (s : State) (port a : Nat) (ws : List Nat) (c0 : Nat) :
    (State.hostWords s port a ws).core c0 = s.core c0 :=
  core_congr (chip_cores_of_off (State.hostWords_off (M := 0x200) s port a ws rfl) rfl) c0
@[simp] theorem State.byte_hostWords (s : State) (port a : Nat) (ws : List Nat) (a0 : Nat) :
    (State.hostWords s port a ws).byte a0 = s.byte a0 :=
  byte_congr (mem_of_off (State.hostWords_off (M := 0x200) s port a ws rfl) rfl) a0
@[simp] theorem State.job_hostWords (s : State) (port a : Nat) (ws : List Nat) (i0 : Nat) :
    (State.hostWords s port a ws).job i0 = s.job i0 :=
  job_congr (host_jobs_of_off (State.hostWords_off (M := 0x200) s port a ws rfl) rfl) i0
@[simp] theorem State.rd_setLimit (s : State) (code unit last reps : Nat) (f0 : Fld) :
    (State.setLimit s code unit last reps).rd f0 = s.rd f0 :=
  rd_congr (regs_of_off (State.setLimit_off (M := 0x40000) s code unit last reps rfl) rfl) f0
@[simp] theorem State.core_setLimit (s : State) (code unit last reps : Nat) (c0 : Nat) :
    (State.setLimit s code unit last reps).core c0 = s.core c0 :=
  core_congr (chip_cores_of_off (State.setLimit_off (M := 0x40000) s code unit last reps rfl) rfl) c0
@[simp] theorem State.byte_setLimit (s : State) (code unit last reps : Nat) (a0 : Nat) :
    (State.setLimit s code unit last reps).byte a0 = s.byte a0 :=
  byte_congr (mem_of_off (State.setLimit_off (M := 0x40000) s code unit last reps rfl) rfl) a0
@[simp] theorem State.job_setLimit (s : State) (code unit last reps : Nat) (i0 : Nat) :
    (State.setLimit s code unit last reps).job i0 = s.job i0 :=
  job_congr (host_jobs_of_off (State.setLimit_off (M := 0x40000) s code unit last reps rfl) rfl) i0
@[simp] theorem State.updOf_setUpd (s : State) (p : Nat) (u : UpdSt) (j : Nat) :
    (s.setUpd p u).updOf j = if j = p then some u else s.updOf j := by
  simp [State.updOf, State.setUpd, Tab.get_set]
theorem State.ring_setRing (s : State) (w j : Nat) (r : RingSt) (v k : Nat) :
    (s.setRing w j r).ring v k = if v * 8 + k = w * 8 + j then r else s.ring v k := by
  simp [State.ring, State.setRing, Tab.get_set]
theorem State.blk_setBlk (s : State) (m b : Nat) (x : Blk) (n c : Nat) :
    (s.setBlk m b x).blk n c = if n * 2 ^ 19 + c = m * 2 ^ 19 + b then x else s.blk n c := by
  simp [State.blk, State.setBlk, Tab.get_set]
@[simp] theorem State.objAt_putObj (s : State) (i : Nat) (o : Option Obj) (j : Nat) :
    (s.putObj i o).objAt j = if j = i then o else s.objAt j := by
  simp [State.objAt, State.putObj, Tab.get_set]
@[simp] theorem State.core_modCore (s : State) (c : Nat) (f : CoreSt → CoreSt) (j : Nat) :
    (s.modCore c f).core j = if j = c then f (s.core c) else s.core j := by
  simp [State.modCore]
@[simp] theorem CoreSt.s_setS (x : CoreSt) (r : Nat) (v : Word) (q : Nat) :
    (x.setS r v).s q = if q = 0 then 0 else if q = r then v else x.s q := by
  unfold CoreSt.setS CoreSt.s
  by_cases hq : q = 0
  · simp [hq]
  · by_cases hr : r = 0
    · have : q ≠ r := by omega
      simp [hq, hr]
    · simp [hq, hr, Tab.get_set]

end Sys2Proof.Machine
end

