-- ==== Sys2Proof/Laws/Claims.lean ====
section
/-! SUPPORT. What the words of the claims say of the shared operations: an instruction that is ready issues, and a scalar result
leaves what `CtlDone` says. -/
namespace Sys2Proof.Machine

/-- A ready instruction issues: the counter moves on, and its meaning runs. -/
theorem State.issue_ready {s : State} {c n : Nat} (h : s.Ready c n) (k : State → Nat → State) :
    s.issue c n k = k (s.modCore c (fun x => { x with pc := (s.core c).pc + n })) (s.core c).pc := by
  obtain ⟨h1, h2, h3⟩ := h
  unfold State.issue
  have : ¬ (s.core c).pc + n > 8192 := by omega
  have h4 : ((imemWords c (s.core c).pc n).any (fun w => s.chip.imemPoison.contains w)) = false := by
    rw [List.any_eq_false]; intro w hw; simpa using (h3 w hw).1
  have h5 : (imemWords c (s.core c).pc n).filter (fun w => s.chip.imemErr.contains w) = [] := by
    rw [List.filter_eq_nil_iff]; intro w hw; simpa using (h3 w hw).2
  simp only [h1, Bool.not_true, Bool.false_eq_true, if_false, this, h4, State.fetchCorr, h5, List.foldl_nil]

/-- A scalar register written after the counter moved on. -/
theorem State.ctlDone_set {c pc d : Nat} {v : Word} {s : State} :
    CtlDone c pc d v s ((s.modCore c (fun x => { x with pc := pc })).setSreg c d v) := by
  constructor <;> simp [State.setSreg, State.modCore, State.sreg, CoreSt.setS, CoreSt.s, Only, areas, Area.bit]
  · split <;> simp_all
  · intro r hr; by_cases h0 : r = 0
    · simp [h0]
    · by_cases hd : d = 0 <;> simp [h0, hd, Tab.get_set_ne, hr]
  · split <;> simp_all
  · split <;> simp_all
  · intro k hk; simp [hk]

end Sys2Proof.Machine
end

