-- ==== Sys2Proof/Laws/Kept.lean ====
section
/-! SUPPORT. The relation that every step keeps: the queue stands, no fuse is undone, no field record is gone; and the operations that
write fuses or append records. -/
namespace Sys2Proof.Machine

/-- The queue stands, no fuse is undone (R430), no field record is gone (R413). -/
def Kept (s t : State) : Prop := t.pending = s.pending ∧ FusesKept s t ∧ RecordsKept s t

theorem Kept.refl (s : State) : Kept s s := ⟨rfl, ⟨le_refl _, fun _ h => h⟩, List.prefix_refl _⟩
theorem Kept.trans {s t u : State} (a : Kept s t) (b : Kept t u) : Kept s u :=
  ⟨b.1.trans a.1, ⟨le_trans a.2.1.1 b.2.1.1, fun i h => b.2.1.2 i (a.2.1.2 i h)⟩, a.2.2.trans b.2.2⟩
/-- What writes neither the queue nor fuses nor field records keeps them. -/
theorem Kept.of_off {s t : State} (h : t.off 0x1cffffffe = s.off 0x1cffffffe) : Kept s t := by
  have h1 : t.pending = s.pending := by simpa [State.off] using congrArg State.pending h
  have h2 : t.boot.svnMin = s.boot.svnMin := by simpa [State.off] using congrArg (fun x => x.boot.svnMin) h
  have h3 : t.boot.revoked = s.boot.revoked := by simpa [State.off] using congrArg (fun x => x.boot.revoked) h
  have h4 : t.boot.fields = s.boot.fields := by simpa [State.off] using congrArg (fun x => x.boot.fields) h
  refine ⟨h1, ⟨le_of_eq h2.symm, fun i hi => by rw [h3]; exact hi⟩, ?_⟩
  unfold RecordsKept; rw [h4]
theorem Kept.off {s t u : State} (a : Kept s t) (h : u.off 0x1cffffffe = t.off 0x1cffffffe) : Kept s u := a.trans (.of_off h)
theorem Kept.ite {c : Prop} [Decidable c] {s x y : State} (hx : Kept s x) (hy : Kept s y) :
    Kept s (if c then x else y) := by split <;> assumption
theorem Kept.foldl {α : Type} (f : State → α → State) (h : ∀ s x, Kept s (f s x)) (l : List α) (s : State) :
    Kept s (l.foldl f s) := by
  induction l generalizing s with
  | nil => exact .refl s
  | cons x t ih => exact (h s x).trans (ih _)

theorem State.appendField_kept (s : State) (r : FieldRec) : Kept s (s.appendField r) := by
  unfold State.appendField; split
  · exact ⟨rfl, ⟨le_refl _, fun _ h => h⟩, List.prefix_append _ _⟩
  · exact .of_off (by simp)
theorem State.retireCore_kept (s : State) (c : Nat) : Kept s (s.retireCore c) := by
  unfold State.retireCore; dsimp only
  have h : ∀ (s : State) (l : Tab Nat), Kept s { s with clk := { s.clk with life := l } } := fun s l => .of_off rfl
  refine ((s.appendField_kept _).trans (h _ _)).trans (Kept.ite (.of_off (by simp)) (.refl _))
theorem State.rowRepairs_kept (s : State) (l : List FieldRec) : Kept s (s.rowRepairs l) := by
  induction l generalizing s with
  | nil => exact .refl s
  | cons r t ih =>
    rw [State.rowRepairs]; refine Kept.trans ?_ (ih _)
    split
    · exact .refl s
    · split
      · exact (Kept.of_off (by simp)).trans (State.appendField_kept _ _)
      · exact State.appendField_kept _ _
theorem State.bootTrain_kept (s : State) (a b : List Nat) : Kept s (s.bootTrain a b) := by
  have h := (Kept.of_off (s.bootPorts_off rfl)).trans
    (State.rowRepairs_kept s.bootPorts (s.bootPorts.boot.fields.filterMap id))
  refine h.off ?_
  unfold State.bootTrain; simp
theorem State.bootFirmware_kept (s : State) (l : List Nat) : Kept s (s.bootFirmware l) := by
  unfold State.bootFirmware
  refine Kept.off ?_ ((State.wr_off _ _ _ rfl).trans (State.bootCores_off _ rfl))
  refine Kept.trans (.of_off (State.wrs_off _ _ rfl)) (Kept.foldl _ (fun s c => ?_) _ _)
  exact .ite (.refl s) ((Kept.of_off (State.modCore_off _ _ _ rfl)).trans (State.retireCore_kept _ _))
theorem State.bootStage_kept (s : State) (a b c : List Nat) (x : BitVec 6) : Kept s (s.bootStage a b c x) := by
  unfold State.bootStage; split
  · exact .refl s
  · split
    · exact .of_off (by simp)
    · exact .of_off (by simp)
    · exact .of_off (by simp)
    · exact .of_off (by simp)
    · exact .of_off (by simp)
    · exact s.bootFirmware_kept c
    · exact .ite (.refl s) (s.bootTrain_kept a b)
    · exact .refl s
theorem State.hbmPprDone_kept (s : State) (k : Nat) (ok : Bool) (pc bank row : Nat) :
    Kept s (s.hbmPprDone k ok pc bank row) := by
  unfold State.hbmPprDone; split
  · exact .refl s
  · dsimp only; split
    · exact .of_off (by simp [off_ite])
    · exact (Kept.of_off (by simp)).trans (State.appendField_kept _ _)
theorem State.marchDone_kept (s : State) (w : Nat) (fails : List MarchFail) (cycles : Nat) :
    Kept s (s.marchDone w fails cycles) := by
  unfold State.marchDone; split
  · exact .refl s
  · dsimp only
    generalize hs : (if (_ : Nat) / 8 % 2 = 0 then _ else _ : State) = s1
    have h1 : Kept s s1 := by
      rw [← hs]; refine .of_off ?_
      rw [off_ite, State.marchLeaves_off _ _ _ rfl, ite_self, foldl_off _ (by simp)]
      split <;> simp
    exact h1.trans (.ite (State.retireCore_kept _ _) (.refl _))
theorem State.repairRow_kept (s : State) (k ch pc bank row : Nat) : Kept s (s.repairRow k ch pc bank row) := by
  unfold State.repairRow; split
  · exact .of_off (by simp)
  · split
    · exact .ite (.refl s) (State.appendField_kept _ _)
    · exact State.appendField_kept _ _
theorem State.countRow_kept (s : State) (k ch pc bank row : Nat) : Kept s (s.countRow k ch pc bank row) := by
  unfold State.countRow; dsimp only
  refine (Kept.of_off (State.setStk_off s k _ rfl)).trans (.ite (State.repairRow_kept _ _ _ _ _ _) (.refl _))
theorem State.scrubHbm_kept (s : State) (a st : Nat) (d : List Byte) : Kept s (s.scrubHbm a st d) := by
  unfold State.scrubHbm; split
  · exact .refl s
  · dsimp only; split
    · exact .refl s
    · split
      · exact (Kept.of_off (by simp)).trans (State.countRow_kept _ _ _ _ _ _)
      · refine Kept.ite (Kept.off ?_ (State.houseFound_off _ _ rfl)) ?_
        all_goals exact (Kept.of_off (by simp)).trans (State.repairRow_kept _ _ _ _ _ _)
theorem State.scrubVisit_kept (s : State) (t : ScrubTarget) (raw : BitVec 288) : Kept s (s.scrubVisit t raw) := by
  unfold State.scrubVisit; dsimp only; split
  · exact .refl s
  · split
    · split
      · exact .refl s
      · split
        · exact s.scrubHbm_kept _ _ _
        · exact .of_off (by simp)
        · exact .of_off (by simp)
        · exact .refl s
    · exact .of_off (by simp [off_ite])
    · exact .of_off (by simp [off_ite])
    · exact .refl s
theorem State.scrubAny_kept (s : State) (t : ScrubTarget) (raw : BitVec 288) : Kept s (s.scrubAny t raw) := by
  unfold State.scrubAny; split
  · exact .of_off (by simp [off_ite])
  · exact s.scrubVisit_kept t raw
theorem State.served_kept (s : State) (path : Path) (k : State → State) (h : ∀ s, Kept s (k s)) :
    Kept s (s.served path k) := by
  unfold State.served; split
  · exact .refl s
  · exact .ite (.of_off (by simp)) (h s)
theorem State.svnCommit_kept (s : State) (path : Path) (svn : Nat) (ok : Bool) : Kept s (s.svnCommit path svn ok) := by
  refine State.served_kept _ _ _ (fun s => ?_)
  dsimp only; split
  · exact .of_off (by simp)
  · rename_i h
    simp only [Bool.or_eq_true, decide_eq_true_eq, not_or, not_lt] at h
    have h1 : Kept s { s with boot := { s.boot with svnMin := svn } } :=
      ⟨rfl, ⟨h.2, fun _ x => x⟩, List.prefix_refl _⟩
    exact h1.off (by simp)
theorem State.revoke_kept (s : State) (path : Path) (slot : Nat) (a b : Bool) : Kept s (s.revoke path slot a b) := by
  refine State.served_kept _ _ _ (fun s => ?_)
  refine Kept.ite (.of_off (by simp)) ?_
  · have h1 : Kept s { s with boot := { s.boot with revoked := s.boot.revoked ||| 2 ^ slot } } :=
      ⟨rfl, ⟨le_refl _, fun i x => by rw [Nat.testBit_lor, x, Bool.true_or]⟩, List.prefix_refl _⟩
    exact h1.off (by simp)

end Sys2Proof.Machine
end

