-- ==== Sys2Proof/Laws/Memory.lean ====
section
/-! SUPPORT. What the operations over memory do: which byte reads as what afterwards, and that they keep the memory's canonical form. -/
namespace Sys2Proof.Machine

/-- The memory after a piece has landed: what its writer may have waited on, and the gradient lines it completes, are elsewhere. -/
theorem State.mem_pasteBy (s : State) (w : OwnWriter) (a n : Nat) (d : Piece) :
    (s.pasteBy w a n d).mem = pasteTab s.mem a n d.data := by
  have h1 : ((s.touchOps w a n).wake a n).mem = s.mem := by
    have := (State.wake_off (M := 0x90) (s.touchOps w a n) a n rfl).trans (State.touchOps_off s w a n rfl)
    simpa [State.off] using congrArg State.mem this
  have h2 : ((s.landBy w a n d).intake a n).mem = (s.landBy w a n d).mem := by
    have := State.intake_off (M := 0x8000000) (s.landBy w a n d) a n rfl
    simpa [State.off] using congrArg State.mem this
  unfold State.pasteBy; rw [h2]; unfold State.landBy; dsimp only; rw [h1]
/-- A byte after a paste: the piece's inside the range, the old one outside it. -/
theorem State.byte_paste (s : State) (a n : Nat) (d : Piece) (k : Nat) :
    (s.paste a n d).byte k = if a ≤ k ∧ k < a + n then Tab.get 0 d.data (k - a) else s.byte k := by
  unfold State.byte State.paste
  rw [State.mem_pasteBy, get_pasteTab]
/-- The bytes of a list, numbered from `i`. -/
theorem get_bytesTab (bs : List Byte) (i k : Nat) : Tab.get 0 (bytesTab bs i) k = if i ≤ k then bs.getD (k - i) 0 else 0 := by
  induction bs generalizing i with
  | nil => simp [bytesTab, Tab.get]
  | cons b t ih =>
    have hi : Tab.get 0 (bytesTab t (i + 1)) k = if i + 1 ≤ k then t.getD (k - (i + 1)) 0 else 0 := ih (i + 1)
    simp only [bytesTab]
    by_cases hk : k = i
    · subst hk
      split
      · rename_i hb; rw [hi, if_neg (by omega), if_pos (le_refl _), Nat.sub_self]; exact hb.symm
      · simp only [Tab.get, if_pos, le_refl, Nat.sub_self]; rfl
    · have hl : Tab.get 0 (if b = 0 then bytesTab t (i + 1) else (i, b) :: bytesTab t (i + 1)) k = Tab.get 0 (bytesTab t (i + 1)) k := by
        split
        · rfl
        · simp only [Tab.get, if_neg hk]
      rw [hl, hi]
      by_cases h : i ≤ k
      · rw [if_pos (by omega), if_pos h]
        have : k - i = (k - (i + 1)) + 1 := by omega
        rw [this]; rfl
      · rw [if_neg (by omega), if_neg h]
/-- A byte after a store: the stored byte inside the range, the old one outside it. -/
theorem State.byte_store (s : State) (a : Nat) (bs : List Byte) (k : Nat) :
    (s.store a bs).byte k = if a ≤ k ∧ k < a + bs.length then bs.getD (k - a) 0 else s.byte k := by
  unfold State.store; rw [State.byte_paste]
  simp only [Piece.ofBytes, get_bytesTab, Nat.zero_le, if_true, Nat.sub_zero]

/-- Every piece pasted leaves a memory in canonical form in canonical form. -/
theorem State.wf_pasteBy (s : State) (w : OwnWriter) (a n : Nat) (d : Piece) (h : Memory.wf s.mem = true) :
    Memory.wf (s.pasteBy w a n d).mem = true := by
  rw [State.mem_pasteBy]; exact wf_pasteTab _ _ _ _ h
theorem State.wf_paste (s : State) (a n : Nat) (d : Piece) (h : Memory.wf s.mem = true) : Memory.wf (s.paste a n d).mem = true :=
  s.wf_pasteBy none a n d h
theorem State.wf_store (s : State) (a : Nat) (bs : List Byte) (h : Memory.wf s.mem = true) : Memory.wf (s.store a bs).mem = true :=
  s.wf_paste _ _ _ h
theorem State.wf_storeLE (s : State) (a n v : Nat) (h : Memory.wf s.mem = true) : Memory.wf (s.storeLE a n v).mem = true :=
  s.wf_paste _ _ _ h
theorem State.wf_poisonRange (s : State) (a n : Nat) (h : Memory.wf s.mem = true) : Memory.wf (s.poisonRange a n).mem = true := h
theorem State.wf_copyRows (a b n sa sb r : Nat) (s : State) (h : Memory.wf s.mem = true) :
    Memory.wf (s.copyRows a b n sa sb r).mem = true := by
  induction r generalizing a b s with
  | zero => exact h
  | succ r ih => exact ih _ _ _ (s.wf_paste _ _ _ h)
theorem State.wf_fillSeg (s : State) (w : Nat) (ab : Bool) (g : Nat) (d : Tab Byte) (bad : Nat → Bool) (h : Memory.wf s.mem = true) :
    Memory.wf (s.fillSeg w ab g d bad).mem = true := by
  unfold State.fillSeg; split
  · exact h
  · exact wf_pasteTab _ _ _ _ h
/-- What an operation leaves alone of the memory keeps its form. -/
theorem wf_of_off {s t : State} (e : t.off 0x1fffffff7 = s.off 0x1fffffff7) (h : Memory.wf s.mem = true) : Memory.wf t.mem = true := by
  have : t.mem = s.mem := by simpa [State.off] using congrArg State.mem e
  rw [this]; exact h
theorem wf_foldl {α : Type} (f : State → α → State) (hf : ∀ s x, Memory.wf s.mem = true → Memory.wf (f s x).mem = true) (l : List α) (s : State)
    (h : Memory.wf s.mem = true) : Memory.wf (l.foldl f s).mem = true := by
  induction l generalizing s with
  | nil => exact h
  | cons x t ih => exact ih _ (hf s x h)

end Sys2Proof.Machine
end

