-- ==== Sys2Proof/Laws/Ops.lean ====
section
/-! SUPPORT. What the shared operations do, each said once: issue of an instruction, event records, faults of a core, contained
errors, and bytes of memory after a write. -/
namespace Sys2Proof.Machine

/-! ## Fields of one register -/

/-- Two fields of a register share no bit. -/
def Fld.apart (f g : Fld) : Bool :=
  Nat.ble (f.lo + f.w) 64 && (Nat.ble (f.lo + f.w) g.lo || Nat.ble (g.lo + g.w) f.lo)
/-- A field of its own bits keeps its value. -/
theorem State.rd_wr_other (s : State) (f g : Fld) (v : Nat) (h : f.apart g = true) : (s.wr f v).rd g = s.rd g := by
  simp only [Fld.apart, Bool.and_eq_true, Bool.or_eq_true, Nat.ble_eq] at h
  exact State.rd_wr_apart s f g v h.1 h.2
/-- A field reads as what was written. -/
theorem State.rd_wr_this (s : State) (f : Fld) (v : Nat) (h : Nat.ble (f.lo + f.w) 64 = true) : (s.wr f v).rd f = v % 2 ^ f.w :=
  State.rd_wr_self s f v (Nat.le_of_ble_eq_true h)

/-! ## Event records and contained errors -/

/-- A field that lies neither in the event log nor in its head. -/
def Fld.offLog (f : Fld) : Prop := f.reg ≠ 0x600008 ∧ (f.reg < 0x620000 ∨ 0x640000 ≤ f.reg)

theorem State.rd_wrs_ne (g : Fld) : ∀ (l : List (Fld × Nat)) (s : State), (∀ p ∈ l, g.reg ≠ p.1.reg) → (s.wrs l).rd g = s.rd g
  | [], _, _ => rfl
  | (f, v) :: t, s, h => by
    rw [State.wrs_cons, State.rd_wrs_ne g t _ (fun p hp => h p (List.mem_cons_of_mem _ hp)),
      State.rd_wr_ne s f g v (h _ (List.mem_cons_self ..))]
theorem State.rd_count_ne (s : State) (f g : Fld) (n : Nat) (h : g.reg ≠ f.reg) : (s.count f n).rd g = s.rd g :=
  State.rd_wr_ne _ _ _ _ h
theorem State.rd_putEvent (s : State) (code cls part job unit detail rep : Nat) (f : Fld) (h : f.offLog) :
    (s.putEvent code cls part job unit detail rep).rd f = s.rd f := by
  obtain ⟨h1, h2⟩ := h
  have key : ∀ (s1 : State) (n a b c d e : Nat), n < 4096 → (s1.wrs [(evtFld n 0, a), (evtFld n 1, b), (evtFld n 2, c),
      (evtFld n 3, d), (R.TEL.EVT_HEAD.SEQ, e)]).rd f = s1.rd f := by
    intro s1 n a b c d e hn
    apply State.rd_wrs_ne
    simp only [List.mem_cons, List.not_mem_nil, or_false, evtFld, R.TEL.EVT.WORD, R.TEL.EVT_HEAD.SEQ]
    rintro p (hp | hp | hp | hp | hp) <;> subst hp <;> dsimp only <;> omega
  have hn : s.rd R.TEL.EVT_HEAD.SEQ % 4096 < 4096 := Nat.mod_lt _ (by omega)
  have hc : (s.count R.TEL.EVT_HEAD.LOST 1).rd f = s.rd f := State.rd_count_ne _ _ _ _ h1
  have ha : ∀ x : State, ({ x with pwr := { x.pwr with alert := true } } : State).rd f = x.rd f := fun _ => rfl
  have hi : ∀ (p : Prop) [Decidable p] (x y : State), x.rd f = s.rd f → y.rd f = s.rd f → (if p then x else y).rd f = s.rd f := by
    intro p _ x y hx hy; split <;> assumption
  unfold State.putEvent
  dsimp only
  have h0 : ∀ a b c d e n, n < 4096 → ((if s.rd (evtFld (s.rd R.TEL.EVT_HEAD.SEQ % 4096) 0) ≠ 0 then s.count R.TEL.EVT_HEAD.LOST 1
      else s).wrs [(evtFld n 0, a), (evtFld n 1, b), (evtFld n 2, c), (evtFld n 3, d), (R.TEL.EVT_HEAD.SEQ, e)]).rd f = s.rd f := by
    intro a b c d e n h
    rw [key _ _ _ _ _ _ _ h]
    exact hi _ _ _ hc rfl
  refine hi _ _ _ ?_ ?_
  · rw [State.rd_signal, State.rd_signal]
    refine hi _ _ _ ?_ ?_ <;> (try rw [ha]) <;> rw [State.rd_signal, State.rd_signal] <;> exact h0 _ _ _ _ _ _ hn
  · refine hi _ _ _ ?_ ?_ <;> (try rw [ha]) <;> rw [State.rd_signal, State.rd_signal] <;> exact h0 _ _ _ _ _ _ hn
/-- An event changes no register outside the event log. -/
theorem State.rd_event (s : State) (code cls part job unit : Nat) (detail : Option Nat) (f : Fld) (h : f.offLog) :
    (s.event code cls part job unit detail).rd f = s.rd f := by
  have hu : (if detail = none then s.used 1 else s).rd f = s.rd f := by split <;> rfl
  unfold State.event
  dsimp only
  generalize (if detail = none then s.used 1 else s) = s1 at hu ⊢
  split
  · split
    · split <;> simp only [State.rd_setLimit, State.rd_putEvent _ _ _ _ _ _ _ _ _ h, hu]
    · simp only [State.rd_setLimit, State.rd_putEvent _ _ _ _ _ _ _ _ _ h, hu]
  · rw [State.rd_putEvent _ _ _ _ _ _ _ _ _ h, hu]
/-- A core after a job reset: stopped or as before. -/
@[simp] theorem State.core_stopCores (s : State) (f : Nat → Bool) (c : Nat) :
    (s.stopCores f).core c = if f c then (s.core c).stop else s.core c :=
  Tab.get_mapVals _ _ _ _ (by split <;> rfl)
@[simp] theorem ArrSt.stop_stop (a : ArrSt) : a.stop.stop = a.stop := by
  simp [ArrSt.stop, List.filter_filter, Bool.and_assoc]
@[simp] theorem CoreSt.stop_stop (x : CoreSt) : x.stop.stop = x.stop := by
  simp [CoreSt.stop]
theorem State.core_abortJob (s : State) (id code module c : Nat) :
    (s.abortJob id code module).core c = s.core c ∨ (s.abortJob id code module).core c = (s.core c).stop := by
  unfold State.abortJob
  split
  · exact .inl rfl
  · split
    · exact .inl rfl
    · rw [State.core_stopCores]
      split
      · exact .inr rfl
      · exact .inl rfl
/-- A contained error leaves a core as it was, or stopped with its job (R241, R454). -/
theorem State.core_resetScope (s : State) (code part job c : Nat) :
    (s.resetScope code part job).core c = s.core c ∨ (s.resetScope code part job).core c = (s.core c).stop := by
  unfold State.resetScope
  generalize (List.filter _ s.host.jobs) = l
  have key : ∀ (l : List Job) (s' : State), (s'.core c = s.core c ∨ s'.core c = (s.core c).stop) →
      ((l.foldl (fun s j => s.abortJob j.id code s.moduleId) s').core c = s.core c ∨
       (l.foldl (fun s j => s.abortJob j.id code s.moduleId) s').core c = (s.core c).stop) := by
    intro l
    induction l with
    | nil => intro s' h; exact h
    | cons j l ih =>
      intro s' h
      refine ih _ ?_
      rcases State.core_abortJob s' j.id code s'.moduleId c with e | e <;> rcases h with h | h <;> rw [e, h]
      · exact .inl rfl
      · exact .inr rfl
      · exact .inr rfl
      · exact .inr (CoreSt.stop_stop _)
  exact key l s (.inl rfl)

/-! ## Faults of a core -/

/-- What a fault of a core leaves in the core itself, but for its first-fault code, where the core goes on (R50). -/
theorem State.coreFault_on (s : State) (c code arr half pc : Nat) (h : s.on (R.CORE.CTL.FAULT_ACT c) = true) :
    (s.coreFault c code arr half pc false).core c = (s.core c).noteFault arr code := by
  unfold State.coreFault
  simp [h]
/-- A fault that halts: the stream is inactive and nothing holds it (R50). -/
theorem State.coreFault_halt (s : State) (c code arr half pc : Nat) (force : Bool)
    (h : s.on (R.CORE.CTL.FAULT_ACT c) = false ∨ force = true) :
    ((s.coreFault c code arr half pc force).core c).running = false ∧
    ((s.coreFault c code arr half pc force).core c).faultHalt = true ∧
    ((s.coreFault c code arr half pc force).core c).stall = .none := by
  have h' : (s.on (R.CORE.CTL.FAULT_ACT c) && !force) = false := by rcases h with h | h <;> simp [h]
  unfold State.coreFault
  simp only [h', Bool.false_eq_true, if_false]
  split
  · simp
  · rename_i hj
    generalize hx : (((((s.recErr _ _ _).modCore c _).event _ _ _ _ _ _).modCore c _) : State) = x
    have hc : (x.core c).running = false ∧ (x.core c).faultHalt = true ∧ (x.core c).stall = .none := by
      rw [← hx]; simp
    rcases State.core_resetScope x code _ _ c with e | e <;> rw [e]
    · exact hc
    · exact ⟨rfl, hc.2.1, rfl⟩
/-- No fault changes a scalar register, the counter or the ramps of any core. -/
theorem State.coreFault_sregs (s : State) (c code arr half pc k : Nat) (force : Bool) :
    ((s.coreFault c code arr half pc force).core k).sregs = (s.core k).sregs ∧
    ((s.coreFault c code arr half pc force).core k).pc = (s.core k).pc := by
  have hn : ∀ x : CoreSt, (x.noteFault arr code).sregs = x.sregs ∧ (x.noteFault arr code).pc = x.pc := by
    intro x; unfold CoreSt.noteFault
    split
    · split <;> exact ⟨rfl, rfl⟩
    · split
      · unfold CoreSt.setArr; split
        · exact ⟨rfl, rfl⟩
        · split <;> exact ⟨rfl, rfl⟩
      · exact ⟨rfl, rfl⟩
  unfold State.coreFault
  dsimp only
  split
  · simp only [State.core_event, State.core_modCore, State.core_recErr]
    split
    · rename_i h; subst h; exact hn _
    · exact ⟨rfl, rfl⟩
  · generalize hx : (((((s.recErr _ _ _).modCore c _).event _ _ _ _ _ _).modCore c _) : State) = x
    have hc : (x.core k).sregs = (s.core k).sregs ∧ (x.core k).pc = (s.core k).pc := by
      rw [← hx]
      simp only [State.core_event, State.core_modCore, State.core_recErr]
      by_cases h : k = c
      · subst h; simp [hn]
      · simp [h]
    split
    · exact hc
    · rcases State.core_resetScope x code _ _ k with e | e <;> rw [e]
      · exact hc
      · exact hc
/-- A fault of a core writes CORE.AFAULT while VALID = 0 (R50, R528). -/
theorem State.coreFault_afault (s : State) (c code arr half pc : Nat) (force : Bool) (h : s.rd (R.CORE.AFAULT.VALID c) = 0) :
    let t := s.coreFault c code arr half pc force
    t.rd (R.CORE.AFAULT.VALID c) = 1 ∧ t.rd (R.CORE.AFAULT.CODE c) = code % 2 ^ 16 ∧ t.rd (R.CORE.AFAULT.ARRAY c) = arr % 4 ∧
    t.rd (R.CORE.AFAULT.HALF c) = half % 4 ∧ t.rd (R.CORE.AFAULT.PC c) = pc % 2 ^ 13 := by
  intro t
  have hl : ∀ f : Fld, f.reg = 0x8000018 + c * 0x1000 → f.offLog := by
    intro f hf; exact ⟨by omega, .inr (by omega)⟩
  have ho : s.on (R.CORE.AFAULT.VALID c) = false := by simp [State.on, h]
  have ht : ∀ f : Fld, f.reg = 0x8000018 + c * 0x1000 → t.rd f = (s.recErr (R.CORE.AFAULT.VALID c) (R.CORE.AFAULT.OVERRUN c)
      [(R.CORE.AFAULT.CODE c, code), (R.CORE.AFAULT.ARRAY c, arr), (R.CORE.AFAULT.HALF c, half), (R.CORE.AFAULT.PC c, pc)]).rd f := by
    intro f hf
    show (State.coreFault s c code arr half pc force).rd f = _
    unfold State.coreFault
    dsimp only
    split
    · rw [State.rd_event _ _ _ _ _ _ _ _ (hl f hf), State.rd_modCore]
    · split
      · rw [State.rd_modCore, State.rd_event _ _ _ _ _ _ _ _ (hl f hf), State.rd_modCore]
      · rw [State.rd_resetScope, State.rd_modCore, State.rd_event _ _ _ _ _ _ _ _ (hl f hf), State.rd_modCore]
  rw [ht _ rfl, ht _ rfl, ht _ rfl, ht _ rfl, ht _ rfl]
  unfold State.recErr
  simp only [ho, Bool.false_eq_true, if_false, State.wrs_cons, State.wrs_nil]
  refine ⟨?_, ?_, ?_, ?_, ?_⟩
  · rw [State.rd_wr_this _ _ _ rfl]; rfl
  · rw [State.rd_wr_other _ _ _ _ rfl, State.rd_wr_other _ _ _ _ rfl,
      State.rd_wr_other _ _ _ _ rfl, State.rd_wr_other _ _ _ _ rfl,
      State.rd_wr_this _ _ _ rfl]; rfl
  · rw [State.rd_wr_other _ _ _ _ rfl, State.rd_wr_other _ _ _ _ rfl,
      State.rd_wr_other _ _ _ _ rfl, State.rd_wr_this _ _ _ rfl]; rfl
  · rw [State.rd_wr_other _ _ _ _ rfl, State.rd_wr_other _ _ _ _ rfl,
      State.rd_wr_this _ _ _ rfl]; rfl
  · rw [State.rd_wr_other _ _ _ _ rfl, State.rd_wr_this _ _ _ rfl]; rfl

end Sys2Proof.Machine
end

