-- ==== Sys2Proof/Laws/PerInstr.lean ====
section
/-! SUPPORT. The per-command family `Spelling`: the opcode table gives no row any bits, so no word spells a command. -/
namespace Sys2Proof.Laws.Spelling

/-- No word of any length spells the command. -/
def Statement (i : Instr) : Prop := ∀ nbits w, decodeTableWord nbits w ≠ some i

theorem none_spelled (i : Instr) : Statement i := fun _ _ h => by simp [decodeTableWord] at h

theorem configRequest (port : Fin 2) (fn : Fin 9) (reg : BitVec 12) : Statement (.configRequest port fn reg) := none_spelled _
theorem arrayOperation (c : CoreId) (w0 w1 w2 w3 : Word) : Statement (.arrayOperation c w0 w1 w2 w3) := none_spelled _
theorem arrayOpStart (c : CoreId) (arr : Fin 3) (cycle : Nat) : Statement (.arrayOpStart c arr cycle) := none_spelled _
theorem arrayRampDone (c : CoreId) (arr : Fin 3) (steps : Fin 9) (cycle : Nat) : Statement (.arrayRampDone c arr steps cycle) := none_spelled _
theorem arrayRampDown (c : CoreId) (arr : Fin 3) (cycle : Nat) : Statement (.arrayRampDown c arr cycle) := none_spelled _
theorem arrayOpDrain (c : CoreId) (arr : Fin 3) (half : Fin 3) (rows : Option Nat) (stash : Option MbKey) (house : Bool) : Statement (.arrayOpDrain c arr half rows stash house) := none_spelled _
theorem warm (c : CoreId) (w : Word) : Statement (.warm c w) := none_spelled _
theorem warmHoldExpiry (c : CoreId) (arr : Fin 3) : Statement (.warmHoldExpiry c arr) := none_spelled _
theorem reservedInstruction (c : CoreId) (w : Word) : Statement (.reservedInstruction c w) := none_spelled _
theorem nop (c : CoreId) (w : Word) (cell : Option (BitVec 288)) : Statement (.nop c w cell) := none_spelled _
theorem halt (c : CoreId) (w : Word) : Statement (.halt c w) := none_spelled _
theorem movi (c : CoreId) (w : Word) : Statement (.movi c w) := none_spelled _
theorem movhi (c : CoreId) (w : Word) : Statement (.movhi c w) := none_spelled _
theorem add (c : CoreId) (w : Word) : Statement (.add c w) := none_spelled _
theorem addi (c : CoreId) (w : Word) : Statement (.addi c w) := none_spelled _
theorem sub (c : CoreId) (w : Word) : Statement (.sub c w) := none_spelled _
theorem and (c : CoreId) (w : Word) : Statement (.and c w) := none_spelled _
theorem or (c : CoreId) (w : Word) : Statement (.or c w) := none_spelled _
theorem xor (c : CoreId) (w : Word) : Statement (.xor c w) := none_spelled _
theorem shl (c : CoreId) (w : Word) : Statement (.shl c w) := none_spelled _
theorem shr (c : CoreId) (w : Word) : Statement (.shr c w) := none_spelled _
theorem mul (c : CoreId) (w : Word) : Statement (.mul c w) := none_spelled _
theorem jmp (c : CoreId) (w : Word) : Statement (.jmp c w) := none_spelled _
theorem bnz (c : CoreId) (w : Word) : Statement (.bnz c w) := none_spelled _
theorem bz (c : CoreId) (w : Word) : Statement (.bz c w) := none_spelled _
theorem blt (c : CoreId) (w : Word) : Statement (.blt c w) := none_spelled _
theorem mtcr (c : CoreId) (w : Word) : Statement (.mtcr c w) := none_spelled _
theorem mfcr (c : CoreId) (w : Word) : Statement (.mfcr c w) := none_spelled _
theorem astat (c : CoreId) (w : Word) : Statement (.astat c w) := none_spelled _
theorem astatDone (c : CoreId) : Statement (.astatDone c) := none_spelled _
theorem xfer (c : CoreId) (w0 w1 : Word) : Statement (.xfer c w0 w1) := none_spelled _
theorem xferComplete (c : CoreId) (index : Nat) (how : XferEnd) : Statement (.xferComplete c index how) := none_spelled _
theorem imemLoadGo (c : CoreId) (value : Word) : Statement (.imemLoadGo c value) := none_spelled _
theorem imemLoadDone (c : CoreId) : Statement (.imemLoadDone c) := none_spelled _
theorem coreRun (c : CoreId) : Statement (.coreRun c) := none_spelled _
theorem coreStop (c : CoreId) : Statement (.coreStop c) := none_spelled _
theorem coreRetirementRequest (c : CoreId) : Statement (.coreRetirementRequest c) := none_spelled _
theorem vecCvt (c : CoreId) (w0 w1 : Word) : Statement (.vecCvt c w0 w1) := none_spelled _
theorem vecAmax (c : CoreId) (w0 w1 : Word) : Statement (.vecAmax c w0 w1) := none_spelled _
theorem vecScale (c : CoreId) (w0 w1 : Word) : Statement (.vecScale c w0 w1) := none_spelled _
theorem vecAdd (c : CoreId) (w0 w1 : Word) : Statement (.vecAdd c w0 w1) := none_spelled _
theorem vecMul (c : CoreId) (w0 w1 : Word) : Statement (.vecMul c w0 w1) := none_spelled _
theorem vecAxpy (c : CoreId) (w0 w1 : Word) : Statement (.vecAxpy c w0 w1) := none_spelled _
theorem vecMax (c : CoreId) (w0 w1 : Word) : Statement (.vecMax c w0 w1) := none_spelled _
theorem vecDropout (c : CoreId) (w0 w1 : Word) : Statement (.vecDropout c w0 w1) := none_spelled _
theorem vecCheck (c : CoreId) (w0 w1 : Word) : Statement (.vecCheck c w0 w1) := none_spelled _
theorem vecExp (c : CoreId) (w0 w1 : Word) : Statement (.vecExp c w0 w1) := none_spelled _
theorem vecLog (c : CoreId) (w0 w1 : Word) : Statement (.vecLog c w0 w1) := none_spelled _
theorem vecRsqrt (c : CoreId) (w0 w1 : Word) : Statement (.vecRsqrt c w0 w1) := none_spelled _
theorem vecRecip (c : CoreId) (w0 w1 : Word) : Statement (.vecRecip c w0 w1) := none_spelled _
theorem vecSigm (c : CoreId) (w0 w1 : Word) : Statement (.vecSigm c w0 w1) := none_spelled _
theorem vecRowsum (c : CoreId) (w0 w1 : Word) : Statement (.vecRowsum c w0 w1) := none_spelled _
theorem vecRowmax (c : CoreId) (w0 w1 : Word) : Statement (.vecRowmax c w0 w1) := none_spelled _
theorem vecComplete (c : CoreId) (rows : Option Nat) : Statement (.vecComplete c rows) := none_spelled _
theorem mbAdmit (p : Part) (k : MbKey) (h : MbHeader) : Statement (.mbAdmit p k h) := none_spelled _
theorem fwdComplete (p : Part) (k : MbKey) (what : FwdEnd) : Statement (.fwdComplete p k what) := none_spelled _
theorem bwdStart (p : Part) (k : MbKey) (dyArrived : Bool) : Statement (.bwdStart p k dyArrived) := none_spelled _
theorem bwdComplete (p : Part) (k : MbKey) (what : BwdEnd) : Statement (.bwdComplete p k what) := none_spelled _
theorem versionTimeout (p : Part) (what : VerWait) : Statement (.versionTimeout p what) := none_spelled _
theorem slotClaim (p : Part) (shard : Fin 4096) (step : BitVec 16) : Statement (.slotClaim p shard step) := none_spelled _
theorem trnEnable (p : Part) : Statement (.trnEnable p) := none_spelled _
theorem trnDisable (p : Part) : Statement (.trnDisable p) := none_spelled _
theorem admitSeq (post : Post) (dmaFail : Bool) : Statement (.admitSeq post dmaFail) := none_spelled _
theorem cancel (post : Post) : Statement (.cancel post) := none_spelled _
theorem pause (post : Post) : Statement (.pause post) := none_spelled _
theorem budgetSet (post : Post) : Statement (.budgetSet post) := none_spelled _
theorem budgetAdd (post : Post) : Statement (.budgetAdd post) := none_spelled _
theorem adapterLoad (post : Post) : Statement (.adapterLoad post) := none_spelled _
theorem adapterLoadDispatch (p : Part) : Statement (.adapterLoadDispatch p) := none_spelled _
theorem adapterLoadComplete (slot : Fin 1024) : Statement (.adapterLoadComplete slot) := none_spelled _
theorem adapterUnload (post : Post) : Statement (.adapterUnload post) := none_spelled _
theorem prefixCreate (post : Post) : Statement (.prefixCreate post) := none_spelled _
theorem prefixRelease (post : Post) : Statement (.prefixRelease post) := none_spelled _
theorem stopsetWrite (post : Post) (dmaFail : Bool) : Statement (.stopsetWrite post dmaFail) := none_spelled _
theorem contextTake (ctx : CtxId) : Statement (.contextTake ctx) := none_spelled _
theorem restoreComplete (ctx : CtxId) : Statement (.restoreComplete ctx) := none_spelled _
theorem prefillComplete (ctx : CtxId) (what : PrefillEnd) (adapterPoison : Bool) : Statement (.prefillComplete ctx what adapterPoison) := none_spelled _
theorem shipComplete (ctx : CtxId) (how : ShipEnd) : Statement (.shipComplete ctx how) := none_spelled _
theorem verifyRound (ctx : CtxId) (draft logits : List (List (BitVec 32))) (kvPoison adapterPoison housePoison : Bool) : Statement (.verifyRound ctx draft logits kvPoison adapterPoison housePoison) := none_spelled _
theorem decodeStepBoundary (p : Part) : Statement (.decodeStepBoundary p) := none_spelled _
theorem draftReprobe (ctx : CtxId) : Statement (.draftReprobe ctx) := none_spelled _
theorem parkComplete (ctx : CtxId) (far : List (Byte × Bool)) : Statement (.parkComplete ctx far) := none_spelled _
theorem contextClose (ctx : CtxId) : Statement (.contextClose ctx) := none_spelled _
theorem streamRingRoom (p : Part) (ring : Fin 64) : Statement (.streamRingRoom p ring) := none_spelled _
theorem parkExpiry (ticket : BitVec 32) : Statement (.parkExpiry ticket) := none_spelled _
theorem rollEnable (p : Part) : Statement (.rollEnable p) := none_spelled _
theorem rollDisable (p : Part) : Statement (.rollDisable p) := none_spelled _
theorem turnToLearning (post : Post) : Statement (.turnToLearning post) := none_spelled _
theorem turnToRollout (post : Post) : Statement (.turnToRollout post) := none_spelled _
theorem turnQuiesced (p : Part) : Statement (.turnQuiesced p) := none_spelled _
theorem turnQuiesceTimeout (p : Part) : Statement (.turnQuiesceTimeout p) := none_spelled _
theorem turnVoteBarrier (p : Part) (votes : List Vote) : Statement (.turnVoteBarrier p votes) := none_spelled _
theorem carveRoundBarrier (p : Part) (status : BitVec 16) : Statement (.carveRoundBarrier p status) := none_spelled _
theorem carveRoundWritesDone (p : Part) : Statement (.carveRoundWritesDone p) := none_spelled _
theorem turnInstall (p : Part) (m : Option Mapping) : Statement (.turnInstall p m) := none_spelled _
theorem turnFinalBarrier (p : Part) (status : BitVec 16) : Statement (.turnFinalBarrier p status) := none_spelled _
theorem wptrSet (post : Post) : Statement (.wptrSet post) := none_spelled _
theorem batchClose (post : Post) : Statement (.batchClose post) := none_spelled _
theorem weightLoad (post : Post) (m : Option Mapping) : Statement (.weightLoad post m) := none_spelled _
theorem gondolaSegment (p : Part) (seg : BitVec 32) (how : SegFrom) : Statement (.gondolaSegment p seg how) := none_spelled _
theorem weightLoadPublish (p : Part) (codes : List (BitVec 16)) : Statement (.weightLoadPublish p codes) := none_spelled _
theorem gatherStart (p : Part) (k : MbKey) (layer tensor computing : Nat) (seq : BitVec 32) : Statement (.gatherStart p k layer tensor computing seq) := none_spelled _
theorem stageEntrySend (p : Part) (q : StageQ) (k : MbKey) (waitedUs : BitVec 32) : Statement (.stageEntrySend p q k waitedUs) := none_spelled _
theorem stageCreditReturn (p : Part) (q : StageQ) (starvedUs : BitVec 32) : Statement (.stageCreditReturn p q starvedUs) := none_spelled _
theorem collReady (c : CoreId) (w0 w1 : Word) : Statement (.collReady c w0 w1) := none_spelled _
theorem barrier (by_ : Poster) : Statement (.barrier by_) := none_spelled _
theorem bcast (by_ : Poster) : Statement (.bcast by_) := none_spelled _
theorem reduce (by_ : Poster) : Statement (.reduce by_) := none_spelled _
theorem allreduce (by_ : Poster) : Statement (.allreduce by_) := none_spelled _
theorem reduceScatter (by_ : Poster) : Statement (.reduceScatter by_) := none_spelled _
theorem allgather (by_ : Poster) : Statement (.allgather by_) := none_spelled _
theorem snapshot (by_ : Poster) : Statement (.snapshot by_) := none_spelled _
theorem permute (by_ : Poster) : Statement (.permute by_) := none_spelled _
theorem collAdmit (k : CollKey) : Statement (.collAdmit k) := none_spelled _
theorem collOpenExchange (k : CollKey) (agree : Bool) (peer : BitVec 16) (peers : List OpenPeer) : Statement (.collOpenExchange k agree peer peers) := none_spelled _
theorem chunkArrive (port : Port) (h : THdr) (tagOk : Bool) (data : ChunkData) : Statement (.chunkArrive port h tagOk data) := none_spelled _
theorem chunkTimeout (k : CollKey) (chunk : BitVec 24) (peer : BitVec 16) (xid : BitVec 32) : Statement (.chunkTimeout k chunk peer xid) := none_spelled _
theorem closingRoundDone (k : CollKey) (codes : List (BitVec 16)) (noise : List (NoiseSum × NoiseSum)) : Statement (.closingRoundDone k codes noise) := none_spelled _
theorem collGroupTimeout (k : CollKey) (found : ProbeFind) (peer : BitVec 16) : Statement (.collGroupTimeout k found peer) := none_spelled _
theorem jobReset (job : BitVec 16) (code : BitVec 16) (origin : BitVec 16) : Statement (.jobReset job code origin) := none_spelled _
theorem jobResetDone (job : BitVec 16) : Statement (.jobResetDone job) := none_spelled _
theorem collEnable (p : Part) : Statement (.collEnable p) := none_spelled _
theorem collDisable (p : Part) : Statement (.collDisable p) := none_spelled _
theorem update (post : Post) : Statement (.update post) := none_spelled _
theorem gradLineIntake (p : Part) (addr : BitVec 48) (data : List (Byte × Bool)) : Statement (.gradLineIntake p addr data) := none_spelled _
theorem updPass1Done (p : Part) : Statement (.updPass1Done p) := none_spelled _
theorem updNormDone (p : Part) (status : BitVec 16) (peers : List NormPeer) : Statement (.updNormDone p status peers) := none_spelled _
theorem updShardPass2Done (p : Part) (layer : Fin 4096) : Statement (.updShardPass2Done p layer) := none_spelled _
theorem updAmaxDone (p : Part) (layer : Fin 4096) (amax : List (BitVec 32)) : Statement (.updAmaxDone p layer amax) := none_spelled _
theorem updSlotClaim (p : Part) (layer : Fin 4096) : Statement (.updSlotClaim p layer) := none_spelled _
theorem updReturnDone (p : Part) (layer : Fin 4096) : Statement (.updReturnDone p layer) := none_spelled _
theorem updNop (p : Part) (entry : Fin 16384) (elem : BitVec 40) : Statement (.updNop p entry elem) := none_spelled _
theorem updLd (p : Part) (entry : Fin 16384) (elem : BitVec 40) : Statement (.updLd p entry elem) := none_spelled _
theorem updSt (p : Part) (entry : Fin 16384) (elem : BitVec 40) : Statement (.updSt p entry elem) := none_spelled _
theorem updAdd (p : Part) (entry : Fin 16384) (elem : BitVec 40) : Statement (.updAdd p entry elem) := none_spelled _
theorem updSub (p : Part) (entry : Fin 16384) (elem : BitVec 40) : Statement (.updSub p entry elem) := none_spelled _
theorem updMul (p : Part) (entry : Fin 16384) (elem : BitVec 40) : Statement (.updMul p entry elem) := none_spelled _
theorem updFma (p : Part) (entry : Fin 16384) (elem : BitVec 40) : Statement (.updFma p entry elem) := none_spelled _
theorem updDiv (p : Part) (entry : Fin 16384) (elem : BitVec 40) : Statement (.updDiv p entry elem) := none_spelled _
theorem updSqrt (p : Part) (entry : Fin 16384) (elem : BitVec 40) : Statement (.updSqrt p entry elem) := none_spelled _
theorem updRsqrt (p : Part) (entry : Fin 16384) (elem : BitVec 40) : Statement (.updRsqrt p entry elem) := none_spelled _
theorem updMax (p : Part) (entry : Fin 16384) (elem : BitVec 40) : Statement (.updMax p entry elem) := none_spelled _
theorem updMin (p : Part) (entry : Fin 16384) (elem : BitVec 40) : Statement (.updMin p entry elem) := none_spelled _
theorem updSel (p : Part) (entry : Fin 16384) (elem : BitVec 40) : Statement (.updSel p entry elem) := none_spelled _
theorem updAbs (p : Part) (entry : Fin 16384) (elem : BitVec 40) : Statement (.updAbs p entry elem) := none_spelled _
theorem fence (c : CoreId) (w : Word) : Statement (.fence c w) := none_spelled _
theorem fenceDone (c : CoreId) : Statement (.fenceDone c) := none_spelled _
theorem wait (c : CoreId) (w : Word) : Statement (.wait c w) := none_spelled _
theorem waitSatisfied (c : CoreId) : Statement (.waitSatisfied c) := none_spelled _
theorem syncTimeout (c : CoreId) : Statement (.syncTimeout c) := none_spelled _
theorem signal (c : CoreId) (w : Word) : Statement (.signal c w) := none_spelled _
theorem atomicAdd (c : CoreId) (w : Word) : Statement (.atomicAdd c w) := none_spelled _
theorem atomicSwap (c : CoreId) (w : Word) : Statement (.atomicSwap c w) := none_spelled _
theorem atomicCas (c : CoreId) (w : Word) : Statement (.atomicCas c w) := none_spelled _
theorem atomicAnd (c : CoreId) (w : Word) : Statement (.atomicAnd c w) := none_spelled _
theorem atomicOr (c : CoreId) (w : Word) : Statement (.atomicOr c w) := none_spelled _
theorem atomicUmax (c : CoreId) (w : Word) : Statement (.atomicUmax c w) := none_spelled _
theorem atomicUmin (c : CoreId) (w : Word) : Statement (.atomicUmin c w) := none_spelled _
theorem segmentPowerRequest (win : MWin) (value : Word) : Statement (.segmentPowerRequest win value) := none_spelled _
theorem segmentPowerChange (win : MWin) (ab : Bool) (seg : Fin 4) : Statement (.segmentPowerChange win ab seg) := none_spelled _
theorem segmentIdleReturn (win : MWin) (ab : Bool) (seg : Fin 4) : Statement (.segmentIdleReturn win ab seg) := none_spelled _
theorem marchGo (win : MWin) (value : Word) : Statement (.marchGo win value) := none_spelled _
theorem marchAbort (win : MWin) : Statement (.marchAbort win) := none_spelled _
theorem marchDone (win : MWin) (fails : List MarchFail) (cycles : BitVec 32) : Statement (.marchDone win fails cycles) := none_spelled _
theorem scrubVisit (target : ScrubTarget) (raw : BitVec 288) : Statement (.scrubVisit target raw) := none_spelled _
theorem scrubPromote (act : Fin 10) (ageMs : Nat) : Statement (.scrubPromote act ageMs) := none_spelled _
theorem scrubLate (act : Fin 10) : Statement (.scrubLate act) := none_spelled _
theorem hbmTempSample (temps : List (BitVec 8)) : Statement (.hbmTempSample temps) := none_spelled _
theorem hbmRetrain (stack : Fin 8) (pc : Fin 64) : Statement (.hbmRetrain stack pc) := none_spelled _
theorem hbmRetrainDone (stack : Fin 8) (ok : Bool) (holdNs : BitVec 16) : Statement (.hbmRetrainDone stack ok holdNs) := none_spelled _
theorem hbmRetrainRetry (stack : Fin 8) (pc : Fin 64) (ok : Bool) : Statement (.hbmRetrainRetry stack pc ok) := none_spelled _
theorem hbmMigGo (stack : Fin 8) (value : Word) : Statement (.hbmMigGo stack value) := none_spelled _
theorem hbmMigSwitch (stack : Fin 8) (ok : Bool) : Statement (.hbmMigSwitch stack ok) := none_spelled _
theorem hbmPprDone (stack : Fin 8) (ok : Bool) (pc : Fin 2) (bank : Fin 16) (row : BitVec 18) : Statement (.hbmPprDone stack ok pc bank row) := none_spelled _
theorem rprQuery (stack : Fin 8) (value : Word) : Statement (.rprQuery stack value) := none_spelled _
theorem rprHardRepair (stack : Fin 8) (value : Word) : Statement (.rprHardRepair stack value) := none_spelled _
theorem rprNextRow (stack : Fin 8) (value : Word) : Statement (.rprNextRow stack value) := none_spelled _
theorem rprComplete (stack : Fin 8) (ok : Bool) : Statement (.rprComplete stack ok) := none_spelled _
theorem tgWrite (stack : Fin 8) (value : Word) : Statement (.tgWrite stack value) := none_spelled _
theorem tgReadCheck (stack : Fin 8) (value : Word) : Statement (.tgReadCheck stack value) := none_spelled _
theorem tgWriteReadCheck (stack : Fin 8) (value : Word) : Statement (.tgWriteReadCheck stack value) := none_spelled _
theorem tgAbort (stack : Fin 8) : Statement (.tgAbort stack) := none_spelled _
theorem tgDone (stack : Fin 8) (mismatches : BitVec 32) (line : BitVec 21) (byte : BitVec 9) (mbps : BitVec 16) : Statement (.tgDone stack mismatches line byte mbps) := none_spelled _
theorem objPut (post : Post) (dmaFail : Bool) : Statement (.objPut post dmaFail) := none_spelled _
theorem objSealed (handle : BitVec 32) : Statement (.objSealed handle) := none_spelled _
theorem objGet (post : Post) : Statement (.objGet post) := none_spelled _
theorem objDelete (post : Post) : Statement (.objDelete post) := none_spelled _
theorem parkDemote (ticket : BitVec 32) : Statement (.parkDemote ticket) := none_spelled _
theorem flashPageRead (m : Fin 4) (ch : Fin 8) (block : BitVec 19) (how : PageRead) (park : Option (BitVec 32)) : Statement (.flashPageRead m ch block how park) := none_spelled _
theorem flashMove (m : Fin 4) (why : MoveWhy) (block target : BitVec 19) (held : List (BitVec 32)) : Statement (.flashMove m why block target held) := none_spelled _
theorem flashBlockFail (m : Fin 4) (block target : BitVec 19) : Statement (.flashBlockFail m block target) := none_spelled _
theorem liftFrame (m : Fin 4) (raw : BitVec 288) : Statement (.liftFrame m raw) := none_spelled _
theorem liftGmac (m : Fin 4) (ok : Bool) : Statement (.liftGmac m ok) := none_spelled _
theorem liftRecal (m : Fin 4) (ok retrainOk : Bool) : Statement (.liftRecal m ok retrainOk) := none_spelled _
theorem flitReceive (port : Port) (h : FlitHdr) (crcOk : Bool) : Statement (.flitReceive port h crcOk) := none_spelled _
theorem portEnable (port : Port) : Statement (.portEnable port) := none_spelled _
theorem portDisable (port : Port) : Statement (.portDisable port) := none_spelled _
theorem signalDetect (port : Port) : Statement (.signalDetect port) := none_spelled _
theorem trainingDone (port : Port) : Statement (.trainingDone port) := none_spelled _
theorem trainingFail (port : Port) : Statement (.trainingFail port) := none_spelled _
theorem probe (port : Port) (f : ProbeF) (tagOk : Bool) : Statement (.probe port f tagOk) := none_spelled _
theorem probeAck (port : Port) (challenge : Word) (tagOk : Bool) : Statement (.probeAck port challenge tagOk) := none_spelled _
theorem probeTimeout (port : Port) : Statement (.probeTimeout port) := none_spelled _
theorem lossOfSignal (port : Port) : Statement (.lossOfSignal port) := none_spelled _
theorem fecErrorLimit (port : Port) (corrected uncorrectable : BitVec 32) : Statement (.fecErrorLimit port corrected uncorrectable) := none_spelled _
theorem failedHoldoff (port : Port) : Statement (.failedHoldoff port) := none_spelled _
theorem waxDue (port : Port) : Statement (.waxDue port) := none_spelled _
theorem waxDone (port : Port) (ok : Bool) (holdNs : BitVec 16) : Statement (.waxDone port ok holdNs) := none_spelled _
theorem topologyUpdate (port : Port) (u : TopoUpd) (tagOk : Bool) : Statement (.topologyUpdate port u tagOk) := none_spelled _
theorem reachAdvert (port : Port) (racks : List (Fin 1024)) (seq : BitVec 32) : Statement (.reachAdvert port racks seq) := none_spelled _
theorem smallToken (port : Port) (h : THdr) (tagOk : Bool) (tok : SmallTok) : Statement (.smallToken port h tagOk tok) := none_spelled _
theorem chunkRequest (port : Port) (h : THdr) (tagOk : Bool) : Statement (.chunkRequest port h tagOk) := none_spelled _
theorem chunkAck (port : Port) (h : THdr) (tagOk : Bool) : Statement (.chunkAck port h tagOk) := none_spelled _
theorem remoteStore (port : Port) (h : THdr) (tagOk : Bool) (data : List (Byte × Bool)) : Statement (.remoteStore port h tagOk data) := none_spelled _
theorem remoteAtomic (port : Port) (h : THdr) (tagOk : Bool) (op : AOp) (operand expected : Word) : Statement (.remoteAtomic port h tagOk op operand expected) := none_spelled _
theorem storeAck (port : Port) (h : THdr) (tagOk positive : Bool) : Statement (.storeAck port h tagOk positive) := none_spelled _
theorem atomicResult (port : Port) (h : THdr) (tagOk positive : Bool) (old : Word) : Statement (.atomicResult port h tagOk positive old) := none_spelled _
theorem remoteTimeout (ctr : Word) (key : Fin 16) : Statement (.remoteTimeout ctr key) := none_spelled _
theorem ethFrame (port : Port) (dstOk etypeOk fcsOk : Bool) (version : BitVec 4) (flits : List (FlitHdr × Bool)) : Statement (.ethFrame port dstOk etypeOk fcsOk version flits) := none_spelled _
theorem pfcPause (port : Port) (pcp : BitVec 8) (quanta : BitVec 16) : Statement (.pfcPause port pcp quanta) := none_spelled _
theorem journalPoll (port : Fin 2) (fn : Fin 9) (ring : Fin 8) (readFail : Bool) : Statement (.journalPoll port fn ring readFail) := none_spelled _
theorem jobStart (post : Post) (dmaFail : Bool) (talk : List (List Nat)) : Statement (.jobStart post dmaFail talk) := none_spelled _
theorem jobAbort (post : Post) : Statement (.jobAbort post) := none_spelled _
theorem jobEnd (post : Post) : Statement (.jobEnd post) := none_spelled _
theorem jobEndZeroFillDone (p : Part) : Statement (.jobEndZeroFillDone p) := none_spelled _
theorem jobTakeover (post : Post) (dmaFail : Bool) : Statement (.jobTakeover post dmaFail) := none_spelled _
theorem msixHoldoffEnd (port : Fin 2) (fn : Fin 9) (vec : Fin 73) : Statement (.msixHoldoffEnd port fn vec) := none_spelled _
theorem pcieLinkDown (port : Fin 2) : Statement (.pcieLinkDown port) := none_spelled _
theorem orphanTimeout (job : BitVec 16) : Statement (.orphanTimeout job) := none_spelled _
theorem pcieLinkUp (port : Fin 2) : Statement (.pcieLinkUp port) := none_spelled _
theorem flr (port : Fin 2) (fn : Fin 9) : Statement (.flr port fn) := none_spelled _
theorem hotReset (port : Fin 2) : Statement (.hotReset port) := none_spelled _
theorem perst (port : Fin 2) : Statement (.perst port) := none_spelled _
theorem mailboxPoll (port : Fin 2) (fn : Fin 9) : Statement (.mailboxPoll port fn) := none_spelled _
theorem bar2Access (port : Fin 2) (fn : Fin 9) (off : BitVec 36) (op : Bar2Op) : Statement (.bar2Access port fn off op) := none_spelled _
theorem bar2BaseWrite (port : Fin 2) (fn : Fin 9) (value : Word) : Statement (.bar2BaseWrite port fn value) := none_spelled _
theorem bar0Misaligned (port : Fin 2) (fn : Fin 9) (read : Bool) : Statement (.bar0Misaligned port fn read) := none_spelled _
theorem registerWrite (who : Writer) (off : BitVec 28) (value : Word) : Statement (.registerWrite who off value) := none_spelled _
theorem coldReset : Statement (.coldReset) := none_spelled _
theorem warmReset : Statement (.warmReset) := none_spelled _
theorem jobReady (ms : BitVec 32) : Statement (.jobReady ms) := none_spelled _
theorem bootWatchdog : Statement (.bootWatchdog) := none_spelled _
theorem firmwareUpdate (path : Path) (img : ImageCopy) : Statement (.firmwareUpdate path img) := none_spelled _
theorem pldmIdentify (path : Path) : Statement (.pldmIdentify path) := none_spelled _
theorem fieldRecordAppend (r : FieldRec) : Statement (.fieldRecordAppend r) := none_spelled _
theorem ownerWrite (path : Path) (blk : OwnerBlock) (sigOk : Bool) : Statement (.ownerWrite path blk sigOk) := none_spelled _
theorem svnCommit (path : Path) (svn : BitVec 32) (sigOk : Bool) : Statement (.svnCommit path svn sigOk) := none_spelled _
theorem revoke (path : Path) (slot : Fin 4) (tokenOk ownerOk : Bool) : Statement (.revoke path slot tokenOk ownerOk) := none_spelled _
theorem getVersion (path : Path) : Statement (.getVersion path) := none_spelled _
theorem getCapabilities (path : Path) : Statement (.getCapabilities path) := none_spelled _
theorem negotiateAlgorithms (path : Path) (offered : Bool) : Statement (.negotiateAlgorithms path offered) := none_spelled _
theorem getDigests (path : Path) : Statement (.getDigests path) := none_spelled _
theorem getCertificate (path : Path) (slot : Nat) (offset length : Nat) : Statement (.getCertificate path slot offset length) := none_spelled _
theorem challenge (path : Path) (slot : Nat) (nonce : BitVec 256) : Statement (.challenge path slot nonce) := none_spelled _
theorem getMeasurements (path : Path) (index : BitVec 8) (nonce : BitVec 256) : Statement (.getMeasurements path index nonce) := none_spelled _
theorem keyExchange (path : Path) (share : BitVec 768) : Statement (.keyExchange path share) := none_spelled _
theorem finish (path : Path) (session : BitVec 32) (verifyOk : Bool) : Statement (.finish path session verifyOk) := none_spelled _
theorem heartbeat (path : Path) (session : BitVec 32) : Statement (.heartbeat path session) := none_spelled _
theorem keyUpdate (path : Path) (session : BitVec 32) : Statement (.keyUpdate path session) := none_spelled _
theorem endSession (path : Path) (session : BitVec 32) : Statement (.endSession path session) := none_spelled _
theorem chunkSend (path : Path) (seq : BitVec 16) (last : Bool) (data : List Byte) : Statement (.chunkSend path seq last data) := none_spelled _
theorem chunkGet (path : Path) (seq : BitVec 16) : Statement (.chunkGet path seq) := none_spelled _
theorem keyPut (path : Path) (session : BitVec 32) (k : KeyBody) : Statement (.keyPut path session k) := none_spelled _
theorem keyDel (path : Path) (session : BitVec 32) (kind : BitVec 8) (id : BitVec 32) : Statement (.keyDel path session kind id) := none_spelled _
theorem keyExpiry (entry : Fin 64) : Statement (.keyExpiry entry) := none_spelled _
theorem houseLoad (path : Path) (handle : BitVec 32) : Statement (.houseLoad path handle) := none_spelled _
theorem houseRebuildDone (addr : BitVec 48) (src : RebuildSrc) (data : List Byte) : Statement (.houseRebuildDone addr src data) := none_spelled _
theorem dumpRelease (path : Path) : Statement (.dumpRelease path) := none_spelled _
theorem cpMemoryError (cp : Fin 18) : Statement (.cpMemoryError cp) := none_spelled _
theorem cpWatchdog (cp : Fin 18) : Statement (.cpWatchdog cp) := none_spelled _
theorem cpAudit (cp : Fin 18) (mismatch : Bool) : Statement (.cpAudit cp mismatch) := none_spelled _
theorem cpReloadDone (cp : Fin 18) : Statement (.cpReloadDone cp) := none_spelled _
theorem mpWatchdog : Statement (.mpWatchdog) := none_spelled _
theorem dumpWritten (complete : Bool) (bytes : BitVec 32) : Statement (.dumpWritten complete bytes) := none_spelled _
theorem autoResetTimer : Statement (.autoResetTimer) := none_spelled _
theorem telemetrySample (watts : BitVec 16) : Statement (.telemetrySample watts) := none_spelled _
theorem lifetimeCommit (verified : Bool) : Statement (.lifetimeCommit verified) := none_spelled _
theorem aclkTargetWrite (die : Fin 4) (value : Word) : Statement (.aclkTargetWrite die value) := none_spelled _
theorem aclkSlewStep (die : Fin 4) : Statement (.aclkSlewStep die) := none_spelled _
theorem pllUnlock (pll : Fin 21) : Statement (.pllUnlock pll) := none_spelled _
theorem pllRelock (pll : Fin 21) : Statement (.pllRelock pll) := none_spelled _
theorem setDateTime (path : Path) (time : Word) (force : Bool) : Statement (.setDateTime path time force) := none_spelled _
theorem ptmExchange (port : Fin 2) (master : Option Word) : Statement (.ptmExchange port master) := none_spelled _
theorem supercapDepleted : Statement (.supercapDepleted) := none_spelled _
theorem vinLow (finished : Bool) : Statement (.vinLow finished) := none_spelled _
theorem auxRailLoss (finished : Bool) : Statement (.auxRailLoss finished) := none_spelled _
theorem powerSample (watts : BitVec 16) (mv : BitVec 16) : Statement (.powerSample watts mv) := none_spelled _
theorem powerLimitStep (average : BitVec 16) : Statement (.powerLimitStep average) := none_spelled _
theorem standbyEnter : Statement (.standbyEnter) := none_spelled _
theorem standbyExit : Statement (.standbyExit) := none_spelled _
theorem droop (die : Fin 4) (mv : BitVec 8) : Statement (.droop die mv) := none_spelled _
theorem brakePin (ns : Nat) : Statement (.brakePin ns) := none_spelled _
theorem brakeReleaseStep (die : Fin 4) : Statement (.brakeReleaseStep die) := none_spelled _
theorem thermalSample (t : Temps) : Statement (.thermalSample t) := none_spelled _
theorem thmSensorFail (sensor : Sensor) : Statement (.thmSensorFail sensor) := none_spelled _
theorem auxRailUp : Statement (.auxRailUp) := none_spelled _
theorem mgmtBusSelect (i3c : Bool) : Statement (.mgmtBusSelect i3c) := none_spelled _
theorem setRack (path : Path) (rack : BitVec 10) : Statement (.setRack path rack) := none_spelled _
theorem pwrEnAssert (j1 j2 : Bool) : Statement (.pwrEnAssert j1 j2) := none_spelled _
theorem modPwrgd (brakePinLow : Bool) : Statement (.modPwrgd brakePinLow) := none_spelled _
theorem pwrEnDeassert (finished : Bool) : Statement (.pwrEnDeassert finished) := none_spelled _
theorem objGetComplete (handle : BitVec 32) (failed : List (BitVec 28)) : Statement (.objGetComplete handle failed) := none_spelled _
theorem objectExpiry (handle : BitVec 32) : Statement (.objectExpiry handle) := none_spelled _
theorem houseLoadComplete (data : List (Nat × Byte)) (poisoned : Bool) : Statement (.houseLoadComplete data poisoned) := none_spelled _
theorem configurationReady (port : Fin 2) (ms : BitVec 16) : Statement (.configurationReady port ms) := none_spelled _
theorem bootStageComplete (trained : List (Fin 8)) (nolOk : List (Fin 4)) (marchFailed : List CoreId) (strap : BitVec 6) : Statement (.bootStageComplete trained nolOk marchFailed strap) := none_spelled _
theorem vinRising (j1 j2 : Bool) : Statement (.vinRising j1 j2) := none_spelled _
theorem brakeDeassert : Statement (.brakeDeassert) := none_spelled _
theorem flashZqCalibration (m : Fin 4) : Statement (.flashZqCalibration m) := none_spelled _
theorem stageEntryArrive (p : Part) (q : StageQ) (k : MbKey) : Statement (.stageEntryArrive p q k) := none_spelled _
theorem versionReport (p : Part) (shard : Fin 4096) (step : BitVec 16) (what : VerReport) : Statement (.versionReport p shard step what) := none_spelled _

end Sys2Proof.Laws.Spelling
end

