-- ==== Sys2Proof/WellFormed.lean ====
section
/-! DEFINITION. Which commands are well formed: an operand that carries a register value or what an outside party supplies has the
shape that its row of spec/opcode_table.json and its rule give it. What the types of Syntax.lean bound is not said again. -/
namespace Sys2Proof

/-- Whether the field of `w` bits from bit `lo` of a register value holds `v`. -/
def opIs (value : Word) (lo w v : Nat) : Bool := value.toNat / 2 ^ lo % 2 ^ w == v
/-- Whether CLASS (bits 3:0) and LEN (bits 5:4) of an instruction's first word pair as Table 2-3 has them. -/
def legalClass (w : Word) : Bool :=
  let cls := w.toNat % 16
  let len := w.toNat / 16 % 4
  (decide (cls ≤ 2) && len == 0) || (cls == 3 && len == 2) || (decide (4 ≤ cls) && decide (cls ≤ 6) && len == 1)
/-- Whether OP of a word's class is in no table: of CTL (Table 2-12), SYNC (Table 9-2), VEC (Table 3-7) or
COLL (R215). -/
def openOp (w : Word) : Bool :=
  let cls := w.toNat % 16
  let op (n : Nat) : Nat := w.toNat / 64 % 2 ^ n
  (cls == 0 && !(decide (op 6 ≤ 0xc) || (decide (0x10 ≤ op 6) && decide (op 6 ≤ 0x13)) || (decide (0x18 ≤ op 6) && decide (op 6 ≤ 0x1a)))) ||
  (cls == 1 && decide (3 < op 4)) || (cls == 5 && decide (0xf < op 6)) || (cls == 6 && decide (1 < op 2))
/-- One reading of each sensor of Table 19-3. -/
def tempsWf (t : Temps) : Bool :=
  t.die.length == 4 && t.stack.length == 8 && t.nol.length == 4 && t.dram.length == 4 && t.flash.length == 4
/-- A BAR2 access of at least one byte. -/
def bar2Wf : Bar2Op → Bool
  | .read n => n != 0
  | .write data => !data.isEmpty

/-- The logits of a first token are of a vocabulary. -/
def prefillWf : PrefillEnd → Bool
  | .chunk _ => true
  | .first logits => !logits.isEmpty

/-- Whether a command is well formed. -/
def Instr.wf : Instr → Bool
  | .configRequest _ _ _ => true
  | .arrayOperation _ _ _ _ _ => true
  | .arrayOpStart _ _ _ => true
  | .arrayRampDone _ _ _ _ => true
  | .arrayRampDown _ _ _ => true
  | .arrayOpDrain _ _ _ _ _ _ => true
  | .warm _ _ => true
  | .warmHoldExpiry _ _ => true
  | .reservedInstruction _ w => !legalClass w || openOp w
  | .nop _ _ _ => true
  | .halt _ _ => true
  | .movi _ _ => true
  | .movhi _ _ => true
  | .add _ _ => true
  | .addi _ _ => true
  | .sub _ _ => true
  | .and _ _ => true
  | .or _ _ => true
  | .xor _ _ => true
  | .shl _ _ => true
  | .shr _ _ => true
  | .mul _ _ => true
  | .jmp _ _ => true
  | .bnz _ _ => true
  | .bz _ _ => true
  | .blt _ _ => true
  | .mtcr _ _ => true
  | .mfcr _ _ => true
  | .astat _ _ => true
  | .astatDone _ => true
  | .xfer _ _ _ => true
  | .xferComplete _ _ _ => true
  | .imemLoadGo _ value => value.getLsbD 8
  | .imemLoadDone _ => true
  | .coreRun _ => true
  | .coreStop _ => true
  | .coreRetirementRequest _ => true
  | .vecCvt _ _ _ => true
  | .vecAmax _ _ _ => true
  | .vecScale _ _ _ => true
  | .vecAdd _ _ _ => true
  | .vecMul _ _ _ => true
  | .vecAxpy _ _ _ => true
  | .vecMax _ _ _ => true
  | .vecDropout _ _ _ => true
  | .vecCheck _ _ _ => true
  | .vecExp _ _ _ => true
  | .vecLog _ _ _ => true
  | .vecRsqrt _ _ _ => true
  | .vecRecip _ _ _ => true
  | .vecSigm _ _ _ => true
  | .vecRowsum _ _ _ => true
  | .vecRowmax _ _ _ => true
  | .vecComplete _ _ => true
  | .mbAdmit _ _ h => h.shards.Nodup
  | .fwdComplete _ _ _ => true
  | .bwdStart _ _ _ => true
  | .bwdComplete _ _ _ => true
  | .versionTimeout _ _ => true
  | .slotClaim _ _ _ => true
  | .trnEnable _ => true
  | .trnDisable _ => true
  | .admitSeq _ _ => true
  | .cancel _ => true
  | .pause _ => true
  | .budgetSet _ => true
  | .budgetAdd _ => true
  | .adapterLoad _ => true
  | .adapterLoadDispatch _ => true
  | .adapterLoadComplete _ => true
  | .adapterUnload _ => true
  | .prefixCreate _ => true
  | .prefixRelease _ => true
  | .stopsetWrite _ _ => true
  | .contextTake _ => true
  | .restoreComplete _ => true
  | .prefillComplete _ what _ => prefillWf what
  | .shipComplete _ _ => true
  | .verifyRound _ draft logits _ _ _ => logits.length == draft.length + 1
  | .decodeStepBoundary _ => true
  | .draftReprobe _ => true
  | .parkComplete _ _ => true
  | .contextClose _ => true
  | .streamRingRoom _ _ => true
  | .parkExpiry _ => true
  | .rollEnable _ => true
  | .rollDisable _ => true
  | .turnToLearning _ => true
  | .turnToRollout _ => true
  | .turnQuiesced _ => true
  | .turnQuiesceTimeout _ => true
  | .turnVoteBarrier _ _ => true
  | .carveRoundBarrier _ _ => true
  | .carveRoundWritesDone _ => true
  | .turnInstall _ _ => true
  | .turnFinalBarrier _ _ => true
  | .wptrSet _ => true
  | .batchClose _ => true
  | .weightLoad _ _ => true
  | .gondolaSegment _ _ _ => true
  | .weightLoadPublish _ _ => true
  | .gatherStart _ _ _ _ _ _ => true
  | .stageEntrySend _ _ _ _ => true
  | .stageCreditReturn _ _ _ => true
  | .collReady _ _ _ => true
  | .barrier _ => true
  | .bcast _ => true
  | .reduce _ => true
  | .allreduce _ => true
  | .reduceScatter _ => true
  | .allgather _ => true
  | .snapshot _ => true
  | .permute _ => true
  | .collAdmit _ => true
  | .collOpenExchange _ _ _ _ => true
  | .chunkArrive _ _ _ _ => true
  | .chunkTimeout _ _ _ _ => true
  | .closingRoundDone _ _ _ => true
  | .collGroupTimeout _ _ _ => true
  | .jobReset _ _ _ => true
  | .jobResetDone _ => true
  | .collEnable _ => true
  | .collDisable _ => true
  | .update _ => true
  | .gradLineIntake _ addr data => addr.toNat % 512 == 0 && data.length == 512
  | .updPass1Done _ => true
  | .updNormDone _ _ _ => true
  | .updShardPass2Done _ _ => true
  | .updAmaxDone _ _ _ => true
  | .updSlotClaim _ _ => true
  | .updReturnDone _ _ => true
  | .updNop _ _ _ => true
  | .updLd _ _ _ => true
  | .updSt _ _ _ => true
  | .updAdd _ _ _ => true
  | .updSub _ _ _ => true
  | .updMul _ _ _ => true
  | .updFma _ _ _ => true
  | .updDiv _ _ _ => true
  | .updSqrt _ _ _ => true
  | .updRsqrt _ _ _ => true
  | .updMax _ _ _ => true
  | .updMin _ _ _ => true
  | .updSel _ _ _ => true
  | .updAbs _ _ _ => true
  | .fence _ _ => true
  | .fenceDone _ => true
  | .wait _ _ => true
  | .waitSatisfied _ => true
  | .syncTimeout _ => true
  | .signal _ _ => true
  | .atomicAdd _ _ => true
  | .atomicSwap _ _ => true
  | .atomicCas _ _ => true
  | .atomicAnd _ _ => true
  | .atomicOr _ _ => true
  | .atomicUmax _ _ => true
  | .atomicUmin _ _ => true
  | .segmentPowerRequest _ _ => true
  | .segmentPowerChange _ _ _ => true
  | .segmentIdleReturn _ _ _ => true
  | .marchGo _ value => value.getLsbD 0
  | .marchAbort _ => true
  | .marchDone _ fails _ => fails.all (fun f => decide (f.bit.toNat < 288))
  | .scrubVisit _ _ => true
  | .scrubPromote _ _ => true
  | .scrubLate _ => true
  | .hbmTempSample temps => temps.length == 8
  | .hbmRetrain _ _ => true
  | .hbmRetrainDone _ _ _ => true
  | .hbmRetrainRetry _ _ _ => true
  | .hbmMigGo _ value => value.getLsbD 10
  | .hbmMigSwitch _ _ => true
  | .hbmPprDone _ _ _ _ _ => true
  | .rprQuery _ value => opIs value 28 2 0 && value.getLsbD 30
  | .rprHardRepair _ value => opIs value 28 2 1 && value.getLsbD 30
  | .rprNextRow _ value => opIs value 28 2 2 && value.getLsbD 30
  | .rprComplete _ _ => true
  | .tgWrite _ value => opIs value 3 2 0 && value.getLsbD 1
  | .tgReadCheck _ value => opIs value 3 2 1 && value.getLsbD 1
  | .tgWriteReadCheck _ value => opIs value 3 2 2 && value.getLsbD 1
  | .tgAbort _ => true
  | .tgDone _ _ _ _ _ => true
  | .objPut _ _ => true
  | .objSealed _ => true
  | .objGet _ => true
  | .objDelete _ => true
  | .parkDemote _ => true
  | .flashPageRead _ _ _ _ _ => true
  | .flashMove _ _ block target _ => block != target
  | .flashBlockFail _ block target => block != target
  | .liftFrame _ _ => true
  | .liftGmac _ _ => true
  | .liftRecal _ _ _ => true
  | .flitReceive _ _ _ => true
  | .portEnable _ => true
  | .portDisable _ => true
  | .signalDetect _ => true
  | .trainingDone _ => true
  | .trainingFail _ => true
  | .probe _ _ _ => true
  | .probeAck _ _ _ => true
  | .probeTimeout _ => true
  | .lossOfSignal _ => true
  | .fecErrorLimit _ _ _ => true
  | .failedHoldoff _ => true
  | .waxDue _ => true
  | .waxDone _ _ _ => true
  | .topologyUpdate _ u _ => u.ents.length == 32
  | .reachAdvert _ _ _ => true
  | .smallToken _ _ _ _ => true
  | .chunkRequest _ _ _ => true
  | .chunkAck _ _ _ => true
  | .remoteStore _ h _ data => data.length == h.bytes.toNat
  | .remoteAtomic _ _ _ _ _ _ => true
  | .storeAck _ _ _ _ => true
  | .atomicResult _ _ _ _ _ => true
  | .remoteTimeout _ _ => true
  | .ethFrame _ _ _ _ _ _ => true
  | .pfcPause _ _ _ => true
  | .journalPoll _ _ _ _ => true
  | .jobStart _ _ talk => talk.all (fun g => g.Nodup)
  | .jobAbort _ => true
  | .jobEnd _ => true
  | .jobEndZeroFillDone _ => true
  | .jobTakeover _ _ => true
  | .msixHoldoffEnd _ _ _ => true
  | .pcieLinkDown _ => true
  | .orphanTimeout _ => true
  | .pcieLinkUp _ => true
  | .flr _ _ => true
  | .hotReset _ => true
  | .perst _ => true
  | .mailboxPoll _ _ => true
  | .bar2Access _ _ _ op => bar2Wf op
  | .bar2BaseWrite _ _ _ => true
  | .bar0Misaligned _ _ _ => true
  | .registerWrite _ _ _ => true
  | .coldReset => true
  | .warmReset => true
  | .jobReady _ => true
  | .bootWatchdog => true
  | .firmwareUpdate _ _ => true
  | .pldmIdentify _ => true
  | .fieldRecordAppend _ => true
  | .ownerWrite _ blk _ => blk.nrec.toNat == blk.records.length
  | .svnCommit _ _ _ => true
  | .revoke _ _ _ _ => true
  | .getVersion _ => true
  | .getCapabilities _ => true
  | .negotiateAlgorithms _ _ => true
  | .getDigests _ => true
  | .getCertificate _ _ _ _ => true
  | .challenge _ _ _ => true
  | .getMeasurements _ _ _ => true
  | .keyExchange _ _ => true
  | .finish _ _ _ => true
  | .heartbeat _ _ => true
  | .keyUpdate _ _ => true
  | .endSession _ _ => true
  | .chunkSend _ _ _ _ => true
  | .chunkGet _ _ => true
  | .keyPut _ _ _ => true
  | .keyDel _ _ _ _ => true
  | .keyExpiry _ => true
  | .houseLoad _ _ => true
  | .houseRebuildDone addr _ data => addr.toNat % 512 == 0 && data.length == 512
  | .dumpRelease _ => true
  | .cpMemoryError _ => true
  | .cpWatchdog _ => true
  | .cpAudit _ _ => true
  | .cpReloadDone _ => true
  | .mpWatchdog => true
  | .dumpWritten _ _ => true
  | .autoResetTimer => true
  | .telemetrySample _ => true
  | .lifetimeCommit _ => true
  | .aclkTargetWrite _ _ => true
  | .aclkSlewStep _ => true
  | .pllUnlock _ => true
  | .pllRelock _ => true
  | .setDateTime _ _ _ => true
  | .ptmExchange _ _ => true
  | .supercapDepleted => true
  | .vinLow _ => true
  | .auxRailLoss _ => true
  | .powerSample _ _ => true
  | .powerLimitStep _ => true
  | .standbyEnter => true
  | .standbyExit => true
  | .droop _ _ => true
  | .brakePin _ => true
  | .brakeReleaseStep _ => true
  | .thermalSample t => tempsWf t
  | .thmSensorFail _ => true
  | .auxRailUp => true
  | .mgmtBusSelect _ => true
  | .setRack _ _ => true
  | .pwrEnAssert _ _ => true
  | .modPwrgd _ => true
  | .pwrEnDeassert _ => true
  | .objGetComplete _ _ => true
  | .objectExpiry _ => true
  | .houseLoadComplete _ _ => true
  | .configurationReady _ _ => true
  | .bootStageComplete trained nolOk marchFailed _ => trained.Nodup && nolOk.Nodup && marchFailed.Nodup
  | .vinRising _ _ => true
  | .brakeDeassert => true
  | .flashZqCalibration _ => true
  | .stageEntryArrive _ _ _ => true
  | .versionReport _ _ _ _ => true

end Sys2Proof
end

