-- ==== Sys2Proof/Tests/Slice0.lean ====
section
/-! SUPPORT. Tests: the ill-formed commands that WellFormed refuses, worked examples of the spec, and for each statement that has
hypotheses a witness theorem: a concrete state and operands that meet them, and those of its clauses, together. -/
open Sys2Proof Sys2Proof.Machine
namespace Sys2Proof.Tests

set_option Elab.async false

/-! ## Well-formedness: one refused command for each check -/

theorem test_wf_marchGo : (Instr.marchGo (.core 0) 0).wf = false ∧ (Instr.marchGo (.core 0) 1).wf = true := by decide
theorem test_wf_hbmMigGo : (Instr.hbmMigGo 0 0).wf = false ∧ (Instr.hbmMigGo 0 0x400).wf = true := by decide
theorem test_wf_imemLoadGo : (Instr.imemLoadGo 0 0).wf = false ∧ (Instr.imemLoadGo 0 0x100).wf = true := by decide
theorem test_wf_rprQuery : (Instr.rprQuery 0 0x50000000).wf = false ∧ (Instr.rprQuery 0 0).wf = false ∧ (Instr.rprQuery 0 0x40000000).wf = true := by decide
theorem test_wf_rprHardRepair : (Instr.rprHardRepair 0 0x40000000).wf = false ∧ (Instr.rprHardRepair 0 0x50000000).wf = true := by decide
theorem test_wf_rprNextRow : (Instr.rprNextRow 0 0x50000000).wf = false ∧ (Instr.rprNextRow 0 0x60000000).wf = true := by decide
theorem test_wf_tgWrite : (Instr.tgWrite 0 0xa).wf = false ∧ (Instr.tgWrite 0 2).wf = true := by decide
theorem test_wf_tgReadCheck : (Instr.tgReadCheck 0 2).wf = false ∧ (Instr.tgReadCheck 0 0xa).wf = true := by decide
theorem test_wf_tgWriteReadCheck : (Instr.tgWriteReadCheck 0 2).wf = false ∧ (Instr.tgWriteReadCheck 0 0x12).wf = true := by decide
/-- The worked array operation of chapter 02 is no reserved instruction; class 7, and operation 13 of class 0, are. -/
theorem test_wf_reservedInstruction : (Instr.reservedInstruction 0 0x0007F1FF159434A3).wf = false ∧
    (Instr.reservedInstruction 0 7).wf = true ∧ (Instr.reservedInstruction 0 (13 * 64)).wf = true := by decide
theorem test_wf_mbAdmit : (Instr.mbAdmit 0 ⟨0, 0, 0⟩ ⟨0, 0, 1, [3, 3], [], []⟩).wf = false := by decide
theorem test_wf_marchDone : (Instr.marchDone (.core 0) [⟨0, 288, 1⟩] 0).wf = false ∧
    (Instr.marchDone (.core 0) [⟨0, 287, 1⟩] 0).wf = true := by decide
theorem test_wf_verifyRound : (Instr.verifyRound 0 [[1]] [] 0 0 0).wf = false := by decide
theorem test_wf_prefillComplete : (Instr.prefillComplete 0 (.first []) 0).wf = false := by decide
theorem test_wf_hbmTempSample : (Instr.hbmTempSample []).wf = false := by decide
theorem test_wf_thermalSample : (Instr.thermalSample ⟨[], 0, [], [], [], []⟩).wf = false := by decide
theorem test_wf_gradLineIntake : (Instr.gradLineIntake 0 511 (List.replicate 512 (0, false))).wf = false ∧
    (Instr.gradLineIntake 0 512 []).wf = false := by decide
theorem test_wf_houseRebuildDone : (Instr.houseRebuildDone 1 .none (List.replicate 512 0)).wf = false ∧
    (Instr.houseRebuildDone 0 .none []).wf = false := by decide
theorem test_wf_remoteStore (h : THdr) (e : h.bytes = 2) : (Instr.remoteStore 0 h true [(0, false)]).wf = false := by simp [Instr.wf, e]
theorem test_wf_bar2Access : (Instr.bar2Access 0 0 0 (.read 0)).wf = false ∧ (Instr.bar2Access 0 0 0 (.write [])).wf = false := by decide
theorem test_wf_topologyUpdate : (Instr.topologyUpdate 0 ⟨0, 0, 0, [], []⟩ true).wf = false := by decide
theorem test_wf_bootStageComplete : (Instr.bootStageComplete [1, 1] [] [] 0).wf = false := by decide
theorem test_wf_jobStart (x : Post) : (Instr.jobStart x 0 [[1, 1]]).wf = false := by simp [Instr.wf]
theorem test_wf_flashMove : (Instr.flashMove 0 .wear 5 5 []).wf = false := by decide
theorem test_wf_flashBlockFail : (Instr.flashBlockFail 0 5 5).wf = false := by decide
theorem test_wf_ownerWrite : (Instr.ownerWrite .oob ⟨0, 1, true, 0, [], 0⟩ true).wf = false := by decide

/-! ## No word spells a command (the opcode table gives its rows no bits) -/

theorem test_decode : decodeTableWord 64 0x0007F1FF159434A3 = none := by decide
theorem test_withFetchWord (s : State) : s.withFetchWord 64 7 = s := rfl
/-- The first command runs with the rest of the queue waiting. -/
theorem test_step : step { State.reset with pending := [.coldReset, .warmReset] } =
    exec .coldReset { State.reset with pending := [.warmReset] } := rfl

/-! ## Worked examples of the spec -/

/-- Chapter 02, "one tile through the three arrays": the four words of the G operation. -/
theorem test_arrayWords : arrFields 0x0007F1FF159434A3 0x0680000040000000 0x0682000008018000 0x0000FC0040000000 =
    { cls := 3, len := 2, arr := 2, half := 0, stat := 1, afmt := 3, bfmt := 4, ofmt := 9, atrn := true, btrn := false, acc := true,
      drain := false, grad := true, ovf := false, trap := false, mask := false, x := 512, k := 128, kdesc := 0, abase := 0, astride := 512,
      ascale := 0x1a000, as128 := false, bbase := 0x18000, bstride := 64, bscale := 0x1a080, bs128 := false, obase := 0, ostride := 512, y := 64,
      maskw := 0, rsv := 0 } := by decide +kernel
/-- Chapter 03, "F8A encoding with stochastic rounding": 93 lies between 88 and 96, and r = 0x6C1F takes the upper one. -/
theorem test_f8a_stochastic : (Fmt.f8a.round (.rne false) false (.ofQ (.ofInt 93))).bits = 0x6c ∧
    (Fmt.f8a.round (.sr 0x6c1f) false (.ofQ (.ofInt 93))).bits = 0x6c ∧ (Fmt.f8a.round (.sr 0xa000) false (.ofQ (.ofInt 93))).bits = 0x6b := by
  decide +kernel
/-- Chapter 03: an amax of 3.5 gives the F8A scale 448 / 3.5 = 128; an amax of 0.8 gives the F4 scale 4, code 0x81. -/
theorem test_scales : f8Scale (.ofQ ⟨7, 2, 0⟩) Fmt.f8a.maxFin = 0x43000000 ∧ e8m0Scale (.ofQ ⟨4, 5, 0⟩) Fmt.f4.maxFin = 0x81 := by
  decide +kernel
/-- Chapter 03, "F4 block scales and exact accumulation": 12.5 at combined exponent -3, then -3 at +1, is -4.4375, 0xC08E in BF16. -/
theorem test_f4_accumulation :
    let a (i : Nat) : Val := .ofQ (if i = 0 then ⟨6, 1, 0⟩ else if i = 1 then ⟨1, 2, 0⟩ else if i = 32 then ⟨-3, 2, 0⟩ else .zero)
    let b (i : Nat) : Val := .ofQ (if i = 0 then ⟨2, 1, 0⟩ else if i = 1 then ⟨1, 1, 0⟩ else if i = 32 then ⟨2, 1, 0⟩ else .zero)
    let r := accumulate 0 0 64 a b (fun i => e8m0Exp (if i = 0 then 129 else 127)) (fun i => e8m0Exp (if i = 0 then 128 else 126))
    r.2 = false ∧ (Fmt.bf16.round (.rne false) false r.1).bits = 0xc08e := by decide +kernel
/-- Chapter 03, "Where the BF16 window loses bits": 2^60, then 1, then -2^60 leave 0 in the window, with the sticky bit set. -/
theorem test_bf16_window :
    let p (i : Nat) : Q := if i = 0 then .pow2 60 else if i = 32 then .pow2 0 else if i = 64 then (Q.pow2 60).neg else .zero
    let r := accWide 96 p (fun i => if i = 0 ∨ i = 64 then some 60 else if i = 32 then some 0 else none) 3 0 ⟨0, none, false⟩
    r.acc = 0 ∧ r.st = true ∧ r.hi = some 60 := by decide +kernel
/-- Chapter 07, "three members": 1, 2^-32 and 2^-32 in normal and in exact mode. -/
theorem test_three_members : tree [0x3f80000000, 0x2f80000000, 0x2f80000000] = 0x3f80000000 ∧
    exactSum ([0x3f80000000, 0x2f80000000, 0x2f80000000].map Fmt.w40.decode) = 0x3f80000001 := by decide +kernel
/-- Table 5-13: the draft lengths of rounds 2 to 6 after 4 of 4, 2 of 5, 0 of 5, 2 of 2 and 3 of 3 accepted. -/
theorem test_draft_lengths :
    ([(4, 4), (5, 2), (5, 0), (2, 2), (3, 3)].map (fun r => (({ Ctx.free 0 with len := r.1 } : Ctx).draftUpdate 8 ⟨r.1, r.2, []⟩).len)) =
      [5, 5, 2, 3, 4] := by decide +kernel

/-! ## The statements about every step -/

/-- A tick at the last fraction of a microsecond, with the calendar slewed forward and backward, and without power. -/
theorem witness_idleStepTicksTheClock :
    let s (slew : Int) (good : Bool) : State := { State.reset with
      clk := { State.reset.clk with slew := slew, usFrac := 511 }, pwr := { State.reset.pwr with pwrgd := good, aux := good, vin1 := good, vin2 := good } }
    (∀ k ∈ ([1, 0, -1] : List Int), (s k true).pending = [] ∧ (s k true).pwr.pwrgd = true ∧ (s k true).clk.usFrac < 512 ∧
      (s k true).uptime + 31 < 2 ^ 64 ∧ (s k true).now + 2 < 2 ^ 64) ∧
    (s 0 false).pending = [] ∧ (s 0 false).pwr.pwrgd = false ∧ (s 0 true).aon ≠ (s 0 false).aon := by decide +kernel
/-- A step from a state whose memory has its canonical form, with a command waiting. -/
theorem witness_stepsKeepTheMemoryForm : ∃ s t : State, s.pending = [.coreStop 5, .coldReset] ∧ Memory.wf s.mem = true ∧ step s = .next t :=
  ⟨{ State.reset with pending := [.coreStop 5, .coldReset] }, _, rfl, by decide, rfl⟩
theorem witness_stepsKeepFusesAndRecords : ∃ s t : State, s.pending = [] ∧ step s = .next t := ⟨State.reset, _, rfl, rfl⟩
theorem witness_commandsTouchOnlyTheirAreas : ∃ (i : Instr) (s t : State), exec i s = .next t := ⟨.coreStop 5, State.reset, _, rfl⟩

/-! ## States that the witnesses share -/

def z : State := State.reset.wr R.CLK.LOCK.PLL 0x1fffff
/-- core c running at 100 with registers 1..4 set -/
def cpu (c : Nat) : State := z.modCore c (fun x => { x with running := true, pc := 100, sregs := [(1, 7), (2, 0x8000000000000003), (3, 0x1234), (4, 64)] })
/-- region 0 spans all of HBM for partition 0 -/
def mod0 : State := z.wrs [(R.HBM0.REGION.BASE_GIB 0, 0), (R.HBM0.REGION.NLOG 0, 496), (R.HBM0.REGION.STACKS 0, 255), (R.HBM0.REGION.VALID 0, 1)]
def cpum (c : Nat) : State := mod0.modCore c (fun x => { x with running := true, pc := 100, sregs := [(1, 7), (2, 0x8000000000000003), (3, 0x1234), (4, 64)] })
def job0 : Job := ⟨7, 0, 0, 0, 0, 0, [], 0, 16, false, false, false, false, 0, 0, none, 0, [], some 4⟩
def W0 : Nat := hostWin 0 0
/-- job 7 of partition 0 is owned by function 0 of port 0, whose ring 0 is on; the engine runs with 16-token pages of 512 bytes at 256 MiB -/
def svc : State := { mod0.wrs [(R.BOOT.STAT.READY, 1), (R.HOST.JR_CFG.EN W0 0, 1), (R.HOST.JR_CFG.LOG2 W0 0, 6), (R.HOST.JR_BASE.BASE W0 0, 0x4000), (R.HOST.CR_BASE.BASE W0 0, 0x8000),
    (R.ROLL.CTL.EN 0, 1), (R.ROLL.QUOTA.CTX 0, 4), (R.ROLL.PAGE_CFG.LINES 0, 1), (R.ROLL.KV_BASE.BASE 0, 256), (R.ROLL.KV_SIZE.MIB 0, 1), (R.SCHED.TURN_STAT.PHASE 0, 1), (R.SCHED.WPTR.VALID 0, 1), (R.SCHED.WPTR.STEP 0, 9)] with
  host := { mod0.host with link0 := true, jobs := [job0] },
  roll := { mod0.roll with rings := [(3, some ⟨0x9000, 8, 0xa000, 5, []⟩)], accts := [(2, 50)], batches := [(0, ⟨[⟨6, false, none⟩], some 5⟩)] } }
def post (w1 w2 w3 w4 w5 w6 : Word) : Post := ⟨0, 0, 0, 7, ⟨77, w1, w2, w3, w4, w5, w6, 0⟩⟩
def cx : Ctx := { Ctx.free 3 with st := 5, part := 0, job := 7, order := 1, batch := 6, step := 9, acct := 2, ring := 3, toks := [11, 12, 13], prompt := 2, out := 1, hist := 3, maxNew := 100, pages := [0], len := 2 }
def wc (c : Ctx) (s : State := svc) : State := { s with roll := { s.roll with ctxs := [(4, c)] } }
def pc (op : Nat) (w : Payload) : PendCmd := ⟨0, 0, 0, 77, op, 7, .boundary w false⟩
def wt (op : Nat) (w : Payload) (s : State) : State := { s with host := { s.host with waiting := [pc op w] } }
def pay (w1 w2 : Nat) (w3 w4 w5 w6 : Nat := 0) : Payload := ⟨77, BitVec.ofNat 64 w1, BitVec.ofNat 64 w2, BitVec.ofNat 64 w3, BitVec.ofNat 64 w4, BitVec.ofNat 64 w5, BitVec.ofNat 64 w6, 0⟩
def hnd : Nat := 4 + 3 * 2^14
def b0 : Batch := ⟨6, false, none⟩
def o0 : Obj := ⟨5, 0, .park, 1024, none, true, false, [(3, 9), (600, 8)], [], 0, none, []⟩
def ob (i : Nat) (o : Obj) (s : State) : State := { s with dir := { s.dir with objs := [(i, some o)], fresh := i + 1 } }
def tk0 : Nat := 5 * 2^22 + 2

/-! ## Witnesses: Ctl -/
namespace Ctl
def ctlW (op d a b rsv imm : Nat) : Word := BitVec.ofNat 64 (op * 64 + d * 2^12 + a * 2^17 + b * 2^22 + rsv * 2^27 + imm * 2^32)
/-- For `Obligations.CtlInstructionsSetTheirResult`. -/
theorem witness_ctlArithmeticWritesItsResult :
    (∃ (c : CoreId) (w : Word) (s : State), s.Ready c.val 1 ∧ (ctlFields w).of 2) ∧
    (∃ (c : CoreId) (w : Word) (s : State), s.Ready c.val 1 ∧ (ctlFields w).of 3) ∧
    (∃ (c : CoreId) (w : Word) (s : State), s.Ready c.val 1 ∧ (ctlFields w).of 4) ∧
    (∃ (c : CoreId) (w : Word) (s : State), s.Ready c.val 1 ∧ (ctlFields w).of 5) ∧
    (∃ (c : CoreId) (w : Word) (s : State), s.Ready c.val 1 ∧ (ctlFields w).of 6) ∧
    (∃ (c : CoreId) (w : Word) (s : State), s.Ready c.val 1 ∧ (ctlFields w).of 7) ∧
    (∃ (c : CoreId) (w : Word) (s : State), s.Ready c.val 1 ∧ (ctlFields w).of 8) ∧
    (∃ (c : CoreId) (w : Word) (s : State), s.Ready c.val 1 ∧ (ctlFields w).of 9) ∧
    (∃ (c : CoreId) (w : Word) (s : State), s.Ready c.val 1 ∧ (ctlFields w).of 10) ∧
    (∃ (c : CoreId) (w : Word) (s : State), s.Ready c.val 1 ∧ (ctlFields w).of 11) ∧
    (∃ (c : CoreId) (w : Word) (s : State), s.Ready c.val 1 ∧ (ctlFields w).of 12) :=
  ⟨⟨5, (ctlW 2 3 1 2 0 0x80000005), (cpu 5), by unfold State.Ready CtlF.of; decide +kernel⟩,
   ⟨5, (ctlW 3 3 1 2 0 0x80000005), (cpu 5), by unfold State.Ready CtlF.of; decide +kernel⟩,
   ⟨5, (ctlW 4 3 1 2 0 0x80000005), (cpu 5), by unfold State.Ready CtlF.of; decide +kernel⟩,
   ⟨5, (ctlW 5 3 1 2 0 0x80000005), (cpu 5), by unfold State.Ready CtlF.of; decide +kernel⟩,
   ⟨5, (ctlW 6 3 1 2 0 0x80000005), (cpu 5), by unfold State.Ready CtlF.of; decide +kernel⟩,
   ⟨5, (ctlW 7 3 1 2 0 0x80000005), (cpu 5), by unfold State.Ready CtlF.of; decide +kernel⟩,
   ⟨5, (ctlW 8 3 1 2 0 0x80000005), (cpu 5), by unfold State.Ready CtlF.of; decide +kernel⟩,
   ⟨5, (ctlW 9 3 1 2 0 0x80000005), (cpu 5), by unfold State.Ready CtlF.of; decide +kernel⟩,
   ⟨5, (ctlW 10 3 1 2 0 0x80000005), (cpu 5), by unfold State.Ready CtlF.of; decide +kernel⟩,
   ⟨5, (ctlW 11 3 1 2 0 0x80000005), (cpu 5), by unfold State.Ready CtlF.of; decide +kernel⟩,
   ⟨5, (ctlW 12 3 1 2 0 0x80000005), (cpu 5), by unfold State.Ready CtlF.of; decide +kernel⟩⟩
/-- For `Obligations.CtlInstructionsSetTheirResult`. -/
theorem witness_ctlBranchesSetTheCounter :
    (∃ (c : CoreId) (w : Word) (s : State), s.Ready c.val 1 ∧ (ctlFields w).of 0) ∧
    (∃ (c : CoreId) (w : Word) (s : State), s.Ready c.val 1 ∧ (ctlFields w).of 16) ∧
    (∃ (c : CoreId) (w : Word) (s : State), s.Ready c.val 1 ∧ (ctlFields w).of 17 ∧ s.sreg c.val (ctlFields w).a ≠ 0) ∧
    (∃ (c : CoreId) (w : Word) (s : State), s.Ready c.val 1 ∧ (ctlFields w).of 18 ∧ ¬s.sreg c.val (ctlFields w).a = 0) ∧
    (∃ (c : CoreId) (w : Word) (s : State), s.Ready c.val 1 ∧ (ctlFields w).of 19 ∧ ¬BitVec.toInt (s.sreg c.val (ctlFields w).a) < BitVec.toInt
    (s.sreg c.val (ctlFields w).b)) ∧
    (∃ (c : CoreId) (w : Word) (s : State), s.Ready c.val 1 ∧ (ctlFields w).of 19 ∧ BitVec.toInt (s.sreg c.val (ctlFields w).a) < BitVec.toInt
    (s.sreg c.val (ctlFields w).b)) :=
  ⟨⟨5, (ctlW 0 3 1 2 0 0x80000005), (cpu 5), by unfold State.Ready CtlF.of; decide +kernel⟩,
   ⟨5, (ctlW 16 3 1 2 0 0x80000005), (cpu 5), by unfold State.Ready CtlF.of; decide +kernel⟩,
   ⟨5, (ctlW 17 3 1 2 0 0x80000005), (cpu 5), by unfold State.Ready CtlF.of; decide +kernel⟩,
   ⟨5, (ctlW 18 3 1 2 0 0x80000005), (cpu 5), by unfold State.Ready CtlF.of; decide +kernel⟩,
   ⟨5, (ctlW 19 3 1 2 0 0x80000005), (cpu 5), by unfold State.Ready CtlF.of; decide +kernel⟩,
   ⟨5, (ctlW 19 0 2 4 0 0xFFFFFFFF), (cpu 5), by unfold State.Ready CtlF.of; decide +kernel⟩⟩
/-- For `Obligations.CtlInstructionsSetTheirResult`. -/
theorem witness_fetchErrorsAreCorrectedOrHalt :
    ∃ (c : CoreId) (w : Word) (raw : BitVec 288) (s : State), s.Ready c.val 1 ∧ (ctlFields w).of 0 ∧ (lcDecode (lcSyms raw)).2 = 1 :=
  ⟨5, 0, 1, (cpu 5), by unfold State.Ready CtlF.of; decide +kernel⟩
/-- For `Obligations.IllegalEncodingsStopTheCore`. -/
theorem witness_ctlReservedBitsAreIllegal :
    (∃ (c : CoreId) (w : Word) (s : State), s.Ready c.val 1 ∧ (ctlFields w).cls = 0 ∧ (ctlFields w).len = 0 ∧ (ctlFields w).op = 4 ∧
    (ctlFields w).rsv ≠ 0 ∧ s.rd (R.CORE.AFAULT.VALID c.val) = 0 ∧ s.rd (R.CORE.CTL.FAULT_ACT c.val) = 0) ∧
    (∃ (c : CoreId) (w : Word) (s : State), s.Ready c.val 1 ∧ (ctlFields w).cls = 0 ∧ (ctlFields w).len = 0 ∧
    (ctlFields w).op ∉ [0, 1, 2, 3, 4, 5, 6, 7, 8, 9, 10, 11, 12, 16, 17, 18, 19, 24, 25, 26] ∧ s.rd (R.CORE.AFAULT.VALID c.val) = 0 ∧
    s.rd (R.CORE.CTL.FAULT_ACT c.val) = 1) :=
  ⟨⟨5, (ctlW 4 31 0 2 3 0x80000005), (cpu 5), by unfold State.Ready; decide +kernel⟩,
   ⟨5, (ctlW 13 31 0 2 0 0), ((cpu 5).wr (R.CORE.CTL.FAULT_ACT 5) 1), by unfold State.Ready; decide +kernel⟩⟩
end Ctl

/-! ## Witnesses: Control -/
namespace Control
def ctlW (op d a b rsv imm : Nat) : Word := BitVec.ofNat 64 (op * 64 + d * 2^12 + a * 2^17 + b * 2^22 + rsv * 2^27 + imm * 2^32)
def aop (half : Nat) (fed : Bool) (seq : Nat) : ArrOp := ⟨0,0,0,0,0,seq,half,⟨0,0,0,0⟩,fed,false,0,false⟩
def dr : State := (cpu 5).modCore 5 (fun x => { x with f := { x.f with running := [aop 0 true 1] } })
def as3 : State := (cpu 5).modCore 5 (fun x => { x with stall := .astat 3 0, firstOther := 0x1004 })
def halted : State := z.wr (R.CORE.START_PC.PC 5) 77
def fh : State := (z.modCore 5 (fun x => { x with faultHalt := true })).wr (R.CORE.AFAULT.VALID 5) 1
def src : State := ((mod0.wr (R.CORE.IMEM_SRC.SRC 5) 9).store (9 * 512) [1, 2, 3]).poisonRange (9*512+700) 1
/-- For `Obligations.HaltAstatAndRegisterMoves`. -/
theorem witness_haltAndAstat :
    (∃ (c : CoreId) (w : Word) (s : State), s.Ready c.val 1 ∧ (ctlFields w).of 1) ∧
    (∃ (c : CoreId) (s : State), (s.core c.val).stall = Stall.astat (Fin.ofNat 4 3) (Fin.ofNat 32 0) ∧ (s.core c.val).vecs = [] ∧ (s.core
    c.val).xfers = []) ∧
    (∃ (c : CoreId) (w : Word) (s : State), s.Ready c.val 1 ∧ (ctlFields w).of 26) :=
  ⟨⟨5, (ctlW 1 3 1 2 0 0), dr, by unfold State.Ready CtlF.of; decide +kernel⟩,
   ⟨5, as3, by decide +kernel⟩,
   ⟨5, (ctlW 26 3 1 2 0 3), (cpu 5), by unfold State.Ready CtlF.of; decide +kernel⟩⟩
/-- For `Obligations.HaltAstatAndRegisterMoves`. -/
theorem witness_controlRegisterMoves :
    (∃ (c : CoreId) (w : Word) (s : State), s.Ready c.val 1 ∧ (ctlFields w).of 25 ∧ (BitVec.extractLsb' 0 12 (ctlFields w).imm).toNat = 0) ∧
    (∃ (c : CoreId) (w : Word) (s : State), s.Ready c.val 1 ∧ (ctlFields w).of 25 ∧ (BitVec.extractLsb' 0 12 (ctlFields w).imm).toNat = 16) ∧
    (∃ (c : CoreId) (w : Word) (s : State), s.Ready c.val 1 ∧ (ctlFields w).of 25 ∧ (BitVec.extractLsb' 0 12 (ctlFields w).imm).toNat ≠ 0 ∧
    (BitVec.extractLsb' 0 12 (ctlFields w).imm).toNat ≠ 16 ∧ regDef (134217728 + c.val * 4096 + (BitVec.extractLsb' 0 12 (ctlFields w).imm).toNat) ≠
    none) ∧
    (∃ (c : CoreId) (w : Word) (s : State), s.Ready c.val 1 ∧ (ctlFields w).of 24 ∧ (mtcrMask (BitVec.extractLsb' 0 12 (ctlFields
    w).imm).toNat).isSome = true) ∧
    (∃ (c : CoreId) (w : Word) (s : State), s.Ready c.val 1 ∧ (ctlFields w).of 24 ∧ mtcrMask (BitVec.extractLsb' 0 12 (ctlFields w).imm).toNat =
    none ∧ s.rd (R.CORE.AFAULT.VALID c.val) = 0) ∧
    (∃ (c : CoreId) (w : Word) (s : State), s.Ready c.val 1 ∧ (ctlFields w).of 25 ∧ (BitVec.extractLsb' 0 12 (ctlFields w).imm).toNat ≠ 0 ∧
    (BitVec.extractLsb' 0 12 (ctlFields w).imm).toNat ≠ 16 ∧ regDef (134217728 + c.val * 4096 + (BitVec.extractLsb' 0 12 (ctlFields w).imm).toNat) =
    none) :=
  ⟨⟨5, (ctlW 25 3 1 2 0 0), (cpu 5), by unfold State.Ready CtlF.of; decide +kernel⟩,
   ⟨5, (ctlW 25 0 1 2 0 0x10), (cpu 5), by unfold State.Ready CtlF.of; decide +kernel⟩,
   ⟨5, (ctlW 25 3 1 2 0 0x40), (cpu 5), by unfold State.Ready CtlF.of; decide +kernel⟩,
   ⟨5, (ctlW 24 3 1 2 0 0x40), (cpu 5), by unfold State.Ready CtlF.of; decide +kernel⟩,
   ⟨5, (ctlW 24 3 1 2 0 0x80), (cpu 5), by unfold State.Ready CtlF.of; decide +kernel⟩,
   ⟨5, (ctlW 25 3 1 2 0 0xff8), (cpu 5), by unfold State.Ready CtlF.of; decide +kernel⟩⟩
/-- For `Obligations.IllegalEncodingsStopTheCore`. -/
theorem witness_reservedInstructionHalts :
    (∃ (c : CoreId) (w : Word) (s : State), (BitVec.extractLsb' 0 4 w).toNat = 6 ∧ 1 < (BitVec.extractLsb' 6 2 w).toNat ∧ ((BitVec.extractLsb' 0 4
    w).toNat ≤ 2 ∧ (BitVec.extractLsb' 4 2 w).toNat = 0 ∨ (BitVec.extractLsb' 0 4 w).toNat = 3 ∧ (BitVec.extractLsb' 4 2 w).toNat = 2 ∨ 4 ≤
    (BitVec.extractLsb' 0 4 w).toNat ∧ (BitVec.extractLsb' 0 4 w).toNat ≤ 6 ∧ (BitVec.extractLsb' 4 2 w).toNat = 1) ∧ s.Ready c.val 2 ∧ s.rd
    (R.CORE.AFAULT.VALID c.val) = 0 ∧ s.rd (R.CORE.CTL.FAULT_ACT c.val) = 0) ∧
    (∃ (c : CoreId) (w : Word) (s : State), (BitVec.extractLsb' 0 4 w).toNat = 1 ∧ 3 < (BitVec.extractLsb' 6 4 w).toNat ∧ ((BitVec.extractLsb' 0 4
    w).toNat ≤ 2 ∧ (BitVec.extractLsb' 4 2 w).toNat = 0 ∨ (BitVec.extractLsb' 0 4 w).toNat = 3 ∧ (BitVec.extractLsb' 4 2 w).toNat = 2 ∨ 4 ≤
    (BitVec.extractLsb' 0 4 w).toNat ∧ (BitVec.extractLsb' 0 4 w).toNat ≤ 6 ∧ (BitVec.extractLsb' 4 2 w).toNat = 1) ∧ s.Ready c.val 1 ∧ s.rd
    (R.CORE.AFAULT.VALID c.val) = 0 ∧ s.rd (R.CORE.CTL.FAULT_ACT c.val) = 1) ∧
    (∃ (c : CoreId) (w : Word) (s : State), (BitVec.extractLsb' 0 4 w).toNat = 5 ∧ 15 < (BitVec.extractLsb' 6 6 w).toNat ∧ ((BitVec.extractLsb' 0 4
    w).toNat ≤ 2 ∧ (BitVec.extractLsb' 4 2 w).toNat = 0 ∨ (BitVec.extractLsb' 0 4 w).toNat = 3 ∧ (BitVec.extractLsb' 4 2 w).toNat = 2 ∨ 4 ≤
    (BitVec.extractLsb' 0 4 w).toNat ∧ (BitVec.extractLsb' 0 4 w).toNat ≤ 6 ∧ (BitVec.extractLsb' 4 2 w).toNat = 1) ∧ s.Ready c.val 2 ∧ s.rd
    (R.CORE.AFAULT.VALID c.val) = 0 ∧ s.rd (R.CORE.CTL.FAULT_ACT c.val) = 1) ∧
    (∃ (c : CoreId) (w : Word) (s : State), s.Ready c.val 1 ∧ (¬((BitVec.extractLsb' 0 4 w).toNat ≤ 2 ∧ (BitVec.extractLsb' 4 2 w).toNat = 0 ∨
    (BitVec.extractLsb' 0 4 w).toNat = 3 ∧ (BitVec.extractLsb' 4 2 w).toNat = 2 ∨ 4 ≤ (BitVec.extractLsb' 0 4 w).toNat ∧ (BitVec.extractLsb' 0 4
    w).toNat ≤ 6 ∧ (BitVec.extractLsb' 4 2 w).toNat = 1)) ∧ s.rd (R.CORE.AFAULT.VALID c.val) = 0) :=
  ⟨⟨5, (6 + 16 + 64*2), (cpu 5), by unfold State.Ready; decide +kernel⟩,
   ⟨5, (1 + 64*5), ((cpu 5).wr (R.CORE.CTL.FAULT_ACT 5) 1), by unfold State.Ready; decide +kernel⟩,
   ⟨5, (5 + 16 + 64*16), ((cpu 5).wr (R.CORE.CTL.FAULT_ACT 5) 1), by unfold State.Ready; decide +kernel⟩,
   ⟨5, 0x7, (cpu 5), by unfold State.Ready; decide +kernel⟩⟩
/-- For `Obligations.CoreStartAndStop`. -/
theorem witness_coreStartAndStop :
    (∃ (c : CoreId) (s : State), (s.core c.val).faultHalt = true ∧ s.rd (R.CORE.AFAULT.VALID c.val) = 1) ∧
    (∃ (c : CoreId) (s : State), (s.core c.val).runningBit = false ∧ (s.core c.val).offline = false ∧ s.rd R.CLK.LOCK.PLL / 2 ^ (c.val / 200) % 2 =
    1 ∧ ((s.core c.val).faultHalt = false ∨ s.rd (R.CORE.AFAULT.VALID c.val) = 0)) :=
  ⟨⟨5, fh, by decide +kernel⟩,
   ⟨5, halted, by decide +kernel⟩⟩
/-- For `Obligations.CoreMemoryLoadsAndRetirement`. -/
theorem witness_instructionMemoryLoads :
    (∃ (c : CoreId) (v : Word) (s : State), BitVec.getLsbD v 8 = true ∧ (s.core c.val).runningBit = false ∧ placeOf (s.rd (R.CORE.IMEM_SRC.SRC
    c.val) * 512) = Place.hbm ∧ (s.partOfCore c.val).isSome = true ∧ s.reach (s.partOfCore c.val) (s.rd (R.CORE.IMEM_SRC.SRC c.val) * 512)
    (((BitVec.extractLsb' 0 7 v).toNat + 1) * 512) false = Reach.ok ∧ s.rd (R.CORE.IMEM_CMD.BUSY c.val) = 1 ∧ s.held (s.rd (R.CORE.IMEM_SRC.SRC
    c.val) * 512) ((s.rd (R.CORE.IMEM_CMD.LINES c.val) + 1) * 512) = false ∧ s.poisoned (s.rd (R.CORE.IMEM_SRC.SRC c.val) * 512) ((s.rd
    (R.CORE.IMEM_CMD.LINES c.val) + 1) * 512) = true) ∧
    (∃ (c : CoreId) (v : Word) (s : State), BitVec.getLsbD v 8 = true ∧ ((s.core c.val).runningBit = true ∨ ¬(placeOf (s.rd (R.CORE.IMEM_SRC.SRC
    c.val) * 512) = Place.hbm ∧ (s.partOfCore c.val).isSome = true ∧ s.reach (s.partOfCore c.val) (s.rd (R.CORE.IMEM_SRC.SRC c.val) * 512)
    (((BitVec.extractLsb' 0 7 v).toNat + 1) * 512) false = Reach.ok))) :=
  ⟨⟨5, 0x102, (src.wrs [(R.CORE.IMEM_CMD.BUSY 5, 1), (R.CORE.IMEM_CMD.LINES 5, 2)]), by decide +kernel⟩,
   ⟨5, 0x102, (cpu 5), by decide +kernel⟩⟩
end Control

/-! ## Witnesses: Arrays -/
namespace Arrays
def w0 (arr half trap mask : Nat) : Word := BitVec.ofNat 64 (3 + 2*16 + arr * 64 + half * 256 + 0 * 1024 + 5 * 4096 + 5 * 2^16 + 10 * 2^20 + 2^27 + trap * 2^30 + mask * 2^31 + 1 * 2^32 + 1 * 2^44)
def w1 : Word := BitVec.ofNat 64 (0 + 64 * 2^21)
def w2 : Word := BitVec.ofNat 64 (512 + 64 * 2^21)
def w3 : Word := BitVec.ofNat 64 (1024 + 64 * 2^21 + 1 * 2^42)
def en : State := (cpu 5).wr (R.CORE.CTL.ARR_EN 5) 7
def op (half trap seq : Nat) (fed : Bool) : ArrOp := ⟨w0 0 half trap 0, w1, w2, w3, 90, seq, half, ⟨0,0,0,0⟩, fed, false, 0, false⟩
def busy : State := en.modCore 5 (fun x => { x with f := { x.f with queue := [op 0 0 3 false] }, d := { x.d with running := [op 0 0 2 true] } })
def fr (r : Ramp) : State := en.modCore 5 (fun x => { x with f := { x.f with ramp := r } })
def q2 (r : Ramp) : State := en.modCore 5 (fun x => { x with f := { x.f with queue := [op 0 0 3 false], ramp := r } })
def filled0 : State := (((en).store (winAddr 5 0) [1,2,3]).store (winAddr 5 64) [4,5]).store (winAddr 5 512) [7,8,9,255,254]
def run (s : State) : State := s.modCore 5 (fun x => { x with f := { x.f with running := [op 0 0 3 true], ramp := .warm } })
def filled : State := run filled0
/-- For `Obligations.ArrayOperationsQueueAndStart`. -/
theorem witness_arrayOperationQueues :
    ∃ (c : CoreId) (w0 : Word) (w1 : Word) (w2 : Word) (w3 : Word) (s : State) (i : ℕ), s.Ready c.val 4 ∧ (arrFields w0 w1 w2 w3).cls = 3 ∧
    (arrFields w0 w1 w2 w3).len = 2 ∧ (arrFields w0 w1 w2 w3).fieldsOk = true ∧ s.targetArr c.val (arrFields w0 w1 w2 w3) = some i ∧ (arrFields w0
    w1 w2 w3).rangesOk = true ∧ (∀ r ∈ (arrFields w0 w1 w2 w3).outWindow :: (arrFields w0 w1 w2 w3).reads, s.segOff c.val r = false) ∧ ((s.core
    c.val).arr i).queue.length < 4 ∧ (s.core c.val).inFlight.length < 16 :=
  ⟨5, (w0 3 0 0 0), w1, w2, w3, en, 0, by unfold State.Ready; decide +kernel⟩
/-- For `Obligations.SequencerChoosesTheEmptiestArray`. -/
theorem witness_sequencerChoosesTheEmptiestArray :
    (∃ (c : CoreId) (f : ArrF) (s : State), f.arr = 3 ∧ (s.targetArr c.val f).isSome = true ∧ ((s.targetArr c.val f).any fun i => decide ((0 < 3) ∧
    (s.arrOn c.val 0 = true))) = true ∧ ((s.targetArr c.val f).any fun i => decide ((2 < 3) ∧ (s.arrOn c.val 2 = true) ∧ ((fun i => ((s.core
    c.val).arr i).queue.length + ((s.core c.val).arr i).running.length) i = (fun i => ((s.core c.val).arr i).queue.length + ((s.core c.val).arr
    i).running.length) 2))) = true ∧ (∃ j < 3, s.arrOn c.val j = true)) ∧
    (∃ (c : CoreId) (f : ArrF) (s : State), f.arr = 3 ∧ ((s.targetArr c.val f).any fun i => decide ((1 < 3) ∧ (s.arrOn c.val 1 = true))) = true ∧
    ((s.targetArr c.val f).any fun i => decide ((1 < 3) ∧ (s.arrOn c.val 1 = true) ∧ ((fun i => ((s.core c.val).arr i).queue.length + ((s.core
    c.val).arr i).running.length) i = (fun i => ((s.core c.val).arr i).queue.length + ((s.core c.val).arr i).running.length) 1))) = true) :=
  ⟨⟨5, (arrFields (w0 3 0 0 0) w1 w2 w3), busy, by decide +kernel⟩,
   ⟨5, (arrFields (w0 3 0 0 0) w1 w2 w3), (en.wr (R.CORE.CTL.ARR_EN 5) 6), by decide +kernel⟩⟩
/-- For `Obligations.ArrayOperationsQueueAndStart`. -/
theorem witness_arrayStartsAndRamps :
    (∃ (c : CoreId) (i : Fin 3) (cycle : ℕ) (s : State), ((((s.core c.val).arr i.val).queue.head?).any fun o => decide ((s.arrOn c.val i.val = true)
    ∧ ((s.core c.val).canStart c.val ((s.core c.val).arr i.val) o = true))) = true ∧ ((((s.core c.val).arr i.val).queue.head?).any fun o => decide
    ((s.arrOn c.val i.val = true) ∧ ((s.core c.val).canStart c.val ((s.core c.val).arr i.val) o = true) ∧ (((s.core c.val).arr i.val).ramp =
    Ramp.cold))) = true ∧ ((((s.core c.val).arr i.val).queue.head?).any fun o => decide ((s.arrOn c.val i.val = true) ∧ ((s.core c.val).canStart
    c.val ((s.core c.val).arr i.val) o = true) ∧ (((s.core c.val).arr i.val).ramp = Ramp.cold) ∧ (s.rampWaiters (c.val / 200) = [] ∧ ((s.gov (c.val
    / 200)).grants.filter (fun k => max (s.gov (c.val / 200)).cycle cycle < k + 128)).length < s.rd R.PWR.CTL.RAMP_ARR))) = true ∧ s.Ready c.val 1 ∧
    (BitVec.ofNat 64 (2 + 64 + 9 * 65536)).getLsbD (6 + i.val) = true ∧ s.arrOn c.val i.val = true ∧ ((s.core c.val).arr i.val).ramp = Ramp.cold ∧
    ((BitVec.ofNat 64 (2 + 128 + 65535 * 65536)).getLsbD (6 + i.val) = false ∨ s.arrOn c.val i.val = false) ∧ ((s.core c.val).arr i.val).ramp.waits
    = false) ∧
    (∃ (c : CoreId) (i : Fin 3) (steps : Fin 9) (s : State), ((((s.core c.val).arr i.val).queue.head?).any fun o => decide ((s.arrOn c.val i.val =
    true) ∧ ((s.core c.val).canStart c.val ((s.core c.val).arr i.val) o = true) ∧ (((s.core c.val).arr i.val).ramp.reached = Ramp.warm))) = true ∧
    ((s.core c.val).arr i.val).ramp = Ramp.down 8 ∧ steps.val < 8 ∧ s.Ready c.val 1 ∧ (BitVec.ofNat 64 (2 + 64 + 9 * 65536)).getLsbD (6 + i.val) =
    true ∧ s.arrOn c.val i.val = true ∧ ((s.core c.val).arr i.val).ramp.reached = Ramp.warm) ∧
    (∃ (c : CoreId) (i : Fin 3) (cycle : ℕ) (s : State), ((s.core c.val).arr i.val).ramp = Ramp.warm ∧ ((s.core c.val).arr i.val).queue = [] ∧
    ((s.core c.val).arr i.val).running = [] ∧ (((s.core c.val).arr i.val).hold = none ∨ s.arrOn c.val i.val = false) ∧ s.rampRoom (c.val / 200)
    cycle) ∧
    (∃ (c : CoreId) (i : Fin 3) (steps : Fin 9) (s : State), ((s.core c.val).arr i.val).ramp = Ramp.up 3 ∧ 3 + steps.val < 8) ∧
    (∃ (c : CoreId) (i : Fin 3) (steps : Fin 9) (s : State), ((s.core c.val).arr i.val).ramp = Ramp.up 3 ∧ 8 ≤ 3 + steps.val) ∧
    (∃ (c : CoreId) (i : Fin 3) (steps : Fin 9) (s : State), ((s.core c.val).arr i.val).ramp = Ramp.down 3 ∧ steps.val < 3) ∧
    (∃ (c : CoreId) (i : Fin 3) (steps : Fin 9) (s : State), ((s.core c.val).arr i.val).ramp = Ramp.down 8 ∧ 8 ≤ steps.val) ∧
    (∃ (c : CoreId) (i : Fin 3) (steps : Fin 9) (s : State), ((s.core c.val).arr i.val).ramp = Ramp.down 3 ∧ 3 ≤ steps.val) :=
  ⟨⟨5, 0, 5, (q2 .cold), by unfold State.Ready; decide +kernel⟩,
   ⟨5, 0, 2, (q2 (.down 8)), by unfold State.Ready; decide +kernel⟩,
   ⟨5, 0, 5, (fr .warm), by unfold State.rampRoom; decide +kernel⟩,
   ⟨5, 0, 2, (fr (.up 3)), by decide +kernel⟩,
   ⟨5, 0, 8, (fr (.up 3)), by decide +kernel⟩,
   ⟨5, 0, 2, (fr (.down 3)), by decide +kernel⟩,
   ⟨5, 0, 8, (fr (.down 8)), by decide +kernel⟩,
   ⟨5, 0, 8, (fr (.down 3)), by decide +kernel⟩⟩
/-- For `Obligations.ArrayDrainsWriteOrPoison`. -/
theorem witness_arrayDrainWritesTheResult :
    ∃ (c : CoreId) (i : Fin 3) (half : Fin 3) (rows : Option ℕ) (s : State) (o : ArrOp), s.Drains c.val i.val half.val (o.upto rows) o ∧
    o.fields.trap = false ∧ rows ≠ none :=
  ⟨5, 0, 0, (some 2), filled, (op 0 0 3 true), by unfold State.Drains; decide +kernel⟩
/-- For `Obligations.ArrayDrainsWriteOrPoison`. -/
theorem witness_arrayDrainPassesPoisonOn :
    ∃ (c : CoreId) (i : Fin 3) (half : Fin 3) (rows : Option ℕ) (s : State) (o : ArrOp), List.find? (fun o => o.half == half.val) ((s.core
    c.val).arr i.val).running = some o ∧ o.fed = true ∧ (s.core c.val).sigs = [] ∧ s.maskPoison c.val o.fields = false ∧ s.consumesPoison c.val
    o.fields o.done (o.upto rows) = true ∧ s.rd (R.CORE.AFAULT.VALID c.val) = 0 ∧ s.rd (R.CORE.CTL.FAULT_ACT c.val) = 0 :=
  ⟨5, 0, 0, none, (run (filled0.poisonRange (winAddr 5 64) 1)), (op 0 0 3 true), by decide +kernel⟩
end Arrays

/-! ## Witnesses: Vectors -/
namespace Vectors
def wA : Nat := winAddr 5 0
def vw0 (op sf df : Nat) (k : Nat) : Word := BitVec.ofNat 64 (5 + 16 + op*64 + sf*4096 + df*65536 + k + 1*2^32 + 2*2^37 + 3*2^42 + 4*2^47 + 6*2^52)
def vw1 (cols rows : Nat) : Word := BitVec.ofNat 64 ((cols-1) + (rows-1)*2^13 + 8*2^26 + 8*2^43)
-- s1=src 0, s2=dst 512, s3=x 256, s4 = param, s6 = flags 1024
def vs : State := (((z.modCore 5 (fun x => { x with running := true, pc := 100, sregs := [(1, 0), (2, 512), (3, 256), (4, 0x3f800000), (6, 1024)] })).store wA [0,0,128,63, 0,0,0,64, 0,0,0,192]).store (wA+256) [0,0,128,63, 0,0,64,64]).store (wA+512) [1,2,3,4,5]
def w8 := vw1 4 2
def pend0 (fa : Option Nat) (t p : Bool) : VecPend := ⟨77, 5, 3, 1, t, p, fa, 512, 16, 128, 2, [], [[(0,1),(3,7)],[(5,9)]], [], 0⟩
def vp (fa : Option Nat) (t p : Bool) (act : Nat) : State := (vs.modCore 5 (fun x => { x with vecs := [pend0 fa t p, pend0 none false false] })).wr (R.CORE.CTL.FAULT_ACT 5) act
/-- For `Obligations.VectorInstructionsWriteAndFlag`. -/
theorem witness_vectorInstructionsEnterFlight :
    (∃ (c : CoreId) (w0 : Word) (w1 : Word) (s : State), s.VecReady c.val 0 w0 w1) ∧
    (∃ (c : CoreId) (w0 : Word) (w1 : Word) (s : State), s.VecReady c.val 1 w0 w1) ∧
    (∃ (c : CoreId) (w0 : Word) (w1 : Word) (s : State), s.VecReady c.val 2 w0 w1) ∧
    (∃ (c : CoreId) (w0 : Word) (w1 : Word) (s : State), s.VecReady c.val 3 w0 w1) ∧
    (∃ (c : CoreId) (w0 : Word) (w1 : Word) (s : State), s.VecReady c.val 4 w0 w1) ∧
    (∃ (c : CoreId) (w0 : Word) (w1 : Word) (s : State), s.VecReady c.val 5 w0 w1) ∧
    (∃ (c : CoreId) (w0 : Word) (w1 : Word) (s : State), s.VecReady c.val 6 w0 w1) ∧
    (∃ (c : CoreId) (w0 : Word) (w1 : Word) (s : State), s.VecReady c.val 7 w0 w1) ∧
    (∃ (c : CoreId) (w0 : Word) (w1 : Word) (s : State), s.VecReady c.val 8 w0 w1) ∧
    (∃ (c : CoreId) (w0 : Word) (w1 : Word) (s : State), s.VecReady c.val 9 w0 w1) ∧
    (∃ (c : CoreId) (w0 : Word) (w1 : Word) (s : State), s.VecReady c.val 10 w0 w1) ∧
    (∃ (c : CoreId) (w0 : Word) (w1 : Word) (s : State), s.VecReady c.val 11 w0 w1) ∧
    (∃ (c : CoreId) (w0 : Word) (w1 : Word) (s : State), s.VecReady c.val 12 w0 w1) ∧
    (∃ (c : CoreId) (w0 : Word) (w1 : Word) (s : State), s.VecReady c.val 13 w0 w1) ∧
    (∃ (c : CoreId) (w0 : Word) (w1 : Word) (s : State), s.VecReady c.val 14 w0 w1) ∧
    (∃ (c : CoreId) (w0 : Word) (w1 : Word) (s : State), s.VecReady c.val 15 w0 w1) :=
  ⟨⟨5, (vw0 0 8 8 0), w8, vs, by unfold State.VecReady State.Ready; decide +kernel⟩,
   ⟨5, (vw0 1 8 8 0), w8, vs, by unfold State.VecReady State.Ready; decide +kernel⟩,
   ⟨5, (vw0 2 8 4 0), w8, vs, by unfold State.VecReady State.Ready; decide +kernel⟩,
   ⟨5, (vw0 3 8 8 0), w8, vs, by unfold State.VecReady State.Ready; decide +kernel⟩,
   ⟨5, (vw0 4 8 8 0), w8, vs, by unfold State.VecReady State.Ready; decide +kernel⟩,
   ⟨5, (vw0 5 8 8 0), w8, vs, by unfold State.VecReady State.Ready; decide +kernel⟩,
   ⟨5, (vw0 6 8 8 0), w8, vs, by unfold State.VecReady State.Ready; decide +kernel⟩,
   ⟨5, (vw0 7 8 8 0), w8, vs, by unfold State.VecReady State.Ready; decide +kernel⟩,
   ⟨5, (vw0 8 8 8 0), w8, vs, by unfold State.VecReady State.Ready; decide +kernel⟩,
   ⟨5, (vw0 9 8 8 0), w8, vs, by unfold State.VecReady State.Ready; decide +kernel⟩,
   ⟨5, (vw0 10 8 8 0), w8, vs, by unfold State.VecReady State.Ready; decide +kernel⟩,
   ⟨5, (vw0 11 8 8 0), w8, vs, by unfold State.VecReady State.Ready; decide +kernel⟩,
   ⟨5, (vw0 12 8 8 0), w8, vs, by unfold State.VecReady State.Ready; decide +kernel⟩,
   ⟨5, (vw0 13 8 8 0), w8, vs, by unfold State.VecReady State.Ready; decide +kernel⟩,
   ⟨5, (vw0 14 8 8 0), w8, vs, by unfold State.VecReady State.Ready; decide +kernel⟩,
   ⟨5, (vw0 15 8 8 0), w8, vs, by unfold State.VecReady State.Ready; decide +kernel⟩⟩
/-- For `Obligations.VectorElementsRoundTheExactResult`. -/
theorem witness_vectorElementsRoundTheExactResult :
    (∃ (c : CoreId) (s : State) (v : VecOps) (r : ℕ) (q : ℕ), v.f.op = 0 ∧ v.f.widens = false ∧ (s.vecSrc c.val v r q).isZero = false ∧ ((fun w =>
    (fmtOf v.f.dfmt).round (s.vecRnd c.val v.f r q) v.f.ovf w) ((s.vecSrc c.val v r q).mul (if v.f.scaled = true then s.vecScale c.val v r q else
    Val.ofQ (Q.ofInt 1)))).unstated = false) ∧
    (∃ (c : CoreId) (s : State) (v : VecOps) (r : ℕ) (q : ℕ), v.f.op = 3 ∧ ((fun w => (fmtOf v.f.dfmt).round (s.vecRnd c.val v.f r q) v.f.ovf w)
    ((s.vecSrc c.val v r q).add (s.vecX c.val v r q))).unstated = false) ∧
    (∃ (c : CoreId) (s : State) (v : VecOps) (r : ℕ) (q : ℕ), v.f.op = 4 ∧ ((fun w => (fmtOf v.f.dfmt).round (s.vecRnd c.val v.f r q) v.f.ovf w)
    ((s.vecSrc c.val v r q).mul (s.vecX c.val v r q))).unstated = false) ∧
    (∃ (c : CoreId) (s : State) (v : VecOps) (r : ℕ) (q : ℕ), v.f.op = 5 ∧ ((fun w => (fmtOf v.f.dfmt).round (s.vecRnd c.val v.f r q) v.f.ovf w)
    ((s.vecSrc c.val v r q).fma ((fun lo => Fmt.fp32.decode (v.p / 2 ^ lo % 2 ^ 32)) 0) (s.vecX c.val v r q))).unstated = false) ∧
    (∃ (c : CoreId) (s : State) (v : VecOps) (r : ℕ) (q : ℕ), v.f.op = 6 ∧ ((s.vecSrc c.val v r q).isZero = false ∨ (s.vecX c.val v r q).isZero =
    false) ∧ (s.vecSrc c.val v r q).isNan = false ∧ (s.vecX c.val v r q).isNan = false ∧ ((fun w => (fmtOf v.f.dfmt).round (s.vecRnd c.val v.f r q)
    v.f.ovf w) (if (s.vecSrc c.val v r q).lt (s.vecX c.val v r q) = true then s.vecX c.val v r q else s.vecSrc c.val v r q)).unstated = false) ∧
    (∃ (c : CoreId) (s : State) (v : VecOps) (r : ℕ) (q : ℕ), v.f.op = 7 ∧ v.p % 2 ^ 32 ≤ (s.vecWord c.val v.f r q).toNat ∧ ((fun w => (fmtOf
    v.f.dfmt).round (s.vecRnd c.val v.f r q) v.f.ovf w) ((s.vecSrc c.val v r q).mul ((fun lo => Fmt.fp32.decode (v.p / 2 ^ lo % 2 ^ 32))
    32))).unstated = false) ∧
    (∃ (c : CoreId) (s : State) (v : VecOps) (r : ℕ) (q : ℕ), v.f.op = 7 ∧ (s.vecWord c.val v.f r q).toNat < v.p % 2 ^ 32 ∧ ((fun w => (fmtOf
    v.f.dfmt).round (s.vecRnd c.val v.f r q) v.f.ovf w) (Val.zero false)).unstated = false) ∧
    (∃ (v : VecOps), v.f.op = 9) ∧
    (∃ (v : VecOps), v.f.op = 10) ∧
    (∃ (v : VecOps), v.f.op = 11) ∧
    (∃ (v : VecOps), v.f.op = 12) ∧
    (∃ (v : VecOps), v.f.op = 13) :=
  ⟨⟨5, vs, (vs.vecOps 5 (vecFields (vw0 0 8 8 0) w8)), 0, 0, by decide +kernel⟩,
   ⟨5, vs, (vs.vecOps 5 (vecFields (vw0 3 8 8 0) w8)), 0, 0, by decide +kernel⟩,
   ⟨5, vs, (vs.vecOps 5 (vecFields (vw0 4 8 8 0) w8)), 0, 0, by decide +kernel⟩,
   ⟨5, vs, (vs.vecOps 5 (vecFields (vw0 5 8 8 0) w8)), 0, 0, by decide +kernel⟩,
   ⟨5, vs, (vs.vecOps 5 (vecFields (vw0 6 8 8 0) w8)), 0, 0, by decide +kernel⟩,
   ⟨5, vs, (vs.vecOps 5 (vecFields (vw0 7 8 8 0) w8)), 0, 0, by decide +kernel⟩,
   ⟨5, vs, (vs.vecOps 5 (vecFields (vw0 7 8 8 0) w8)), 0, 1, by decide +kernel⟩,
   ⟨(vs.vecOps 5 (vecFields (vw0 9 8 8 0) w8)), by decide +kernel⟩,
   ⟨(vs.vecOps 5 (vecFields (vw0 10 8 8 0) w8)), by decide +kernel⟩,
   ⟨(vs.vecOps 5 (vecFields (vw0 11 8 8 0) w8)), by decide +kernel⟩,
   ⟨(vs.vecOps 5 (vecFields (vw0 12 8 8 0) w8)), by decide +kernel⟩,
   ⟨(vs.vecOps 5 (vecFields (vw0 13 8 8 0) w8)), by decide +kernel⟩⟩
/-- For `Obligations.VectorInstructionsWriteAndFlag`. -/
theorem witness_vectorCompletionGathersFlags :
    (∃ (c : CoreId) (s : State), ((((s.core c.val).vecs.head?).any fun v => decide (((s.core c.val).sigs = []) ∧ (v.trap = true ∨ v.poison = true)))
    = true) ∧ ((((s.core c.val).vecs.head?).any fun v => decide (((s.core c.val).sigs = []) ∧ (v.trap = true ∨ v.poison = true) ∧ (s.rd
    (R.CORE.AFAULT.VALID c.val) = 0))) = true) ∧ ((((s.core c.val).vecs.head?).any fun v => decide (((s.core c.val).sigs = []) ∧ (v.trap = true ∨
    v.poison = true) ∧ (s.rd (R.CORE.CTL.FAULT_ACT c.val) = 1))) = true)) ∧
    (∃ (c : CoreId) (s : State), (((s.core c.val).vecs.head?).any fun v => decide (((s.core c.val).sigs = []) ∧ (v.trap = false) ∧ (v.poison =
    false))) = true ∧ (((s.core c.val).vecs.head?).any fun v => decide (((s.core c.val).sigs = []) ∧ (v.trap = false) ∧ (v.poison = false) ∧
    (v.flagAddr = none) ∧ (v.blocks = []))) = true ∧ (((s.core c.val).vecs.head?).any fun v => decide (((s.core c.val).sigs = []) ∧ (v.trap = false)
    ∧ (v.poison = false) ∧ (v.done = v.rows) ∧ (v.blocks = []) ∧ (v.flagAddr = none))) = true) ∧
    (∃ (c : CoreId) (s : State), ((((s.core c.val).vecs.head?).any fun v => decide (((s.core c.val).sigs = []) ∧ (v.trap = true ∨ v.poison = true) ∧
    (s.rd (R.CORE.CTL.FAULT_ACT c.val) = 0))) = true)) ∧
    (∃ (c : CoreId) (s : State), (((s.core c.val).vecs.head?).any fun v => decide (((s.core c.val).sigs = []) ∧ (v.trap = false) ∧ (v.poison =
    false) ∧ (v.done = v.rows) ∧ (v.blocks = []) ∧ ((v.flagAddr).isSome = true))) = true) :=
  ⟨⟨5, (vp (some 1024) true true 1), by decide +kernel⟩,
   ⟨5, ((vp none false false 0).modCore 5 (fun x => { x with vecs := [{ pend0 none false false with done := 2 }] })), by decide +kernel⟩,
   ⟨5, (vp (some 1024) true false 0), by decide +kernel⟩,
   ⟨5, ((vp (some 1024) false false 0).modCore 5 (fun x => { x with vecs := [{ pend0 (some 1024) false false with done := 2 }] })),
   by decide +kernel⟩⟩
end Vectors

/-! ## Witnesses: Memory -/
namespace Memory
def sr (l : Tab Word) : State := mod0.modCore 5 (fun x => { x with running := true, pc := 100, sregs := l })
def xw0 (ssp dsp cw rows : Nat) : Word := BitVec.ofNat 64 (4+16+ssp*64+dsp*256+1*1024+2*2^15+3*2^20+4*2^25+cw*2^30+(rows-1)*2^32)
def xw1 : Word := BitVec.ofNat 64 (64 + 64*2^32)
def xs : State := sr [(1, 0), (2, 0x2000), (3, 8), (4, 0x3000)]
def xp (cw : Option Nat) : XferPend := ⟨90, 4, 0x1000, 0x2000, none, none, 8, 2, 64, 64, 0x2000, cw, none, [], []⟩
def xm (cw : Option Nat) : State := ((xs.modCore 5 (fun x => { x with xfers := [xp none, {xp cw with seq := 5}] })).store 0x1000 [1,2,3,4]).store 0x1040 [7,7]
def sw (op sc aop cond gaddr tmo a b d : Nat) : Word := BitVec.ofNat 64 (1 + op*64 + sc*1024 + aop*2^15+cond*2^18+a*2^20+b*2^25+d*2^30+gaddr*2^35+tmo*2^40)
def ys : State := (sr [(1, 0x1000), (2, 9), (3, 2)]).store 0x1000 [7,1]
def wst (w : Word) (bs : List Byte) : State := (ys.modCore 5 (fun x => { x with stall := .wait w })).store 0x1000 bs
/-- For `Obligations.TransfersStartAndCopyRows`. -/
theorem witness_transferStarts :
    (∃ (c : CoreId) (w0 : Word) (w1 : Word) (s : State), s.Ready c.val 2 ∧ (xferFields w0 w1).cls = 4 ∧ (xferFields w0 w1).len = 1 ∧ (xferFields w0
    w1).rsv = 0 ∧ 0 < BitVec.toNat (s.sreg c.val (xferFields w0 w1).lreg) ∧ BitVec.toNat (s.sreg c.val (xferFields w0 w1).lreg) ≤ 2097152 ∧
    s.mayTransact = true ∧ (s.mustWait c.val ((fun e stride => if e.mod.isNone = true then [rowsRange e.addr (xferFields w0 w1).rows (BitVec.toNat
    (s.sreg c.val (xferFields w0 w1).lreg)) stride] else []) (s.xferEnd c.val (xferFields w0 w1).ssp (BitVec.toNat (s.sreg c.val (xferFields w0
    w1).sreg))) (xferFields w0 w1).sstride) ((fun e stride => if e.mod.isNone = true then [rowsRange e.addr (xferFields w0 w1).rows (BitVec.toNat
    (s.sreg c.val (xferFields w0 w1).lreg)) stride] else []) (s.xferEnd c.val (xferFields w0 w1).dsp (BitVec.toNat (s.sreg c.val (xferFields w0
    w1).dreg))) (xferFields w0 w1).dstride ++ if (xferFields w0 w1).cw = true then [(BitVec.toNat (s.sreg c.val (xferFields w0 w1).creg), 8)] else
    []) = false) ∧ s.xferCheck c.val (xferFields w0 w1).ssp (BitVec.toNat (s.sreg c.val (xferFields w0 w1).sreg)) (BitVec.toNat (s.sreg c.val
    (xferFields w0 w1).lreg)) (xferFields w0 w1).rows (xferFields w0 w1).sstride false = Reach.ok ∧ s.xferCheck c.val (xferFields w0 w1).dsp
    (BitVec.toNat (s.sreg c.val (xferFields w0 w1).dreg)) (BitVec.toNat (s.sreg c.val (xferFields w0 w1).lreg)) (xferFields w0 w1).rows (xferFields
    w0 w1).dstride true = Reach.ok ∧ ((xferFields w0 w1).cw = true → s.xferCheck c.val 2 (BitVec.toNat (s.sreg c.val (xferFields w0 w1).creg)) 8 1 0
    true = Reach.ok) ∧ (s.xferEnd c.val (xferFields w0 w1).dsp (BitVec.toNat (s.sreg c.val (xferFields w0 w1).dreg))).mod = none) ∧
    (∃ (c : CoreId) (w0 : Word) (w1 : Word) (s : State), s.Ready c.val 2 ∧ (xferFields w0 w1).cls = 4 ∧ (xferFields w0 w1).len = 1 ∧ (xferFields w0
    w1).rsv = 0 ∧ 0 < BitVec.toNat (s.sreg c.val (xferFields w0 w1).lreg) ∧ BitVec.toNat (s.sreg c.val (xferFields w0 w1).lreg) ≤ 2097152 ∧
    s.mayTransact = true ∧ (s.mustWait c.val ((fun e stride => if e.mod.isNone = true then [rowsRange e.addr (xferFields w0 w1).rows (BitVec.toNat
    (s.sreg c.val (xferFields w0 w1).lreg)) stride] else []) (s.xferEnd c.val (xferFields w0 w1).ssp (BitVec.toNat (s.sreg c.val (xferFields w0
    w1).sreg))) (xferFields w0 w1).sstride) ((fun e stride => if e.mod.isNone = true then [rowsRange e.addr (xferFields w0 w1).rows (BitVec.toNat
    (s.sreg c.val (xferFields w0 w1).lreg)) stride] else []) (s.xferEnd c.val (xferFields w0 w1).dsp (BitVec.toNat (s.sreg c.val (xferFields w0
    w1).dreg))) (xferFields w0 w1).dstride ++ if (xferFields w0 w1).cw = true then [(BitVec.toNat (s.sreg c.val (xferFields w0 w1).creg), 8)] else
    []) = false) ∧ s.xferCheck c.val (xferFields w0 w1).ssp (BitVec.toNat (s.sreg c.val (xferFields w0 w1).sreg)) (BitVec.toNat (s.sreg c.val
    (xferFields w0 w1).lreg)) (xferFields w0 w1).rows (xferFields w0 w1).sstride false = Reach.ok ∧ s.xferCheck c.val (xferFields w0 w1).dsp
    (BitVec.toNat (s.sreg c.val (xferFields w0 w1).dreg)) (BitVec.toNat (s.sreg c.val (xferFields w0 w1).lreg)) (xferFields w0 w1).rows (xferFields
    w0 w1).dstride true = Reach.ok ∧ ((xferFields w0 w1).cw = true → s.xferCheck c.val 2 (BitVec.toNat (s.sreg c.val (xferFields w0 w1).creg)) 8 1 0
    true = Reach.ok) ∧ (((s.xferEnd c.val (xferFields w0 w1).dsp (BitVec.toNat (s.sreg c.val (xferFields w0 w1).dreg))).mod).any fun m => decide
    ((s.slotOfJob (s.jobOfCore c.val) = none))) = true) :=
  ⟨⟨5, (xw0 0 2 1 2), xw1, xs, by unfold State.Ready; decide +kernel⟩,
   ⟨5, (xw0 0 3 1 2), xw1, (sr [(1, 0), (2, 0x3000000002000), (3, 8), (4, 0x3000)]), by unfold State.Ready; decide +kernel⟩⟩
/-- For `Obligations.TransfersStartAndCopyRows`. -/
theorem witness_transferCopiesItsRows :
    ∃ (c : CoreId) (n : ℕ) (x : XferPend) (s : State), (s.core c.val).xfers[n]? = some x ∧ s.Moves c.val x ∧ x.cw = none ∧ x.buf = none ∧ x.srcMod =
    none :=
  ⟨5, 1, {xp none with seq := 5}, (xm none), by unfold State.Moves; decide +kernel⟩
/-- For `Obligations.FenceWaitSignalAndAtomics`. -/
theorem witness_fenceAndWait :
    (∃ (c : CoreId) (w : Word) (s : State), (s.core c.val).stall = Stall.wait w ∧ s.offAt (BitVec.toNat (s.sreg c.val (syncFields w).a)) 8 = none ∧
    s.poisoned (BitVec.toNat (s.sreg c.val (syncFields w).a)) 8 = false ∧ s.held (BitVec.toNat (s.sreg c.val (syncFields w).a)) 8 = false ∧
    s.mustWait c.val [(BitVec.toNat (s.sreg c.val (syncFields w).a), 8)] [] = false ∧ (syncFields w).tmo ≠ 0 ∧ s.rd (R.CORE.AFAULT.VALID c.val) = 0) ∧
    (∃ (c : CoreId) (w : Word) (s : State), s.SyncReady c.val 0 w) ∧
    (∃ (c : CoreId) (w : Word) (s : State), s.SyncReady c.val 1 w ∧ (syncFields w).gaddr = 0 ∧ s.syncCheck c.val
    { mod := none, addr := BitVec.toNat (s.sreg c.val (syncFields w).a) } true false = Reach.ok) ∧
    (∃ (c : CoreId) (w : Word) (s : State), (s.core c.val).stall = Stall.wait w ∧ (syncFields w).tmo = 0) :=
  ⟨⟨5, (sw 1 0 0 0 0 9 1 2 0), (wst (sw 1 0 0 0 0 9 1 2 0) [1]), by decide +kernel⟩,
   ⟨5, (sw 0 2 0 0 0 0 0 0 0), ys, by unfold State.SyncReady State.Ready; decide +kernel⟩,
   ⟨5, (sw 1 0 0 0 0 0 1 2 0), ys, by unfold State.SyncReady State.Ready; decide +kernel⟩,
   ⟨5, (sw 1 0 0 0 0 0 1 2 0), (wst (sw 1 0 0 0 0 0 1 2 0) [8,0]), by decide +kernel⟩⟩
/-- For `Obligations.FenceWaitSignalAndAtomics`. -/
theorem witness_signalAndAtomics :
    (∃ (c : CoreId) (w : Word) (s : State), (s.xferEnd c.val (2 + (syncFields w).gaddr) (BitVec.toNat (s.sreg c.val (syncFields w).a))).mod = none ∧
    s.held (s.xferEnd c.val (2 + (syncFields w).gaddr) (BitVec.toNat (s.sreg c.val (syncFields w).a))).addr 8 = false ∧ s.SyncReady c.val 2 w ∧
    s.syncCheck c.val (s.xferEnd c.val (2 + (syncFields w).gaddr) (BitVec.toNat (s.sreg c.val (syncFields w).a))) true true = Reach.ok ∧ s.offAt
    (s.xferEnd c.val (2 + (syncFields w).gaddr) (BitVec.toNat (s.sreg c.val (syncFields w).a))).addr 8 = none ∧ (s.core c.val).sigs = [] ∧
    s.outstanding c.val (syncFields w).scope (s.core c.val).seq = false) ∧
    (∃ (c : CoreId) (w : Word) (s : State), (s.xferEnd c.val (2 + (syncFields w).gaddr) (BitVec.toNat (s.sreg c.val (syncFields w).a))).mod = none ∧
    s.held (s.xferEnd c.val (2 + (syncFields w).gaddr) (BitVec.toNat (s.sreg c.val (syncFields w).a))).addr 8 = false ∧ s.SyncReady c.val 3 w ∧
    s.syncCheck c.val (s.xferEnd c.val (2 + (syncFields w).gaddr) (BitVec.toNat (s.sreg c.val (syncFields w).a))) false true = Reach.ok ∧ s.poisoned
    (s.xferEnd c.val (2 + (syncFields w).gaddr) (BitVec.toNat (s.sreg c.val (syncFields w).a))).addr 8 = false ∧ s.outstanding c.val (syncFields
    w).scope (s.core c.val).seq = false ∧ s.mustWait c.val [] [((s.xferEnd c.val (2 + (syncFields w).gaddr) (BitVec.toNat (s.sreg c.val (syncFields
    w).a))).addr, 8)] = false ∧ (syncFields w).aop = 0) ∧
    (∃ (c : CoreId) (w : Word) (s : State), (s.xferEnd c.val (2 + (syncFields w).gaddr) (BitVec.toNat (s.sreg c.val (syncFields w).a))).mod = none ∧
    s.held (s.xferEnd c.val (2 + (syncFields w).gaddr) (BitVec.toNat (s.sreg c.val (syncFields w).a))).addr 8 = false ∧ s.SyncReady c.val 3 w ∧
    s.syncCheck c.val (s.xferEnd c.val (2 + (syncFields w).gaddr) (BitVec.toNat (s.sreg c.val (syncFields w).a))) false true = Reach.ok ∧ s.poisoned
    (s.xferEnd c.val (2 + (syncFields w).gaddr) (BitVec.toNat (s.sreg c.val (syncFields w).a))).addr 8 = false ∧ s.outstanding c.val (syncFields
    w).scope (s.core c.val).seq = false ∧ s.mustWait c.val [] [((s.xferEnd c.val (2 + (syncFields w).gaddr) (BitVec.toNat (s.sreg c.val (syncFields
    w).a))).addr, 8)] = false ∧ (syncFields w).aop = 1) ∧
    (∃ (c : CoreId) (w : Word) (s : State), (s.xferEnd c.val (2 + (syncFields w).gaddr) (BitVec.toNat (s.sreg c.val (syncFields w).a))).mod = none ∧
    s.held (s.xferEnd c.val (2 + (syncFields w).gaddr) (BitVec.toNat (s.sreg c.val (syncFields w).a))).addr 8 = false ∧ s.SyncReady c.val 3 w ∧
    s.syncCheck c.val (s.xferEnd c.val (2 + (syncFields w).gaddr) (BitVec.toNat (s.sreg c.val (syncFields w).a))) false true = Reach.ok ∧ s.poisoned
    (s.xferEnd c.val (2 + (syncFields w).gaddr) (BitVec.toNat (s.sreg c.val (syncFields w).a))).addr 8 = false ∧ s.outstanding c.val (syncFields
    w).scope (s.core c.val).seq = false ∧ s.mustWait c.val [] [((s.xferEnd c.val (2 + (syncFields w).gaddr) (BitVec.toNat (s.sreg c.val (syncFields
    w).a))).addr, 8)] = false ∧ (syncFields w).aop = 2) ∧
    (∃ (c : CoreId) (w : Word) (s : State), (s.xferEnd c.val (2 + (syncFields w).gaddr) (BitVec.toNat (s.sreg c.val (syncFields w).a))).mod = none ∧
    s.held (s.xferEnd c.val (2 + (syncFields w).gaddr) (BitVec.toNat (s.sreg c.val (syncFields w).a))).addr 8 = false ∧ s.SyncReady c.val 3 w ∧
    s.syncCheck c.val (s.xferEnd c.val (2 + (syncFields w).gaddr) (BitVec.toNat (s.sreg c.val (syncFields w).a))) false true = Reach.ok ∧ s.poisoned
    (s.xferEnd c.val (2 + (syncFields w).gaddr) (BitVec.toNat (s.sreg c.val (syncFields w).a))).addr 8 = false ∧ s.outstanding c.val (syncFields
    w).scope (s.core c.val).seq = false ∧ s.mustWait c.val [] [((s.xferEnd c.val (2 + (syncFields w).gaddr) (BitVec.toNat (s.sreg c.val (syncFields
    w).a))).addr, 8)] = false ∧ (syncFields w).aop = 3) ∧
    (∃ (c : CoreId) (w : Word) (s : State), (s.xferEnd c.val (2 + (syncFields w).gaddr) (BitVec.toNat (s.sreg c.val (syncFields w).a))).mod = none ∧
    s.held (s.xferEnd c.val (2 + (syncFields w).gaddr) (BitVec.toNat (s.sreg c.val (syncFields w).a))).addr 8 = false ∧ s.SyncReady c.val 3 w ∧
    s.syncCheck c.val (s.xferEnd c.val (2 + (syncFields w).gaddr) (BitVec.toNat (s.sreg c.val (syncFields w).a))) false true = Reach.ok ∧ s.poisoned
    (s.xferEnd c.val (2 + (syncFields w).gaddr) (BitVec.toNat (s.sreg c.val (syncFields w).a))).addr 8 = false ∧ s.outstanding c.val (syncFields
    w).scope (s.core c.val).seq = false ∧ s.mustWait c.val [] [((s.xferEnd c.val (2 + (syncFields w).gaddr) (BitVec.toNat (s.sreg c.val (syncFields
    w).a))).addr, 8)] = false ∧ (syncFields w).aop = 4) ∧
    (∃ (c : CoreId) (w : Word) (s : State), (s.xferEnd c.val (2 + (syncFields w).gaddr) (BitVec.toNat (s.sreg c.val (syncFields w).a))).mod = none ∧
    s.held (s.xferEnd c.val (2 + (syncFields w).gaddr) (BitVec.toNat (s.sreg c.val (syncFields w).a))).addr 8 = false ∧ s.SyncReady c.val 3 w ∧
    s.syncCheck c.val (s.xferEnd c.val (2 + (syncFields w).gaddr) (BitVec.toNat (s.sreg c.val (syncFields w).a))) false true = Reach.ok ∧ s.poisoned
    (s.xferEnd c.val (2 + (syncFields w).gaddr) (BitVec.toNat (s.sreg c.val (syncFields w).a))).addr 8 = false ∧ s.outstanding c.val (syncFields
    w).scope (s.core c.val).seq = false ∧ s.mustWait c.val [] [((s.xferEnd c.val (2 + (syncFields w).gaddr) (BitVec.toNat (s.sreg c.val (syncFields
    w).a))).addr, 8)] = false ∧ (syncFields w).aop = 5) ∧
    (∃ (c : CoreId) (w : Word) (s : State), (s.xferEnd c.val (2 + (syncFields w).gaddr) (BitVec.toNat (s.sreg c.val (syncFields w).a))).mod = none ∧
    s.held (s.xferEnd c.val (2 + (syncFields w).gaddr) (BitVec.toNat (s.sreg c.val (syncFields w).a))).addr 8 = false ∧ s.SyncReady c.val 3 w ∧
    s.syncCheck c.val (s.xferEnd c.val (2 + (syncFields w).gaddr) (BitVec.toNat (s.sreg c.val (syncFields w).a))) false true = Reach.ok ∧ s.poisoned
    (s.xferEnd c.val (2 + (syncFields w).gaddr) (BitVec.toNat (s.sreg c.val (syncFields w).a))).addr 8 = false ∧ s.outstanding c.val (syncFields
    w).scope (s.core c.val).seq = false ∧ s.mustWait c.val [] [((s.xferEnd c.val (2 + (syncFields w).gaddr) (BitVec.toNat (s.sreg c.val (syncFields
    w).a))).addr, 8)] = false ∧ (syncFields w).aop = 6) ∧
    (∃ (c : CoreId) (w : Word) (s : State), (s.xferEnd c.val (2 + (syncFields w).gaddr) (BitVec.toNat (s.sreg c.val (syncFields w).a))).mod = none ∧
    s.held (s.xferEnd c.val (2 + (syncFields w).gaddr) (BitVec.toNat (s.sreg c.val (syncFields w).a))).addr 8 = false ∧ s.SyncReady c.val 2 w ∧
    s.syncCheck c.val (s.xferEnd c.val (2 + (syncFields w).gaddr) (BitVec.toNat (s.sreg c.val (syncFields w).a))) true true = Reach.ok ∧ s.offAt
    (s.xferEnd c.val (2 + (syncFields w).gaddr) (BitVec.toNat (s.sreg c.val (syncFields w).a))).addr 8 = none ∧ (s.core c.val).sigs = [] ∧
    s.outstanding c.val (syncFields w).scope (s.core c.val).seq = true) :=
  ⟨⟨5, (sw 2 0 0 0 0 0 1 2 0), ys, by unfold State.SyncReady State.Ready; decide +kernel⟩,
   ⟨5, (sw 3 0 0 0 0 0 1 2 3), ys, by unfold State.SyncReady State.Ready; decide +kernel⟩,
   ⟨5, (sw 3 0 1 0 0 0 1 2 3), ys, by unfold State.SyncReady State.Ready; decide +kernel⟩,
   ⟨5, (sw 3 0 2 0 0 0 1 2 3), ys, by unfold State.SyncReady State.Ready; decide +kernel⟩,
   ⟨5, (sw 3 0 3 0 0 0 1 2 3), ys, by unfold State.SyncReady State.Ready; decide +kernel⟩,
   ⟨5, (sw 3 0 4 0 0 0 1 2 3), ys, by unfold State.SyncReady State.Ready; decide +kernel⟩,
   ⟨5, (sw 3 0 5 0 0 0 1 2 3), ys, by unfold State.SyncReady State.Ready; decide +kernel⟩,
   ⟨5, (sw 3 0 6 0 0 0 1 2 3), ys, by unfold State.SyncReady State.Ready; decide +kernel⟩,
   ⟨5, (sw 2 3 0 0 0 0 1 2 0), (xs.modCore 5 (fun x => { x with seq := 9, xfers := [xp none] })),
   by unfold State.SyncReady State.Ready; decide +kernel⟩⟩
/-- For `Obligations.CoreMemoryLoadsAndRetirement`. -/
theorem witness_coreRetirementIsRecorded :
    ∃ (c : CoreId) (s : State), s.boot.fields.length < fieldSlots ∧ ((sparesFor c.val).all fun p => (coreMap s.boot.fields).taken.contains p) = true :=
  ⟨5, { z with boot := { z.boot with fields := (List.range 20).map (fun i => some (z.fieldNow 1 (i+7))) } }, by decide +kernel⟩
end Memory

/-! ## Witnesses: Ports -/
namespace Ports
def tm : TxMsg := ⟨⟨7, 99, 3, 0, 4, 20, 0, 0, 0, 0, 0x2000, 8, false⟩, 0⟩
def pst (p st : Nat) (g : PortSt → PortSt := id) : State := (z.wr (R.FAB.STAT.STATE p) st).setPort p (g { PortSt.idle with chal := 5, rxSeq := 9, acked := 3, credits := [(1, 4)] })
def pf : ProbeF := ⟨0x0900, 1, 77, 9, 1, 1, 5, false, 12, 0, 55⟩
def fh : FlitHdr := ⟨0, 9, 7, false, 1, 2, true, true, false⟩
def enc : State := (pst 3 4).wr (R.FAB.CTL.ENCAP 3) 1
def fi : FlitHdr := { fh with idle := true, cred := 0 }
/-- For `Obligations.FabricPortStates`. -/
theorem witness_fabricPortStates :
    (∃ (port : Port) (s : State), (s.portState port.val = 4 ∨ s.portState port.val = 5) ∧ s.portState port.val = 4 ∧ s.rd (R.FAB.CTL.WAX_EN
    port.val) = 1 ∧ (∀ q < 32, s.portState q ≠ 5) ∧ (∀ e ∈ (s.port port.val).queue, e.1.vc ≠ 0) ∧ s.rd (R.FAB.CTL.UNCORR_MAX port.val) <
    (70009#32).toNat ∧ (0#32).toNat ≤ s.rd (R.FAB.CTL.UNCORR_MAX port.val)) ∧
    (∃ (port : Port) (s : State), (s.portState port.val = 2 ∨ s.portState port.val = 6) ∧ s.portState port.val = 2 ∧ (s.port port.val).fails < 3) ∧
    (∃ (port : Port) (s : State), s.portState port.val = 0 ∧ s.boot.portsOff = false ∧ s.rd R.RAS.STAT.STATE = 0) ∧
    (∃ (port : Port) (s : State), s.portState port.val = 1) ∧
    (∃ (port : Port) (s : State), s.portState port.val = 3) ∧
    (∃ (port : Port) (s : State), s.portState port.val = 5) ∧
    (∃ (port : Port) (s : State), s.portState port.val = 6) ∧
    (∃ (port : Port) (s : State), s.portState port.val = 7) ∧
    (∃ (port : Port) (s : State), s.portState port.val = 8) ∧
    (∃ (port : Port) (s : State), s.portState port.val = 2 ∧ 3 ≤ (s.port port.val).fails) :=
  ⟨⟨3, (pst 3 4), by decide +kernel⟩,
   ⟨3, (pst 3 2), by decide +kernel⟩,
   ⟨3, (pst 3 0), by decide +kernel⟩,
   ⟨3, (pst 3 1), by decide +kernel⟩,
   ⟨3, (pst 3 3), by decide +kernel⟩,
   ⟨3, (pst 3 5), by decide +kernel⟩,
   ⟨3, (pst 3 6), by decide +kernel⟩,
   ⟨3, (pst 3 7), by decide +kernel⟩,
   ⟨3, (pst 3 8), by decide +kernel⟩,
   ⟨3, (pst 3 2 (fun x => { x with fails := 3 })), by decide +kernel⟩⟩
/-- For `Obligations.PartnersAndTopology`. -/
theorem witness_partnerDiscovery :
    (∃ (port : Port) (f : ProbeF) (chal : Word) (s : State), s.portState port.val = 3 ∧ s.probeRefusal port.val f = none ∧ (f.ptype = 1 ∨ f.ptype =
    2) ∧ BitVec.toNat chal = (s.port port.val).chal) ∧
    (∃ (port : Port) (chal : Word) (s : State), s.portState port.val = 3 ∧ BitVec.toNat chal ≠ (s.port port.val).chal) ∧
    (∃ (port : Port) (f : ProbeF) (s : State), s.portState port.val = 3 ∧ f.fabric.toNat ≠ s.rd R.FABG.ID.FABRIC) ∧
    (∃ (port : Port) (f : ProbeF) (s : State), s.portState port.val = 3 ∧ f.fabric.toNat = s.rd R.FABG.ID.FABRIC ∧ f.version = 2304 ∧ f.ptype = 1 ∧
    f.module.toNat = s.moduleId) ∧
    (∃ (port : Port) (f : ProbeF) (s : State), s.portState port.val = 3 ∧ f.fabric.toNat = s.rd R.FABG.ID.FABRIC ∧ 1792 ≤ f.version.toNat ∧
    f.version.toNat ≤ 2047) ∧
    (∃ (port : Port) (f : ProbeF) (s : State), s.portState port.val = 3 ∧ s.probeRefusal port.val f = none ∧ (f.ptype = 0 ∨ f.ptype = 3)) ∧
    (∃ (port : Port) (f : ProbeF) (s : State), s.portState port.val = 3 ∧ f.fabric.toNat = s.rd R.FABG.ID.FABRIC ∧ (f.version.toNat < 1792 ∨ 2047 <
    f.version.toNat) ∧ f.version ≠ 2304 ∧ f.ptype = 2) :=
  ⟨⟨3, pf, 5, (pst 3 3), by decide +kernel⟩,
   ⟨3, 6, (pst 3 3), by decide +kernel⟩,
   ⟨3, { pf with fabric := 1 }, (pst 3 3), by decide +kernel⟩,
   ⟨3, { pf with module := 0 }, (pst 3 3), by decide +kernel⟩,
   ⟨3, { pf with version := 0x0700 }, (pst 3 3), by decide +kernel⟩,
   ⟨3, { pf with ptype := 3, module := 0 }, (pst 3 3), by decide +kernel⟩,
   ⟨3, { pf with version := 0x0800, ptype := 2 }, (pst 3 3), by decide +kernel⟩⟩
/-- For `Obligations.FlitsAndFramesAreReceived`. -/
theorem witness_flitsAreReceivedInOrder :
    (∃ (port : Port) (h : FlitHdr) (s : State), (s.portUp port.val = true ∨ s.portState port.val = 3) ∧ (false = false ∨ h.idle = false ∧
    h.seq.toNat ≠ (s.port port.val).rxSeq) ∧ (h.idle = true ∨ h.seq.toNat = (s.port port.val).rxSeq) ∧ h.nak = false ∧ (s.port port.val).queue = []) ∧
    (∃ (port : Port) (s : State), s.portUp port.val = false ∧ s.portState port.val ≠ 3) ∧
    (∃ (port : Port) (h : FlitHdr) (s : State), (s.portUp port.val = true ∨ s.portState port.val = 3) ∧ (true = false ∨ h.idle = false ∧ h.seq.toNat
    ≠ (s.port port.val).rxSeq)) ∧
    (∃ (port : Port) (h : FlitHdr) (s : State), (s.portUp port.val = true ∨ s.portState port.val = 3) ∧ (h.idle = true ∨ h.seq.toNat = (s.port
    port.val).rxSeq) ∧ h.nak = true ∧ h.ack.toNat ≠ (s.port port.val).acked) ∧
    (∃ (port : Port) (h : FlitHdr) (s : State), s.portState port.val = 4 ∧ (s.port port.val).queue = [(tm, 1)] ∧ h.idle = true ∧ h.nak = false ∧
    h.cred = 0 ∧ (s.port port.val).pause = 0 ∧ (((fun k l => if (l.any fun f => f.seq == k) = true then List.drop 1 (List.dropWhile (fun f => f.seq
    != k) l) else l) h.ack.toNat (s.port port.val).replay).length < 1024) ∧ 0 < Tab.get 0 (s.port port.val).credits tm.vc) ∧
    (∃ (port : Port) (h : FlitHdr) (s : State), s.portState port.val = 4 ∧ (h.idle = true ∨ h.seq.toNat = (s.port port.val).rxSeq) ∧ h.nak = true ∧
    h.ack.toNat = (s.port port.val).acked ∧ 15 ≤ (s.port port.val).resends) :=
  ⟨⟨3, fh, (pst 3 4), by decide +kernel⟩,
   ⟨3, (pst 3 0), by decide +kernel⟩,
   ⟨3, { fh with seq := 8 }, (pst 3 4), by decide +kernel⟩,
   ⟨3, { fh with nak := true }, (pst 3 4), by decide +kernel⟩,
   ⟨3, fi, (pst 3 4 (fun x => { x with queue := [(tm,1)] })), by decide +kernel⟩,
   ⟨3, { fh with nak := true, ack := 3 }, (pst 3 4 (fun x => { x with resends := 15 })), by decide +kernel⟩⟩
/-- For `Obligations.FlitsAndFramesAreReceived`. -/
theorem witness_ethernetEncapsulation :
    (∃ (port : Port) (flits : List (FlitHdr × Bool)) (pcp : BitVec 8) (quanta : BitVec 16) (s : State), s.rd (R.FAB.CTL.ENCAP port.val) = 1 ∧
    flits.length < 16 ∧ pcp.getLsbD (s.rd (R.FAB.ETH_CFG.PCP port.val)) = true ∧ (quanta ≠ 0 ∨ (s.port port.val).queue = [])) ∧
    (∃ (port : Port) (d : Bool) (e : Bool) (f : Bool) (v : BitVec 4) (pcp : BitVec 8) (s : State), (s.rd (R.FAB.CTL.ENCAP port.val) ≠ 1 ∨ (d && e &&
    f) = false ∨ v ≠ 1) ∧ s.rd (R.FAB.CTL.ENCAP port.val) = 1 ∧ pcp.getLsbD (s.rd (R.FAB.ETH_CFG.PCP port.val)) = false) ∧
    (∃ (flits : List (FlitHdr × Bool)), 16 < flits.length) :=
  ⟨⟨3, [], 0xff, 0, enc, by decide +kernel⟩,
   ⟨3, true, true, true, 2, 2, enc, by decide +kernel⟩,
   ⟨(List.replicate 17 (fh, true)), by decide +kernel⟩⟩
end Ports

/-! ## Witnesses: Messages -/
namespace Messages
def job0 : Job := ⟨7, 2, 0, 0, 0, 0, [], 0, 0, false, false, false, false, 0, 0, none, 0, [], some 4⟩
def th : THdr := ⟨7, 99, BitVec.ofNat 16 z.moduleId, 5, 4, 20, 0, 0, 0, 0, 0x2000, 8, false⟩
def jm : State := { mod0 with host := { mod0.host with jobs := [{ job0 with part := 0 }] }, fab := { mod0.fab with slots := [(4, some ⟨7, 5, 9⟩)] } }
def fm (st : Nat := 4) : State := jm.wr (R.FAB.STAT.STATE 3) st
def j0 : Job := { job0 with part := 0 }
def dupd : State := { fm with fab := { fm.fab with recv := [(4 * 65536 + 99, ⟨30, [20, 30]⟩)] } }
def mem2 : State := fm.store 0x2000 [5, 1]
def rem0 (k : RemKind) (n : Nat) : Remote := ⟨4, 0x2000, 5, 3, k, 99, 0x5000, 8, n⟩
def wrem (k : RemKind) (n : Nat) : State := ({ fm with chip := { fm.chip with remotes := [rem0 k n] } }).modCore 5 (fun x => { x with running := true, stall := match k with | .atomic d => .atomic d | _ => .none })
def tu : TopoUpd := ⟨5, 33, 7, [⟨1, 3, 4, 4⟩], []⟩
def lv (l : Nat) (p : Nat := 1) : State := (fm.wr (R.FAB.STAT.LEVEL 3) l).wr (R.FAB.STAT.PTYPE 3) p
def tp (l serial seq : Nat) : State := { lv l with fab := { (lv l).fab with topo := [(5, ⟨serial, seq, []⟩)] } }
def ad (q : Nat) : State := { lv 3 2 with fab := { (lv 3 2).fab with advert := [(3, some ⟨q, [5]⟩)] } }
def route3 : State := ({ fm with fab := { fm.fab with ports := [(3, { PortSt.idle with pause := 5 })] } } : State).wrs [(R.FAB.STAT.LEVEL 3, 2), (R.FAB.STAT.PTYPE 3, 1), (R.FAB.PARTNER.MODULE 3, 3)]
theorem route3_route : route3.route ⟨{ th with dst := 3 }, 0⟩ = some 3 := by
  have h : route3.routes 3 = [3] := by decide +kernel
  unfold State.route
  simp [h, Nat.mod_one]
theorem serial_moves : (Config.serial + 1).toNat ≠ Config.serial.toNat := fun h => by
  have := BitVec.eq_of_toNat_eq h
  simp at this
/-- For `Obligations.MessagesAreCheckedAndAnswered`. -/
theorem witness_messagesAreChecked :
    (∃ (port : Port) (h : THdr) (tok : Bool) (s : State), s.portUp port.val = true ∧ h.dst.toNat = s.moduleId ∧ s.slotFits h = true ∧ tok = true ∧
    (s.window (↑h.keyIdx) h.src.toNat).dup (BitVec.toNat h.ctr) = true) ∧
    (∃ (port : Port) (s : State), s.portUp port.val = false) ∧
    (∃ (port : Port) (h : THdr) (tok : Bool) (s : State), s.portUp port.val = true ∧ h.dst.toNat = s.moduleId ∧ (s.slotFits h = false ∨ tok = false)
    ∧ s.rd R.FABG.ERR.VALID = 0) ∧
    (∃ (port : Port) (h : THdr) (s : State), s.portUp port.val = true ∧ h.dst.toNat ≠ s.moduleId ∧ s.route { h := h, attempt := 0 } = none) ∧
    (∃ (port : Port) (h : THdr) (s : State), s.portUp port.val = true ∧ h.dst.toNat ≠ s.moduleId ∧ ((s.route { h := h, attempt := 0 }).any fun p =>
    decide ((s.portState p = 4) ∧ ((s.port p).pause ≠ 0))) = true) :=
  ⟨⟨3, th, true, dupd, by ((repeat' apply And.intro) <;> first | decide +kernel | (rw [route3_route]; decide +kernel) | rfl)⟩,
   ⟨3, (fm 3), by ((repeat' apply And.intro) <;> first | decide +kernel | (rw [route3_route]; decide +kernel) | rfl)⟩,
   ⟨3, th, false, (fm 4), by ((repeat' apply And.intro) <;> first | decide +kernel | (rw [route3_route]; decide +kernel) | rfl)⟩,
   ⟨3, { th with dst := 3 }, (fm 4), by ((repeat' apply And.intro) <;> first | decide +kernel | (rw [route3_route]; decide +kernel) | rfl)⟩,
   ⟨3, { th with dst := 3 }, route3, by ((repeat' apply And.intro) <;> first | decide +kernel | (rw [route3_route]; decide +kernel) | rfl)⟩⟩
/-- For `Obligations.RemoteStoresAndAtomics`. -/
theorem witness_remoteStoresAreChecked :
    (∃ (port : Port) (h : THdr) (data : List (Byte × Bool)) (j : Job) (s : State), s.Delivers port.val h j ∧ data ≠ [] ∧ s.reach (some j.part)
    h.addr.toNat data.length true = Reach.ok ∧ s.RemoteFree h.addr.toNat data.length) ∧
    (∃ (port : Port) (h : THdr) (data : List (Byte × Bool)) (j : Job) (s : State), s.Delivers port.val h j ∧ data ≠ [] ∧ s.reach (some j.part)
    h.addr.toNat data.length true = Reach.ok ∧ s.held h.addr.toNat data.length = true) ∧
    (∃ (port : Port) (h : THdr) (data : List (Byte × Bool)) (j : Job) (s : State), s.Delivers port.val h j ∧ data ≠ [] ∧ s.reach (some j.part)
    h.addr.toNat data.length true = Reach.unmapped) :=
  ⟨⟨3, th, [(1, false), (2, true), (3, false)], j0, fm, by unfold State.Delivers State.RemoteFree; decide +kernel⟩,
   ⟨3, th, [(1, false), (2, true), (3, false)], j0, (fm.wr R.CLK.LOCK.PLL 0x1f), by unfold State.Delivers; decide +kernel⟩,
   ⟨3, { th with addr := 0x7fffffff0000 }, [(1, false), (2, true), (3, false)], j0, fm, by unfold State.Delivers; decide +kernel⟩⟩
/-- For `Obligations.RemoteStoresAndAtomics`. -/
theorem witness_remoteAtomicsReturnTheOldValue :
    (∃ (port : Port) (h : THdr) (j : Job) (s : State), s.Delivers port.val h j ∧ placeOf h.addr.toNat = Place.hbm ∧ s.reach (some j.part)
    h.addr.toNat 8 true = Reach.ok ∧ s.RemoteFree h.addr.toNat 8 ∧ s.poisoned h.addr.toNat 8 = false) ∧
    (∃ (port : Port) (h : THdr) (j : Job) (s : State), s.Delivers port.val h j ∧ placeOf h.addr.toNat = Place.hbm ∧ s.reach (some j.part)
    h.addr.toNat 8 true = Reach.ok ∧ s.RemoteFree h.addr.toNat 8 ∧ s.poisoned h.addr.toNat 8 = true) ∧
    (∃ (port : Port) (h : THdr) (j : Job) (s : State), s.Delivers port.val h j ∧ placeOf h.addr.toNat = Place.hbm ∧ s.reach (some j.part)
    h.addr.toNat 8 true = Reach.ok ∧ s.held h.addr.toNat 8 = true) :=
  ⟨⟨3, th, j0, mem2, by unfold State.Delivers State.RemoteFree; decide +kernel⟩,
   ⟨3, th, j0, (mem2.poisonRange 0x2003 1), by unfold State.Delivers State.RemoteFree; decide +kernel⟩,
   ⟨3, th, j0, (mem2.wr R.CLK.LOCK.PLL 0x1f), by unfold State.Delivers; decide +kernel⟩⟩
/-- For `Obligations.MessagesAreCheckedAndAnswered`. -/
theorem witness_remoteAccessesEnd :
    (∃ (port : Port) (h : THdr) (ctr : Word) (key : Fin 16) (r : Remote) (j : Job) (s : State), s.NoneWaits r.core ∧ s.Delivers port.val h j ∧
    s.remoteOf h = some r ∧ r.kind = RemKind.atomic (Fin.ofNat 32 0) ∧ h.poisoned = false ∧ List.find? (fun r => r.key == key.val && r.ctr ==
    BitVec.toNat ctr) s.chip.remotes = some r ∧ r.resends < 3) ∧
    (∃ (ctr : Word) (key : Fin 16) (r : Remote) (s : State), s.NoneWaits r.core ∧ List.find? (fun r => r.key == key.val && r.ctr == BitVec.toNat
    ctr) s.chip.remotes = some r ∧ 3 ≤ r.resends ∧ r.kind = RemKind.signal ∧ s.rd R.FABG.ERR.VALID = 0) :=
  ⟨⟨3, th, 0x2000, 4, (rem0 (.atomic 0) 0), j0, (wrem (.atomic 0) 0), by unfold State.NoneWaits State.Delivers; decide +kernel⟩,
   ⟨0x2000, 4, (rem0 .signal 3), (wrem .signal 3), by unfold State.NoneWaits; decide +kernel⟩⟩
/-- For `Obligations.PartnersAndTopology`. -/
theorem witness_topologyUpdatesAreMerged :
    (∃ (port : Port) (u : TopoUpd) (seq : BitVec 32) (s : State), s.portUp port.val = true ∧ (s.rd (R.FAB.STAT.LEVEL port.val) = 1 ∨ s.rd
    (R.FAB.STAT.LEVEL port.val) = 2) ∧ u.module.toNat / 64 = s.rd R.FABG.ID.RACK ∧ u.module.toNat ≠ s.moduleId ∧ ((List.any s.fab.topo fun e => e.1
    == u.module.toNat % 64) = true → (s.topo (u.module.toNat % 64)).serial = BitVec.toNat u.serial ∧ (s.topo (u.module.toNat % 64)).seq <
    u.seq.toNat) ∧ s.rd (R.FAB.STAT.PTYPE port.val) = 2 ∧ (∀ (a : Advert), Tab.get none s.fab.advert port.val = some a → a.seq < seq.toNat)) ∧
    (∃ (port : Port) (seq : BitVec 32) (s : State), s.portUp port.val = true ∧ ((Tab.get none s.fab.advert port.val).any fun a => decide ((seq.toNat
    ≤ a.seq))) = true) ∧
    (∃ (port : Port) (u : TopoUpd) (s : State), s.portUp port.val = true ∧ (s.rd (R.FAB.STAT.LEVEL port.val) = 1 ∨ s.rd (R.FAB.STAT.LEVEL port.val)
    = 2) ∧ u.module.toNat / 64 = s.rd R.FABG.ID.RACK ∧ u.module.toNat ≠ s.moduleId ∧ (List.any s.fab.topo fun e => e.1 == u.module.toNat % 64) =
    true ∧ (s.topo (u.module.toNat % 64)).serial = BitVec.toNat u.serial ∧ u.seq.toNat ≤ (s.topo (u.module.toNat % 64)).seq) ∧
    (∃ (port : Port) (u : TopoUpd) (s : State), s.portUp port.val = true ∧ (s.rd (R.FAB.STAT.LEVEL port.val) = 1 ∨ s.rd (R.FAB.STAT.LEVEL port.val)
    = 2) ∧ u.module.toNat / 64 = s.rd R.FABG.ID.RACK ∧ u.module.toNat = s.moduleId ∧ BitVec.toNat u.serial ≠ Config.serial.toNat) :=
  ⟨⟨3, tu, 9, (lv 1 2), by ((repeat' apply And.intro) <;> first | decide +kernel | exact serial_moves | rfl)⟩,
   ⟨3, 9, (ad 9), by ((repeat' apply And.intro) <;> first | decide +kernel | exact serial_moves | rfl)⟩,
   ⟨3, tu, (tp 2 33 7), by ((repeat' apply And.intro) <;> first | decide +kernel | exact serial_moves | rfl)⟩,
   ⟨3, { tu with module := BitVec.ofNat 16 z.moduleId, serial := Config.serial + 1 }, (tp 2 33 7),
   by ((repeat' apply And.intro) <;> first | decide +kernel | exact serial_moves | rfl)⟩⟩
end Messages

/-! ## Witnesses: Collectives -/
namespace Collectives
def job0 : Job := ⟨7, 0, 0, 0, 0, 0, [], 0, 0, false, false, false, false, 0, 0, none, 0, [], some 4⟩
def th : THdr := ⟨7, 99, BitVec.ofNat 16 z.moduleId, 5, 4, 20, 9, 0, 0, 0, 0x2000, 8, false⟩
def grpw0 (rank n cred : Nat) : Nat := (n-1) + rank * 65536 + (cred-1) * 2^32 + 2^36
def bytes8 (n : Nat) : List Byte := (List.range 8).map (fun i => BitVec.ofNat 8 (n / 256^i))
def ga : Nat := 0x100000
/-- group 0: 4 members, rank 1, 2 credits, 16 MiB share; partition 0 runs job 7 -/
def mod1 : State := mod0.wr (R.COLL.GTAB.BASE 0) 0x100
def base0 : State := ((mod1.store ga (bytes8 (grpw0 1 4 2))).store (ga + 8) (bytes8 (16 + 0))).wr (R.COLL.CTL.EN 0) 1
def base : State := { base0 with host := { base0.host with jobs := [job0] }, coll := { base0.coll with groups := [(0, ⟨9, 9, false⟩)] }, fab := { base0.fab with slots := [(4, some ⟨7, 5, 9⟩)] } }
def pl (kind root : Nat) : Payload := ⟨BitVec.ofNat 64 (kind + 6*256 + root*65536), 0x10000, 0x20000, 100, 0, 0x30000, 0, 0⟩
/-- core 5 with post word -/
def cw0 (op : Nat) (all : Nat) : Word := BitVec.ofNat 64 (6 + 16 + op * 64 + all*256 + 0*4096 + 1*2^24 + 2*2^29 + 3 * 2^34 + 4*2^39)
def cst (s : State) (d : Payload) : State := ((List.range 8).foldl (fun s i => s.store (0x40000 + 8*i) (bytes8 (([d.w0,d.w1,d.w2,d.w3,d.w4,d.w5,d.w6,d.w7][i]!).toNat))) s).modCore 5 (fun x => { x with running := true, pc := 100, sregs := [(1, 9), (2, 0x40000), (3, 2), (4, 1)] })
def coll0 (kind : Nat) (st : CollStage) : Coll := { newColl 0 7 0 9 none (collDesc (pl kind 0)) true with st := st }
def wc (c : Coll) (s : State := base) : State := { s with coll := { s.coll with colls := [c] } }
def kk : CollKey := ⟨0, 0, 9⟩
def badd : Coll := { coll0 7 .queued with desc := collDesc (pl 8 0) }
def rc (k : Nat) : Coll := { coll0 k .running with core := some 5 }
def port3 (s : State) : State := s.wr (R.FAB.STAT.STATE 3) 4
def cl (code : Nat) : Coll := { coll0 3 .closing with code := code, credit := true }
def rj : Job := { job0 with reset := true, origCode := 3 }
def rjs (s : State) : State := { s with host := { s.host with jobs := [rj] } }
def bigd (kind root n : Nat) : Payload := ⟨BitVec.ofNat 64 (kind + 6*256 + root*65536), 0x10000, 0x20000, BitVec.ofNat 64 n, 0, 0x30000, 0, 0⟩
def bb : Coll := { rc 1 with desc := collDesc (bigd 1 0 5000), out := [1] }
def v512 : List (Word × Bool) := (List.range 512).map (fun i => (BitVec.ofNat 64 (i + 0x3f80000000), i == 7))
def base2 : State := base.store ga (bytes8 (grpw0 0 2 2))
def prt : CollPart := ⟨0, 0, 1, 0, [v512]⟩
def ar : Coll := { rc 3 with desc := collDesc (bigd 3 0 600), out := [1], got := [prt, { prt with chunk := 1 }] }
def sc : Coll := { coll0 1 .admitted with allReady := true }
/-- For `Obligations.CollectivesArePostedAndOpened`. -/
theorem witness_collectivesArePosted :
    (∃ (c : CoreId) (w0 : Word) (w1 : Word) (p : Part) (q : BitVec 32) (d : Payload) (s : State), s.coll.queues = [] ∧ (collDesc d).kind = 0 ∧
    s.jobRuns p.val = true ∧ s.collAt p.val 0 q.toNat = none ∧ (s.groupEnt p.val 0).valid = true ∧ (s.grp p.val 0).expect = q.toNat ∧ s.CollReady
    c.val 0 w0 w1 ∧ s.partOfCore c.val = some p.val ∧ s.rd (R.COLL.CTL.EN p.val) = 1 ∧ (s.groupEnt p.val (fieldOf w0 12 12)).valid = true ∧ s.collAt
    p.val (fieldOf w0 12 12) (s.collSeq c.val w0 w1) = none ∧ (s.grp p.val (fieldOf w0 12 12)).expect = s.collSeq c.val w0 w1 ∧ s.reach (some p.val)
    (BitVec.toNat (s.sreg c.val (fieldOf w0 29 5)) % 2 ^ 48) 64 false = Reach.ok ∧ s.poisoned (BitVec.toNat (s.sreg c.val (fieldOf w0 29 5)) % 2 ^
    48) 64 = false ∧ (s.readDesc (BitVec.toNat (s.sreg c.val (fieldOf w0 29 5)) % 2 ^ 48)).kind = 0) ∧
    (∃ (c : CoreId) (w0 : Word) (w1 : Word) (p : Part) (q : BitVec 32) (d : Payload) (s : State), s.coll.queues = [] ∧ (collDesc d).kind = 1 ∧
    s.jobRuns p.val = true ∧ s.collAt p.val 0 q.toNat = none ∧ (s.groupEnt p.val 0).valid = true ∧ (s.grp p.val 0).expect = q.toNat ∧ s.CollReady
    c.val 0 w0 w1 ∧ s.partOfCore c.val = some p.val ∧ s.rd (R.COLL.CTL.EN p.val) = 1 ∧ (s.groupEnt p.val (fieldOf w0 12 12)).valid = true ∧ s.collAt
    p.val (fieldOf w0 12 12) (s.collSeq c.val w0 w1) = none ∧ (s.grp p.val (fieldOf w0 12 12)).expect = s.collSeq c.val w0 w1 ∧ s.reach (some p.val)
    (BitVec.toNat (s.sreg c.val (fieldOf w0 29 5)) % 2 ^ 48) 64 false = Reach.ok ∧ s.poisoned (BitVec.toNat (s.sreg c.val (fieldOf w0 29 5)) % 2 ^
    48) 64 = false ∧ (s.readDesc (BitVec.toNat (s.sreg c.val (fieldOf w0 29 5)) % 2 ^ 48)).kind = 1) ∧
    (∃ (c : CoreId) (w0 : Word) (w1 : Word) (p : Part) (q : BitVec 32) (d : Payload) (s : State), s.coll.queues = [] ∧ (collDesc d).kind = 2 ∧
    s.jobRuns p.val = true ∧ s.collAt p.val 0 q.toNat = none ∧ (s.groupEnt p.val 0).valid = true ∧ (s.grp p.val 0).expect = q.toNat ∧ s.CollReady
    c.val 0 w0 w1 ∧ s.partOfCore c.val = some p.val ∧ s.rd (R.COLL.CTL.EN p.val) = 1 ∧ (s.groupEnt p.val (fieldOf w0 12 12)).valid = true ∧ s.collAt
    p.val (fieldOf w0 12 12) (s.collSeq c.val w0 w1) = none ∧ (s.grp p.val (fieldOf w0 12 12)).expect = s.collSeq c.val w0 w1 ∧ s.reach (some p.val)
    (BitVec.toNat (s.sreg c.val (fieldOf w0 29 5)) % 2 ^ 48) 64 false = Reach.ok ∧ s.poisoned (BitVec.toNat (s.sreg c.val (fieldOf w0 29 5)) % 2 ^
    48) 64 = false ∧ (s.readDesc (BitVec.toNat (s.sreg c.val (fieldOf w0 29 5)) % 2 ^ 48)).kind = 2) ∧
    (∃ (c : CoreId) (w0 : Word) (w1 : Word) (p : Part) (q : BitVec 32) (d : Payload) (s : State), s.coll.queues = [] ∧ (collDesc d).kind = 3 ∧
    s.jobRuns p.val = true ∧ s.collAt p.val 0 q.toNat = none ∧ (s.groupEnt p.val 0).valid = true ∧ (s.grp p.val 0).expect = q.toNat ∧ s.CollReady
    c.val 0 w0 w1 ∧ s.partOfCore c.val = some p.val ∧ s.rd (R.COLL.CTL.EN p.val) = 1 ∧ (s.groupEnt p.val (fieldOf w0 12 12)).valid = true ∧ s.collAt
    p.val (fieldOf w0 12 12) (s.collSeq c.val w0 w1) = none ∧ (s.grp p.val (fieldOf w0 12 12)).expect = s.collSeq c.val w0 w1 ∧ s.reach (some p.val)
    (BitVec.toNat (s.sreg c.val (fieldOf w0 29 5)) % 2 ^ 48) 64 false = Reach.ok ∧ s.poisoned (BitVec.toNat (s.sreg c.val (fieldOf w0 29 5)) % 2 ^
    48) 64 = false ∧ (s.readDesc (BitVec.toNat (s.sreg c.val (fieldOf w0 29 5)) % 2 ^ 48)).kind = 3) ∧
    (∃ (c : CoreId) (w0 : Word) (w1 : Word) (p : Part) (q : BitVec 32) (d : Payload) (s : State), s.coll.queues = [] ∧ (collDesc d).kind = 4 ∧
    s.jobRuns p.val = true ∧ s.collAt p.val 0 q.toNat = none ∧ (s.groupEnt p.val 0).valid = true ∧ (s.grp p.val 0).expect = q.toNat ∧ s.CollReady
    c.val 0 w0 w1 ∧ s.partOfCore c.val = some p.val ∧ s.rd (R.COLL.CTL.EN p.val) = 1 ∧ (s.groupEnt p.val (fieldOf w0 12 12)).valid = true ∧ s.collAt
    p.val (fieldOf w0 12 12) (s.collSeq c.val w0 w1) = none ∧ (s.grp p.val (fieldOf w0 12 12)).expect = s.collSeq c.val w0 w1 ∧ s.reach (some p.val)
    (BitVec.toNat (s.sreg c.val (fieldOf w0 29 5)) % 2 ^ 48) 64 false = Reach.ok ∧ s.poisoned (BitVec.toNat (s.sreg c.val (fieldOf w0 29 5)) % 2 ^
    48) 64 = false ∧ (s.readDesc (BitVec.toNat (s.sreg c.val (fieldOf w0 29 5)) % 2 ^ 48)).kind = 4) ∧
    (∃ (c : CoreId) (w0 : Word) (w1 : Word) (p : Part) (q : BitVec 32) (d : Payload) (s : State), s.coll.queues = [] ∧ (collDesc d).kind = 5 ∧
    s.jobRuns p.val = true ∧ s.collAt p.val 0 q.toNat = none ∧ (s.groupEnt p.val 0).valid = true ∧ (s.grp p.val 0).expect = q.toNat ∧ s.CollReady
    c.val 0 w0 w1 ∧ s.partOfCore c.val = some p.val ∧ s.rd (R.COLL.CTL.EN p.val) = 1 ∧ (s.groupEnt p.val (fieldOf w0 12 12)).valid = true ∧ s.collAt
    p.val (fieldOf w0 12 12) (s.collSeq c.val w0 w1) = none ∧ (s.grp p.val (fieldOf w0 12 12)).expect = s.collSeq c.val w0 w1 ∧ s.reach (some p.val)
    (BitVec.toNat (s.sreg c.val (fieldOf w0 29 5)) % 2 ^ 48) 64 false = Reach.ok ∧ s.poisoned (BitVec.toNat (s.sreg c.val (fieldOf w0 29 5)) % 2 ^
    48) 64 = false ∧ (s.readDesc (BitVec.toNat (s.sreg c.val (fieldOf w0 29 5)) % 2 ^ 48)).kind = 5) ∧
    (∃ (c : CoreId) (w0 : Word) (w1 : Word) (p : Part) (q : BitVec 32) (d : Payload) (s : State), s.coll.queues = [] ∧ (collDesc d).kind = 6 ∧
    s.jobRuns p.val = true ∧ s.collAt p.val 0 q.toNat = none ∧ (s.groupEnt p.val 0).valid = true ∧ (s.grp p.val 0).expect = q.toNat ∧ s.CollReady
    c.val 0 w0 w1 ∧ s.partOfCore c.val = some p.val ∧ s.rd (R.COLL.CTL.EN p.val) = 1 ∧ (s.groupEnt p.val (fieldOf w0 12 12)).valid = true ∧ s.collAt
    p.val (fieldOf w0 12 12) (s.collSeq c.val w0 w1) = none ∧ (s.grp p.val (fieldOf w0 12 12)).expect = s.collSeq c.val w0 w1 ∧ s.reach (some p.val)
    (BitVec.toNat (s.sreg c.val (fieldOf w0 29 5)) % 2 ^ 48) 64 false = Reach.ok ∧ s.poisoned (BitVec.toNat (s.sreg c.val (fieldOf w0 29 5)) % 2 ^
    48) 64 = false ∧ (s.readDesc (BitVec.toNat (s.sreg c.val (fieldOf w0 29 5)) % 2 ^ 48)).kind = 6) ∧
    (∃ (c : CoreId) (w0 : Word) (w1 : Word) (p : Part) (s : State), s.coll.queues = [] ∧ s.CollReady c.val 0 w0 w1 ∧ s.partOfCore c.val = some p.val
    ∧ s.rd (R.COLL.CTL.EN p.val) = 1 ∧ (s.groupEnt p.val (fieldOf w0 12 12)).valid = true ∧ s.collAt p.val (fieldOf w0 12 12) (s.collSeq c.val w0
    w1) = none ∧ (s.grp p.val (fieldOf w0 12 12)).expect = s.collSeq c.val w0 w1 ∧ s.reach (some p.val) (BitVec.toNat (s.sreg c.val (fieldOf w0 29
    5)) % 2 ^ 48) 64 false = Reach.ok ∧ s.poisoned (BitVec.toNat (s.sreg c.val (fieldOf w0 29 5)) % 2 ^ 48) 64 = false ∧ (s.readDesc (BitVec.toNat
    (s.sreg c.val (fieldOf w0 29 5)) % 2 ^ 48)).kind = 7) :=
  ⟨⟨5, (cw0 0 0), 0, 0, 9, (pl 0 1), (cst base (pl 0 1)), by unfold State.CollReady State.Ready; decide +kernel⟩,
   ⟨5, (cw0 0 1), 0, 0, 9, (pl 1 1), (cst base (pl 1 1)), by unfold State.CollReady State.Ready; decide +kernel⟩,
   ⟨5, (cw0 0 0), 0, 0, 9, (pl 2 1), (cst base (pl 2 1)), by unfold State.CollReady State.Ready; decide +kernel⟩,
   ⟨5, (cw0 0 1), 0, 0, 9, (pl 3 1), (cst base (pl 3 1)), by unfold State.CollReady State.Ready; decide +kernel⟩,
   ⟨5, (cw0 0 0), 0, 0, 9, (pl 4 1), (cst base (pl 4 1)), by unfold State.CollReady State.Ready; decide +kernel⟩,
   ⟨5, (cw0 0 1), 0, 0, 9, (pl 5 1), (cst base (pl 5 1)), by unfold State.CollReady State.Ready; decide +kernel⟩,
   ⟨5, (cw0 0 0), 0, 0, 9, (pl 6 1), (cst base (pl 6 1)), by unfold State.CollReady State.Ready; decide +kernel⟩,
   ⟨5, (cw0 0 1), 0, 0, (cst base (pl 7 1)), by unfold State.CollReady State.Ready; decide +kernel⟩⟩
/-- For `Obligations.CollectivesArePostedAndOpened`. -/
theorem witness_readyMarksChunks :
    (∃ (c : CoreId) (w0 : Word) (w1 : Word) (p : Part) (s : State), s.coll.queues = [] ∧ s.CollReady c.val 1 w0 w1 ∧ s.partOfCore c.val = some p.val
    ∧ s.collAt p.val (fieldOf w0 12 12) (s.collSeq c.val w0 w1) = none) ∧
    (∃ (c : CoreId) (w0 : Word) (w1 : Word) (p : Part) (s : State), s.coll.queues = [] ∧ s.CollReady c.val 1 w0 w1 ∧ s.partOfCore c.val = some p.val
    ∧ ((s.collAt p.val (fieldOf w0 12 12) (s.collSeq c.val w0 w1)).any fun x => decide ((x.st ≠ CollStage.running))) = true) :=
  ⟨⟨5, (cw0 1 0), 0, 0, (cst base (pl 1 1)), by unfold State.CollReady State.Ready; decide +kernel⟩,
   ⟨5, (cw0 1 0), 0, 0, (cst (wc (coll0 1 .queued)) (pl 1 1)), by unfold State.CollReady State.Ready; decide +kernel⟩⟩
/-- For `Obligations.CollectivesArePostedAndOpened`. -/
theorem witness_collectivesAreAdmittedAndOpened :
    (∃ (k : CollKey) (c : Coll) (s : State), s.HasColl k c ∧ c.gather = none ∧ c.st = CollStage.queued ∧ c.internal = false ∧ c.seq = (s.grp ↑k.part
    ↑k.group).next ∧ s.creditsUsed ↑k.part ↑k.group < (s.groupEnt ↑k.part ↑k.group).cred ∧ (s.admittedColls < if s.rd R.THM.STAT.HUB_HOT = 1 then 16
    else 64) ∧ (c.desc.kind = 4 → (s.trn' ↑k.part).replay = none) ∧ (∀ x ∈ s.coll.colls, x.earlier c = true → s.admissible x = false) ∧ c.desc.ok
    (s.groupEnt ↑k.part ↑k.group).n = false) ∧
    (∃ (k : CollKey) (c : Coll) (s : State), s.HasColl k c ∧ c.gather = none ∧ c.st = CollStage.queued ∧ c.internal = false ∧ c.seq = (s.grp ↑k.part
    ↑k.group).next ∧ s.creditsUsed ↑k.part ↑k.group < (s.groupEnt ↑k.part ↑k.group).cred ∧ (s.admittedColls < if s.rd R.THM.STAT.HUB_HOT = 1 then 16
    else 64) ∧ (c.desc.kind = 4 → (s.trn' ↑k.part).replay = none) ∧ (∀ x ∈ s.coll.colls, x.earlier c = true → s.admissible x = false) ∧ c.desc.ok
    (s.groupEnt ↑k.part ↑k.group).n = true ∧ (c.desc.carries = true → c.desc.small = false → 2 * c.desc.chunkWire ≤ (if c.desc.carries = false ∨
    c.desc.small = true then 0 else (s.groupEnt ↑k.part ↑k.group).sbuf / (s.groupEnt ↑k.part ↑k.group).cred) * 2 ^ 20) ∧ ((if c.desc.carries = false
    ∨ c.desc.small = true then 0 else (s.groupEnt ↑k.part ↑k.group).sbuf / (s.groupEnt ↑k.part ↑k.group).cred) = 0 ∨ (s.shareUsed ↑k.part ↑k.group +
    if c.desc.carries = false ∨ c.desc.small = true then 0 else (s.groupEnt ↑k.part ↑k.group).sbuf / (s.groupEnt ↑k.part ↑k.group).cred) ≤
    (s.groupEnt ↑k.part ↑k.group).sbuf) ∧ s.CollReaches (↑k.part) c) ∧
    (∃ (k : CollKey) (c : Coll) (s : State), s.HasColl k c ∧ c.gather = none ∧ c.st = CollStage.admitted ∧ c.internal = false ∧ c.desc.kind = 0) :=
  ⟨⟨kk, badd, (wc badd), by unfold State.HasColl; decide +kernel⟩,
   ⟨kk, (coll0 0 .queued), (wc (coll0 0 .queued)), by unfold State.HasColl State.CollReaches; decide +kernel⟩,
   ⟨kk, (coll0 0 .admitted), (wc (coll0 0 .admitted)), by unfold State.HasColl; decide +kernel⟩⟩
/-- For `Obligations.CollectiveChunksAndTokens`. -/
theorem witness_broadcastChunksAreWritten :
    (∃ (port : Port) (h : THdr) (v : List (Word × Bool)) (mine : CollPart) (j : Job) (c : Coll) (s : State), s.Delivers port.val h j ∧ s.collAt
    j.part (↑h.group) h.seq.toNat = some c ∧ s.jobRuns j.part = true ∧ c.st = CollStage.running ∧ c.internal = false ∧ c.gather = none ∧
    c.desc.small = false ∧ (s.groupEnt j.part ↑h.group).rank < (s.groupEnt j.part ↑h.group).n ∧ h.chunk.toNat < c.desc.chunks ∧ h.chunk.toNat ∉
    c.out ∧ (c.desc.cw ≠ 0 ∨ c.core ≠ none) ∧ (∀ i < c.desc.chunks, i ≠ h.chunk.toNat → i ∈ c.out) ∧ s.offAt (c.desc.cw + 32 + 8 * h.chunk.toNat) 8
    = none ∧ (∀ (m : KeySlot), Tab.get none s.fab.slots ↑h.keyIdx = some m → s.slotOfJob j.id = some (↑h.keyIdx, m)) ∧ c.desc.kind = 3 ∧ c.desc.op =
    0 ∧ c.desc.exact_ = false ∧ c.desc.noise = false ∧ (s.groupEnt j.part ↑h.group).n = 2 ∧ (s.groupEnt j.part ↑h.group).rank = 0 ∧ c.partAt
    h.chunk.toNat 0 1 = some mine ∧ c.partAt h.chunk.toNat 1 1 = none ∧ c.partAt h.chunk.toNat 0 2 = none ∧ c.fresh 0 = [] ∧ List.map List.length
    mine.lists = [(c.desc.span h.chunk.toNat).2] ∧ v.length = (c.desc.span h.chunk.toNat).2 ∧ 0 < (c.desc.span h.chunk.toNat).2 ∧ s.offAt
    (c.desc.dst + h.chunk.toNat * c.desc.chunkLen * 8) ((c.desc.span h.chunk.toNat).2 * 8) = none ∧ (c.desc.cw + 32 + 8 * h.chunk.toNat + 8 ≤
    c.desc.dst + h.chunk.toNat * c.desc.chunkLen * 8 ∨ c.desc.dst + h.chunk.toNat * c.desc.chunkLen * 8 + (c.desc.span h.chunk.toNat).2 * 8 ≤
    c.desc.cw + 32 + 8 * h.chunk.toNat)) ∧
    (∃ (port : Port) (h : THdr) (r : ℕ) (data : List (Byte × Bool)) (j : Job) (c : Coll) (s : State), s.Delivers port.val h j ∧ s.collAt j.part
    (↑h.group) h.seq.toNat = some c ∧ s.jobRuns j.part = true ∧ c.st = CollStage.running ∧ c.internal = false ∧ c.gather = none ∧ c.desc.small =
    false ∧ (s.groupEnt j.part ↑h.group).rank < (s.groupEnt j.part ↑h.group).n ∧ h.chunk.toNat < c.desc.chunks ∧ h.chunk.toNat ∉ c.out ∧ (c.desc.cw
    ≠ 0 ∨ c.core ≠ none) ∧ (∀ i < c.desc.chunks, i ≠ h.chunk.toNat → i ∈ c.out) ∧ s.offAt (c.desc.cw + 32 + 8 * h.chunk.toNat) 8 = none ∧ (∀ (m :
    KeySlot), Tab.get none s.fab.slots ↑h.keyIdx = some m → s.slotOfJob j.id = some (↑h.keyIdx, m)) ∧ c.desc.kind = 1 ∧ r = c.desc.root ∧
    (s.groupEnt j.part ↑h.group).rank ≠ c.desc.root ∧ c.partAt h.chunk.toNat r 1 = none ∧ data ≠ [] ∧ s.offAt (c.desc.dst + h.chunk.toNat *
    c.desc.chunkLen) data.length = none ∧ (c.desc.cw + 32 + 8 * h.chunk.toNat + 8 ≤ c.desc.dst + h.chunk.toNat * c.desc.chunkLen ∨ c.desc.dst +
    h.chunk.toNat * c.desc.chunkLen + data.length ≤ c.desc.cw + 32 + 8 * h.chunk.toNat) ∧ (Tab.get none s.fab.slots ↑h.keyIdx).isSome = true) :=
  ⟨⟨3, th, v512, prt, job0, ar, (port3 (wc ar base2)), by unfold State.Delivers; decide +kernel⟩,
   ⟨3, th, 0, [(1, false), (2, false), (3, true)], job0, bb, (port3 (wc bb)), by unfold State.Delivers; decide +kernel⟩⟩
/-- For `Obligations.CollectiveChunksAndTokens`. -/
theorem witness_collectiveTokens :
    (∃ (port : Port) (h : THdr) (r : ℕ) (n : ℕ) (j : Job) (c : Coll) (s : State), s.Delivers port.val h j ∧ s.collAt j.part (↑h.group) h.seq.toNat =
    some c ∧ c.acked.contains (h.chunk.toNat, h.src.toNat) = false ∧ c.st = CollStage.admitted ∧ c.internal = false ∧ c.desc.small = true ∧ c.partAt
    0 r n = none ∧ j.reset = false) ∧
    (∃ (port : Port) (h : THdr) (code : BitVec 16) (j : Job) (c : Coll) (s : State), s.Delivers port.val h j ∧ s.collAt j.part (↑h.group)
    h.seq.toNat = some c ∧ c.acked.contains (h.chunk.toNat, h.src.toNat) = true ∧ c.st = CollStage.running ∧ code ≠ 0 ∧ s.jobRuns j.part = true) :=
  ⟨⟨3, th, 1, 1, job0, sc, (port3 (wc sc)), by unfold State.Delivers; decide +kernel⟩,
   ⟨3, th, 5, job0, { rc 1 with acked := [(0, 99)] }, (port3 (wc { rc 1 with acked := [(0, 99)] })), by unfold State.Delivers; decide +kernel⟩⟩
/-- For `Obligations.CollectivesTimeOutAndClose`. -/
theorem witness_collectivesTimeOut :
    (∃ (k : CollKey) (c : Coll) (chunk : BitVec 24) (peer : BitVec 16) (xid : BitVec 32) (s : State), s.HasColl k c ∧ c.internal = false ∧ c.st =
    CollStage.running ∧ Tab.get 0 c.reqs ((xid.toNat * 2 ^ 24 + chunk.toNat) * 65536 + peer.toNat) < 3 ∧ c.stale = false ∧ (c.st =
    CollStage.admitted ∨ c.st = CollStage.running) ∧ s.rd (R.COLL.ERR.VALID ↑k.part) = 0) ∧
    (∃ (k : CollKey) (c : Coll) (s : State), s.HasColl k c ∧ c.internal = false ∧ (c.st = CollStage.held ∨ c.st = CollStage.queued) ∧ s.coll.queues
    = []) ∧
    (∃ (k : CollKey) (c : Coll) (chunk : BitVec 24) (peer : BitVec 16) (xid : BitVec 32) (s : State), s.HasColl k c ∧ c.internal = false ∧ c.st =
    CollStage.running ∧ 3 ≤ Tab.get 0 c.reqs ((xid.toNat * 2 ^ 24 + chunk.toNat) * 65536 + peer.toNat)) :=
  ⟨⟨kk, (rc 1), 0, 55, 0, (wc (rc 1)), by unfold State.HasColl; decide +kernel⟩,
   ⟨kk, (coll0 1 .queued), (wc (coll0 1 .queued)), by unfold State.HasColl; decide +kernel⟩,
   ⟨kk, { rc 1 with stale := true, reqs := [(55, 3)] }, 0, 55, 0, (wc { rc 1 with stale := true, reqs := [(55, 3)] }),
   by unfold State.HasColl; decide +kernel⟩⟩
/-- For `Obligations.CollectivesTimeOutAndClose`. -/
theorem witness_collectivesClose :
    (∃ (k : CollKey) (c : Coll) (codes : List (BitVec 16)) (s : State), s.HasColl k c ∧ c.st = CollStage.closing ∧ c.internal = false ∧ c.desc.noise
    = false ∧ c.poison = false ∧ c.gather = none ∧ s.coll.queues = [] ∧ (c.desc.cw ≠ 0 ∨ c.core ≠ none) ∧ s.offAt c.desc.cw 32 = none ∧ (∀ x ∈
    s.coll.colls, x.is (↑k.part) (↑k.group) k.seq.toNat = true → x = c) ∧ s.coll.colls.Nodup ∧ agreed (c.code :: List.map (fun x => x.toNat) codes)
    = 0) ∧
    (∃ (k : CollKey) (c : Coll) (codes : List (BitVec 16)) (s : State), s.HasColl k c ∧ c.st = CollStage.closing ∧ c.internal = false ∧ c.desc.noise
    = false ∧ c.poison = false ∧ c.gather = none ∧ s.coll.queues = [] ∧ (c.desc.cw ≠ 0 ∨ c.core ≠ none) ∧ s.offAt c.desc.cw 32 = none ∧ (∀ x ∈
    s.coll.colls, x.is (↑k.part) (↑k.group) k.seq.toNat = true → x = c) ∧ s.coll.colls.Nodup ∧ agreed (c.code :: List.map (fun x => x.toNat) codes)
    ≠ 0 ∧ agreed (c.code :: List.map (fun x => x.toNat) codes) ≠ 16392 ∧ s.rd (R.COLL.ERR.VALID ↑k.part) = 0) ∧
    (∃ (k : CollKey) (c : Coll) (codes : List (BitVec 16)) (s : State), s.HasColl k c ∧ c.st = CollStage.closing ∧ c.internal = false ∧ c.desc.noise
    = false ∧ c.poison = false ∧ c.gather = none ∧ s.coll.queues = [] ∧ (c.desc.cw ≠ 0 ∨ c.core ≠ none) ∧ s.offAt c.desc.cw 32 = none ∧ (∀ x ∈
    s.coll.colls, x.is (↑k.part) (↑k.group) k.seq.toNat = true → x = c) ∧ s.coll.colls.Nodup ∧ agreed (c.code :: List.map (fun x => x.toNat) codes)
    = 16392) :=
  ⟨⟨kk, (cl 0), [0, 0], (wc (cl 0)), by unfold State.HasColl; decide +kernel⟩,
   ⟨kk, (cl 0), [0, 0x4001], (wc (cl 0)), by unfold State.HasColl; decide +kernel⟩,
   ⟨kk, (cl 0), [0, 0x4008], (wc (cl 0)), by unfold State.HasColl; decide +kernel⟩⟩
/-- For `Obligations.CollectiveEnableAndJobResets`. -/
theorem witness_jobResetsAbortTheJob :
    (∃ (job : BitVec 16) (j : Job) (s : State), s.job job.toNat = some j ∧ j.reset = false) ∧
    (∃ (job : BitVec 16) (j : Job) (s : State), s.job job.toNat = some j ∧ j.reset = true ∧ j.resetDone = false ∧ s.halfRuns j.part = false) :=
  ⟨⟨7, job0, (wc (rc 1)), by decide +kernel⟩,
   ⟨7, rj, (rjs (wc (rc 1))), by decide +kernel⟩⟩
/-- For `Obligations.CollectiveEnableAndJobResets`. -/
theorem witness_collectiveEnable :
    (∃ (p : Part) (s : State), s.collConfigOk p.val = false ∧ s.rd (R.COLL.ERR.VALID p.val) = 0 ∧ s.jobRuns p.val = false) ∧
    (∃ (p : Part) (s : State), s.collConfigOk p.val = true ∧ s.jobRuns p.val = true) :=
  ⟨⟨0, z, by decide +kernel⟩,
   ⟨0, (base.wr (R.SCHED.CARVE_CFG.STAGE_MIB 0) 16), by decide +kernel⟩⟩
end Collectives

/-! ## Witnesses: Hbm -/
namespace Hbm
def hd : List (Byte × Bool) := [(1, false), (9, true)]
def hm0 : HeldMsg := ⟨0, ⟨7, 99, BitVec.ofNat 16 z.moduleId, 4, 4, 20, 0, 0, 0, 0, 0x2000, 8, false⟩, .store hd⟩
def H0 : HbmSt := HbmSt.reset
def hs (h : HbmSt) (s : State := mod0) : State := s.setStk 2 h
def sp : State := ((mod0.wr (R.HBM.STAT.SPARE_FREE 2) 1).wr (R.HBM.STAT.SPARE_CH 2) 31).wr (chFld 2 31) 1
def gov (c : Nat) : Word := BitVec.ofNat 64 (c + 1024)
def cm : State := ((sp.wr (R.HBM.STAT.SPARE_FREE 2) 0).wr (chFld 2 5) 2).wr (chFld 2 31) 3
def rv (op ch : Nat) : Word := BitVec.ofNat 64 (ch + op * 2^28 + 2^30)
def rp (op : Nat) : State := hs { H0 with rpr := some op, repaired := [((5*2+0)*16+0, [8, 9])] } (sp.wr (R.HBM.RPR_CMD.CH 2) 5)
def tv (m : Nat) : Word := BitVec.ofNat 64 (1 + 2 + m * 8)
def heldS : State := hs { H0 with holding := some 9 } ({ mod0 with fab := { mod0.fab with heldMsgs := [hm0], slots := [(4, some ⟨7, 5, 9⟩)] } })
/-- For `Obligations.HbmTemperaturesAndRetraining`. -/
theorem witness_hbmTemperatures :
    ∃ (temps : List (BitVec 8)), temps.length = 8 :=
  ⟨[1, 2, 80, 85, 86, 200, 255, 0], by decide +kernel⟩
/-- For `Obligations.HbmTemperaturesAndRetraining`. -/
theorem witness_hbmRetraining :
    (∃ (stack : Fin 8) (pc : Fin 64) (s : State), (s.stk stack.val).holding = none ∧ (s.stk stack.val).due = [] ∧ s.chActive stack.val (pc.val / 2)
    = true ∧ s.pllLocked (5 + stack.val) = true ∧ pc.val ∈ (s.stk stack.val).retry ∧ s.rd (chFld stack.val (pc.val / 2)) = 0 ∧ s.rd
    (R.HBM.STAT.SPARE_FREE stack.val) = 1 ∧ s.rd (R.HBM.STAT.SPARE_CH stack.val) ≠ pc.val / 2 ∧ s.rd (R.HBM.ERR.VALID stack.val) = 0) ∧
    (∃ (stack : Fin 8) (pc : Fin 64) (s : State), (s.stk stack.val).holding = some pc.val ∧ pc.val ∉ (s.stk stack.val).retry ∧ (s.stk stack.val).due
    = [] ∧ s.fab.heldMsgs = [] ∧ (∀ e ∈ s.chip.cores, e.2.sigs = [])) ∧
    (∃ (stack : Fin 8) (pc : Fin 64) (s : State), (((s.stk stack.val).holding).any fun q => decide ((q ≠ pc.val) ∧ (pc.val ∉ (s.stk stack.val).due)
    ∧ (s.chActive stack.val (pc.val / 2) = true))) = true) ∧
    (∃ (stack : Fin 8) (pc : Fin 64) (s : State), (s.stk stack.val).holding = some pc.val ∧ (s.stk stack.val).due = [5] ∧ s.chActive stack.val (5 /
    2) = true ∧ s.pllLocked (5 + stack.val) = true ∧ s.fab.heldMsgs = [] ∧ (∀ e ∈ s.chip.cores, e.2.sigs = [])) :=
  ⟨⟨2, 9, (hs { H0 with retry := [9, 12] } ((mod0.wr (R.HBM.STAT.SPARE_FREE 2) 1).wr (R.HBM.STAT.SPARE_CH 2) 31)), by decide +kernel⟩,
   ⟨2, 9, (hs { H0 with holding := some 9 }), by decide +kernel⟩,
   ⟨2, 9, (hs { H0 with holding := some 5 }), by decide +kernel⟩,
   ⟨2, 9, (hs { H0 with holding := some 9, due := [5] }), by decide +kernel⟩⟩
/-- For `Obligations.HbmRepairsAndTraffic`. -/
theorem witness_hbmMigrationAndRepair :
    (∃ (stack : Fin 8) (v : Word) (s : State), BitVec.getLsbD v 10 = true ∧ s.rd (R.HBM.STAT.SPARE_FREE stack.val) = 0 ∧ (((s.stk
    stack.val).mig).any fun m => decide ((m.src < 32) ∧ (m.dst < 32) ∧ (m.src ≠ m.dst) ∧ ((s.stk stack.val).swapped = false))) = true ∧ (((s.stk
    stack.val).mig).any fun m => decide ((m.src < 32) ∧ (m.dst < 32) ∧ (m.src ≠ m.dst) ∧ ((s.stk stack.val).swapped = false) ∧ (s.rd
    (R.HBM.ERR.VALID stack.val) = 0))) = true) ∧
    (∃ (stack : Fin 8) (s : State), (s.stk stack.val).ppr = some 5 ∧ s.rd (R.HBM.CTL.SWAPBACK stack.val) = 0 ∧ s.boot.fields.length < fieldSlots ∧
    s.rd (R.HBM.ERR.VALID stack.val) = 0) ∧
    (∃ (stack : Fin 8) (v : Word) (s : State), BitVec.getLsbD v 10 = true ∧ s.rd (R.HBM.STAT.SPARE_FREE stack.val) = 1 ∧ s.rd (chFld stack.val
    (BitVec.extractLsb' 0 5 v).toNat) = 0 ∧ s.rd (R.HBM.STAT.SPARE_CH stack.val) ≠ (BitVec.extractLsb' 0 5 v).toNat) :=
  ⟨⟨2, (gov 5), (hs { H0 with mig := some ⟨5, 31⟩ } cm), by decide +kernel⟩,
   ⟨2, (hs { H0 with ppr := some 5 } (sp.wr (chFld 2 5) 4)), by decide +kernel⟩,
   ⟨2, (gov 5), sp, by decide +kernel⟩⟩
/-- For `Obligations.HbmRepairsAndTraffic`. -/
theorem witness_repairPort :
    (∃ (stack : Fin 8) (s : State), ((s.stk stack.val).rpr).isSome = true ∧ (((s.stk stack.val).rpr).any fun op => decide ((op = 0))) = true) ∧
    (∃ (stack : Fin 8) (v : Word) (s : State), (BitVec.extractLsb' 28 2 v).toNat = 0 ∧ BitVec.getLsbD v 30 = true ∧ (s.stk stack.val).rpr = none) ∧
    (∃ (stack : Fin 8) (v : Word) (s : State), (BitVec.extractLsb' 28 2 v).toNat = 1 ∧ BitVec.getLsbD v 30 = true ∧ (s.stk stack.val).rpr = none ∧
    s.rd (chFld stack.val (BitVec.extractLsb' 0 5 v).toNat) ≠ 4) ∧
    (∃ (stack : Fin 8) (v : Word) (s : State), (BitVec.extractLsb' 28 2 v).toNat = 2 ∧ BitVec.getLsbD v 30 = true ∧ (s.stk stack.val).rpr = none) ∧
    (∃ (stack : Fin 8) (s : State), (((s.stk stack.val).rpr).any fun op => decide ((op = 1))) = true) ∧
    (∃ (stack : Fin 8) (s : State), (((s.stk stack.val).rpr).any fun op => decide ((op = 2) ∧ ((((s.stk stack.val).rowsOf (s.rd (R.HBM.RPR_CMD.CH
    stack.val)) (s.rd (R.HBM.RPR_CMD.PC stack.val)) (s.rd (R.HBM.RPR_CMD.BANK stack.val)))[(s.stk stack.val).listed]?).isSome = true))) = true) ∧
    (∃ (stack : Fin 8) (v : Word) (s : State), (BitVec.extractLsb' 28 2 v).toNat = 1 ∧ BitVec.getLsbD v 30 = true ∧ (s.stk stack.val).rpr = none ∧
    s.rd (chFld stack.val (BitVec.extractLsb' 0 5 v).toNat) = 4) :=
  ⟨⟨2, (rp 0), by decide +kernel⟩,
   ⟨2, (rv 0 5), sp, by decide +kernel⟩,
   ⟨2, (rv 1 5), sp, by decide +kernel⟩,
   ⟨2, (rv 2 5), sp, by decide +kernel⟩,
   ⟨2, (rp 1), by decide +kernel⟩,
   ⟨2, (rp 2), by decide +kernel⟩,
   ⟨2, (rv 1 5), (sp.wr (chFld 2 5) 4), by decide +kernel⟩⟩
/-- For `Obligations.HbmRepairsAndTraffic`. -/
theorem witness_trafficGenerator :
    (∃ (stack : Fin 8) (mis : BitVec 32) (s : State), (s.stk stack.val).tg ≠ none ∧ ((s.stk stack.val).tg).isSome = true ∧ (((s.stk
    stack.val).tg).any fun op => decide ((op ≠ 0) ∧ (mis ≠ 0))) = true ∧ (((s.stk stack.val).tg).any fun op => decide ((op ≠ 0) ∧ (mis ≠ 0) ∧ (s.rd
    (R.HBM.ERR.VALID stack.val) = 0))) = true) ∧
    (∃ (stack : Fin 8) (v : Word) (s : State), (BitVec.extractLsb' 3 2 v).toNat = 0 ∧ BitVec.getLsbD v 1 = true ∧ BitVec.getLsbD v 2 = false ∧
    (s.stk stack.val).tg = none ∧ (¬(s.rd (chFld stack.val (BitVec.toNat v % 2 * 16)) = 1 ∨ s.rd (chFld stack.val (BitVec.toNat v % 2 * 16)) = 4 ∨
    s.inRegion stack.val = false) ∨ ¬s.rd (R.HBM.TG_RANGE.START stack.val) + s.rd (R.HBM.TG_RANGE.LINES stack.val) < 2 ^ 21)) ∧
    (∃ (stack : Fin 8) (v : Word) (s : State), (BitVec.extractLsb' 3 2 v).toNat = 2 ∧ BitVec.getLsbD v 1 = true ∧ BitVec.getLsbD v 2 = false ∧
    (s.stk stack.val).tg = none ∧ (s.rd (chFld stack.val (BitVec.toNat v % 2 * 16)) = 1 ∨ s.rd (chFld stack.val (BitVec.toNat v % 2 * 16)) = 4 ∨
    s.inRegion stack.val = false) ∧ s.rd (R.HBM.TG_RANGE.START stack.val) + s.rd (R.HBM.TG_RANGE.LINES stack.val) < 2 ^ 21) ∧
    (∃ (stack : Fin 8) (v : Word) (s : State), (BitVec.extractLsb' 3 2 v).toNat = 1 ∧ BitVec.getLsbD v 1 = true ∧ BitVec.getLsbD v 2 = false ∧
    (s.stk stack.val).tg = none ∧ (s.rd (chFld stack.val (BitVec.toNat v % 2 * 16)) = 1 ∨ s.rd (chFld stack.val (BitVec.toNat v % 2 * 16)) = 4 ∨
    s.inRegion stack.val = false) ∧ s.rd (R.HBM.TG_RANGE.START stack.val) + s.rd (R.HBM.TG_RANGE.LINES stack.val) < 2 ^ 21) ∧
    (∃ (stack : Fin 8) (v : Word) (s : State), (BitVec.extractLsb' 3 2 v).toNat = 2 ∧ BitVec.getLsbD v 1 = true ∧ BitVec.getLsbD v 2 = false ∧
    (s.stk stack.val).tg = none ∧ (¬(s.rd (chFld stack.val (BitVec.toNat v % 2 * 16)) = 1 ∨ s.rd (chFld stack.val (BitVec.toNat v % 2 * 16)) = 4 ∨
    s.inRegion stack.val = false) ∨ ¬s.rd (R.HBM.TG_RANGE.START stack.val) + s.rd (R.HBM.TG_RANGE.LINES stack.val) < 2 ^ 21)) :=
  ⟨⟨2, 4, (hs { H0 with tg := some 2 }), by decide +kernel⟩,
   ⟨2, (tv 0), sp, by decide +kernel⟩,
   ⟨2, (tv 2), (z), by decide +kernel⟩,
   ⟨2, (tv 1), (sp.wr (chFld 2 16) 1), by decide +kernel⟩,
   ⟨2, (tv 2), ((z.wr (R.HBM.TG_RANGE.START 2) 0x1fffff).wr (R.HBM.TG_RANGE.LINES 2) 1), by decide +kernel⟩⟩
/-- The clause of an access that waited behind the hold. -/
theorem witness_hbmRetrainingReleasesHeldAccesses :
    ∃ (stack : Fin 8) (pc : Fin 64) (m : HeldMsg) (data : List (Byte × Bool)) (s : State), (s.stk stack.val).holding = some pc.val ∧
    (s.stk stack.val).due = [] ∧ (∀ j, j ≠ stack.val → (s.stk j).holding = none) ∧ (∀ i < 21, s.pllLocked i = true) ∧ s.fab.heldMsgs = [m] ∧
    m.op = .store data ∧ data ≠ [] ∧ s.reach (some m.part) m.h.addr.toNat data.length true = .ok ∧ ∀ e ∈ s.chip.cores, e.2.sigs = [] :=
  ⟨2, 9, hm0, hd, heldS, by decide +kernel, by decide +kernel, fun j h => by
    have : heldS.hbm = [(2, { H0 with holding := some 9 })] := by decide +kernel
    simp only [State.stk, this, Tab.get]; rw [if_neg (show j ≠ 2 from h)]; rfl, by decide +kernel, by decide +kernel, rfl, by decide, by decide +kernel,
    by decide +kernel⟩
end Hbm

/-! ## Witnesses: OnChip -/
namespace OnChip
def W5 : Nat := winAddr 5 0
def gs (st : Nat) (aw : Bool) (req : Nat) (i : Nat := 41) (w : Nat := 5) : State := ({ mod0 with chip := { mod0.chip with segs := [(i, ⟨st, aw⟩)] } }).wr (R.MBIST.PWR.SP_REQ w) (req * 4)
def ones (s : State) : State := (s.store (W5 + 0x80000) [1, 2]).store (W5 + 0xfffff) [3, 4]
def bytes8 (n : Nat) : List Byte := (List.range 8).map (fun i => BitVec.ofNat 8 (n / 256^i))
def pvalid : State := (mod0.wr (R.COLL.GTAB.BASE 0) 0x100).wr (R.COLL.CTL.EN 0) 1
def jb0 : Job := ⟨7, 0, 0, 0, 0, 0, [], 0, 0, false, false, false, false, 0, 0, none, 0, [], some 4⟩
def inuse : State := (({ pvalid with host := { pvalid.host with jobs := [jb0] } } : State).store 0x100000 (bytes8 (2^36+3))).store 0x100008 (bytes8 16)
def mr (w ctl : Nat) (ab : Bool) : State := { ones mod0 with chip := { mod0.chip with march := [(w, some ⟨ctl, [1], ab⟩)] } }
def mf1 : List MarchFail := [⟨0x80064, 9, 1⟩]
theorem mr_compares : (⟨0x181 + 64, [1], false⟩ : March).compares (mwin (.core 5)) mf1 = mf1 := by
  have h : (mf1.filter ((⟨0x181 + 64, [1], false⟩ : March).fits (mwin (.core 5)))).dedup = mf1 := by decide +kernel
  unfold March.compares
  simp only [h]
  simp [mf1]
/-- For `Obligations.SegmentPowerAndScrubVisits`. -/
theorem witness_segmentPowerStates :
    (∃ (c : CoreId) (ab : Bool) (g : Fin 4) (s : State), ((segOf c.val ab g.val).any fun i => decide ((s.segReq c.val ab g.val ≠ 3) ∧ (s.segReq
    c.val ab g.val ≠ (s.seg i).st) ∧ (s.segBusy c.val ab g.val = false))) = true ∧ ((segOf c.val ab g.val).any fun i => decide ((s.segReq c.val ab
    g.val ≠ 3) ∧ (s.segReq c.val ab g.val ≠ (s.seg i).st) ∧ (s.segBusy c.val ab g.val = false) ∧ ((s.seg i).st ≠ 2))) = true) ∧
    (∃ (v : Word) (s : State), s.stageInUse = true ∧ (∃ k < 4, BitVec.toNat v / 4 ^ k % 4 = 1 ∨ BitVec.toNat v / 4 ^ k % 4 = 2)) ∧
    (∃ (c : CoreId) (ab : Bool) (g : Fin 4) (s : State), ((segOf c.val ab g.val).any fun i => decide (((s.seg i).awake = true) ∧ (s.segReq c.val ab
    g.val = 1) ∧ (s.segBusy c.val ab g.val = false))) = true) ∧
    (∃ (c : CoreId) (ab : Bool) (g : Fin 4) (s : State), ((segOf c.val ab g.val).any fun i => decide ((s.segReq c.val ab g.val ≠ 3) ∧ (s.segReq
    c.val ab g.val ≠ (s.seg i).st) ∧ (s.segBusy c.val ab g.val = false) ∧ ((s.seg i).st = 2))) = true) ∧
    (∃ (g : Fin 4) (s : State), s.segReq 800 false g.val ≠ 3 ∧ s.segReq 800 false g.val ≠ (s.seg (6400 + g.val)).st ∧ s.segBusy 800 false g.val =
    false ∧ (s.segReq 800 false g.val = 0 ∨ s.stageInUse = false)) :=
  ⟨⟨5, false, 1, (gs 0 false 1), by decide +kernel⟩,
   ⟨0x4, inuse, by decide +kernel⟩,
   ⟨5, false, 1, (ones (gs 1 true 1)), by decide +kernel⟩,
   ⟨5, false, 1, (ones (gs 2 false 0)), by decide +kernel⟩,
   ⟨1, (gs 2 false 1 6401 800), by decide +kernel⟩⟩
/-- For `Obligations.MarchTests`. -/
theorem witness_marchTests :
    (∃ (win : MWin) (v : Word) (fails : List MarchFail) (s : State), BitVec.getLsbD v 0 = true ∧ BitVec.getLsbD v 1 = false ∧ s.marchOf 800 = none ∧
    BitVec.getLsbD v 3 = false ∧ BitVec.getLsbD v 2 = false ∧ s.stageBusy = false ∧ (s.marchOf (mwin win)).isSome = true ∧ ((s.marchOf (mwin
    win)).any fun m => decide ((m.ctl / 64 % 2 = 1))) = true ∧ ((s.marchOf (mwin win)).any fun m => decide ((((m.compares (mwin win)
    fails).head?).isSome = true))) = true ∧ ((s.marchOf (mwin win)).any fun m => decide (((((m.compares (mwin win) fails).head?).any fun f => decide
    ((f.op = 1) ∧ (m.ctl / 32 % 2 = 0))) = true))) = true) ∧
    (∃ (c : CoreId) (v : Word) (s : State), BitVec.getLsbD v 0 = true ∧ BitVec.getLsbD v 1 = false ∧ s.marchOf c.val = none ∧ (BitVec.getLsbD v 3 =
    true ∨ (s.core c.val).runningBit = false ∧ s.jobOfCore c.val = 65535) ∧ s.marchOf 800 = none ∧ BitVec.getLsbD v 3 = false ∧ s.stageBusy = true) ∧
    (∃ (c : CoreId) (v : Word) (s : State), BitVec.getLsbD v 0 = true ∧ BitVec.getLsbD v 1 = false ∧ s.marchOf c.val = none ∧ BitVec.getLsbD v 3 =
    false ∧ ((s.core c.val).runningBit = true ∨ s.jobOfCore c.val ≠ 65535)) ∧
    (∃ (c : CoreId) (win : MWin) (fails : List MarchFail) (s : State), ((s.marchOf (mwin win)).any fun m => decide ((win = MWin.core c) ∧ (fails =
    []) ∧ (m.ctl / 8 % 2 = 0) ∧ (m.aborting = false) ∧ (m.segs ⊆ [0, 1, 2]))) = true) ∧
    (∃ (c : CoreId) (win : MWin) (fails : List MarchFail) (s : State), ((s.marchOf (mwin win)).any fun m => decide ((win = MWin.core c) ∧ (fails =
    []) ∧ (m.ctl / 8 % 2 = 1))) = true) :=
  ⟨⟨(.core 5), 0x81, mf1, (mr 5 (0x181 + 64) false),
   by ((repeat' apply And.intro) <;> first | decide +kernel | (show decide (_ = true) = true; rw [mr_compares]; decide +kernel) | rfl)⟩,
   ⟨5, 0x81, { mod0 with coll := { mod0.coll with colls := [{ (newColl 0 7 0 1 none (CollDesc.empty 1) true) with credit := true }] } },
   by ((repeat' apply And.intro) <;> first | decide +kernel | (show decide (_ = true) = true; rw [mr_compares]; decide +kernel) | rfl)⟩,
   ⟨5, 0x81, (cpum 5),
   by ((repeat' apply And.intro) <;> first | decide +kernel | (show decide (_ = true) = true; rw [mr_compares]; decide +kernel) | rfl)⟩,
   ⟨5, (.core 5), [], (mr 5 0x181 false),
   by ((repeat' apply And.intro) <;> first | decide +kernel | (show decide (_ = true) = true; rw [mr_compares]; decide +kernel) | rfl)⟩,
   ⟨5, (.core 5), [], (mr 5 0x189 false),
   by ((repeat' apply And.intro) <;> first | decide +kernel | (show decide (_ = true) = true; rw [mr_compares]; decide +kernel) | rfl)⟩⟩
/-- For `Obligations.SegmentPowerAndScrubVisits`. -/
theorem witness_scrubVisits :
    (∃ (c : CoreId) (w : Fin 2048) (raw : BitVec 288) (act : Fin 10) (s : State), (lcDecode (lcSyms raw)).2 = 1 ∧ s.chip.imemPoison.contains (c.val
    * 2048 + w.val) = false ∧ s.poisoned (4096 / 32 * 32) 32 = false ∧ s.regionOf (4096 / 32 * 32) = some (0, 0).1 ∧ (s.hbmRoute (0, 0).1 (4096 / 32
    * 32)).1 = (0, 0).2 ∧ s.heldLine (4096 / 32 * 32) = false ∧ s.bgTarget act.val ≠ 0 ∧ act.val < 3) ∧
    (∃ (c : CoreId) (w : Fin 2048) (raw : BitVec 288) (s : State), (lcDecode (lcSyms raw)).2 = 3 ∧ s.chip.imemPoison.contains (c.val * 2048 + w.val)
    = false ∧ s.poisoned (4096 / 32 * 32) 32 = false ∧ s.regionOf (4096 / 32 * 32) = some (0, 0).1 ∧ (s.hbmRoute (0, 0).1 (4096 / 32 * 32)).1 = (0,
    0).2 ∧ s.heldLine (4096 / 32 * 32) = false) ∧
    (∃ (raw : BitVec 288), (lcDecode (lcSyms raw)).2 = 0) :=
  ⟨⟨5, 3, 1, 1, mod0, by decide +kernel⟩,
   ⟨5, 3, 0x101, mod0, by decide +kernel⟩,
   ⟨0, by decide +kernel⟩⟩
end OnChip

/-! ## Witnesses: Training -/
namespace Training
def job0 : Job := ⟨7, 0, 0, 0, 0, 0, [], 0, 0, false, false, false, false, 0, 0, none, 0, [], some 4⟩
/-- partition 0 runs job 7, learns, stash of 100 MiB at 1 GiB -/
def tr0 : State := { mod0.wrs [(R.TRN.CTL.EN 0, 1), (R.SCHED.TURN_STAT.PHASE 0, 3), (R.TRN.STASH_BASE.BASE 0, 1024), (R.TRN.STASH_SIZE.MIB 0, 100), (R.TRN.STASH_WM.HBM_MIB 0, 50), (R.TRN.VER_TIMEOUT.MS 0, 5)] with host := { mod0.host with jobs := [job0] } }
def sh0 : Shard := ⟨⟨2, 2, 0⟩, ⟨1, 3, 0⟩, some 2, [], []⟩
def un (st : MbStage) : MbUnit := ⟨3, 1, 0, 2, 8, 10, [4], [], [], st, [4], [], [], false, some (2, 10), none, 0, 0, [], [], false, false, false, false⟩
def tt (us : List MbUnit) (x : Shard := sh0) (s : State := tr0) : State := s.setTrn 0 { TrnSt.reset with units := us, shards := [(4, some x)] }
def es0 : StashEnt := ⟨4, 2, 1, 0x40300000, 512, 9⟩
def ek : MbUnit := { un .fwdDone with tokens := 100000, entries := [es0] }
def ky : MbKey := ⟨3, 1, 0⟩
def hd : MbHeader := ⟨2, 8, 10, [⟨4, by decide⟩], [], []⟩
def bytes8 (n : Nat) : List Byte := (List.range 8).map (fun i => BitVec.ofNat 8 (n / 256^i))
def dsc (st : Nat) (s : State) : State := (s.store (0x40000000 + 32) (bytes8 (1 + 2*2^48))).store (0x40000000 + 40) (bytes8 (st * 2^49 + 77))
def uk : MbUnit := { un .bwd with chunk := 1, tokens := 100000 }
def posted (k : MbKey) (h : MbHeader) : MbUnit :=
  { batch := k.batch.toNat, mb := k.mb.toNat, chunk := k.chunk.val, step := h.step.toNat, tokens := h.tokens.toNat % 4194304 + 1, foot := h.footMib.toNat,
    shards := h.shards.map (fun x => x.val), remote := [], kds := h.kds, stage := .posted, refs := [], asked := [], remRefs := [], dy := false, hres := none,
    sres := none, hfill := 0, sfill := 0, entries := [], layers := [], replay := false, tainted := false, sentFwd := false, sentBwd := false }
/-- For `Obligations.MicroBatchesPassInOrder`. -/
theorem witness_microBatchesPassInOrder :
    (∃ (p : Part) (k : MbKey) (u : MbUnit) (y : MbUnit) (l : Fin 4096) (b : BitVec 40) (i : ℕ) (e : StashEnt) (s : State), s.AllAdmitted p.val ∧
    ((u.hres).any fun r => decide ((u ∈ (s.trn' p.val).units ∧ u.is k = true ∧ ∀ x ∈ (s.trn' p.val).units, x.is k = true → x = u) ∧ (u.stage =
    MbStage.fwd) ∧ (u.sfill = 0) ∧ (u.hfill + b.toNat ≤ mib r.2) ∧ (b ≠ 0) ∧ (b.toNat % 512 = 0) ∧ (i < 65536) ∧ (i ∉ (s.trn' p.val).descUsed) ∧ (∀
    j < i, j ∈ (s.trn' p.val).descUsed) ∧ (l.val ∉ u.layers) ∧ (∀ e ∈ u.entries, e.layer ≠ l.val) ∧ ((s.stashRange p.val).1 + 2097152 ≤
    549755813888))) = true ∧ s.OneUnit p.val k u ∧ u.stage = MbStage.fwd ∧ l.val ∉ u.layers ∧ s.gathered p.val u.step l.val = true ∧ u.chunk = 0 ∧
    (s.stashRange p.val).1 + 2097152 ≤ 549755813888 ∧ (List.map (fun x => x.desc) u.entries).Nodup ∧ (∀ i ∈ List.map (fun x => x.desc) u.entries, i
    < 65536) ∧ (∀ y ∈ (s.trn' p.val).units, y.same u = true → y.chunk < u.chunk → y.stage ≠ MbStage.posted ∧ y.stage ≠ MbStage.fwd) ∧ (s.stageOut
    p.val false = false ∨ u.sentFwd = true)) ∧
    (∃ (p : Part) (k : MbKey) (u : MbUnit) (y : MbUnit) (l : Fin 4096) (n : BitVec 8) (i : ℕ) (e : StashEnt) (c : Fin 64) (s : State), s.AllAdmitted
    p.val ∧ s.OneUnit p.val k u ∧ u.stage = MbStage.bwd ∧ List.find? (fun y => y.same u && y.chunk == c.val) (s.trn' p.val).units = some y ∧ c.val <
    u.chunk ∧ List.find? (fun e => e.layer == l.val && e.slot == n.toNat && e.fmt == 9) y.entries = some e ∧ 8 * i + 8 ≤ e.bytes ∧ e.addr + 8 * i +
    8 ≤ 549755813888 ∧ s.poisoned (e.addr + 8 * i) 8 = false ∧ u.tainted = false ∧ u.refs.Nodup ∧ (∀ n ∈ u.refs, ((s.trn' p.val).shard n).updWait =
    []) ∧ (s.trn' p.val).replay = none ∧ (s.stashRange p.val).1 + 2097152 ≤ 549755813888 ∧ (List.map (fun x => x.desc) u.entries).Nodup ∧ (∀ i ∈
    List.map (fun x => x.desc) u.entries, i < 65536) ∧ (s.stageOut p.val true = false ∨ u.sentBwd = true)) ∧
    (∃ (p : Part) (k : MbKey) (h : MbHeader) (y : MbUnit) (n : BitVec 8) (s : State), s.AllAdmitted p.val ∧ (((s.reserve p.val (posted k
    h).foot).any fun r => decide ((s.learning p.val = true) ∧ (s.housePaused p.val = false) ∧ ((s.trn' p.val).inFlight < 4096) ∧ (0 < (posted k
    h).foot) ∧ ((posted k h).foot ≤ s.stashLimit p.val) ∧ ((posted k h).chunk < (posted k h).chunks) ∧ (h.remote = []) ∧ (h.shards.Nodup) ∧ (∀ y ∈
    (s.trn' p.val).units, y.is k = false ∧ ((posted k h).before y = false ∨ y.replay = true)) ∧ (∀ n ∈ h.shards.map Fin.val, (((s.trn' p.val).shard
    n).slot h.step.toNat).holds h.step.toNat = true ∧ ((s.trn' p.val).shard n).updWait = []))) = true)) ∧
    (∃ (p : Part) (k : MbKey) (dy : Bool) (u : MbUnit) (y : MbUnit) (s : State), s.AllAdmitted p.val ∧ s.OneUnit p.val k u ∧ u.stage =
    MbStage.fwdDone ∧ (s.trn' p.val).mbForward u = true ∧ (dy = true ∨ u.dy = true) ∧ (∀ y ∈ (s.trn' p.val).units, (y.same u = true → u.chunk <
    y.chunk → y.stage = MbStage.done) ∧ (y.batch = u.batch → y.mb < u.mb → y.chunk + 1 = y.chunks → y.stage = MbStage.bwd ∨ y.stage =
    MbStage.done))) ∧
    (∃ (p : Part) (k : MbKey) (u : MbUnit) (l : Fin 4096) (s : State), s.AllAdmitted p.val ∧ s.OneUnit p.val k u ∧ u.stage = MbStage.bwd ∧ u.chunk =
    0 ∧ u.tainted = false ∧ s.gathered p.val u.step l.val = true ∧ l.val ∈ u.refs ∧ u.refs.Nodup ∧ ((s.trn' p.val).shard l.val).updWait = [] ∧
    (((s.trn' p.val).shard l.val).slot u.step).holds u.step = true) :=
  ⟨⟨0, ky, (un .fwd), ek, ⟨4, by decide⟩, 512, 0, es0, (tt [un .fwd]), by unfold State.AllAdmitted State.OneUnit; decide +kernel⟩,
   ⟨0, ⟨3, 1, 1⟩, uk, ek, ⟨4, by decide⟩, 2, 0, es0, 0, (tt [ek, uk]), by unfold State.AllAdmitted State.OneUnit; decide +kernel⟩,
   ⟨0, ky, hd, ek, 2, (tt []), by unfold State.AllAdmitted; decide +kernel⟩,
   ⟨0, ky, true, (un .fwdDone), ek, (tt [un .fwdDone]), by unfold State.AllAdmitted State.OneUnit; decide +kernel⟩,
   ⟨0, ky, { un .bwd with dy := true, entries := [⟨4, 2, 1, 0x40300000, 512, 9⟩] }, ⟨4, by decide⟩,
   (dsc 2 (tt [{ un .bwd with dy := true, entries := [⟨4, 2, 1, 0x40300000, 512, 9⟩] }] { sh0 with even := ⟨2, 2, 5⟩ })),
   by unfold State.AllAdmitted State.OneUnit; decide +kernel⟩⟩
/-- For `Obligations.VersionSlotsAndTrainingEnable`. -/
theorem witness_versionSlotsAreClaimed :
    (∃ (p : Part) (n : Fin 4096) (step : BitVec 16) (s : State), s.AllAdmitted p.val ∧ ((s.trn' p.val).shard n.val).updWait = [] ∧ (((s.trn'
    p.val).shard n.val).slot step.toNat).holds step.toNat = true) ∧
    (∃ (p : Part) (n : Fin 4096) (step : BitVec 16) (s : State), ((s.trn' p.val).shard n.val).updWait = [] ∧ ((s.trn' p.val).shard n.val).newest =
    some (step.toNat - 1) ∧ 0 < step.toNat ∧ (((s.trn' p.val).shard n.val).slot step.toNat).step ≠ step.toNat) ∧
    (∃ (p : Part) (n : Fin 4096) (s : State), s.rd (R.TRN.VER_TIMEOUT.MS p.val) ≠ 0 ∧ ((s.trn' p.val).shard n.val).updWait ≠ []) ∧
    (∃ (p : Part) (n : Fin 4096) (step : BitVec 16) (s : State), ((s.trn' p.val).shard n.val).newest = some step.toNat ∧ (((s.trn' p.val).shard
    n.val).slot step.toNat).holds step.toNat = false ∧ ((((s.trn' p.val).shard n.val).slot step.toNat).step ≠ step.toNat ∨ (((s.trn' p.val).shard
    n.val).slot step.toNat).st ≠ 1)) ∧
    (∃ (p : Part) (s : State), s.rd (R.TRN.VER_TIMEOUT.MS p.val) = 0) ∧
    (∃ (p : Part) (n : Fin 4096) (step : BitVec 16) (s : State), ((List.find? (fun u => u.stage == MbStage.posted) (s.trn' p.val).units).any fun u
    => decide ((s.rd (R.TRN.VER_TIMEOUT.MS p.val) ≠ 0) ∧ (s.learning p.val = true) ∧ (u.chunk = 0) ∧ (n.val ∈ u.shards) ∧ (n.val ∉ u.refs) ∧
    (((s.trn' p.val).shard n.val).slot u.step = { step := u.step, st := 1, refs := (((s.trn' p.val).shard n.val).slot u.step).refs }))) = true) ∧
    (∃ (p : Part) (n : Fin 4096) (step : BitVec 16) (k : MbKey) (m : BitVec 16) (s : State), ((List.find? (fun u => u.stage == MbStage.posted &&
    u.step == step.toNat && u.asked.contains (m.toNat, n.val) && !u.remRefs.contains (m.toNat, n.val)) (s.trn' p.val).units).any fun u => decide
    ((s.learning p.val = false) ∧ (u ∈ (s.trn' p.val).units ∧ u.is k = true ∧ ∀ x ∈ (s.trn' p.val).units, x.is k = true → x = u))) = true) :=
  ⟨⟨0, ⟨4, by decide⟩, 2, (tt []), by unfold State.AllAdmitted; decide +kernel⟩,
   ⟨0, ⟨4, by decide⟩, 3, (tt []), by decide +kernel⟩,
   ⟨0, ⟨4, by decide⟩, (tt [] { sh0 with updWait := [3] }), by decide +kernel⟩,
   ⟨0, ⟨4, by decide⟩, 4, (tt [] { sh0 with newest := some 4 }), by decide +kernel⟩,
   ⟨0, ((tt []).wr (R.TRN.VER_TIMEOUT.MS 0) 0), by decide +kernel⟩,
   ⟨0, ⟨4, by decide⟩, 3, (tt [{ un .posted with refs := [], step := 3 }] { sh0 with odd := ⟨3, 1, 0⟩ }), by decide +kernel⟩,
   ⟨0, ⟨4, by decide⟩, 4, ky, 9,
   (tt [{ un .posted with asked := [(9, 4)], remote := [(9,4)], step := 4 }] sh0 (tr0.wr (R.SCHED.TURN_STAT.PHASE 0) 1)), by decide +kernel⟩⟩
/-- For `Obligations.VersionSlotsAndTrainingEnable`. -/
theorem witness_trainingEnable :
    (∃ (p : Part) (s : State), s.AllAdmitted p.val ∧ s.trnConfigOk p.val = true ∧ s.jobRuns p.val = true) ∧
    (∃ (p : Part) (s : State), s.AllAdmitted p.val ∧ s.trnConfigOk p.val = false ∧ (∀ (j : Job), s.jobOf p.val = some j → j.reset = true)) :=
  ⟨⟨0, (tt []), by unfold State.AllAdmitted; decide +kernel⟩,
   ⟨0, (tt [un .fwd] sh0 mod0), by unfold State.AllAdmitted; decide +kernel⟩⟩
end Training

/-! ## Witnesses: Rollout -/
namespace Rollout
def adp : Payload := pay 0x20000 (20 + 30 * 2^23 + 2*2^45 + 3 * 2^57) (0xffffffff) 0 0 6
def lg : List (BitVec 32) := [0x3f800000, 0x40000000, 0]
def l2 : List (List (BitVec 32)) := [[5], [6]]
def pk0 : Park := ⟨[1], 1, 9, 0xffff, 0, 1, 3, 0, true, false, false⟩
def pgd : List (Byte × Bool) := List.replicate 512 (7, false)
/-- For `Obligations.RolloutBoundaryActsOnCommands`. -/
theorem witness_rolloutCommandsAwaitTheBoundary :
    (∃ (x : Post) (j : Job) (s : State), s.Passes x [-1, -1, -1, -1, -1, -1, -1] j ∧ s.Passes x [lowMask 32] j ∧ s.Passes x [lowMask 56] j ∧
    s.Passes x [lowMask 13, lowMask 48] j ∧ fieldOf x.p.w1 12 1 = 0) ∧
    (∃ (x : Post) (j : Job) (s : State), s.Passes x [lowMask 13, lowMask 48] j ∧ fieldOf x.p.w1 12 1 = 1) :=
  ⟨⟨(post 3 0 0 0 0 0), job0, svc, by unfold State.Passes State.Serving; decide +kernel⟩,
   ⟨(post 0x1003 5 0 0 0 0), job0, svc, by unfold State.Passes State.Serving; decide +kernel⟩⟩
/-- For `Obligations.RolloutBoundaryActsOnCommands`. -/
theorem witness_boundariesActOnCommands :
    (∃ (p : Part) (c : PendCmd) (w : Payload) (j : Job) (n : ℕ) (s : State), s.AtBoundary p.val c w j ∧ c.opcode = 96 ∧ s.admitOk j (admitFields w)
    = true ∧ (s.liveCtxs p.val).length < s.rd (R.ROLL.QUOTA.CTX p.val) ∧ n < 16384 ∧ (s.ctx n).st = 0 ∧ (∀ m < n, (s.ctx m).st ≠ 0) ∧ (admitFields
    w).adapter = 65535 ∧ (admitFields w).pfx = 65535 ∧ (admitFields w).resume = false ∧ ((admitFields w).plen * min 16 (s.rd (R.ROLL.CTL.PREFILL_W
    p.val)) + 15) / 16 ≤ s.balance (admitFields w).acct ∧ (s.reservePages p.val ((min ((admitFields w).plen + (admitFields w).maxNew) 4194304 +
    s.pageTok p.val - 1) / s.pageTok p.val)).isSome = true) ∧
    (∃ (p : Part) (c : PendCmd) (w : Payload) (j : Job) (s : State), s.AtBoundary p.val c w j ∧ c.opcode = 99 ∧ j.owns (fieldOf w.w1 0 12) = true ∧
    fieldOf w.w1 12 1 = 0) ∧
    (∃ (p : Part) (c : PendCmd) (w : Payload) (j : Job) (n : ℕ) (s : State), s.AtBoundary p.val c w j ∧ c.opcode = 97 ∧ s.named j (fieldOf w.w1 0
    32) = some n ∧ (s.ctx n).st ≤ 5 ∧ (s.ctx n).stopped = none) ∧
    (∃ (p : Part) (c : PendCmd) (w : Payload) (j : Job) (s : State), s.AtBoundary p.val c w j ∧ c.opcode = 99 ∧ j.owns (fieldOf w.w1 0 12) = true ∧
    fieldOf w.w1 12 1 = 1) ∧
    (∃ (p : Part) (c : PendCmd) (w : Payload) (j : Job) (n : ℕ) (s : State), s.AtBoundary p.val c w j ∧ c.opcode = 98 ∧ s.named j (fieldOf w.w1 0
    32) = some n ∧ (s.ctx n).st ≤ 5 ∧ (s.ctx n).runEnd = false ∧ (s.ctx n).stopped = none ∧ fieldOf w.w1 32 24 ≠ 0) :=
  ⟨⟨0, (pc 0x60 adp), adp, job0, 0, (wt 0x60 adp (wc cx)), by unfold State.AtBoundary State.QuietCtxs; decide +kernel⟩,
   ⟨0, (pc 0x63 (pay 2 99)), (pay 2 99), job0, (wt 0x63 (pay 2 99) (wc cx)), by unfold State.AtBoundary State.QuietCtxs; decide +kernel⟩,
   ⟨0, (pc 0x61 (pay hnd 0)), (pay hnd 0), job0, 4, (wt 0x61 (pay hnd 0) (wc cx)), by unfold State.AtBoundary State.QuietCtxs; decide +kernel⟩,
   ⟨0, (pc 0x63 (pay 0x1002 (2^48-60))), (pay 0x1002 (2^48-60)), job0, (wt 0x63 (pay 0x1002 (2^48-60)) (wc cx)),
   by unfold State.AtBoundary State.QuietCtxs; decide +kernel⟩,
   ⟨0, (pc 0x62 (pay (hnd + 30 * 2^32) 0)), (pay (hnd + 30 * 2^32) 0), job0, 4, (wt 0x62 (pay (hnd + 30 * 2^32) 0) (wc cx)),
   by unfold State.AtBoundary State.QuietCtxs; decide +kernel⟩⟩
/-- For `Obligations.ContextsReachDecode`. -/
theorem witness_contextsReachDecode :
    (∃ (k : CtxId) (logits : List (BitVec 32)) (last : Fin 65536) (s : State), (s.ctx k.val).st = 3 ∧ last.val + 1 < (s.ctx k.val).toks.length -
    (s.ctx k.val).filled ∧ s.kvPoisoned (s.ctx k.val) (s.ctx k.val).filled = false ∧ (s.ctx k.val).toks.length ≤ (s.ctx k.val).filled + 65536 ∧
    vocabOk logits = true ∧ 0 < s.balance (s.ctx k.val).acct ∧ s.Stops k.val (s.sampleAt (s.ctx k.val) logits (s.ctx k.val).toks.length).1 = none ∧
    (s.ctx k.val).runEnd = false) ∧
    (∃ (k : CtxId) (b : Batch) (m : BitVec 16) (s : State), (s.ctx k.val).st = 1 ∧ s.rd (R.SCHED.TURN_STAT.PHASE (s.ctx k.val).part) = 1 ∧ s.rd
    (R.ROLL.CTL.EN (s.ctx k.val).part) = 1 ∧ (∀ m ∈ s.liveCtxs (s.ctx k.val).part, (s.ctx m).st = 1 → (s.ctx k.val).order ≤ (s.ctx m).order) ∧
    List.find? (fun x => x.num == (s.ctx k.val).batch) (s.batchSt (s.ctx k.val).part).open_ = some b ∧ b.stamp = none ∧ s.housePaused (s.ctx
    k.val).part = false ∧ s.rd (R.SCHED.WPTR.VALID (s.ctx k.val).part) = 1) ∧
    (∃ (k : CtxId) (s : State), (s.ctx k.val).st = 4 ∧ (s.ctx k.val).stopped = none ∧ (s.ctx k.val).hold = none ∧ (s.ctx k.val).runEnd = false ∧
    s.decodeHere (s.ctx k.val).part = true) ∧
    (∃ (k : CtxId) (logits : List (BitVec 32)) (s : State), (s.ctx k.val).st = 3 ∧ (s.ctx k.val).toks.length ≤ (s.ctx k.val).filled + 65536 ∧
    vocabOk logits = true ∧ s.kvPoisoned (s.ctx k.val) (s.ctx k.val).filled = false ∧ s.balance (s.ctx k.val).acct = 0) ∧
    (∃ (k : CtxId) (o : Obj) (tk : ℕ) (s : State), (s.ctx k.val).st = 2 ∧ (s.ctx k.val).resume = some tk ∧ s.obj tk = some o ∧ (s.ctx k.val).prompt
    ≠ 0 ∧ (s.ctx k.val).pages.Nodup ∧ (∀ i ∈ (s.ctx k.val).pages, s.offAt (s.pageAddr (s.ctx k.val).part i) (s.pageBytes (s.ctx k.val).part) =
    none)) ∧
    (∃ (m : BitVec 16) (h : BitVec 32) (data : List (Byte × Bool)) (q : Part) (s : State), s.reservePages q.val 1 = some [0] ∧ s.jobKeyed q.val =
    true ∧ data.length = s.pageBytes q.val ∧ data ≠ [] ∧ (s.roll.lodged.any fun x => x.src == m.toNat && x.handle == h.toNat) = false ∧ s.offAt
    (s.pageAddr q.val 0) data.length = none) ∧
    (∃ (k : CtxId) (b : Batch) (m : BitVec 16) (s : State), (s.ctx k.val).st = 1 ∧ s.rd (R.SCHED.TURN_STAT.PHASE (s.ctx k.val).part) = 1 ∧ s.rd
    (R.ROLL.CTL.EN (s.ctx k.val).part) = 1 ∧ (∀ m ∈ s.liveCtxs (s.ctx k.val).part, (s.ctx m).st = 1 → (s.ctx k.val).order ≤ (s.ctx m).order) ∧
    List.find? (fun x => x.num == (s.ctx k.val).batch) (s.batchSt (s.ctx k.val).part).open_ = some b ∧ (b.stamp).isSome = true) ∧
    (∃ (k : CtxId) (s : State), (s.ctx k.val).st = 4 ∧ (s.ctx k.val).stopped = none ∧ (s.ctx k.val).hold = none ∧ (s.ctx k.val).runEnd = false ∧
    s.decodeHere (s.ctx k.val).part = false ∧ s.jobKeyed (s.ctx k.val).part = true) :=
  ⟨⟨4, lg, 0, (wc { cx with st := 3, filled := 1 }), by decide +kernel⟩,
   ⟨4, b0, 9, (wc { cx with st := 1 }), by decide +kernel⟩,
   ⟨4, (wc { cx with st := 4 }), by decide +kernel⟩,
   ⟨4, lg, (wc { cx with st := 3, acct := 9 }), by decide +kernel⟩,
   ⟨4, o0, tk0, (ob 2 o0 (wc { cx with st := 2, resume := some tk0, pages := [0, 2] })), by decide +kernel⟩,
   ⟨9, 88, pgd, 0, ({ svc with host := { svc.host with jobs := [{ job0 with keySlot := some 3 }] } }), by decide +kernel⟩,
   ⟨4, { b0 with stamp := some 8 }, 9,
   (wc { cx with st := 1 } { svc with roll := { svc.roll with batches := [(0, ⟨[⟨6, false, some 8⟩], some 5⟩)] } }), by decide +kernel⟩,
   ⟨4,
   (wc { cx with st := 4 } { svc with roll := { svc.roll with pools := [(5, 1)] }, host := { svc.host with jobs := [{ job0 with keySlot := some 3 }] } }),
   by decide +kernel⟩⟩
/-- For `Obligations.RoundsAreVerifiedAndEmitted`. -/
theorem witness_roundsAreVerifiedAndEmitted :
    (∃ (k : CtxId) (drafts : List (List (BitVec 32))) (logits : List (List (BitVec 32))) (s : State), s.Decodes k.val ∧ drafts.length = s.draftLen
    (s.ctx k.val) ∧ logits.length = drafts.length + 1 ∧ logits.all vocabOk = true ∧ drafts.all vocabOk = true ∧ s.kvPoisoned (s.ctx k.val) ((s.ctx
    k.val).toks.length - 1) = false ∧ ((s.ctx k.val).st = 5 ∨ (s.ctx k.val).st = 6) ∧ (s.ctx k.val).off = true ∧ (s.ctx k.val).offLeft = 0 ∧ (s.ctx
    k.val).round = none) ∧
    (∃ (k : CtxId) (l : ℕ) (tok : ℕ) (lp : ℕ) (q : Part) (s : State), s.rd (R.ROLL.CTL.EN (s.ctx k.val).part) = 1 ∧ s.liveCtxs (s.ctx k.val).part =
    [k.val] ∧ (s.ctx k.val).st = 5 ∧ (s.ctx k.val).mark = 0 ∧ (s.ctx k.val).round = some { len := l, acc := 0, toks := [(tok, lp, false)] } ∧ (s.ctx
    k.val).off = false ∧ s.host.waiting = [] ∧ 0 < s.balance (s.ctx k.val).acct ∧ s.Stops k.val tok = none ∧ (s.ctx k.val).runEnd = false ∧
    s.noDrafts (s.ctx k.val) = false ∧ (s.ctx k.val).part = q.val) :=
  ⟨⟨4, l2, [lg, lg, lg], (wc { cx with off := true }), by unfold State.Decodes; decide +kernel⟩,
   ⟨4, 2, 1, 1, 0, (wc { cx with round := some ⟨2, 0, [(1, 1, false)]⟩ }), by decide +kernel⟩⟩
/-- For `Obligations.ContextsParkAndClose`. -/
theorem witness_contextsParkAndClose :
    (∃ (k : CtxId) (p : Part) (r : Fin 64) (s : State), (s.ctx k.val).st = 8 ∧ (s.ctx k.val).finalSent = false ∧ (∀ (x : StreamRing), s.sring (s.ctx
    k.val).part (s.ctx k.val).ring = some x → x.queue = [] ∧ ∃ j, s.streamJob (s.ctx k.val).part = some j ∧ 0 < s.ringRoom j x) ∧ ((s.sring p.val
    r.val).any fun x => decide (((s.streamJob p.val).isSome = true))) = true) ∧
    (∃ (k : CtxId) (s : State), (s.ctx k.val).st = 7 ∧ (s.ctx k.val).far = none ∧ s.parkFits (s.ctx k.val).part ((List.take (((s.ctx
    k.val).toks.length + s.pageTok (s.ctx k.val).part - 1) / s.pageTok (s.ctx k.val).part) (s.ctx k.val).pages).length * s.pageBytes (s.ctx
    k.val).part) = true ∧ List.length s.roll.parks < 1048576 ∧ ((s.freeIndex).any fun i => decide ((i < 2 ^ 22))) = true) ∧
    (∃ (k : CtxId) (s : State), (s.ctx k.val).st = 8 ∧ (s.ctx k.val).finalSent = false ∧ ((s.sring (s.ctx k.val).part (s.ctx k.val).ring).any fun x
    => decide ((s.streamJob (s.ctx k.val).part = none))) = true) ∧
    (∃ (q : BitVec 32) (s : State), ((s.parkRec q.toNat).any fun x => decide ((((s.obj q.toNat).any fun o => decide ((((o.expiry).any fun e =>
    decide ((x.held = false) ∧ (e ≤ s.now))) = true))) = true))) = true) :=
  ⟨⟨4, 0, 3, (wc { cx with st := 8, reason := 2 }), by decide +kernel⟩,
   ⟨4, ((wc { cx with st := 7, ttl := 30 } (svc.wr (R.NOL.PARK_CFG.MIB0 0) 4096)).store 0x10000000 [1,2,3]), by decide +kernel⟩,
   ⟨4, (wc { cx with st := 8, reason := 2 } { svc with host := { svc.host with jobs := [{ job0 with orphaned := true }] } }), by decide +kernel⟩,
   ⟨(BitVec.ofNat 32 tk0),
   (ob 2 { o0 with expiry := some 0 } { svc with roll := { svc.roll with parks := [(2, some pk0)], rings := [(3, some ⟨0x9000, 8, 0xa000, 255, [(1, 2), (3, 4)]⟩)] } }),
   by decide +kernel⟩⟩
end Rollout

/-! ## Witnesses: Services -/
namespace Services
def y0 : Pfx := ⟨0, [1], [2], 9, 0xffff, 0, false⟩
def sl (l : Tab AdSlot) (s : State := svc) : State := ({ s with roll := { s.roll with slots := l } }).wrs [(R.ROLL.QUOTA.ADAPTERS 0, 4), (R.ROLL.QUOTA.PREFIXES 0, 4)]
def wk (k : PendKind) (s : State) : State := { s with host := { s.host with waiting := [⟨0, 0, 0, 77, 0x64, 7, k⟩] } }
def ck (k : PendKind) : PendCmd := ⟨0, 0, 0, 77, 0x64, 7, k⟩
def aw : PendKind := .adapterWait 3 5 0x100000 64
def al : PendKind := .adapterLoading 1 0x100000 64
def s2 (cnt : Nat) : State := (wk al (sl [(0, ⟨2, 0, 3, 4, cnt, []⟩), (1, ⟨1, 0, 3, 5, 0, []⟩)])).store 0x100000 [1, 2]
def cl : Ctx := { cx with toks := (List.range 40), pages := [0, 1, 2], prompt := 30 }
def pf (maps : List Nat) : State := { wc { cl with maps := maps } (sl []) with roll := { (wc { cl with maps := maps } (sl [])).roll with pfxs := [(5, some y0)] } }
/-- For `Obligations.AdaptersPrefixesAndStopSets`. -/
theorem witness_adaptersLoadAndUnload :
    (∃ (x : Post) (i : Fin 1024) (src : ℕ) (n : ℕ) (c : PendCmd) (j : Job) (s : State), s.Passes x [lowMask 32, lowMask 48, lowMask 40] j ∧ fieldOf
    x.p.w1 0 16 ≠ 65535 ∧ (BitVec.toNat x.p.w3 = 0 ∨ s.reach (some j.part) (BitVec.toNat x.p.w2) (BitVec.toNat x.p.w3) false = Reach.ok) ∧
    s.host.waiting = [c] ∧ c.kind = PendKind.adapterLoading i.val src n ∧ (s.aslot i.val).st = 1 ∧ s.job c.job = some j ∧ j.orphaned = false ∧
    j.toRing0 = false ∧ s.poisoned src n = false ∧ s.adapterPtr (s.aslot i.val).part (s.aslot i.val).id ≠ some i.val ∧ (s.adapterPtr (s.aslot
    i.val).part (s.aslot i.val).id).isSome = true) ∧
    (∃ (x : Post) (j : Job) (s : State), s.Passes x [lowMask 32, lowMask 48, lowMask 40] j ∧ fieldOf x.p.w1 0 16 = 65535) ∧
    (∃ (x : Post) (i : Fin 1024) (j : Job) (s : State), s.Passes x [lowMask 16] j ∧ s.adapterPtr j.part (fieldOf x.p.w1 0 16) = some i.val) ∧
    (∃ (i : Fin 1024) (src : ℕ) (n : ℕ) (c : PendCmd) (j : Job) (s : State), s.host.waiting = [c] ∧ c.kind = PendKind.adapterLoading i.val src n ∧
    (s.aslot i.val).st = 1 ∧ s.job c.job = some j ∧ j.orphaned = false ∧ j.toRing0 = false ∧ s.poisoned src n = true) ∧
    (∃ (p : Part) (i : Fin 1024) (id : ℕ) (ver : ℕ) (src : ℕ) (n : ℕ) (c : PendCmd) (j : Job) (s : State), s.host.waiting = [c] ∧ c.kind =
    PendKind.adapterWait id ver src n ∧ s.job c.job = some j ∧ j.part = p.val ∧ (s.aslot i.val).st = 0 ∧ (∀ k < i.val, (s.aslot k).st ≠ 0) ∧
    (List.filter (fun e => e.2.st != 0 && e.2.part == p.val) s.roll.slots).length < s.rd (R.ROLL.QUOTA.ADAPTERS p.val)) :=
  ⟨⟨(post 0x50003 0x100000 64 0 0 0), 1, 0x100000, 64, (ck al), job0, (s2 0), by unfold State.Passes State.Serving; decide +kernel⟩,
   ⟨(post 0x5ffff 0x100000 64 0 0 0), job0, (sl []), by unfold State.Passes State.Serving; decide +kernel⟩,
   ⟨(post 3 0 0 0 0 0), 0, job0, (sl [(0, ⟨2, 0, 3, 4, 0, []⟩)]), by unfold State.Passes State.Serving; decide +kernel⟩,
   ⟨1, 0x100000, 64, (ck al), job0, ((s2 1).poisonRange 0x100000 8), by decide +kernel⟩,
   ⟨0, 1, 3, 5, 0x100000, 64, (ck aw), job0, (wk aw (sl [(0, ⟨2, 0, 3, 4, 1, []⟩)])), by decide +kernel⟩⟩
/-- For `Obligations.AdaptersPrefixesAndStopSets`. -/
theorem witness_prefixesStopSetsAndEnable :
    (∃ (x : Post) (p : Part) (j : Job) (y : Pfx) (s : State), s.Passes x [lowMask 14] j ∧ s.pfx (fieldOf x.p.w1 0 14) = some y ∧ y.part = j.part ∧
    y.released = false ∧ s.Passes x [lowMask 8, -1] j ∧ s.rollConfigOk p.val = true) ∧
    (∃ (p : Part) (s : State), s.rollConfigOk p.val = false) ∧
    (∃ (x : Post) (j : Job) (n : ℕ) (h : ℕ) (s : State), s.Passes x [lowMask 54] j ∧ s.named j (fieldOf x.p.w1 0 32) = some n ∧ h < 16384 ∧ s.pfx h
    = none ∧ (∀ k < h, s.pfx k ≠ none) ∧ ((s.ctx n).st = 5 ∨ (s.ctx n).st = 6) ∧ 0 < fieldOf x.p.w1 32 22 ∧ fieldOf x.p.w1 32 22 % s.pageTok j.part
    = 0 ∧ fieldOf x.p.w1 32 22 < (s.ctx n).toks.length ∧ (List.filter (fun e => match e.2 with | some z => z.part == j.part | none => false)
    s.roll.pfxs).length < s.rd (R.ROLL.QUOTA.PREFIXES j.part)) :=
  ⟨⟨(post 5 0 0 0 0 0), 0, job0, y0, (pf []), by unfold State.Passes State.Serving; decide +kernel⟩,
   ⟨0, ((sl []).wr (R.ROLL.PAGE_CFG.TOK 0) 7), by decide +kernel⟩,
   ⟨(post (BitVec.ofNat 64 (16*2^32 + hnd)) 0 0 0 0 0), job0, 4, 0, (wc cl (sl [])), by unfold State.Passes State.Serving; decide +kernel⟩⟩
end Services

/-! ## Witnesses: Turns -/
namespace Turns
def sh2 : Shard := ⟨⟨2, 2, 0⟩, ⟨1, 3, 0⟩, some 2, [], []⟩
def ph (n : Nat) (x : Shard := sh2) (s : State := svc) : State := ((s.wrs [(R.SCHED.TURN_STAT.PHASE 0, n), (R.SCHED.WSLOT_BASE.BASE 0, 100), (R.SCHED.WSLOT_SIZE.MIB 0, 10)])).setTrn 0 { TrnSt.reset with base := x }
def tpost (roll : Nat) (w4 : Word := 0) : Post := post (BitVec.ofNat 64 (5 + roll * 2^48)) 2 0x3000 w4 0 0
def tu (roll : Bool) : TurnSt := ⟨roll, 2, 5, 0x3000, 0, if roll then 3 else 1, none, [], 0, 0, [], [], false, 0, 0, false⟩
def wt0 (u : TurnSt) (s : State) : State := s.setTurn 0 (some u)
def cbar : Coll := { newColl 0 7 0 5 none (collDesc ⟨7, 0, 0, 0, 0, 0, 0, 0⟩) true with st := .running, credit := true, internal := true }
def ci (s : State) : State := { s with coll := { s.coll with colls := [cbar] } }
def pcT : PendCmd := ⟨0, 0, 0, 77, 0x50, 7, .turn⟩
def wp (k : PendCmd) (s : State) : State := { s with host := { s.host with waiting := [k] } }
def hc : HeldChunk := ⟨9, 0, [(0, 3), (7, 8)], [], 0x100⟩
def mv : Move := ⟨0, 3, true, 0, 0x100, 9⟩
def vt (n : Nat) : Vote := ⟨0, true, 2, 5, n⟩
def uv : TurnSt := { tu true with vote := some 0, plan := [mv] }
def turnS (u : TurnSt) (st : Nat) : State := wp pcT (ci (wt0 u ((ph 4).wr (R.SCHED.TURN_STAT.STEP_NO 0) st)))
def uc : TurnSt := { uv with carving := true, rounds := 1, held := [hc] }
def ud (n : Nat) : TurnSt := { uc with held := [], barrier := true, written := [(9, 0)], rounds := n }
def qq : StageQ × Fin 65 := (⟨3, false⟩, 5)
def ud1 : TurnSt := { ud 0 with carving := false, barrier := false }
def gp : GPiece := ⟨3, [0, 1], 512, 64, 1024, true, 0x20000, 0x30000⟩
def kd5 : KdSet := ⟨5, 2, 77, .activation 3 100 8⟩
def mp0 (f : List F4Tensor) : Mapping := ⟨[(5, [1, 2, 3])], [kd5], [(5, true)], [gp], some 3, [qq, (⟨3, true⟩, 7)], [⟨1, 0, 8, 16⟩], f⟩
def ke : KeyEnt := ⟨1, 0, 0, 33, 0, 0, Config.sha384 [1, 2], 1, [], 0⟩
def kd (s : State) : State := { s with sec := { s.sec with keys := [(4, some ke)] } }
def wl (step : Nat) : WLoad := ⟨33, step, false, 5, 1, 0x40, false, 0, true, [], [⟨7, 1, 2, 0x100⟩], [], [], [], ke⟩
def pcW : PendCmd := ⟨0, 0, 0, 77, 0x53, 7, .weightLoad⟩
def wpst (i : Nat) : Post := post 5 (BitVec.ofNat 64 (i + 3 * 2^32)) 0x4000 0x5000 0 0
def ck : CollKey := ⟨0, 0, 5⟩
def yp : SlotPlace := ⟨7, 1, 2, 0x100⟩
def sh3 : Shard := ⟨⟨2, 2, 0⟩, ⟨3, 1, 0⟩, some 2, [], []⟩
def grp (s : State) : State := { ((((s.wr (R.COLL.GTAB.BASE 0) 0x100).store 0x100000 (bytes8 (2 + 65536 + 2^32 + 2^36))).store 0x100008 (bytes8 16)).store 0x100010 [0,0,0x15,0,0,0]).store 0x150000 [0,0,1,0,2,0] with coll := { s.coll with groups := [(0, ⟨9, 9, false⟩)] } }
where bytes8 (n : Nat) : List Byte := (List.range 8).map (fun i => BitVec.ofNat 8 (n / 256^i))
def lds (l : WLoad) (x : Shard := sh3) : State := wp pcW (let s := grp (ph 1 x); { s with sched := { s.sched with loads := [(0, some l)] } })
def gh : Payload := ⟨BitVec.ofNat 64 (33 + 0 * 2^32), 7, 0, 4, 0, 0, 77, 88⟩
def wr1 : WLoad := { wl 3 with src := 0, srcs := [(1, 1)] }
def wt1 : WLoad := { wl 3 with tags := [(0, [1, 2])] }
def hm (s : State) : State := { s with host := { s.host with mem0 := bytesTab ((List.replicate 0x40 0) ++ [33,0,0,0, 0,0,0,0, 7,0,0,0,0,0,0,0, 0,0,0,0,0,0,0,0, 4,0,0,0,0,0,0,0]) 0 } }
def cw : Coll := { cbar with st := .admitted, desc := CollDesc.empty 1 }
def wo : WLoad := { wl 3 with opened := false }
def gs : State := grp (ph 3)
def mst : MapSt := ⟨some 3, [gp], [⟨3, false⟩, ⟨3, true⟩, ⟨2, false⟩]⟩
def mu (st : MbStage) : MbUnit := ⟨3, 1, 0, 2, 8, 10, [0], [], [], st, [4], [], [], false, some (2, 10), none, 0, 0, [], [], false, false, false, false⟩
def gs1 (st : MbStage) (x : StageSt) (q : StageQ) : State := let s := (gs.setTrn 0 { TrnSt.reset with units := [mu st], base := sh2 }); { s with sched := { s.sched with maps := [(0, some mst)], stages := [(stageKey 0 q, x)] } }
def k0 : MbKey := ⟨3, 1, 0⟩
def qf : StageQ := ⟨3, false⟩
def qb : StageQ := ⟨3, true⟩
/-- For `Obligations.TurnsStartAndGathersRun`. -/
theorem witness_turnsStartAndQuiesce :
    (∃ (x : Post) (j : Job) (s : State), s.coll.queues = [] ∧ s.Passes x [lowMask 49, lowMask 16, lowMask 48, lowMask 48, lowMask 24] j ∧ fieldOf
    x.p.w1 48 1 = 1 ∧ s.turn j.part = none ∧ fieldOf x.p.w5 0 24 = 0 ∧ (s.phase j.part = 0 ∨ s.phase j.part = 3)) ∧
    (∃ (x : Post) (j : Job) (s : State), s.coll.queues = [] ∧ s.Passes x [lowMask 49, lowMask 16, lowMask 48, lowMask 48, lowMask 24] j ∧ fieldOf
    x.p.w1 48 1 = 0 ∧ s.turn j.part = none ∧ fieldOf x.p.w5 0 24 = 0 ∧ (s.phase j.part = 0 ∨ s.phase j.part = 1) ∧ s.slotIn j.part (fieldOf x.p.w2 0
    16) 2 2 = true ∧ s.rd (R.SCHED.TURN_CTL.CTX_POLICY j.part) ≠ 3) ∧
    (∃ (p : Part) (u : TurnSt) (s : State), s.coll.queues = [] ∧ s.HasTurn p.val u ∧ u.vote = none ∧ s.layoutBad p.val u = false ∧ s.quiet p.val u =
    true) ∧
    (∃ (p : Part) (u : TurnSt) (s : State), s.coll.queues = [] ∧ s.HasTurn p.val u ∧ u.vote = none ∧ s.layoutBad p.val u = true) ∧
    (∃ (p : Part) (u : TurnSt) (s : State), s.coll.queues = [] ∧ s.HasTurn p.val u ∧ u.vote = none ∧ s.layoutBad p.val u = false ∧ s.quiet p.val u =
    false) :=
  ⟨⟨(tpost 1), job0, (ph 3), by unfold State.Passes State.Serving; decide +kernel⟩,
   ⟨(tpost 0), job0, (ph 1), by unfold State.Passes State.Serving; decide +kernel⟩,
   ⟨0, (tu true), (wt0 (tu true) (ph 4)), by unfold State.HasTurn; decide +kernel⟩,
   ⟨0, { tu true with moves := 3 }, (wt0 { tu true with moves := 3 } (ph 4)), by unfold State.HasTurn; decide +kernel⟩,
   ⟨0, (tu false), (wt0 (tu false) ((ph 2).wr (R.SCHED.RB_STAT.STARTED 0) 1)), by unfold State.HasTurn; decide +kernel⟩⟩
/-- For `Obligations.TurnsMoveAndInstallWeights`. -/
theorem witness_carveRoundsMoveTheWeights :
    (∃ (p : Part) (u : TurnSt) (status : BitVec 16) (c : Coll) (h : HeldChunk) (m : Move) (s : State), s.HasTurn p.val u ∧ u.carving = true ∧
    u.barrier = false ∧ s.internal p.val u.name = some c ∧ c.st ≠ CollStage.closing ∧ status = 0 ∧ u.held = [h] ∧ u.entry h.xid h.chunk h.len = some
    m ∧ m.round = u.round) ∧
    (∃ (p : Part) (u : TurnSt) (status : BitVec 16) (w : PendCmd) (s : State), s.HasTurn p.val u ∧ u.carving = true ∧ u.barrier = false ∧ status ≠ 0
    ∧ s.OneWaits p.val PendKind.turn w) ∧
    (∃ (p : Part) (u : TurnSt) (c : Coll) (s : State), s.HasTurn p.val u ∧ u.carving = true ∧ u.barrier = true ∧ s.internal p.val u.name = some c ∧
    c.st ≠ CollStage.closing ∧ (∀ y ∈ u.plan, y.recv = true → y.round = u.round → ∀ k < y.chunks, (y.xid, k) ∈ u.written) ∧ u.rounds ≤ u.round + 1) ∧
    (∃ (p : Part) (u : TurnSt) (c : Coll) (s : State), s.HasTurn p.val u ∧ u.carving = true ∧ u.barrier = true ∧ s.internal p.val u.name = some c ∧
    c.st ≠ CollStage.closing ∧ (∀ y ∈ u.plan, y.recv = true → y.round = u.round → ∀ k < y.chunks, (y.xid, k) ∈ u.written) ∧ u.round + 1 < u.rounds) ∧
    (∃ (p : Part) (u : TurnSt) (votes : List Vote) (c : Coll) (s : State), s.HasTurn p.val u ∧ u.vote = some 0 ∧ s.internal p.val u.name = some c ∧
    u.carving = false ∧ u.rounds = 0 ∧ c.credit = true ∧ c.st ≠ CollStage.closing ∧ (s.rd (R.SCHED.TURN_STAT.STEP_NO p.val) = if u.rollout = true
    then 2 else 3) ∧ (∀ v ∈ votes, v.code = 0) ∧ u.votesAgree votes = true ∧ 0 < List.foldl max (planRounds u.plan) (List.map (fun x => x.rounds)
    votes)) ∧
    (∃ (p : Part) (u : TurnSt) (votes : List Vote) (c : Coll) (w : PendCmd) (s : State), s.HasTurn p.val u ∧ u.vote = some 0 ∧ s.internal p.val
    u.name = some c ∧ u.carving = false ∧ u.rounds = 0 ∧ c.credit = true ∧ c.st ≠ CollStage.closing ∧ (s.rd (R.SCHED.TURN_STAT.STEP_NO p.val) = if
    u.rollout = true then 2 else 3) ∧ (∀ v ∈ votes, v.code = 0) ∧ u.votesAgree votes = false ∧ s.OneWaits p.val PendKind.turn w) ∧
    (∃ (p : Part) (u : TurnSt) (votes : List Vote) (c : Coll) (s : State), s.HasTurn p.val u ∧ u.vote = some 0 ∧ s.internal p.val u.name = some c ∧
    u.carving = false ∧ u.rounds = 0 ∧ c.credit = true ∧ c.st ≠ CollStage.closing ∧ (s.rd (R.SCHED.TURN_STAT.STEP_NO p.val) = if u.rollout = true
    then 2 else 3) ∧ (∀ v ∈ votes, v.code = 0) ∧ u.votesAgree votes = true ∧ List.foldl max (planRounds u.plan) (List.map (fun x => x.rounds) votes)
    = 0) :=
  ⟨⟨0, uc, 0, cbar, hc, mv, (turnS uc 3), by unfold State.HasTurn; decide +kernel⟩,
   ⟨0, uc, 5, pcT, (turnS uc 3), by unfold State.HasTurn State.OneWaits; decide +kernel⟩,
   ⟨0, (ud 1), cbar, (turnS (ud 1) 3), by unfold State.HasTurn; decide +kernel⟩,
   ⟨0, (ud 2), cbar, (turnS (ud 2) 3), by unfold State.HasTurn; decide +kernel⟩,
   ⟨0, uv, [vt 1, vt 2], cbar, (turnS uv 2), by unfold State.HasTurn; decide +kernel⟩,
   ⟨0, uv, [{ vt 1 with step := 3 }], cbar, pcT, (turnS uv 2), by unfold State.HasTurn State.OneWaits; decide +kernel⟩,
   ⟨0, { uv with plan := [] }, [vt 0], cbar, (turnS { uv with plan := [] } 2), by unfold State.HasTurn; decide +kernel⟩⟩
/-- For `Obligations.TurnsMoveAndInstallWeights`. -/
theorem witness_turnsInstallAndFinish :
    (∃ (x : Post) (j : Job) (s : State), s.Passes x [lowMask 16] j ∧ s.phase j.part = 1 ∧ s.slotIn j.part (fieldOf x.p.w1 0 16) 2 3 = true ∧ s.rd
    (layFld j.part (fieldOf x.p.w1 0 16)) = 0 ∧ s.Passes x [lowMask 32] j) ∧
    (∃ (p : Part) (u : TurnSt) (m : Mapping) (s : State), s.HasTurn p.val u ∧ (s.rd (R.SCHED.TURN_STAT.STEP_NO p.val) = if u.rollout = true then 4
    else 5) ∧ u.carving = false ∧ s.installable p.val m = true ∧ s.reach (some p.val) u.map 1 false = Reach.ok ∧ u.rollout = true ∧ u.step < 65536 ∧
    (∀ y ∈ m.f4, s.narrowPoison (s.slotBase p.val u.step) y = false)) ∧
    (∃ (p : Part) (u : TurnSt) (w : PendCmd) (s : State), s.HasTurn p.val u ∧ s.rd (R.SCHED.TURN_STAT.STEP_NO p.val) = 6 ∧ (∀ r ∈ s.chip.remotes,
    s.partOfCore r.core ≠ some p.val) ∧ s.OneWaits p.val PendKind.turn w) ∧
    (∃ (x : Post) (j : Job) (s : State), s.Passes x [lowMask 16] j ∧ (s.phase j.part ≠ 1 ∨ s.slotIn j.part (fieldOf x.p.w1 0 16) 2 3 = false ∨ s.rd
    (layFld j.part (fieldOf x.p.w1 0 16)) ≠ 0)) ∧
    (∃ (p : Part) (u : TurnSt) (m : Mapping) (k : KdSet) (s : State), s.HasTurn p.val u ∧ (s.rd (R.SCHED.TURN_STAT.STEP_NO p.val) = if u.rollout =
    true then 4 else 5) ∧ u.carving = false ∧ s.installable p.val m = true ∧ s.reach (some p.val) u.map 1 false = Reach.ok ∧ u.rollout = false ∧
    m.kds = [k]) :=
  ⟨⟨(post 2 0 0 0 0 0), job0, (ph 1), by unfold State.Passes State.Serving; decide +kernel⟩,
   ⟨0, ud1, (mp0 []), (turnS ud1 4), by unfold State.HasTurn; decide +kernel⟩,
   ⟨0, ud1, pcT, (turnS ud1 6), by unfold State.HasTurn State.OneWaits; decide +kernel⟩,
   ⟨(post 3 0 0 0 0 0), job0, (ph 1), by unfold State.Passes State.Serving; decide +kernel⟩,
   ⟨0, { ud1 with rollout := false }, (mp0 []), kd5, (turnS { ud1 with rollout := false } 5), by unfold State.HasTurn; decide +kernel⟩⟩
/-- For `Obligations.WeightLoadsPublish`. -/
theorem witness_weightLoadsPublish :
    (∃ (x : Post) (j : Job) (p : Part) (l : WLoad) (seg : BitVec 32) (w : PendCmd) (s : State), s.coll.queues = [] ∧ s.Passes x [lowMask 48, lowMask
    52, -1, lowMask 48] j ∧ s.imageKey j.part (fieldOf x.p.w2 0 32) j = none ∧ s.wload p.val = some l ∧ l.opened = true ∧ s.claimed p.val l.step =
    true ∧ s.jobRuns p.val = true ∧ s.segSource p.val l (s.moduleId / 64) seg.toNat = some s.moduleId ∧ l.src % 2 = 1 ∧ s.jobOf p.val = some j ∧
    s.OneWaits p.val PendKind.weightLoad w ∧ (segHdrOk (segHdr (s.hostMem j.port) (segAddr (s.hostMem j.port) seg.toNat l.srcAddr)) l.image
    seg.toNat = false ∨ segOpen l.key.key (segHdr (s.hostMem j.port) (segAddr (s.hostMem j.port) seg.toNat l.srcAddr)) (List.map (fun i => Tab.get 0
    (s.hostMem j.port) (segAddr (s.hostMem j.port) seg.toNat l.srcAddr + 64 + i)) (List.range (segLen (segHdr (s.hostMem j.port) (segAddr (s.hostMem
    j.port) seg.toNat l.srcAddr))))) = none) ∧ l.ec = false ∧ l.lost = [] ∧ List.length l.tags = l.key.nseg ∧ Config.sha384 (List.flatMap (fun x =>
    x.2) l.tags) = l.key.tagChain) ∧
    (∃ (x : Post) (p : Part) (l : WLoad) (seg : BitVec 32) (hdr : Payload) (data : List Byte) (y : SlotPlace) (src : BitVec 16) (w : PendCmd) (s :
    State), s.coll.queues = [] ∧ s.wload p.val = some l ∧ l.opened = true ∧ s.claimed p.val l.step = true ∧ s.jobRuns p.val = true ∧ s.segSource
    p.val l (s.moduleId / 64) seg.toNat = some src.toNat ∧ src.toNat ≠ s.moduleId ∧ segHdrOk hdr l.image seg.toNat = true ∧ data.length = segLen hdr
    ∧ l.ec = false ∧ l.layout = [y] ∧ y.tensor.toNat = fieldOf hdr.w1 0 32 ∧ fieldOf hdr.w2 0 48 ≤ y.first ∧ y.first + y.bytes ≤ fieldOf hdr.w2 0 48
    + data.length ∧ 0 < y.bytes ∧ s.OneWaits p.val PendKind.weightLoad w ∧ l.lost = [] ∧ (List.length l.tags ≠ l.key.nseg ∨ Config.sha384
    (List.flatMap (fun x => x.2) l.tags) ≠ l.key.tagChain)) ∧
    (∃ (x : Post) (j : Job) (k : KeyEnt) (s : State), s.coll.queues = [] ∧ s.Passes x [lowMask 48, lowMask 52, -1, lowMask 48] j ∧ s.imageKey j.part
    (fieldOf x.p.w2 0 32) j = some k ∧ s.wload j.part = none) ∧
    (∃ (j : Job) (p : Part) (l : WLoad) (seg : BitVec 32) (s : State), s.coll.queues = [] ∧ s.wload p.val = some l ∧ l.opened = true ∧ s.claimed
    p.val l.step = true ∧ s.jobRuns p.val = true ∧ s.segSource p.val l (s.moduleId / 64) seg.toNat = some s.moduleId ∧ l.src % 2 = 1 ∧ s.jobOf p.val
    = some j ∧ segHdrOk (segHdr (s.hostMem j.port) (segAddr (s.hostMem j.port) seg.toNat l.srcAddr)) l.image seg.toNat = true) ∧
    (∃ (x : Post) (l : WLoad) (peers : List OpenPeer) (key : CollKey) (c : Coll) (s : State), s.coll.queues = [] ∧ s.HasColl key c ∧ c.internal =
    true ∧ c.desc.kind = 1 ∧ c.st = CollStage.admitted ∧ s.wload ↑key.part = some l ∧ agreed (l.vote :: List.map (fun x => x.code.toNat) peers) = 0) ∧
    (∃ (x : Post) (l : WLoad) (peers : List OpenPeer) (key : CollKey) (c : Coll) (w : PendCmd) (s : State), s.coll.queues = [] ∧ s.HasColl key c ∧
    c.internal = true ∧ c.desc.kind = 1 ∧ c.st = CollStage.admitted ∧ s.wload ↑key.part = some l ∧ agreed (l.vote :: List.map (fun x =>
    x.code.toNat) peers) ≠ 0 ∧ l.opened = false ∧ s.OneWaits (↑key.part) PendKind.weightLoad w) :=
  ⟨⟨(wpst 0), job0, 0, wt1, 0, pcW, (lds wt1),
   by unfold State.Passes State.OneWaits State.Serving; ((repeat' apply And.intro) <;> first | decide +kernel | rfl)⟩,
   ⟨(wpst 0), 0, wr1, 0, gh, [9, 8, 7, 6], yp, 1, pcW, (lds wr1),
   by unfold State.OneWaits; ((repeat' apply And.intro) <;> first | decide +kernel | rfl)⟩,
   ⟨(wpst 33), job0, ke, (kd (ph 1)), by unfold State.Passes State.Serving; ((repeat' apply And.intro) <;> first | decide +kernel | rfl)⟩,
   ⟨job0, 0, (wl 3), 0, (hm (lds (wl 3))), by ((repeat' apply And.intro) <;> first | decide +kernel | rfl)⟩,
   ⟨(wpst 0), wo, [⟨1, 0, 1⟩], ck, cw, { lds wo sh2 with coll := { (lds wo).coll with colls := [cw] } },
   by unfold State.HasColl; ((repeat' apply And.intro) <;> first | decide +kernel | rfl)⟩,
   ⟨(wpst 0), wo, [⟨1, 0x7777, 1⟩], ck, cw, pcW, { lds wo sh2 with coll := { (lds wo).coll with colls := [cw] } },
   by unfold State.HasColl State.OneWaits; ((repeat' apply And.intro) <;> first | decide +kernel | rfl)⟩⟩
/-- For `Obligations.TurnsStartAndGathersRun`. -/
theorem witness_gathersAndStageQueues :
    (∃ (p : Part) (k : MbKey) (layer : ℕ) (computing : ℕ) (seq : BitVec 32) (q : StageQ) (m : MapSt) (g : GPiece) (u : MbUnit) (s : State),
    s.coll.queues = [] ∧ s.jobRuns p.val = true ∧ s.mapping p.val = some m ∧ s.phase p.val = 3 ∧ layerGap layer computing ≤ min 4 (s.rd
    (R.SCHED.GATHER_CFG.DEPTH p.val)) ∧ List.find? (fun u => u.is k) (s.trn' p.val).units = some u ∧ s.slotIn p.val u.step 2 3 = true ∧ m.gathers =
    [g] ∧ g.layer = layer ∧ s.coll.resident = [] ∧ s.collAt p.val 0 seq.toNat = none ∧ (s.groupEnt p.val 0).valid = true ∧ (s.grp p.val 0).expect =
    seq.toNat ∧ m.sends q = true ∧ (s.trn' p.val).units = [u] ∧ u.is k = true ∧ if q.backward = true then u.stage = MbStage.bwd ∧ u.sentBwd = false
    else u.stage = MbStage.fwd ∧ u.sentFwd = false ∧ 0 < (s.stage (stageKey p.val q)).credits ∧ m.takes q = false) ∧
    (∃ (p : Part) (q : StageQ) (m : MapSt) (e : MbKey) (s : State), s.coll.queues = [] ∧ s.jobRuns p.val = true ∧ s.mapping p.val = some m ∧ m.takes
    q = true ∧ (s.stage (stageKey p.val q)).entries.length < (s.stage (stageKey p.val q)).depth ∧ firstEntry q.backward (s.stage (stageKey p.val
    q)).entries = some e) ∧
    (∃ (p : Part) (k : MbKey) (q : StageQ) (m : MapSt) (u : MbUnit) (s : State), s.coll.queues = [] ∧ s.jobRuns p.val = true ∧ s.mapping p.val =
    some m ∧ m.sends q = true ∧ (s.trn' p.val).units = [u] ∧ u.is k = true ∧ if q.backward = true then u.stage = MbStage.bwd ∧ u.sentBwd = false
    else u.stage = MbStage.fwd ∧ u.sentFwd = false ∧ (s.stage (stageKey p.val q)).credits = 0) :=
  ⟨⟨0, k0, 3, 3, 9, qf, mst, gp, (mu .fwd), (gs1 .fwd ⟨2, 1, 0, 0, 0, []⟩ qf), by decide +kernel⟩,
   ⟨0, qb, mst, ⟨1, 2, 0⟩, (gs1 .bwd ⟨2, 1, 0, 0, 0, [⟨1,2,0⟩]⟩ qb), by decide +kernel⟩,
   ⟨0, k0, qf, mst, (mu .fwd), (gs1 .fwd ⟨2, 0, 0, 0, 0, []⟩ qf), by decide +kernel⟩⟩
end Turns

/-! ## Witnesses: Updates -/
namespace Updates
def SB : Nat := slowBase
def bytes8 (n : Nat) : List Byte := (List.range 8).map (fun i => BitVec.ofNat 8 (n / 256^i))
def w8 (s : State) (a n : Nat) : State := s.store a (bytes8 n)
def words (s : State) (a : Nat) (l : List Nat) : State := (l.zip (List.range l.length)).foldl (fun s e => w8 s (a + 8 * e.2) e.1) s
def ut : UpdTens := ⟨2, 3, 0, 0, 8, 0, 0x100, 0x104⟩
def ue : UpdEnt := ⟨0, 0, true, false, 0, 0, 0, 11, 0, SB + 0x1000, SB + 0x2000, 0, 0, 2, [ut]⟩
def ins (op d a b c st : Nat) : Nat := op + d * 64 + a * 1024 + b * 32768 + c * 2^20 + st * 2^25
def us (st : Nat) (prog : List Nat) : UpdSt := ⟨2, 5, 1, false, [ue], prog, [], st, false, [], [], [], 0, 0, [], [], none, [(0, ⟨0, [(1, 0x3ff000000000), (2, 0xc00800000000), (3, 0x400000000000)], []⟩)], [], [], [], 0, none⟩
def wu (u : UpdSt) (s : State := svc) : State := (words (words s (SB + 0x1000) [0x3f00000000, 0x4040000000]) (SB + 0x2000) [0x3ff000000000, 0x4008]).setUpd 0 u

















-- UPDATE post: tables in slow memory
def upay : Payload := ⟨77, BitVec.ofNat 64 5, BitVec.ofNat 64 (2 + 1 * 65536), BitVec.ofNat 64 (SB + 0x4000), 0, BitVec.ofNat 64 (SB + 0x5000), BitVec.ofNat 64 (SB + 0x6000), 0⟩
def upost : Post := ⟨0, 0, 0, 7, upay⟩
def tabs : State := words (words (words svc (SB + 0x4000) [2^18, 11, SB + 0x1000, SB + 0x2000, 0, 0, 2, SB + 0x4100]) (SB + 0x4100) [2 + 3 * 2^40, 0, 8, 0, 0x100, 0x104, 0, 0]) (SB + 0x5000) [ins 13 4 1 0 0 0]
def gl : List (Byte × Bool) := (List.range 512).map (fun i => (BitVec.ofNat 8 i, i == 9))
def u2 : UpdSt := { us 1 [] with seen := [(SB + 0x1000) / 512] }
def cI (n q : Nat) (k : Nat) : Coll := { newColl 0 7 0 q none (collDesc ⟨BitVec.ofNat 64 k, 0, 0, 0, 0, 0, 0, 0⟩) true with st := .running, credit := true, internal := true }
def wcI (c : Coll) (s : State) : State := { s with coll := { s.coll with colls := [c] } }
def grp (s : State) : State := ((s.wr (R.COLL.GTAB.BASE 0) 0x100).store 0x100000 (bytes8 (1 + 2^36))).store 0x100008 (bytes8 16)
def np : NormPeer := ⟨5, 2, 1, false, [], [(0x4000000000, false), (7, false)]⟩
def u3 : UpdSt := { us 2 [] with own := [(0x3f00000000, false), (0, false)] }
def u4 : UpdSt := { us 3 [ins 13 4 1 0 0 0] with lanes := [(0, ⟨1, [], []⟩), (1, ⟨1, [], []⟩)] }
def pcU : PendCmd := ⟨0, 0, 0, 77, 0x54, 7, .update⟩
def wp (k : PendCmd) (s : State) : State := { s with host := { s.host with waiting := [k] } }
def sh3 : Shard := ⟨⟨2, 1, 0⟩, ⟨1, 3, 0⟩, some 1, [], []⟩
def sh0 : Shard := ⟨⟨0, 3, 0⟩, ⟨1, 2, 0⟩, some 1, [], []⟩
def rs (x : Shard) (u : UpdSt) : State := wp pcU ((wu u ((svc.wrs [(R.SCHED.WSLOT_BASE.BASE 0, 100), (R.SCHED.WSLOT_SIZE.MIB 0, 10)]))).setTrn 0 { TrnSt.reset with base := x })
def u5 : UpdSt := { u4 with progress := [(0, 1)], amax := [(0, 0x3f800000)] }
def u6 : UpdSt := { u4 with progress := [(0, 2)] }
def u7 : UpdSt := { u4 with progress := [(0, 3)], scale := [(0, 0x3f000000)] }
/-- For `Obligations.UpdateProgramInstructions`. -/
theorem witness_updateProgramInstructions :
    (∃ (p : Part) (i : Fin 16384) (elem : BitVec 40) (u : UpdSt) (e : UpdEnt) (s : State), s.LaneAt p.val i.val elem.toNat 0 u e) ∧
    (∃ (p : Part) (i : Fin 16384) (elem : BitVec 40) (u : UpdSt) (e : UpdEnt) (s : State), s.LaneAt p.val i.val elem.toNat 1 u e ∧ ((updIns
    (u.prog.getD (u.lane i.val elem.toNat).pc 0)).st = 0 ∨ s.poisoned (e.stream (updIns (u.prog.getD (u.lane i.val elem.toNat).pc 0)).st
    elem.toNat).1 (e.stream (updIns (u.prog.getD (u.lane i.val elem.toNat).pc 0)).st elem.toNat).2.1 = false)) ∧
    (∃ (p : Part) (i : Fin 16384) (elem : BitVec 40) (u : UpdSt) (e : UpdEnt) (s : State), s.LaneAt p.val i.val elem.toNat 2 u e) ∧
    (∃ (p : Part) (i : Fin 16384) (elem : BitVec 40) (u : UpdSt) (e : UpdEnt) (s : State), s.LaneAt p.val i.val elem.toNat 3 u e) ∧
    (∃ (p : Part) (i : Fin 16384) (elem : BitVec 40) (u : UpdSt) (e : UpdEnt) (s : State), s.LaneAt p.val i.val elem.toNat 4 u e) ∧
    (∃ (p : Part) (i : Fin 16384) (elem : BitVec 40) (u : UpdSt) (e : UpdEnt) (s : State), s.LaneAt p.val i.val elem.toNat 5 u e) ∧
    (∃ (p : Part) (i : Fin 16384) (elem : BitVec 40) (u : UpdSt) (e : UpdEnt) (s : State), s.LaneAt p.val i.val elem.toNat 6 u e) ∧
    (∃ (p : Part) (i : Fin 16384) (elem : BitVec 40) (u : UpdSt) (e : UpdEnt) (s : State), s.LaneAt p.val i.val elem.toNat 7 u e) ∧
    (∃ (p : Part) (i : Fin 16384) (elem : BitVec 40) (u : UpdSt) (e : UpdEnt) (s : State), s.LaneAt p.val i.val elem.toNat 8 u e) ∧
    (∃ (p : Part) (i : Fin 16384) (elem : BitVec 40) (u : UpdSt) (e : UpdEnt) (s : State), s.LaneAt p.val i.val elem.toNat 9 u e) ∧
    (∃ (p : Part) (i : Fin 16384) (elem : BitVec 40) (u : UpdSt) (e : UpdEnt) (s : State), s.LaneAt p.val i.val elem.toNat 10 u e) ∧
    (∃ (p : Part) (i : Fin 16384) (elem : BitVec 40) (u : UpdSt) (e : UpdEnt) (s : State), s.LaneAt p.val i.val elem.toNat 11 u e) ∧
    (∃ (p : Part) (i : Fin 16384) (elem : BitVec 40) (u : UpdSt) (e : UpdEnt) (s : State), s.LaneAt p.val i.val elem.toNat 12 u e) ∧
    (∃ (p : Part) (i : Fin 16384) (elem : BitVec 40) (u : UpdSt) (e : UpdEnt) (s : State), s.LaneAt p.val i.val elem.toNat 13 u e) :=
  ⟨⟨0, 0, 0, (us 3 [ins 0 0 0 0 0 0]), ue, (wu (us 3 [ins 0 0 0 0 0 0])), by unfold State.LaneAt; decide +kernel⟩,
   ⟨0, 0, 0, (us 3 [ins 1 4 0 0 0 1]), ue, (wu (us 3 [ins 1 4 0 0 0 1])), by unfold State.LaneAt; decide +kernel⟩,
   ⟨0, 0, 0, (us 3 [ins 2 0 1 0 0 1]), ue, (wu (us 3 [ins 2 0 1 0 0 1])), by unfold State.LaneAt; decide +kernel⟩,
   ⟨0, 0, 0, (us 3 [ins 3 4 1 2 0 0]), ue, (wu (us 3 [ins 3 4 1 2 0 0])), by unfold State.LaneAt; decide +kernel⟩,
   ⟨0, 0, 0, (us 3 [ins 4 4 1 2 0 0]), ue, (wu (us 3 [ins 4 4 1 2 0 0])), by unfold State.LaneAt; decide +kernel⟩,
   ⟨0, 0, 0, (us 3 [ins 5 4 1 2 0 0]), ue, (wu (us 3 [ins 5 4 1 2 0 0])), by unfold State.LaneAt; decide +kernel⟩,
   ⟨0, 0, 0, (us 3 [ins 6 4 1 2 3 0]), ue, (wu (us 3 [ins 6 4 1 2 3 0])), by unfold State.LaneAt; decide +kernel⟩,
   ⟨0, 0, 0, (us 3 [ins 7 4 1 2 0 0]), ue, (wu (us 3 [ins 7 4 1 2 0 0])), by unfold State.LaneAt; decide +kernel⟩,
   ⟨0, 0, 0, (us 3 [ins 8 4 1 0 0 0]), ue, (wu (us 3 [ins 8 4 1 0 0 0])), by unfold State.LaneAt; decide +kernel⟩,
   ⟨0, 0, 0, (us 3 [ins 9 4 1 0 0 0]), ue, (wu (us 3 [ins 9 4 1 0 0 0])), by unfold State.LaneAt; decide +kernel⟩,
   ⟨0, 0, 0, (us 3 [ins 10 4 1 2 0 0]), ue, (wu (us 3 [ins 10 4 1 2 0 0])), by unfold State.LaneAt; decide +kernel⟩,
   ⟨0, 0, 0, (us 3 [ins 11 4 1 2 0 0]), ue, (wu (us 3 [ins 11 4 1 2 0 0])), by unfold State.LaneAt; decide +kernel⟩,
   ⟨0, 0, 0, (us 3 [ins 12 4 1 2 3 0]), ue, (wu (us 3 [ins 12 4 1 2 3 0])), by unfold State.LaneAt; decide +kernel⟩,
   ⟨0, 0, 0, (us 3 [ins 13 4 1 0 0 0]), ue, (wu (us 3 [ins 13 4 1 0 0 0])), by unfold State.LaneAt; decide +kernel⟩⟩
/-- For `Obligations.UpdatesTakeGradientsAndNorms`. -/
theorem witness_updatesTakeGradientsAndNorms :
    (∃ (x : Post) (j : Job) (p : Part) (a : BitVec 48) (data : List (Byte × Bool)) (u : UpdSt) (t0 : State) (s : State), s.coll.queues = [] ∧
    s.Passes x [lowMask 49, lowMask 29, lowMask 48, lowMask 14, lowMask 54, lowMask 48] j ∧ (∃ y, s.updOf j.part = some y ∧ y.live = true) ∧ s.upd =
    [(p.val, some u)] ∧ u.live = true ∧ u.twice = none ∧ s.jobRuns p.val = true ∧ a.toNat % 512 = 0 ∧ data.length = 512 ∧ u.ents.any (UpdEnt.hasLine
    (a.toNat / 512)) = true ∧ u.seen.contains (a.toNat / 512) = true ∧ (∀ q < 8, ∀ (v : UpdSt), t0.updOf q = some v → v.live = true → v.twice =
    none) ∧ s.updOf p.val = some u ∧ u.stage = 1 ∧ (∀ e ∈ u.ents, ∀ k < e.lines.2, u.seen.contains (e.lines.1 + k) = true) ∧ (∀ e ∈ u.ents,
    s.mapPoison e = false ∧ (e.wnorm = true → s.poisoned e.master (e.elems * 6) = false))) ∧
    (∃ (x : Post) (j : Job) (s : State), s.coll.queues = [] ∧ s.Passes x [lowMask 49, lowMask 29, lowMask 48, lowMask 14, lowMask 54, lowMask 48] j
    ∧ (∀ (y : UpdSt), s.updOf j.part = some y → y.live = false) ∧ s.updRanges j.part x.p ∧ s.updGood j.part (fieldOf x.p.w2 16 13) (s.updRead x.p)) ∧
    (∃ (p : Part) (u : UpdSt) (c : Coll) (peers : List NormPeer) (s : State), s.coll.queues = [] ∧ s.updOf p.val = some u ∧ u.stage = 2 ∧ s.jobRuns
    p.val = true ∧ s.internal p.val u.name = some c ∧ c.credit = true ∧ c.st ≠ CollStage.closing ∧ peers.length + 1 = (s.groupEnt p.val 0).n ∧ (∀ m
    ∈ peers, u.agrees m = true ∧ m.ln.length = 2 * u.nlayers) ∧ (∀ k < 2 * u.nlayers, ∀ y ∈ normColumn u.own peers k, y.2 = false) ∧ u.nfskip =
    false) ∧
    (∃ (p : Part) (a : BitVec 48) (data : List (Byte × Bool)) (u : UpdSt) (s : State), s.coll.queues = [] ∧ s.upd = [(p.val, some u)] ∧ u.live =
    true ∧ u.twice = none ∧ s.jobRuns p.val = true ∧ a.toNat % 512 = 0 ∧ data.length = 512 ∧ u.ents.any (UpdEnt.hasLine (a.toNat / 512)) = true ∧
    u.seen.contains (a.toNat / 512) = false ∧ (List.filter (fun e => UpdEnt.hasLine (a.toNat / 512) e.1) u.ents.zipIdx).length = 1) :=
  ⟨⟨upost, job0, 0, (BitVec.ofNat 48 (SB + 0x1000)), gl, u2, z, (tabs.setUpd 0 u2), by unfold State.Passes State.Serving; decide +kernel⟩,
   ⟨upost, job0, tabs, by unfold State.Passes State.updRanges State.updGood State.Serving; decide +kernel⟩,
   ⟨0, u3, (cI 0 5 7), [np], (grp (wcI (cI 0 5 7) (wu u3))), by decide +kernel⟩,
   ⟨0, (BitVec.ofNat 48 (SB + 0x1000)), gl, (us 1 []), (tabs.setUpd 0 (us 1 [])), by decide +kernel⟩⟩
/-- For `Obligations.UpdatesReturnTheWeights`. -/
theorem witness_updatesReturnTheWeights :
    (∃ (p : Part) (layer : Fin 4096) (u : UpdSt) (e : UpdEnt) (s : State), s.updOf p.val = some u ∧ u.stage = 3 ∧ s.jobRuns p.val = true ∧ e ∈
    u.layerEnts layer.val ∧ (fun k => Tab.get 0 u.progress k) layer.val = 0 ∧ (∀ l ∈ u.layers, l < layer.val → (fun k => Tab.get 0 u.progress k) l ≠
    0) ∧ (∀ z ∈ u.layerEnts layer.val, s.poisoned z.master (z.elems * 6) = false) ∧ (u.skipped = true ∨ ∀ z ∈ u.ents.zipIdx, z.1.layer = layer.val →
    ∀ k < z.1.elems, s.trained z.1 k = true → u.prog.length ≤ (u.lane z.2 k).pc)) ∧
    (∃ (p : Part) (layer : Fin 4096) (u : UpdSt) (e : UpdEnt) (s : State), s.updOf p.val = some u ∧ u.stage = 3 ∧ s.jobRuns p.val = true ∧ e ∈
    u.layerEnts layer.val ∧ (fun k => Tab.get 0 u.progress k) layer.val = 2 ∧ (∀ l ∈ u.layers, l < layer.val → 3 ≤ (fun k => Tab.get 0 u.progress k)
    l) ∧ ((s.trn' p.val).shard layer.val).claimable u.step (s.batchRefs p.val u.step) = true) ∧
    (∃ (p : Part) (layer : Fin 4096) (u : UpdSt) (e : UpdEnt) (y : UpdTens) (w : PendCmd) (s : State), s.updOf p.val = some u ∧ u.stage = 3 ∧
    s.jobRuns p.val = true ∧ e ∈ u.layerEnts layer.val ∧ (fun k => Tab.get 0 u.progress k) layer.val = 3 ∧ u.layerEnts layer.val = [e] ∧ e.tens =
    [y] ∧ (∀ l ∈ u.layers, l < layer.val → (fun k => Tab.get 0 u.progress k) l = 4) ∧ (((s.trn' p.val).shard layer.val).slot u.step).step = u.step ∧
    (((s.trn' p.val).shard layer.val).slot u.step).st = 1 ∧ s.poisoned e.master (e.elems * 6) = false ∧ s.reach (some p.val) (s.slotBase p.val
    u.step + y.out) y.elems true = Reach.ok ∧ s.reach (some p.val) (s.slotBase p.val u.step + y.scale) 4 true = Reach.ok ∧ (s.slotBase p.val u.step
    + y.scale + 4 ≤ s.slotBase p.val u.step + y.out ∨ s.slotBase p.val u.step + y.out + y.elems ≤ s.slotBase p.val u.step + y.scale) ∧ Tab.get 0
    u.scale (layer.val * 16 + y.tid) < 2 ^ 32 ∧ (∀ l ∈ u.layers, l ≠ layer.val → (fun k => Tab.get 0 u.progress k) l = 4) ∧ s.OneWaits p.val
    PendKind.update w) ∧
    (∃ (p : Part) (layer : Fin 4096) (u : UpdSt) (peers : List (BitVec 32)) (e : UpdEnt) (c : Coll) (s : State), s.updOf p.val = some u ∧ u.stage =
    3 ∧ s.jobRuns p.val = true ∧ e ∈ u.layerEnts layer.val ∧ (fun k => Tab.get 0 u.progress k) layer.val = 1 ∧ (u.layerEnts layer.val).head? = some
    e ∧ s.collAt p.val e.ggroup e.aseq = some c ∧ c.internal = true ∧ c.credit = true ∧ c.st ≠ CollStage.closing ∧ peers.length + 16 = 16 *
    (s.groupEnt p.val e.ggroup).n ∧ (∀ z ∈ List.flatMap (fun x => x.tens) (u.layerEnts layer.val), (Fmt.fp32.decode ((fun k => extremum Fmt.fp32
    true (Tab.get 0 u.amax (layer.val * 16 + k) :: List.map (fun m => (peers.getD (16 * m + k) 0).toNat) (List.range (peers.length / 16))))
    z.tid)).isNan = false ∧ (Fmt.fp32.decode ((fun k => extremum Fmt.fp32 true (Tab.get 0 u.amax (layer.val * 16 + k) :: List.map (fun m =>
    (peers.getD (16 * m + k) 0).toNat) (List.range (peers.length / 16)))) z.tid)).isInf = false) ∧ (∀ z ∈ List.flatMap (fun x => x.tens)
    (u.layerEnts layer.val), ∀ z' ∈ List.flatMap (fun x => x.tens) (u.layerEnts layer.val), z.tid = z'.tid → z.ofmt = z'.ofmt)) :=
  ⟨⟨0, ⟨0, by decide⟩, u4, ue, (rs sh3 u4), by decide +kernel⟩,
   ⟨0, ⟨0, by decide⟩, u6, ue, (rs sh0 u6), by decide +kernel⟩,
   ⟨0, ⟨0, by decide⟩, u7, ue, ut, pcU, (rs sh3 u7), by unfold State.OneWaits; decide +kernel⟩,
   ⟨0, ⟨0, by decide⟩, u5, ((List.range 16).map (fun i => if i = 0 then 0x40000000 else 0)), ue, (cI 0 11 3), (grp (wcI (cI 0 11 3) (rs sh3 u5))),
   by decide +kernel⟩⟩
end Updates

/-! ## Witnesses: Slow -/
namespace Slow
def Q : BitVec 32 := BitVec.ofNat 32 tk0
def od : Obj := { o0 with kind := .data, bytes := 64, data := [(1, 5), (9, 7)] }
def dw (k : PendKind) : PendCmd := ⟨0, 0, 0, 77, 0x90, 7, k⟩
def wq (k : PendKind) (s : State) : State := { s with host := { s.host with waiting := [dw k] } }
def ou (h : Option Nat) : Obj := { od with sealedO := false, data := [], source := 0x7000, srcHost := h }
def hm : State := ({ svc with host := { svc.host with mem0 := [(0x7001, 3), (0x7008, 4)] } }).store 0x7000 [9, 9]
def gk (h : Bool) : PendKind := .objGet tk0 1 9 h 0x7000
def pk0 : Park := ⟨[1], 1, 9, 0xffff, 0, 1, 3, 0, true, false, false⟩
def raw (n : Nat) : BitVec 288 := BitVec.ofNat 288 n
def bl (s : State) : State := { s with blks := [(2 * 2^19 + 7, ⟨3, 0, 99, false, true⟩), (2 * 2^19 + 8, ⟨1, 0, 0, false, false⟩)] }
/-- For `Obligations.ObjectsArePutReadAndDeleted`. -/
theorem witness_objectsArePutReadAndDeleted :
    (∃ (x : Post) (j : Job) (o : Obj) (s : State), s.Passes x [lowMask 32, -1, lowMask 40] j ∧ BitVec.toNat x.p.w3 = 0 ∧ s.Passes x [lowMask 33,
    lowMask 40, lowMask 40, -1] j ∧ s.objFor j.part (fieldOf x.p.w1 0 32) = some o ∧ BitVec.toNat x.p.w2 + BitVec.toNat x.p.w3 ≤ o.bytes ∧ (fieldOf
    x.p.w1 32 1 = 0 ∨ BitVec.toNat x.p.w3 = 0 ∨ s.reach (some j.part) (BitVec.toNat x.p.w4) (BitVec.toNat x.p.w3) true = Reach.ok) ∧ s.Passes x
    [lowMask 32] j ∧ s.host.waiting = []) ∧
    (∃ (x : Post) (j : Job) (i : ℕ) (s : State), s.Passes x [lowMask 32, -1, lowMask 40] j ∧ fieldOf x.p.w1 0 1 = 0 ∧ fieldOf x.p.w1 2 6 = 0 ∧
    BitVec.toNat x.p.w3 ≠ 0 ∧ s.flashRoom j.part (BitVec.toNat x.p.w3) = true ∧ s.freeIndex = some i ∧ s.Passes x [lowMask 33, lowMask 40, lowMask
    40, -1] j ∧ (s.objFor j.part (fieldOf x.p.w1 0 32) = none ∨ ∃ y, s.objFor j.part (fieldOf x.p.w1 0 32) = some y ∧ y.bytes < BitVec.toNat x.p.w2
    + BitVec.toNat x.p.w3)) ∧
    (∃ (j : Job) (q : BitVec 32) (o : Obj) (c : PendCmd) (off : ℕ) (n : ℕ) (a : ℕ) (s : State), s.obj q.toNat = some o ∧ s.host.waiting = [c] ∧
    c.kind = PendKind.objGet q.toNat off n true a ∧ s.job c.job = some j ∧ j.orphaned = false ∧ j.toRing0 = false ∧ o.poison = []) ∧
    (∃ (j : Job) (q : BitVec 32) (o : Obj) (c : PendCmd) (off : ℕ) (n : ℕ) (a : ℕ) (s : State), s.obj q.toNat = some o ∧ s.host.waiting = [c] ∧
    c.kind = PendKind.objGet q.toNat off n false a ∧ s.job c.job = some j ∧ j.orphaned = false ∧ j.toRing0 = false ∧ s.offAt a n = none) ∧
    (∃ (x : Post) (j : Job) (o : Obj) (s : State), s.Passes x [lowMask 32] j ∧ s.objFor j.part (fieldOf x.p.w1 0 32) = some o ∧ (∃ y ∈
    s.host.waiting, PendKind.readsObj (fieldOf x.p.w1 0 32) y.kind = true)) ∧
    (∃ (j : Job) (q : BitVec 32) (o : Obj) (c : PendCmd) (s : State), s.obj q.toNat = some o ∧ o.sealedO = false ∧ s.programsPaused o.part = false ∧
    s.host.waiting = [c] ∧ c.kind = PendKind.objPut q.toNat ∧ s.job c.job = some j ∧ j.orphaned = false ∧ j.toRing0 = false ∧ (o.srcHost = none →
    s.offAt o.source o.bytes = none)) ∧
    (∃ (q : BitVec 32) (o : Obj) (s : State), ((o.expiry).any fun e => decide ((s.obj q.toNat = some o) ∧ (e ≤ s.now) ∧ (o.kind ≠ ObjKind.park) ∧
    (s.host.waiting = []))) = true) :=
  ⟨⟨(post (BitVec.ofNat 64 tk0) 0 0 0 0 0), job0, od, (ob 2 od svc),
   by unfold State.Passes State.Serving; ((repeat' apply And.intro) <;> first | decide +kernel | (unfold State.flashRoom halfFlash; cases Config.isL32 <;> decide +kernel) | rfl)⟩,
   ⟨(post 0 0x7000 64 0 0 0), job0, 3, (ob 2 od svc),
   by unfold State.Passes State.Serving; ((repeat' apply And.intro) <;> first | decide +kernel | (unfold State.flashRoom halfFlash; cases Config.isL32 <;> decide +kernel) | rfl)⟩,
   ⟨job0, Q, od, (dw (gk true)), 1, 9, 0x7000, (wq (gk true) (ob 2 od svc)),
   by ((repeat' apply And.intro) <;> first | decide +kernel | (unfold State.flashRoom halfFlash; cases Config.isL32 <;> decide +kernel) | rfl)⟩,
   ⟨job0, Q, od, (dw (gk false)), 1, 9, 0x7000, (wq (gk false) (ob 2 od svc)),
   by ((repeat' apply And.intro) <;> first | decide +kernel | (unfold State.flashRoom halfFlash; cases Config.isL32 <;> decide +kernel) | rfl)⟩,
   ⟨(post (BitVec.ofNat 64 tk0) 0 0 0 0 0), job0, od, (wq (gk true) (ob 2 od svc)),
   by unfold State.Passes State.Serving; ((repeat' apply And.intro) <;> first | decide +kernel | (unfold State.flashRoom halfFlash; cases Config.isL32 <;> decide +kernel) | rfl)⟩,
   ⟨job0, Q, (ou none), (dw (.objPut tk0)), (wq (.objPut tk0) (ob 2 (ou none) hm)),
   by ((repeat' apply And.intro) <;> first | decide +kernel | (unfold State.flashRoom halfFlash; cases Config.isL32 <;> decide +kernel) | rfl)⟩,
   ⟨Q, { od with expiry := some 0 }, (ob 2 { od with expiry := some 0 } svc),
   by ((repeat' apply And.intro) <;> first | decide +kernel | (unfold State.flashRoom halfFlash; cases Config.isL32 <;> decide +kernel) | rfl)⟩⟩
/-- For `Obligations.FlashAndLiftLinks`. -/
theorem witness_flashAndLiftLinks :
    (∃ (m : Fin 4) (raw : BitVec 288) (s : State), (lcDecode (lcSyms raw)).2 ≠ 3 ∧ s.rd (R.NOL.MEM_STAT.OFFLINE m.val) = 0 ∧ (∀ p ∈ s.nolParts
    m.val, s.jobOf p = none)) ∧
    (∃ (m : Fin 4) (b : BitVec 19) (d : BitVec 19) (why : MoveWhy) (held : List (BitVec 32)) (raw : BitVec 288) (s : State), s.flashPaused m.val =
    false ∧ s.moveDue m.val b.toNat d.toNat why = true ∧ b ≠ d ∧ (s.blk m.val b.toNat).bad = false ∧ (s.blk m.val d.toNat).free = true ∧ (why =
    MoveWhy.disturb ∨ held = [] ∨ ∃ h ∈ held, s.expiresSoon h.toNat = false) ∧ (lcDecode (lcSyms raw)).2 = 3) ∧
    (∃ (q : BitVec 32) (k : Park) (o : Obj) (s : State), s.parkRec q.toNat = some k ∧ s.obj q.toNat = some o ∧ k.dram = true ∧ k.held = false ∧
    k.lost = false ∧ (∀ e ∈ s.roll.parks, ∀ (y : Park), e.2 = some y → k.at_ ≤ y.at_) ∧ s.programsPaused o.part = false ∧ s.flashRoom o.part o.bytes
    = true ∧ k.at_ + s.rd (R.NOL.PARK_CFG.DEMOTE_S ((s.halves o.part).headD 0 / 2)) * 32768 ≤ s.now) :=
  ⟨⟨2, (raw 1), (bl mod0),
   by ((repeat' apply And.intro) <;> first | decide +kernel | (unfold State.flashRoom halfFlash; cases Config.isL32 <;> decide +kernel) | rfl)⟩,
   ⟨2, 7, 8, .disturb, [3], (raw 0x101), (bl (svc.wr (R.NOL.FL_POLICY.DISTURB_K 2) 0)),
   by ((repeat' apply And.intro) <;> first | decide +kernel | (unfold State.flashRoom halfFlash; cases Config.isL32 <;> decide +kernel) | rfl)⟩,
   ⟨Q, pk0, o0, (ob 2 o0 { svc.wr (R.NOL.PARK_CFG.DEMOTE_S 0) 0 with roll := { svc.roll with parks := [(2, some pk0)] } }),
   by ((repeat' apply And.intro) <;> first | decide +kernel | (unfold State.flashRoom halfFlash; cases Config.isL32 <;> decide +kernel) | rfl)⟩⟩
end Slow

/-! ## Witnesses: Jobs -/
namespace Jobs
def bytes8 (n : Nat) : List (Nat) := (List.range 8).map (fun i => n / 256^i % 256)
def hwords (s : State) (a : Nat) (l : List Nat) : State := { s with host := { s.host with mem0 := s.host.mem0 |> fun m => ((l.zip (List.range l.length)).foldl (fun m e => ((bytes8 e.1).zip (List.range 8)).foldl (fun m b => Tab.set 0 m (a + 8 * e.2 + b.2) (BitVec.ofNat 8 b.1)) m) m) } }
def nj (s : State) : State := { s with host := { s.host with jobs := [] } }
def desc (s : State) (w0 : Nat) : State := hwords (hwords (hwords (hwords s 0x10000 [w0, 0x1111, 0x2222, 0, 0, 0x11000, 0, 0x12000, 0, 5 + 3 * 4096, 0, 0]) 0x11000 [0, 100, 0x13000, 0]) 0x12000 [0x5000, 8, 0x6000, 0]) 0x13000 [s.moduleId]
def pj (w1 : Nat) : Post := ⟨0, 0, 0, 7, ⟨77, BitVec.ofNat 64 w1, 0, 0, 0, 0, 0, 0⟩⟩
def pj2 (fn : Fin 9) (w1 w2 : Nat) : Post := ⟨0, fn, 0, 7, ⟨77, BitVec.ofNat 64 w1, BitVec.ofNat 64 w2, 0, 0, 0, 0, 0⟩⟩
def c0 : Cpl := ⟨55, 0, 0xa2, 7, 0⟩
def idle (j : Job) (s : State) : State := { s with host := { s.host with jobs := [j] } }
def je : Job := { job0 with ending := some c0, endRing := 0 }
/-- For `Obligations.JobsStartAndEnd`. -/
theorem witness_jobsStartAndEnd :
    (∃ (x : Post) (j : Job) (s : State), s.Takes x [] ∧ s.LiveJob x.job.toNat j ∧ (j.ownedBy ↑x.port ↑x.fn = true ∨ x.fn = 0) ∧ j.ownedBy ↑x.port
    ↑x.fn = true ∧ s.jobBusy j = false ∧ (j.keySlot).isSome = true ∧ s.Takes x [1, -1] ∧ s.job x.job.toNat = some j ∧ j.ending = none ∧ j.reset =
    false ∧ s.mayTake j (↑x.port) (↑x.fn) (fieldOf x.p.w1 0 1 == 1) = false ∧ j.toRing0 = false) ∧
    (∃ (x : Post) (j : Job) (s : State), s.Takes x [] ∧ s.LiveJob x.job.toNat j ∧ j.ownedBy ↑x.port ↑x.fn = true ∧ s.jobBusy j = true) ∧
    (∃ (x : Post) (r : ℕ) (s : State), s.Takes x [-1] ∧ s.job x.job.toNat = none ∧ s.DescOk (↑x.port) (↑x.fn) x.job.toNat (s.jobDesc (↑x.port)
    (BitVec.toNat x.p.w1)) r ∧ (s.jobDesc (↑x.port) (BitVec.toNat x.p.w1)).nset = 0) ∧
    (∃ (x : Post) (s : State), s.Takes x [-1] ∧ s.job x.job.toNat = none ∧ s.fnPart ↑x.fn ≠ some (s.jobDesc (↑x.port) (BitVec.toNat x.p.w1)).part) ∧
    (∃ (j : Job) (p : Part) (r : ℕ) (c : Cpl) (s : State), s.jobOf p.val = some j ∧ j.ending = some c ∧ j.held = [] ∧ j.toRing0 = false ∧
    s.partRegion p.val = some r) ∧
    (∃ (x : Post) (j : Job) (s : State), s.Takes x [] ∧ s.LiveJob x.job.toNat j ∧ j.ownedBy ↑x.port ↑x.fn = false ∧ x.fn ≠ 0) ∧
    (∃ (x : Post) (j : Job) (s : State), s.Takes x [1, -1] ∧ s.job x.job.toNat = some j ∧ j.ending = none ∧ j.reset = false ∧ s.mayTake j (↑x.port)
    (↑x.fn) (fieldOf x.p.w1 0 1 == 1) = true ∧ (∀ i < 64, s.sring j.part i ≠ none → s.streamDef (↑x.port) (BitVec.toNat x.p.w2) i ≠ none) ∧ j.held =
    []) :=
  ⟨⟨(pj 0), job0, svc, by unfold State.Takes State.LiveJob State.Serving; decide +kernel⟩,
   ⟨(pj 0), job0, (wc cx), by unfold State.Takes State.LiveJob State.Serving; decide +kernel⟩,
   ⟨(pj 0x10000), 0, (desc (nj svc) 7), by unfold State.Takes State.DescOk State.Serving; decide +kernel⟩,
   ⟨(pj 0x10000), (desc (nj svc) (7 + 65536)), by unfold State.Takes State.Serving; decide +kernel⟩,
   ⟨je, 0, 0, c0, (((idle je svc).store (2^28) [5]).store (winAddr 5 16) [7]), by decide +kernel⟩,
   ⟨(pj2 1 0 0), { job0 with port := 1 }, (idle { job0 with port := 1 } svc), by unfold State.Takes State.LiveJob State.Serving; decide +kernel⟩,
   ⟨(pj2 0 1 0x12000), job0, (hwords { svc with roll := { svc.roll with rings := [] } } 0x12000 [0x5000, 8, 0x6000, 0]),
   by unfold State.Takes State.Serving; decide +kernel⟩⟩
end Jobs

/-! ## Witnesses: HostSide -/
namespace HostSide
def bytes8 (n : Nat) : List (Nat) := (List.range 8).map (fun i => n / 256^i % 256)
def hwords (s : State) (a : Nat) (l : List Nat) : State := { s with host := { s.host with mem0 := ((l.zip (List.range l.length)).foldl (fun m e => ((bytes8 e.1).zip (List.range 8)).foldl (fun m b => Tab.set 0 m (a + 8 * e.2 + b.2) (BitVec.ofNat 8 b.1)) m) s.host.mem0) } }
def m0 : Msix := ⟨3, true, true⟩
def ms (m : Msix) : State := { svc with host := { svc.host with msix := [(hostWin 0 0 * 73 + 5, m)] } }
def oj (j : Job) (s : State) : State := { s with host := { s.host with jobs := [j] } }
def jo : Job := { job0 with orphaned := true }



--3, false, true⟩ (ms ⟨3, true, false⟩)
def hd (op ph : Nat) : Nat := op * 256 + 7 * 65536 + ph * 2^63
def sj (op : Nat) : State := hwords svc 0x4000 [hd op 1, 77, 0x2222]
def ml : State := { svc with host := { svc.host with mail := [(hostWin 0 0, ⟨[(7, 0x80)], 0⟩)] } }
/-- For `Obligations.HostLinksAndResets`. -/
theorem witness_hostLinksAndResets :
    (∃ (port : Fin 2) (fn : Fin 9) (job : BitVec 16) (j : Job) (s : State), s.linkUp port.val = true ∧ s.job job.toNat = some j ∧ j.id ≠ 65535 ∧
    j.reset = false ∧ j.ending = none ∧ j.port = port.val ∧ j.fn = fn.val ∧ s.cfgReady port.val = false) ∧
    (∃ (port : Fin 2) (fn : Fin 9) (cfg : BitVec 12) (s : State), s.linkUp port.val = false ∧ (if port = 0 then s.host.perst0 else s.host.perst1) =
    false ∧ s.cfgReady port.val = true ∧ fn.val = 0 ∧ cfg.toNat / 4 = 0) ∧
    (∃ (job : BitVec 16) (j : Job) (s : State), s.job job.toNat = some j ∧ j.id ≠ 65535 ∧ j.orphaned = true ∧ j.reset = false ∧ j.ending = none) ∧
    (∃ (port : Fin 2) (fn : Fin 9) (s : State), s.cfgReady port.val = true ∧ fn.val ≠ 0 ∧ s.fnPart fn.val = none) :=
  ⟨⟨0, 0, 7, job0, svc, by decide +kernel⟩,
   ⟨1, 0, 0, { svc with host := { svc.host with cfgReady1 := true, perst1 := false, perst0 := false } }, by decide +kernel⟩,
   ⟨7, jo, (oj jo (ms m0)), by decide +kernel⟩,
   ⟨1, 3, { svc with host := { svc.host with cfgReady1 := true, perst1 := false, perst0 := false } }, by decide +kernel⟩⟩
/-- For `Obligations.HostAccessesActOrAreRefused`. -/
theorem witness_hostAccesses :
    (∃ (port : Fin 2) (fn : Fin 9) (ring : Fin 8) (off : BitVec 36) (o : BitVec 28) (n : ℕ) (data : List Byte) (s : State), s.ringPolled port.val
    fn.val ring.val = true ∧ (fieldOf ((fun k => s.hostW port.val ((fun k => s.rd (R.HOST.JR_BASE.BASE (hostWin port.val fn.val) ring.val) + k % 2 ^
    s.rd (R.HOST.JR_CFG.LOG2 (hostWin port.val fn.val) ring.val) * 128) k)) (s.ring (hostWin port.val fn.val) ring.val).consumed) 63 1 ≠ (fun k =>
    if k / 2 ^ s.rd (R.HOST.JR_CFG.LOG2 (hostWin port.val fn.val) ring.val) % 2 = 0 then 1 else 0) (s.ring (hostWin port.val fn.val)
    ring.val).consumed) ∧ ((fun k => BitVec.toNat (Tab.get 0 (Tab.get { inb := [], taken := 0 } s.host.mail (hostWin port.val fn.val)).inb (k % 128
    * 4096 + 7)) / 128) (Tab.get { inb := [], taken := 0 } s.host.mail (hostWin port.val fn.val)).taken = if (Tab.get { inb := [], taken := 0 }
    s.host.mail (hostWin port.val fn.val)).taken / 128 % 2 = 0 then 1 else 0) ∧ ((fun k => BitVec.toNat (Tab.get 0 (Tab.get
    { inb := [], taken := 0 } s.host.mail (hostWin port.val fn.val)).inb (k % 128 * 4096 + 7)) / 128) ((Tab.get { inb := [], taken := 0 }
    s.host.mail (hostWin port.val fn.val)).taken + 1) ≠ if ((Tab.get { inb := [], taken := 0 } s.host.mail (hostWin port.val fn.val)).taken + 1) /
    128 % 2 = 0 then 1 else 0) ∧ s.linkUp port.val = true ∧ s.Serving ∧ s.bar2Ok fn.val (s.rd (R.HOST.BAR2_BASE.BASE (hostWin port.val fn.val)) * 2
    ^ 30 + off.toNat) n = true ∧ s.bar2Ok fn.val (s.rd (R.HOST.BAR2_BASE.BASE (hostWin port.val fn.val)) * 2 ^ 30 + off.toNat) data.length = true ∧
    s.rd R.RAS.STAT.STATE = 0 ∧ o.toNat % 8 = 0 ∧ o.toNat / 4096 ≠ 2048 + hostWin port.val fn.val) ∧
    (∃ (port : Fin 2) (fn : Fin 9) (ring : Fin 8) (s : State), s.ringPolled port.val fn.val ring.val = true ∧ (fieldOf ((fun k => s.hostW port.val
    ((fun k => s.rd (R.HOST.JR_BASE.BASE (hostWin port.val fn.val) ring.val) + k % 2 ^ s.rd (R.HOST.JR_CFG.LOG2 (hostWin port.val fn.val) ring.val)
    * 128) k)) (s.ring (hostWin port.val fn.val) ring.val).consumed) 63 1 = (fun k => if k / 2 ^ s.rd (R.HOST.JR_CFG.LOG2 (hostWin port.val fn.val)
    ring.val) % 2 = 0 then 1 else 0) (s.ring (hostWin port.val fn.val) ring.val).consumed) ∧ 0 < s.freeSlots port.val (hostWin port.val fn.val)
    ring.val ∧ fieldOf ((fun k => s.hostW port.val ((fun k => s.rd (R.HOST.JR_BASE.BASE (hostWin port.val fn.val) ring.val) + k % 2 ^ s.rd
    (R.HOST.JR_CFG.LOG2 (hostWin port.val fn.val) ring.val) * 128) k)) (s.ring (hostWin port.val fn.val) ring.val).consumed) 8 8 ≠ 0 ∧ (∀ y ∈
    s.host.jobs, y.toRing0 = false) ∧ (fieldOf ((fun k => s.hostW port.val ((fun k => s.rd (R.HOST.JR_BASE.BASE (hostWin port.val fn.val) ring.val)
    + k % 2 ^ s.rd (R.HOST.JR_CFG.LOG2 (hostWin port.val fn.val) ring.val) * 128) k)) ((s.ring (hostWin port.val fn.val) ring.val).consumed + 1)) 63
    1 ≠ (fun k => if k / 2 ^ s.rd (R.HOST.JR_CFG.LOG2 (hostWin port.val fn.val) ring.val) % 2 = 0 then 1 else 0) ((s.ring (hostWin port.val fn.val)
    ring.val).consumed + 1)) ∧ ((fun k => s.rd (R.HOST.JR_BASE.BASE (hostWin port.val fn.val) ring.val) + k % 2 ^ s.rd (R.HOST.JR_CFG.LOG2 (hostWin
    port.val fn.val) ring.val) * 128) ((s.ring (hostWin port.val fn.val) ring.val).consumed + 1) + 8 ≤ s.rd (R.HOST.CR_BASE.BASE (hostWin port.val
    fn.val) ring.val) + (s.ring (hostWin port.val fn.val) ring.val).written % 2 ^ s.rd (R.HOST.JR_CFG.LOG2 (hostWin port.val fn.val) ring.val) * 32
    ∨ s.rd (R.HOST.CR_BASE.BASE (hostWin port.val fn.val) ring.val) + (s.ring (hostWin port.val fn.val) ring.val).written % 2 ^ s.rd
    (R.HOST.JR_CFG.LOG2 (hostWin port.val fn.val) ring.val) * 32 + 32 ≤ (fun k => s.rd (R.HOST.JR_BASE.BASE (hostWin port.val fn.val) ring.val) + k
    % 2 ^ s.rd (R.HOST.JR_CFG.LOG2 (hostWin port.val fn.val) ring.val) * 128) ((s.ring (hostWin port.val fn.val) ring.val).consumed + 1))) ∧
    (∃ (port : Fin 2) (fn : Fin 9) (off : BitVec 36) (n : ℕ) (s : State), s.linkUp port.val = true ∧ s.Serving ∧ s.bar2Ok fn.val (s.rd
    (R.HOST.BAR2_BASE.BASE (hostWin port.val fn.val)) * 2 ^ 30 + off.toNat) n = false) :=
  ⟨⟨0, 0, 0, 0, 0x100, 4, [1,2], ml, by unfold State.Serving; decide +kernel⟩,
   ⟨0, 0, 0, (sj 0x61), by decide +kernel⟩,
   ⟨0, 0, 0, 4, (ml.wrs [(R.HOST.BAR2_BASE.BASE (hostWin 0 0), 496), (R.HBM0.REGION.NLOG 0, 1)]), by unfold State.Serving; decide +kernel⟩⟩
end HostSide

/-! ## Witnesses: Security -/
namespace Security
def M0 : Path := .fn 0 0
def F1 : Path := .fn 0 1
def base : State := { svc with pwr := { svc.pwr with pwrgd := true, aux := true }, sec := { svc.sec with parts := [(0, ⟨true, 1, false⟩), (8, ⟨true, 2, false⟩)] } }
def ss (l : List Session) (s : State := base) : State := { s with sec := { s.sec with sessions := l, nextSession := 9 } }
def x0 (p : Path) (f : Bool) : Session := ⟨p, 4, f, 2⟩
def kb (k : BitVec 8) : KeyBody := ⟨k, 0, 12, 0, 0, 0, 3, true, true, [1, 2], 77⟩
def ke (k b : Nat) : KeyEnt := ⟨k, b, 0, 12, 5, 0, 0, 3, [1, 2], 77⟩
def wk (e : KeyEnt) (s : State) : State := { s with sec := { s.sec with keys := [(3, some e)] } }
def c0 : Cpl := ⟨55, 0, 0xa2, 7, 0⟩
def y0 : Post := ⟨0, 0, 0, 7, ⟨77, 0, 0, 0, 0, 0, 0, 0⟩⟩
def je : Job := { job0 with ending := some c0, endRing := 0 }
def idle (j : Job) (s : State) : State := { s with host := { s.host with jobs := [j] } }
def hb : State := { base.wrs [(R.HBM0.REGION.VALID 2, 1), (R.HBM0.REGION.STACKS 2, 2), (R.HBM0.REGION.NLOG 2, 1), (R.HBM0.REGION.BASE_GIB 2, 3), (R.SEC.HOUSE_CTL.IMAGE, 12), (R.BOOT.IMG.SVN, 9)] with
  sec := { base.sec with ownerKey := some 5, keys := [(3, some (ke 1 8))] }, dir := { base.dir with objs := [(2, some ⟨5, 8, .data, 64, none, true, false, [], [], 0, none, []⟩)], fresh := 3 } }
def Q : BitVec 32 := BitVec.ofNat 32 tk0
def L : List Byte := (List.range 512).map (BitVec.ofNat 8)
def A : BitVec 48 := BitVec.ofNat 48 0x2000
def hl : State := { hb.wr R.SEC.HOUSE_STAT.STATE 3 with sec := { hb.sec with houseLines := [0x2000] } }
/-- For `Obligations.SpdmAnswersItsRequests`. -/
theorem witness_spdmAnswersItsRequests :
    (∃ (path : Sys2Proof.Path) (off : ℕ) (slot : ℕ) (id : BitVec 32) (seq : BitVec 16) (last : Bool) (data : List Byte) (x : Session) (s : State),
    s.Manages path ∧ off ≤ s.chain.length ∧ slot ≠ 0 ∧ (if path = Path.oob then 2 else 1) ≤ (s.sessionsOf path).length ∧ s.InSession path id.toNat x
    true ∧ seq.toNat = ((List.find? (fun c => c.path == path) s.sec.chunks).getD { path := path, next := 0, data := [] }).next ∧ last = false) ∧
    (∃ (path : Sys2Proof.Path) (id : BitVec 32) (seq : BitVec 16) (data : List Byte) (s : State), s.Manages path ∧ ((s.sessionsOf path).length < if
    path = Path.oob then 2 else 1) ∧ s.sessionAt path id.toNat = none ∧ seq.toNat ≠ ((List.find? (fun c => c.path == path) s.sec.chunks).getD
    { path := path, next := 0, data := [] }).next) ∧
    (∃ (path : Sys2Proof.Path) (id : BitVec 32) (x : Session) (s : State), s.Manages path ∧ s.InSession path id.toNat x false) :=
  ⟨⟨M0, 0, 1, 4, 0, false, [1, 2], (x0 M0 true), (ss [x0 M0 true]), by unfold State.InSession State.Manages; decide +kernel⟩,
   ⟨F1, 4, 1, [1, 2], (ss [x0 .oob false]), by unfold State.Manages; decide +kernel⟩,
   ⟨M0, 4, (x0 M0 false), (ss [x0 M0 false]), by unfold State.InSession State.Manages; decide +kernel⟩⟩
/-- For `Obligations.KeyTableFillsAndClears`. -/
theorem witness_keyTableFillsAndClears :
    (∃ (path : Sys2Proof.Path) (id : BitVec 32) (kid : BitVec 32) (i : Fin 64) (kind : BitVec 8) (e : KeyEnt) (x : Session) (y : Post) (j : Job) (s
    : State), s.InSession path id.toNat x true ∧ (fun t n => Tab.get none t.sec.keys n) s i.val = some e ∧ e.kind = kind.toNat ∧ e.id = kid.toNat ∧
    keyBind path kind.toNat = some e.bind ∧ (∀ n < i.val, ∀ (y : KeyEnt), (fun t n => Tab.get none t.sec.keys n) s n = some y → y.kind = kind.toNat
    → y.id = kid.toNat → y.bind ≠ e.bind) ∧ e.notAfter ≠ 0 ∧ e.notAfter ≤ s.now ∧ s.pwr.pwrgd = true ∧ s.Takes y [] ∧ s.LiveJob y.job.toNat j ∧
    j.ownedBy ↑y.port ↑y.fn = true ∧ s.jobBusy j = false ∧ (j.keySlot).isSome = true) ∧
    (∃ (path : Sys2Proof.Path) (id : BitVec 32) (k : KeyBody) (i : Fin 64) (b : ℕ) (x : Session) (y : Post) (s : State), s.InSession path id.toNat x
    true ∧ keyBind path k.kind.toNat = some b ∧ b ≠ 15 ∧ s.keyPutOk k = true ∧ (fun t n => Tab.get none t.sec.keys n) s i.val = none ∧ (∀ n < i.val,
    (fun t n => Tab.get none t.sec.keys n) s n ≠ none) ∧ (∀ n < 64, ∀ (y : KeyEnt), (fun t n => Tab.get none t.sec.keys n) s n = some y → y.kind =
    k.kind.toNat → y.id = k.id.toNat → y.bind ≠ b)) ∧
    (∃ (path : Sys2Proof.Path) (id : BitVec 32) (k : KeyBody) (x : Session) (s : State), s.InSession path id.toNat x true ∧ s.keyPutOk k = false) ∧
    (∃ (p : Part) (j : Job) (c : Cpl) (s : State), s.jobOf p.val = some j ∧ j.ending = some c) :=
  ⟨⟨F1, 4, 12, 3, 2, (ke 2 0), (x0 F1 true), y0, job0, (wk (ke 2 0) ((ss [x0 F1 true]).wr R.CLK.CAL.TIME 100)),
   by unfold State.InSession State.Takes State.LiveJob State.Serving State.Manages; decide +kernel⟩,
   ⟨F1, 4, (kb 2), 0, 0, (x0 F1 true), y0, (ss [x0 F1 true]), by unfold State.InSession State.Manages; decide +kernel⟩,
   ⟨F1, 4, (kb 7), (x0 F1 true), (ss [x0 F1 true]), by unfold State.InSession State.Manages; decide +kernel⟩,
   ⟨0, je, c0, (idle je (wk (ke 2 0) ((ss [x0 F1 true]).wr R.CLK.CAL.TIME 100))), by decide +kernel⟩⟩
/-- For `Obligations.OwnershipAndHouse`. -/
theorem witness_ownershipAndHouse :
    (∃ (path : Sys2Proof.Path) (svn : BitVec 32) (slot : Fin 4) (handle : BitVec 32) (line : List Byte) (a : BitVec 48) (s : State), s.Manages path
    ∧ pathMaster path = true ∧ s.rd R.BOOT.CAL.OWNER = 0 ∧ s.sec.ownerKey ≠ none ∧ svn.toNat ≤ s.rd R.BOOT.IMG.SVN ∧ s.boot.svnMin ≤ svn.toNat ∧ (∀
    (y : ImageCopy), s.runningImg = some y → y.keySlot ≠ slot) ∧ s.rd R.SEC.HOUSE_CTL.READ = 0 ∧ s.houseRegion ≠ none ∧ s.objFor 8 handle.toNat ≠
    none ∧ s.houseKey ≠ none ∧ s.sec.houseLines.head? = some (a.toNat / 512 * 512) ∧ (RebuildSrc.peer = RebuildSrc.object ∧ s.objFor 8
    s.sec.houseObj ≠ none ∨ RebuildSrc.peer = RebuildSrc.peer) ∧ line.length = 512) ∧
    (∃ (path : Sys2Proof.Path) (s : State), s.Manages path ∧ pathMaster path = false) ∧
    (∃ (e : KeyEnt) (r : ℕ) (s : State), s.rd R.SEC.HOUSE_STAT.STATE = 1 ∧ s.houseRegion = some r ∧ s.houseKey = some e) :=
  ⟨⟨M0, 6, 2, Q, L, A, hl, by unfold State.Manages; decide +kernel⟩,
   ⟨F1, hb, by unfold State.Manages; decide +kernel⟩,
   ⟨(ke 1 8), 2, ((hb.wr R.SEC.HOUSE_STAT.STATE 1).store (3 * 2^30 + 7) [9]), by decide +kernel⟩⟩
end Security

/-! ## Witnesses: Errors -/
namespace Errors
def ra (h : List Nat) (f : Tab (Option Nat)) (s : State := svc) : State := { s with ras := { s.ras with cpHalted := h, cpFault := f }, sec := { s.sec with parts := [(0, ⟨true, 255, false⟩)] } }
def j2 : Job := { job0 with id := 8, part := 1 }
def two : State := { svc with host := { svc.host with jobs := [job0, j2] } }
/-- For `Obligations.ProcessorFaultsDumpsAndCounters`. -/
theorem witness_processorsFaultAndReload :
    (∃ (cp : Fin 18) (s : State), s.cpOut cp.val = false) ∧
    (∃ (cp : Fin 18) (s : State), cp.val ∈ s.ras.cpHalted ∧ s.rd R.RAS.STAT.CP_DOWN / 2 ^ cp.val % 2 = 0 ∧ s.cpLast (18 + cp.val) = none) ∧
    (∃ (cp : Fin 18) (x : ℕ) (y : ℕ) (s : State), cp.val ∈ s.ras.cpHalted ∧ s.rd R.RAS.STAT.CP_DOWN / 2 ^ cp.val % 2 = 0 ∧ s.cpLast cp.val = some x
    ∧ s.cpLast (18 + cp.val) = some y ∧ y + 3600000000 ≤ x) ∧
    (∃ (cp : Fin 18) (x : ℕ) (y : ℕ) (s : State), cp.val ∈ s.ras.cpHalted ∧ s.rd R.RAS.STAT.CP_DOWN / 2 ^ cp.val % 2 = 0 ∧ s.cpLast cp.val = some x
    ∧ s.cpLast (18 + cp.val) = some y ∧ x < y + 3600000000 ∧ cp.val < 16) ∧
    (∃ (cp : Fin 18) (x : ℕ) (y : ℕ) (s : State), cp.val ∈ s.ras.cpHalted ∧ s.rd R.RAS.STAT.CP_DOWN / 2 ^ cp.val % 2 = 0 ∧ s.cpLast cp.val = some x
    ∧ s.cpLast (18 + cp.val) = some y ∧ x < y + 3600000000 ∧ 16 ≤ cp.val) :=
  ⟨⟨3, (ra [] []), by decide +kernel⟩,
   ⟨3, (ra [3] []), by decide +kernel⟩,
   ⟨3, 3600000007, 7, (ra [3] [(3, some 3600000007), (21, some 7)]), by decide +kernel⟩,
   ⟨3, 3600000006, 7, (ra [3] [(3, some 3600000006), (21, some 7)]), by decide +kernel⟩,
   ⟨17, 3600000006, 7, (ra [17] [(17, some 3600000006), (35, some 7)]), by decide +kernel⟩⟩
/-- For `Obligations.ProcessorFaultsDumpsAndCounters`. -/
theorem witness_dumpsTelemetryAndCounters :
    (∃ (path : Sys2Proof.Path) (s : State), s.rd R.RAS.DUMP.STATE = 1 ∧ s.Manages path ∧ s.rd R.RAS.DUMP.STATE < 2 ∧ s.rd R.RAS.CTL.AUTO_RESET = 0 ∧
    s.pwr.pwrgd = true) ∧
    (∃ (path : Sys2Proof.Path) (s : State), s.rd R.RAS.DUMP.STATE ≠ 1 ∧ s.Manages path ∧ pathMaster path = true ∧ 2 ≤ s.rd R.RAS.DUMP.STATE ∧ s.rd
    R.RAS.STAT.STATE = 2 ∧ s.rd R.RAS.CTL.AUTO_RESET = 1) :=
  ⟨⟨(.fn 0 0), (svc.wr R.RAS.DUMP.STATE 1), by unfold State.Manages; decide +kernel⟩,
   ⟨(.fn 0 0), { (svc.wrs [(R.RAS.DUMP.STATE, 2), (R.RAS.STAT.STATE, 2), (R.RAS.CTL.AUTO_RESET, 1)]) with pwr := { svc.pwr with pwrgd := true } },
   by unfold State.Manages; decide +kernel⟩⟩
/-- For `Obligations.ContainedErrorsResetTheirScope`. -/
theorem witness_containedErrorsResetTheirScope :
    (∃ (part : ℕ) (job : ℕ) (s : State), (((s.job 7).any fun y => decide (((¬∃ z ∈ s.host.jobs, z.id = 7 ∧ (fun y => if job ≠ 65535 then y.id = job
    else 8 ≤ part ∨ y.part = part) z) ∨ y.reset = true))) = true) ∧ (((s.job 8).any fun y => decide ((∃ z ∈ s.host.jobs, z.id = 8 ∧ (fun y => if job
    ≠ 65535 then y.id = job else 8 ≤ part ∨ y.part = part) z) ∧ (y.reset = false))) = true) ∧ s.job 0 = none) ∧
    (∃ (part : ℕ) (job : ℕ) (s : State), (((s.job 7).any fun y => decide ((∃ z ∈ s.host.jobs, z.id = 7 ∧ (fun y => if job ≠ 65535 then y.id = job
    else 8 ≤ part ∨ y.part = part) z) ∧ (y.reset = false))) = true)) :=
  ⟨⟨0, 8, two, by decide +kernel⟩,
   ⟨8, 0xffff, two, by decide +kernel⟩⟩
end Errors

/-! ## Witnesses: Booting -/
namespace Booting
def bt (st : Nat) (s : State := svc) : State := { s.wr R.BOOT.STAT.STAGE st with pwr := { svc.pwr with pwrgd := true, aux := true } }
def img (f : ImgSlot → ImgSlot) (g : ImgSlot → ImgSlot) (s : State) : State := { s with boot := { s.boot with imgA := f s.boot.imgA, imgB := g s.boot.imgB } }
def pl (n : Nat) : ImgSlot := ⟨{ ImageCopy.plain with seq := BitVec.ofNat 32 n, svn := 3, fwVersion := 77, digest := 12345 }, 0, false⟩
def rcs (n c : Nat) (s : State) : State := { s with boot := { s.boot with fields := List.replicate n (some (s.fieldNow 1 c)) } }
def tr (s : State) : State := { bt 6 s with boot := { s.boot with trained := true, running := some false } }
def dk : State := let s := tr (svc.wrs [(R.FABG.ID.RACK, 3), (R.RAS.DUMP.STATE, 2), (R.CLK.UPTIME_US.US, 55)]); { s with nol := [(1, ⟨3, 4, some ⟨1, 2, 3, 4⟩⟩)], clk := { s.clk with life := [(3, 5), (51, 2)] }, ras := { s.ras with dump := [(1, 3)] } }
/-- For `Obligations.BootStagesRunInOrder`. -/
theorem witness_bootStagesRunInOrder :
    (∃ (n : ℕ) (s : State), s.BootsAt 3 ∧ s.calChoice = some n ∧ fieldOf ((s.cfg 256 0).getD 0) 0 1 = 0 ∧ s.pwr.rack = none) ∧
    (∃ (s : State), s.BootsAt 4 ∧ (coreMap s.boot.fields).moved = [] ∧ (coreMap s.boot.fields).off = []) ∧
    (∃ (s : State), s.BootsAt 1) ∧
    (∃ (c : Bool) (s : State), s.BootsAt 2 ∧ s.slotReason c = 0 ∧ ((s.slotReason !c) ≠ 0 ∨ s.considersFirst c)) ∧
    (∃ (s : State), s.BootsAt 5) ∧
    (∃ (n : ℕ) (r : ℕ) (s : State), s.BootsAt 3 ∧ s.calChoice = some n ∧ fieldOf ((s.cfg 256 0).getD 0) 0 1 = 0 ∧ s.pwr.rack = some r ∧ r < 1024 ∧
    s.boot.locked = false) ∧
    (∃ (s : State), s.BootsAt 2 ∧ s.slotReason false ≠ 0 ∧ s.slotReason true ≠ 0) ∧
    (∃ (s : State), s.BootsAt 6 ∧ s.boot.trained = false ∧ s.rd R.CLK.CAL_STAT.VALID = 0) ∧
    (∃ (s : State), s.BootsAt 3 ∧ s.calChoice = none) :=
  ⟨⟨0, (bt 3), by unfold State.BootsAt; decide +kernel⟩,
   ⟨(bt 4), by unfold State.BootsAt; decide +kernel⟩,
   ⟨(bt 1), by unfold State.BootsAt; decide +kernel⟩,
   ⟨false, (bt 2), by unfold State.BootsAt; decide +kernel⟩,
   ⟨(bt 5), by unfold State.BootsAt; decide +kernel⟩,
   ⟨0, 5, { bt 3 with pwr := { (bt 3).pwr with rack := some 5 } }, by unfold State.BootsAt; decide +kernel⟩,
   ⟨(img (fun _ => { pl 4 with tries := 3 }) (fun x => x) (bt 2)), by unfold State.BootsAt; decide +kernel⟩,
   ⟨(let s := bt 6; { s with boot := { s.boot with trained := false } }), by unfold State.BootsAt; decide +kernel⟩,
   ⟨(let s := bt 3; { s with boot := { s.boot with cal0 := ImageCopy.blank, cal1 := ImageCopy.blank } }), by unfold State.BootsAt; decide +kernel⟩⟩
/-- For `Obligations.ResetsUpdatesAndFieldRecords`. -/
theorem witness_resetsClearAndKeep :
    (∃ (c : Bool) (s : State), s.rd R.BOOT.STAT.STAGE = 6 ∧ s.boot.trained = true ∧ s.boot.running = some c ∧ s.rd (if c = true then
    R.BOOT.IMG_STAT.A_REASON else R.BOOT.IMG_STAT.B_REASON) = 0 ∧ s.rd R.BOOT.STAT.READY = 1 ∧ s.pwr.pwrgd = true) ∧
    (∃ (s : State), s.rd R.BOOT.STAT.READY = 0 ∧ s.rd R.BOOT.STAT.STAGE ≠ 14) ∧
    (∃ (c : Bool) (s : State), s.rd R.BOOT.STAT.STAGE = 6 ∧ s.boot.trained = true ∧ s.boot.running = some c ∧ s.rd (if c = true then
    R.BOOT.IMG_STAT.A_REASON else R.BOOT.IMG_STAT.B_REASON) ≠ 0) :=
  ⟨⟨false, dk, by decide +kernel⟩,
   ⟨((tr svc).wr R.BOOT.STAT.READY 0), by decide +kernel⟩,
   ⟨false, (tr (svc.wr R.BOOT.IMG_STAT.B_REASON 2)), by decide +kernel⟩⟩
/-- For `Obligations.ResetsUpdatesAndFieldRecords`. -/
theorem witness_updatesAndFieldRecords :
    (∃ (c : Bool) (s : State), s.boot.running = some c ∧ s.boot.fields.length < fieldSlots) ∧
    (∃ (s : State), fieldSlots ≤ s.boot.fields.length) :=
  ⟨⟨true, { svc with boot := { svc.boot with running := some true } }, by decide +kernel⟩,
   ⟨(rcs 16384 3 svc), by decide +kernel⟩⟩
end Booting

/-! ## Witnesses: Clocks -/
namespace Clocks
def on (s : State := svc) : State := { s with pwr := { svc.pwr with pwrgd := true, started := true, aux := true, rack := some 3, pwrEn := true, vin1 := true, vin2 := true } }
def cal (v : Nat) (now : Nat) (s : State := svc) : State := on (s.wrs [(R.CLK.CAL_STAT.VALID, v), (R.CLK.CAL.TIME, now)])
def cof (o : Int) (mg : Option Nat) (s : State) : State := { s.wr R.CLK.PTM_CFG.EN 1 with clk := { s.clk with offset := some o, mgmtAt := mg } }
/-- For `Obligations.PllsAndCalendar`. -/
theorem witness_pllsSlewAndLoseLock :
    (∃ (pll : Fin 21) (s : State), s.pllLocked pll.val = true ∧ pll.val < 4 ∧ s.pwr.pwrgd = true ∧ (s.rd R.PWR.STAT.STATE ≠ 1 ∨ standbyPlls / 2 ^
    pll.val % 2 = 0)) ∧
    (∃ (pll : Fin 21) (s : State), s.pllLocked pll.val = true ∧ 4 < pll.val ∧ pll.val ∉ [13, 14, 15, 20]) ∧
    (∃ (pll : Fin 21) (s : State), s.pllLocked pll.val = false) ∧
    (∃ (pll : Fin 21) (s : State), s.pllLocked pll.val = true ∧ (pll.val = 4 ∨ pll.val = 13 ∨ pll.val = 20)) ∧
    (∃ (pll : Fin 21) (s : State), s.pllLocked pll.val = true ∧ (pll.val = 14 ∨ pll.val = 15)) :=
  ⟨⟨1, (on), by decide +kernel⟩,
   ⟨17, (on), by decide +kernel⟩,
   ⟨7, (on (svc.wrs [(R.CLK.LOCK.PLL, 0)])), by decide +kernel⟩,
   ⟨4, (on (svc.wr (R.CLK.ACLK_CTL.CUR 1) 30)), by decide +kernel⟩,
   ⟨14, (on (svc.wrs [((R.CLK.ACLK_CTL.CUR 0), 20), (R.CLK.ACLK_CTL.TARGET 0, 20)])), by decide +kernel⟩⟩
/-- For `Obligations.PllsAndCalendar`. -/
theorem witness_calendarIsSet :
    (∃ (time : Word) (force : Bool) (port : Fin 2) (s : State), s.Manages Path.oob ∧ ¬((s.rd R.CLK.CAL_STAT.VALID = 1 ∧ s.ahead ↑(BitVec.toNat time)
    < -32768) ∧ force = false) ∧ s.rd R.CLK.CAL_STAT.VALID = 1 ∧ s.ahead ↑(BitVec.toNat time) < -32768 ∧ s.Manages (Path.fn port 0) ∧ s.pwr.aux =
    true) ∧
    (∃ (port : Fin 2) (o : ℤ) (m : Word) (s : State), s.clk.offset = some o ∧ s.rd R.CLK.PTM_CFG.EN = 1 ∧ port.val = s.ptmPort ∧ s.linkUp port.val =
    true ∧ s.clk.mgmtAt = none ∧ ¬(s.rd R.CLK.CAL_STAT.VALID = 1 ∧ s.ahead (↑(BitVec.toNat m) + o) < -32768)) ∧
    (∃ (port : Fin 2) (o : ℤ) (s : State), s.clk.offset = some o ∧ s.rd R.CLK.PTM_CFG.EN = 1 ∧ port.val = s.ptmPort ∧ s.linkUp port.val = true ∧
    s.clk.mgmtAt ≠ none) ∧
    (∃ (s : State), s.rd R.CLK.PTM_CFG.EN = 0) ∧
    (∃ (s : State), s.pwr.aux = false) :=
  ⟨⟨100000, true, 0, (cal 1 140000), by unfold State.Manages; decide +kernel⟩,
   ⟨0, 7, 100000, (cof 7 none (cal 1 10)), by decide +kernel⟩,
   ⟨0, 7, (cof 7 (some 3) (cal 1 10)), by decide +kernel⟩,
   ⟨((cal 0 140000).wr R.CLK.PTM_CFG.EN 0), by decide +kernel⟩,
   ⟨{ (cal 1 7) with pwr := { svc.pwr with aux := false } }, by decide +kernel⟩⟩
/-- For `Obligations.SupplyPinsAndPowerLoss`. -/
theorem witness_powerLossCommitsCounters :
    (∃ (s : State), s.pwr.started = true ∧ s.pwr.pwrgd = true ∧ s.clk.shutCommit = false) ∧
    (∃ (s : State), s.pwr.started = false) :=
  ⟨⟨svc, by decide +kernel⟩,
   ⟨{ svc with pwr := { svc.pwr with started := false } }, by decide +kernel⟩⟩
end Clocks

/-! ## Witnesses: Supply -/
namespace Supply
def on (s : State := svc) : State := { s with pwr := { s.pwr with pwrgd := true, started := true, aux := true, rack := some 3, pwrEn := true, vin1 := true, vin2 := true } }
def nj (s : State) : State := { s with host := { s.host with jobs := [] } }
def br (c st : Nat) : State := { on (svc.wr R.PWR.STAT.BRAKED 2) with pwr := { on.pwr with causes := [(1, c)], steps := [(1, st)], brakePin := true } }
def tm (d h s n : Nat) : Temps := ⟨List.replicate 4 (BitVec.ofNat 8 d), BitVec.ofNat 8 h, List.replicate 8 (BitVec.ofNat 8 s), List.replicate 4 (BitVec.ofNat 8 n), List.replicate 4 (BitVec.ofNat 8 50), List.replicate 4 (BitVec.ofNat 8 51)⟩
def off (a : Bool) : State := { svc with pwr := { svc.pwr with aux := a, started := false, pwrgd := false } }
/-- For `Obligations.InputPowerAndBrakes`. -/
theorem witness_inputPowerIsLimited :
    (∃ (watts : BitVec 16) (average : BitVec 16) (s : State), s.pwr.pwrgd = true ∧ 3500 < watts.toNat ∧ s.brakeOn 2 ∧ average.toNat + 100 < s.rd
    R.PWR.CTL.LIMIT_W ∧ s.host.jobs ≠ []) ∧
    (∃ (watts : BitVec 16) (mv : BitVec 16) (average : BitVec 16) (s : State), s.pwr.pwrgd = true ∧ watts.toNat ≤ 3500 ∧ 46000 ≤ mv.toNat ∧ s.rd
    R.PWR.CTL.LIMIT_W < average.toNat ∧ (∃ d < 4, s.target d ≠ 0) ∧ s.host.jobs = [] ∧ s.rd R.PWR.STAT.STATE = 0) ∧
    (∃ (watts : BitVec 16) (mv : BitVec 16) (s : State), s.pwr.pwrgd = true ∧ watts.toNat ≤ 3500 ∧ mv.toNat < 46000 ∧ s.pwr.lowSince = none) ∧
    (∃ (average : BitVec 16) (s : State), s.pwr.pwrgd = true ∧ average.toNat ≤ s.rd R.PWR.CTL.LIMIT_W ∧ s.rd R.PWR.CTL.LIMIT_W ≤ average.toNat +
    100) ∧
    (∃ (s : State), s.pwr.pwrgd = true ∧ s.rd R.PWR.STAT.STATE = 1) ∧
    (∃ (mv : BitVec 16) (t0 : ℕ) (s : State), s.pwr.pwrgd = true ∧ mv.toNat < 46000 ∧ s.pwr.lowSince = some t0 ∧ t0 + 1000 ≤ s.uptime ∧ s.brakeOn 2) :=
  ⟨⟨4000, 2000, on, by unfold State.brakeOn; decide +kernel⟩,
   ⟨3000, 47000, 60000, (on (nj (svc.wr (R.CLK.ACLK_CTL.TARGET 1) 50))), by decide +kernel⟩,
   ⟨3000, 45000, on, by decide +kernel⟩,
   ⟨10, (on (svc.wr R.PWR.CTL.LIMIT_W 50)), by decide +kernel⟩,
   ⟨(on (nj (svc.wr R.PWR.STAT.STATE 1))), by decide +kernel⟩,
   ⟨45000, 5, { on (svc.wr R.CLK.UPTIME_US.US 1005) with pwr := { on.pwr with lowSince := some 5 } }, by unfold State.brakeOn; decide +kernel⟩⟩
/-- For `Obligations.InputPowerAndBrakes`. -/
theorem witness_brakesHoldAndRelease :
    (∃ (mv : BitVec 8) (ns : ℕ) (s : State), s.pwr.pwrgd = true ∧ mv.toNat ≤ s.rd R.PWR.BRAKE_CFG.DROOP_MV ∧ ns < 20) ∧
    (∃ (mv : BitVec 8) (ns : ℕ) (s : State), s.pwr.pwrgd = true ∧ s.rd R.PWR.BRAKE_CFG.DROOP_MV < mv.toNat ∧ s.brakeOn 0 ∧ 50 ≤ ns ∧ s.brakeOn 1) ∧
    (∃ (die : Fin 4) (s : State), s.braked die.val = true ∧ s.causesOf die.val = 0 ∧ (fun t => Tab.get 0 t.pwr.steps die.val) s < 3) ∧
    (∃ (die : Fin 4) (s : State), s.braked die.val = true ∧ s.causesOf die.val = 0 ∧ (fun t => Tab.get 0 t.pwr.steps die.val) s = 3) ∧
    (∃ (die : Fin 4) (s : State), s.causesOf die.val ≠ 0) :=
  ⟨⟨0, 10, on, by decide +kernel⟩,
   ⟨255, 60, on, by unfold State.brakeOn; decide +kernel⟩,
   ⟨1, (br 0 0), by decide +kernel⟩,
   ⟨1, (br 0 3), by decide +kernel⟩,
   ⟨1, (br 2 0), by decide +kernel⟩⟩
/-- For `Obligations.TemperaturesThrottle`. -/
theorem witness_temperaturesThrottle :
    (∃ (x : Temps) (d : Fin 4) (k : Fin 8) (s : State), s.pwr.pwrgd = true ∧ critical x = none ∧ reading x.die d.val + 2 ≤ s.rd R.THM.CTL.DIE_HOT_C
    ∧ Tab.get 0 s.pwr.hotCut d.val = 0 ∧ s.rd (levelFld k.val) = 0 ∧ reading x.stack k.val < s.rd (thrFld k.val)) ∧
    (∃ (x : Temps) (d : Fin 4) (k : Fin 8) (s : State), s.pwr.pwrgd = true ∧ critical x = none ∧ s.rd R.THM.CTL.DIE_HOT_C ≤ reading x.die d.val ∧
    s.rd (levelFld k.val) = 0 ∧ s.rd (thrFld k.val) ≤ reading x.stack k.val ∧ reading x.stack k.val < s.rd (thrFld k.val) + 3) ∧
    (∃ (x : Temps) (k : Fin 8) (s : State), s.pwr.pwrgd = true ∧ critical x = none ∧ s.rd (levelFld k.val) < 2 ∧ s.rd (thrFld k.val) + 3 ≤ reading
    x.stack k.val ∧ reading x.stack k.val < s.rd (thrFld k.val) + 6) ∧
    (∃ (x : Temps) (k : Fin 8) (s : State), s.pwr.pwrgd = true ∧ critical x = none ∧ s.rd (thrFld k.val) + 6 ≤ reading x.stack k.val) ∧
    (∃ (x : Temps) (u : Option ℕ) (s : State), s.pwr.pwrgd = true ∧ critical x = some u) ∧
    (∃ (x : Temps) (k : Fin 8) (s : State), s.pwr.pwrgd = true ∧ critical x = none ∧ 0 < s.rd (levelFld k.val) ∧ s.rd (thrFld k.val) + 3 * (s.rd
    (levelFld k.val) - 1) ≤ reading x.stack k.val + s.rd R.THM.CTL.HYST_C ∧ reading x.stack k.val < s.rd (thrFld k.val) + 3 * s.rd (levelFld k.val)) ∧
    (∃ (x : Temps) (k : Fin 8) (s : State), s.pwr.pwrgd = true ∧ critical x = none ∧ 0 < s.rd (levelFld k.val) ∧ reading x.stack k.val + s.rd
    R.THM.CTL.HYST_C < s.rd (thrFld k.val) + 3 * (s.rd (levelFld k.val) - 1)) :=
  ⟨⟨(tm 60 50 40 30), 1, 3, on, by decide +kernel⟩,
   ⟨(tm 104 50 96 30), 1, 3, on, by decide +kernel⟩,
   ⟨(tm 104 50 99 30), 3, on, by decide +kernel⟩,
   ⟨(tm 104 50 102 30), 3, on, by decide +kernel⟩,
   ⟨(tm 110 50 80 30), (some 0), on, by decide +kernel⟩,
   ⟨(tm 104 50 94 30), 3, (on (svc.wr (levelFld 3) 1)), by decide +kernel⟩,
   ⟨(tm 104 50 80 30), 3, (on (svc.wr (levelFld 3) 2)), by decide +kernel⟩⟩
/-- For `Obligations.SupplyPinsAndPowerLoss`. -/
theorem witness_supplyPinsStartTheModule :
    (∃ (low : Bool) (path : Sys2Proof.Path) (s : State), s.pwr.i3c ≠ none ∧ s.pwr.aux = true ∧ s.Manages path ∧ s.pwr.started = true ∧ s.pwr.pwrgd =
    false ∧ low = true) ∧
    (∃ (j1 : Bool) (j2 : Bool) (s : State), s.pwr.aux = true ∧ s.pwr.i3c = none ∧ s.pwr.started = false ∧ (j1 = false ∨ j2 = false)) ∧
    (∃ (s : State), s.pwr.aux = false) ∧
    (∃ (low : Bool) (s : State), s.pwr.started = true ∧ s.pwr.pwrgd = false ∧ low = false) :=
  ⟨⟨true, .oob, { on with pwr := { on.pwr with pwrgd := false, i3c := some true } }, by unfold State.Manages; decide +kernel⟩,
   ⟨true, false, (off true), by decide +kernel⟩,
   ⟨(off false), by decide +kernel⟩,
   ⟨false, { on with pwr := { on.pwr with pwrgd := false, i3c := some true } }, by decide +kernel⟩⟩
end Supply

end Sys2Proof.Tests
end

section
/-! PROOFS. CORE_RUN and CORE_STOP against R62, and the array that an operation with ARRAY = 3 goes to (R37). -/
namespace Sys2Proof.Machine

/-! ## CORE_RUN and CORE_STOP -/

/-- A core as CORE_RUN starts it at an address (R62). -/
def CoreSt.startedAt (x : CoreSt) (pc : Nat) : CoreSt :=
  { x with running := true, faultHalt := false, stall := .none, pc := pc }

/-- A write of RUN = 1 takes effect: the core is halted and on line, its die's PLL is locked (R476), and no fault halt is still
recorded in AFAULT (R62). -/
def State.MayRun (s : State) (c : Nat) : Prop :=
  (s.core c).runningBit = false ∧ (s.core c).offline = false ∧ s.rd R.CLK.LOCK.PLL / 2 ^ (c / 200) % 2 = 1 ∧
    ((s.core c).faultHalt = false ∨ s.rd (R.CORE.AFAULT.VALID c) = 0)

theorem State.coreRun_of_mayRun {s : State} {c : Nat} (h : s.MayRun c) :
    s.coreRun c =
      (s.wr (R.CORE.CTL.RUN c) 1).setCore c ((s.core c).startedAt (s.rd (R.CORE.START_PC.PC c))) := by
  obtain ⟨hhalted, honline, hlocked, hread⟩ := h
  have hfault : ((s.core c).faultHalt && s.on (R.CORE.AFAULT.VALID c)) = false := by
    rcases hread with hnone | hvalid
    · simp [hnone]
    · simp [State.on, hvalid]
  simp [State.coreRun, CoreSt.startedAt, hhalted, honline, hlocked, hfault]

/-- A core halted by a fault stays halted while its AFAULT record is valid (R62). -/
theorem State.coreRun_of_validFault {s : State} {c : Nat} (hfault : (s.core c).faultHalt = true)
    (hvalid : s.rd (R.CORE.AFAULT.VALID c) = 1) : s.coreRun c = s := by
  simp [State.coreRun, State.on, hfault, hvalid]

theorem State.core_coreRun {s : State} {c : Nat} (h : s.MayRun c) (k : Nat) :
    (s.coreRun c).core k = if k = c then (s.core c).startedAt (s.rd (R.CORE.START_PC.PC c)) else s.core k := by
  simp [State.coreRun_of_mayRun h]

theorem State.rd_coreRun {s : State} {c : Nat} (h : s.MayRun c) (f : Fld) :
    (s.coreRun c).rd f = (s.wr (R.CORE.CTL.RUN c) 1).rd f := by
  simp [State.coreRun_of_mayRun h]

theorem State.core_coreStop (s : State) (c k : Nat) :
    (s.coreStop c).core k = if k = c then { s.core c with running := false } else s.core k := by
  simp [State.coreStop]

theorem State.rd_coreStop (s : State) (c : Nat) (f : Fld) :
    (s.coreStop c).rd f = (s.wr (R.CORE.CTL.RUN c) 0).rd f := by
  simp [State.coreStop]

/-- Settles O10, from what CORE_RUN and CORE_STOP leave in the core and in its CTL register. -/
theorem coreStartAndStop : Obligations.CoreStartAndStop := by
  intro c s
  refine ⟨fun hhalted honline hlocked hread => ?starts, fun hfault hvalid => ?ignored, ?stops⟩
  case starts =>
    have h : s.MayRun c := ⟨hhalted, honline, hlocked, hread⟩
    refine ⟨s.coreRun c, rfl, ?_, ?_, fun f hf => ?_, ?_, fun k hk => ?_, State.coreRun_off s c rfl⟩
    · exact (State.core_coreRun h c).trans (if_pos rfl)
    · exact (State.rd_coreRun h _).trans (State.rd_wr_this s _ 1 rfl)
    · exact (State.rd_coreRun h f).trans (State.rd_wr_ne s _ f 1 hf)
    · exact (State.rd_coreRun h _).trans (State.rd_wr_other s _ _ 1 rfl)
    · exact (State.core_coreRun h k).trans (if_neg hk)
  case ignored => exact congrArg Host.Outcome.next (State.coreRun_of_validFault hfault hvalid)
  case stops =>
    refine ⟨s.coreStop c, rfl, ?_, ?_, fun f hf => ?_, fun k hk => ?_, State.coreStop_off s c rfl⟩
    · exact (State.core_coreStop s c c).trans (if_pos rfl)
    · exact (State.rd_coreStop s c _).trans (State.rd_wr_this s _ 0 rfl)
    · exact (State.rd_coreStop s c f).trans (State.rd_wr_ne s _ f 0 hf)
    · exact (State.core_coreStop s c k).trans (if_neg hk)

/-! ## The sequencer's choice -/

/-- The enabled arrays of a core, in the order F, D, G. -/
def State.enabledArrs (s : State) (c : Nat) : List Nat := [0, 1, 2].filter (fun i => s.arrOn c i)

theorem State.mem_enabledArrs (s : State) (c i : Nat) : i ∈ s.enabledArrs c ↔ i < 3 ∧ s.arrOn c i = true := by
  have hlt : i = 0 ∨ i = 1 ∨ i = 2 ↔ i < 3 := by omega
  simp [State.enabledArrs, hlt]

theorem State.enabledArrs_sortedLT (s : State) (c : Nat) : (s.enabledArrs c).SortedLT :=
  (List.Pairwise.filter _ (by decide : [0, 1, 2].Pairwise (· < ·))).sortedLT

/-- The sequencer's fold is the library's first minimum of the loads. -/
theorem State.chooseArr_eq_argmin (s : State) (c : Nat) :
    s.chooseArr c = (s.enabledArrs c).argmin (fun i => ((s.core c).arr i).load) := by
  unfold State.chooseArr List.argmin State.enabledArrs
  congr 1
  funext best i
  cases best <;> rfl

/-- In a rising list the earlier element is the smaller. -/
theorem le_of_idxOf_le {l : List Nat} (hl : l.SortedLT) {i j : Nat} (hi : i ∈ l) (hj : j ∈ l)
    (h : l.idxOf i ≤ l.idxOf j) : i ≤ j := by
  have hmono := hl.strictMono_get.monotone
    (show (⟨l.idxOf i, List.idxOf_lt_length_of_mem hi⟩ : Fin l.length) ≤ ⟨l.idxOf j, List.idxOf_lt_length_of_mem hj⟩ from h)
  simpa using hmono

/-- Settles O12: the choice is the first minimum of the loads over the enabled arrays in rising order. -/
theorem sequencerChoosesTheEmptiestArray : Obligations.SequencerChoosesTheEmptiestArray := by
  intro c f s harr load
  have htarget : s.targetArr c f = (s.enabledArrs c).argmin load :=
    (if_pos harr).trans (s.chooseArr_eq_argmin c)
  rw [htarget]
  refine ⟨fun i hi => ?least, fun ⟨j, hj, hon⟩ => ?chosen⟩
  case least =>
    obtain ⟨hmem, hmin, hfirst⟩ := List.argmin_eq_some_iff.mp hi
    obtain ⟨hlt, hon⟩ := (s.mem_enabledArrs c i).mp hmem
    refine ⟨hlt, hon, fun j hj honj => ?_⟩
    have hmemj := (s.mem_enabledArrs c j).mpr ⟨hj, honj⟩
    exact ⟨hmin j hmemj, fun heq =>
      le_of_idxOf_le (s.enabledArrs_sortedLT c) hmem hmemj (hfirst j hmemj heq.ge)⟩
  case chosen =>
    have hmemj := (s.mem_enabledArrs c j).mpr ⟨hj, hon⟩
    exact Option.ne_none_iff_exists'.mp fun hnone =>
      List.ne_nil_of_mem hmemj (List.argmin_eq_none.mp hnone)

end Sys2Proof.Machine
end

section
/-! PROOFS. The jobs that a contained error resets, and what of the module it leaves alone (R454). -/
namespace Sys2Proof.Machine

/-! ## The reset of one job -/

/-- A job marked with the code and module that its reset originates from (R241). -/
def Job.mark (code module : Nat) (y : Job) : Job := { y with reset := true, origCode := code, origModule := module }

/-- A job as the first pass of a reset leaves it: the first originating code and module stay (R241). -/
def Job.abort (code module : Nat) (y : Job) : Job := if y.reset then y else y.mark code module

theorem Job.abort_of_reset {code module : Nat} {y : Job} (h : y.reset = true) : y.abort code module = y := if_pos h

theorem Job.abort_of_live {code module : Nat} {y : Job} (h : y.reset = false) : y.abort code module = y.mark code module :=
  if_neg (Bool.eq_false_iff.mp h)

theorem Job.reset_abort (code module : Nat) (y : Job) : (y.abort code module).reset = true := by
  unfold Job.abort
  split
  · assumption
  · rfl

/-- Once a job is being reset, a further error against it changes nothing more. -/
theorem Job.abort_comp_abort (code module : Nat) : Job.abort code module ∘ Job.abort code module = Job.abort code module :=
  funext fun y => Job.abort_of_reset (y.reset_abort code module)

theorem State.job_modJob (s : State) (id : Nat) (f : Job → Job) (hf : ∀ y, (f y).id = y.id) (i : Nat) :
    (s.modJob id f).job i = if i = id then (s.job i).map f else s.job i := by
  have hkey : ((fun y : Job => y.id == i) ∘ fun y => if y.id = id then f y else y) = fun y => y.id == i := by
    funext y
    rw [Function.comp_apply, apply_ite Job.id, hf, ite_self]
  have hfind : (s.modJob id f).job i = (s.job i).map (fun y => if y.id = id then f y else y) :=
    List.find?_map.trans (by rw [hkey, State.job])
  rw [hfind]
  cases hy : s.job i with
  | none => simp
  | some y =>
    have hyi : y.id = i := by simpa using List.find?_some hy
    rw [Option.map_some, Option.map_some, hyi, apply_ite some]

/-- The first pass of a reset marks the job it names and no other (R241). -/
theorem State.job_abortJob (s : State) (id code module i : Nat) :
    (s.abortJob id code module).job i = if i = id then (s.job i).map (Job.abort code module) else s.job i := by
  unfold State.abortJob
  split
  case h_1 hnone =>
    split
    case isTrue h => rw [h, hnone, Option.map_none]
    case isFalse => rfl
  case h_2 y hy =>
    split
    case isTrue hreset =>
      split
      case isTrue h => rw [h, hy, Option.map_some, Job.abort_of_reset hreset]
      case isFalse => rfl
    case isFalse hlive =>
      refine (s.job_modJob id (Job.mark code module) (fun _ => rfl) i).trans ?_
      split
      case isTrue h => rw [h, hy, Option.map_some, Option.map_some, Job.abort_of_live (Bool.eq_false_iff.mpr hlive)]
      case isFalse => rfl

/-! ## The reset of a scope -/

/-- The module's number is read from registers, which a job reset leaves alone. -/
@[simp] theorem State.moduleId_abortJob (s : State) (id code module : Nat) :
    (s.abortJob id code module).moduleId = s.moduleId := by
  simp [State.moduleId]

theorem State.job_abortJobs (code i : Nat) (l : List Job) (s : State) :
    (l.foldl (fun s j => s.abortJob j.id code s.moduleId) s).job i =
      if ∃ z ∈ l, z.id = i then (s.job i).map (Job.abort code s.moduleId) else s.job i := by
  induction l generalizing s with
  | nil => simp
  | cons x l ih =>
    rw [List.foldl_cons, ih, State.moduleId_abortJob, State.job_abortJob]
    simp only [List.exists_mem_cons_iff]
    by_cases hx : x.id = i
    · simp [hx, Option.map_map, Job.abort_comp_abort]
    · simp [hx, Ne.symm hx]

/-- Whether a contained error against a job and partition resets a job: the named one, those of the named partition, or all of
the module (R454). -/
def Job.inScope (part job : Nat) (y : Job) : Bool := if job ≠ 0xffff then y.id == job else part ≥ 8 || y.part == part

theorem Job.inScope_iff (part job : Nat) (y : Job) :
    y.inScope part job = true ↔ if job ≠ 0xffff then y.id = job else 8 ≤ part ∨ y.part = part := by
  unfold Job.inScope
  split <;> simp

theorem State.job_resetScope (s : State) (code part job i : Nat) :
    (s.resetScope code part job).job i =
      if ∃ z ∈ s.host.jobs, z.id = i ∧ z.inScope part job then (s.job i).map (Job.abort code s.moduleId) else s.job i := by
  refine (State.job_abortJobs code i (s.host.jobs.filter (Job.inScope part job)) s).trans
    (if_congr (exists_congr fun z => ?_) rfl rfl)
  rw [List.mem_filter, and_assoc, and_comm (a := z.inScope part job = true)]

/-! ## The event of a contained error -/

/-- The module's number is read from FABG.ID, which lies outside the event log. -/
@[simp] theorem State.moduleId_event (s : State) (code cls part job unit : Nat) (detail : Option Nat) :
    (s.event code cls part job unit detail).moduleId = s.moduleId := by
  have hid (f : Fld) (h : f.reg = 0x3200000) : (s.event code cls part job unit detail).rd f = s.rd f :=
    s.rd_event code cls part job unit detail f ⟨by omega, .inr (by omega)⟩
  unfold State.moduleId
  rw [hid _ rfl, hid _ rfl, hid _ rfl]

theorem State.host_jobs_event (s : State) (code cls part job unit : Nat) (detail : Option Nat) :
    (s.event code cls part job unit detail).host.jobs = s.host.jobs :=
  host_jobs_of_off (State.event_off (M := 0x100040806) s code cls part job unit detail rfl) rfl

/-- A record asserts ALERT# and no other signal (Table 20-6). -/
theorem State.pwr_fault_putEvent (s : State) (code cls part job unit detail rep : Nat) :
    (s.putEvent code cls part job unit detail rep).pwr.fault = s.pwr.fault := by
  simp only [State.putEvent, apply_ite State.pwr, apply_ite PwrSt.fault, State.signal_pwr, State.wrs_pwr, State.count_pwr, ite_self]

theorem State.pwr_fault_event (s : State) (code cls part job unit : Nat) (detail : Option Nat) :
    (s.event code cls part job unit detail).pwr.fault = s.pwr.fault := by
  have hused : (if detail = none then s.used 1 else s).pwr.fault = s.pwr.fault := by split <;> rfl
  unfold State.event
  dsimp only
  generalize (if detail = none then s.used 1 else s) = s1 at hused ⊢
  split
  · split
    · split
      · exact hused
      · exact (State.pwr_fault_putEvent ..).trans hused
    · exact (State.pwr_fault_putEvent ..).trans hused
  · exact (State.pwr_fault_putEvent ..).trans hused

/-! ## The contained error -/

theorem State.job_contained (s : State) (code part job unit : Nat) (detail : Option Nat) (i : Nat) :
    (s.contained code part job unit detail).job i =
      if ∃ z ∈ s.host.jobs, z.id = i ∧ z.inScope part job then (s.job i).map (Job.abort code s.moduleId) else s.job i := by
  rw [State.contained, State.job_resetScope]
  simp only [State.host_jobs_event, State.job_event, State.moduleId_event]

/-- Settles O60, from what the reset of a scope leaves of each job and from the frame of an event. -/
theorem containedErrorsResetTheirScope : Obligations.ContainedErrorsResetTheirScope := by
  intro code part job unit detail s t named
  have hjob (id : Nat) : t.job id = if ∃ z ∈ s.host.jobs, z.id = id ∧ named z
      then (s.job id).map (Job.abort code s.moduleId) else s.job id :=
    (s.job_contained code part job unit detail id).trans
      (if_congr (exists_congr fun z => and_congr_right' (and_congr_right' (z.inScope_iff part job))) rfl rfl)
  refine ⟨fun id y hy => ⟨fun hin hlive => ?reset, fun hkept => ?kept⟩, fun id hnone => ?absent, ?running, ?noFault⟩
  case reset => rw [hjob, if_pos hin, hy, Option.map_some, Job.abort_of_live hlive, Job.mark]
  case kept =>
    rw [hjob, hy]
    rcases hkept with hout | hreset
    · rw [if_neg hout]
    · rw [Option.map_some, Job.abort_of_reset hreset, ite_self]
  case absent => rw [hjob, hnone, Option.map_none, ite_self]
  case running =>
    exact (State.rd_resetScope ..).trans (s.rd_event code 3 part job unit detail _ ⟨by decide, .inl (by decide)⟩)
  case noFault =>
    exact (congrArg PwrSt.fault (State.resetScope_pwr ..)).trans (s.pwr_fault_event code 3 part job unit detail)

end Sys2Proof.Machine
end
